-- ==== Sys2Proof/Word.lean ====
section
/-!
DEFINITION. The word types of the model: bytes, 32-bit registers (R13) and 64-bit quantities (R7, R166).
-/
namespace Sys2Proof

/-- One byte. -/
abbrev Byte := BitVec 8

/-- One register word: every register is 32 bits wide (R13). -/
abbrev Word := BitVec 32

/-- A 64-bit quantity: a Spire time (R7), a fence value (R166), a wall frame number. -/
abbrev DWord := BitVec 64

end Sys2Proof
end

