-- ==== Sys2Proof/Syntax.lean ====
section
/-!
DEFINITION. The commands the block takes: one constructor of `Instr` per row of the opcode table, with the row's
operands. A descriptor row carries the bytes of its descriptor (R20); a mailbox row names the request slot that
holds its message (R452); a flit row carries the flit's 32 bytes; a timer or pin row carries what the outside
world supplies.
-/
namespace Sys2Proof

/-- A fetched descriptor (R20) but for its opcode, which the row gives: the Pavilion and ring it was fetched from,
FLAGS, SEQ, HANDLE and the payload bytes 8 to 63 (byte 8 lowest). -/
structure Desc where
  pav : Fin 64
  sq : Fin 8
  flags : BitVec 8
  seq : BitVec 16
  handle : BitVec 32
  payload : BitVec 448
deriving DecidableEq, Repr

/-- Who makes a register access: a host through a Pavilion's BAR0, the Dome processor (the secure world), or JTAG
(master 4, R601). -/
inductive Src where
  | host
  | dome
  | jtag
deriving DecidableEq, Repr

/-- A PCIe configuration request (R42): a read of a word, a write of Bus Master Enable or Memory Space Enable (02, "When events meet"), or a
write of another word. -/
inductive CfgOp where
  | read (off : Nat)
  | busMaster (en : Bool)
  | memSpace (en : Bool)
  | write (off : Nat) (v : Word)
deriving DecidableEq, Repr

/-- How an EDID read ends (OUT_EDID_STATUS.ERR; R229). -/
inductive EdidResult where
  | data (bytes : List Byte)
  | nack
  | timeout
  | noSink
deriving DecidableEq, Repr

/-- One access on an output's AUX channel: a write or a read of DPCD (R223), or an EDID block by I2C-over-AUX (R229). -/
inductive AuxAcc where
  | write (addr v : Nat)
  | read (addr len : Nat)
  | i2c (segment offset : Nat)
deriving DecidableEq, Repr

/-- One try of step 5 of a link training (R221, R223): what is written to TRAINING_PATTERN_SET and, one byte a lane, to TRAINING_LANEx_SET. -/
structure TrainTry where
  pattern : BitVec 8
  drive : BitVec 32
deriving DecidableEq, Repr

/-- A link training as it went with the sink (R221, R225): what the reads of step 2 returned (DPCD 0x00000 to 0x0000F, 0x02200 to 0x0220F and
0x02215), the tries of step 5, and how it ended: 0 trained, else the stage code that failed. Where it ended at stage 1, `made` of its accesses
after step 1 were made, the one without a reply among them. -/
structure TrainRun where
  caps : BitVec 128
  ext : BitVec 128
  rates : BitVec 8
  tries : List TrainTry
  stage : Fin 6
  made : Nat := 0
deriving DecidableEq, Repr

/-- Why an AUX access is made again (R224): no reply came within 3,200 µs, or the sink replied DEFER. -/
inductive AuxMiss where
  | timeout
  | defer
deriving DecidableEq, Repr

/-- A failing bit a march run found (R430): the memory (0 Orangery, 1 line-buffer pool, 2 Dome SRAM), the bank, the row
and the bit position within the word. -/
structure MarchFail where
  mem : Fin 3
  bank : Fin 32
  row : Fin 2048
  bit : Fin 2048
deriving DecidableEq, Repr

/-- The error check of one memory read: clean, a corrected single-bit error, an uncorrectable one. -/
inductive Ecc where
  | clean
  | corrected
  | uncorrectable
deriving DecidableEq, Repr

/-- A request of one master to device DRAM (R362, R382, R383): the regulator port, the DRAM address, the bytes, and, for a BAR2
access, the length of its TLP (R378). A request lies within one atom. -/
structure MemReq where
  port : Fin 83
  addr : Nat
  len : Nat
  tlp : Option Nat := none
deriving DecidableEq, Repr

/-- An on-chip memory as an access names it (11): the Orangery, the line-buffer pool of a composer, the Dome SRAM, the Keep. -/
inductive SramMem where
  | orangery
  | lineBuffer (c : Fin 8)
  | dome
  | keep
deriving DecidableEq, Repr

/-- One access to an on-chip memory (R417 to R422, R437): the master, the offset, what is written (nothing for a read), the bytes read
and the error check of the read. -/
structure SramReq where
  mem : SramMem
  master : Fin 16
  off : Nat
  write : Option (List Byte)
  len : Nat
  ecc : Ecc
deriving DecidableEq, Repr

/-- One JTAG access (R600, R601): an offset of the manager's BAR0, a device address, or, for Dome debug, an offset in the Dome SRAM or
the key fuses. -/
inductive JtagAccess where
  | readReg (off : Nat)
  | writeReg (off : Nat) (v : Word)
  | readMem (addr len : Nat)
  | writeMem (addr : Nat) (data : List Byte)
  | readDome (off len : Nat)
  | writeDome (off : Nat) (data : List Byte)
  | readFuses
deriving DecidableEq, Repr

/-- The back-EMF measured in one half-cycle (R519): the half-period in microseconds, none when nothing was seen,
and the amplitude in mV. -/
structure Bemf where
  halfUs : Option Nat
  mv : Nat
deriving DecidableEq, Repr

/-- One DRAM channel as a boot finds it (R373, R396): the density in Gb and the I/O width that MR8 of its dies reports, whether a second rank
is fitted, and the step that fails in each attempt at training (1, 2, 4 or 5; 0 where none does; an attempt not listed fails nowhere). -/
structure DieEnv where
  gb : Nat
  width : Nat
  ranks2 : Bool
  attempts : List (Fin 6)
deriving DecidableEq, Repr

/-- What the world outside supplies to a boot (R584 to R594): whether XIN becomes stable, the host reference clocks present, the
boot flash (an unlisted byte is 0), the eight DRAM channels as fitted, and the bits the start-up march finds failing. -/
structure BootEnv where
  xinStable : Bool
  refclk : BitVec 4
  flash : List (Nat × Byte)
  dies : Vector DieEnv 8
  march : List MarchFail
deriving DecidableEq, Repr

/-- What ends a ring fetch through PCI Express (R74). -/
inductive FetchErr where
  | timeout
  | unsupported
  | abort
deriving DecidableEq, Repr

/-- A ring fetch that PCI Express ended with an error: the submission ring and the error (R74). -/
structure FetchFail where
  sq : Fin 8
  err : FetchErr
deriving DecidableEq, Repr

/-- An AUX access that has to be made again (R224): the access, why, and what the reads of the training it belongs to have returned so far. -/
structure AuxMissed where
  acc : AuxAcc
  why : AuxMiss
  run : TrainRun
deriving DecidableEq, Repr

/-- A host port's link as it has trained (R41): the port, the speed, code `speed` + 1, and 2 ^ `width` lanes. -/
structure PortLink where
  port : Fin 4
  speed : Fin 5
  width : Fin 4
deriving DecidableEq, Repr

/-- The commands: one constructor per row of the opcode table. -/
inductive Instr where
  /-- NOP (R111): NOP descriptor completes at once and returns its COOKIE in RESULT. -/
  | nop (d : Desc)
  /-- RESERVED_OPCODE (R93): A descriptor with a reserved or unlisted opcode completes with ST_BAD_OPCODE. `op` is the reserved or unlisted opcode. -/
  | reservedOpcode (op : BitVec 8) (d : Desc)
  /-- LAYER_SET (R119): LAYER_SET stages a layer's placement, format, scaling, limits and stale action for the next commit of its handle. -/
  | layerSet (d : Desc)
  /-- BUF_ATTACH (R94): BUF_ATTACH stages a buffer, its fence wait and source timestamp (or an import reservation) for a handle. -/
  | bufAttach (d : Desc)
  /-- REAFFIRM (R95): REAFFIRM raises the source timestamp of the latched or pending buffer after checking offset and time. -/
  | reaffirm (d : Desc)
  /-- COMMIT (R171): COMMIT captures the staged state of its handles, is admitted or refused, and joins or forms a commit group with a first frame. -/
  | commit (d : Desc)
  /-- FENCE_SIGNAL (R167): FENCE_SIGNAL raises a fence cell to a new value, refusing a decrease. -/
  | fenceSignal (d : Desc)
  /-- WRITEBACK (R249): WRITEBACK starts capture of a viewport's formatter output into rotating frame buffers and records. -/
  | writeback (d : Desc)
  /-- WRITEBACK_STOP (R253): WRITEBACK with STOP ends the viewport's running capture at the next frame end. -/
  | writebackStop (d : Desc)
  /-- COPY (R489): COPY begins a linear or 2-D copy, optionally fence-gated and sealed or verified through a CVU channel. -/
  | copy (d : Desc)
  /-- COPY_FENCE_TIMEOUT (R96): A COPY whose fence is unsatisfied at FENCE_TIMEOUT_MS completes with ST_FENCE_TIMEOUT and moves no data. The COPY is named by its Pavilion, ring and SEQ. -/
  | copyFenceTimeout (p : Fin 64) (sq : Fin 8) (seq : BitVec 16)
  /-- COPY_TRANSFER_END (R493): A COPY transfer finishes its bytes and completes with the bytes written, or a check or abort status. `hostData` is what host memory returned to a COPY with SRC_HOST; `readError`: the transfer met an uncorrectable error. -/
  | copyTransferEnd (p : Fin 64) (sq : Fin 8) (seq : BitVec 16) (hostData : List Byte) (readError : Bool)
  /-- CHECK (R488): CHECK begins a REPORT, APPEND or VERIFY_STRIP job on a CVU channel over a BAR2 range. -/
  | check (d : Desc)
  /-- CHECK_JOB_END (R493): A CVU job finishes and completes with its result, ST_CHECK_FAIL or ST_DEVICE_ABORT. -/
  | checkJobEnd (p : Fin 64) (sq : Fin 8) (seq : BitVec 16) (readError : Bool)
  /-- EVENT_ARM (R78): EVENT_ARM arms and disarms event codes for the Pavilion and sets a viewport line-match line. -/
  | eventArm (d : Desc)
  /-- HAPTIC_PLAY (R524): CONSOLE HAPTIC_PLAY triggers an effect on a haptic channel, accepted or ignored by priority. -/
  | hapticPlay (d : Desc)
  /-- HAPTIC_STOP (R523): CONSOLE HAPTIC_STOP brakes or cuts the drive of a haptic channel. -/
  | hapticStop (d : Desc)
  /-- VOICE_START (R534): CONSOLE VOICE_START starts or restarts a Belfry voice with waveform, frequency, duration, level and route. -/
  | voiceStart (d : Desc)
  /-- VOICE_STOP (R534): CONSOLE VOICE_STOP starts the release of a Belfry voice. -/
  | voiceStop (d : Desc)
  /-- PCM_QUEUE (R536): CONSOLE PCM_QUEUE adds a sample buffer to a Pavilion PCM stream queue. -/
  | pcmQueue (d : Desc)
  /-- REFLEX_BIND (R529): CONSOLE REFLEX_BIND ties a control's touch to a haptic effect on a channel. -/
  | reflexBind (d : Desc)
  /-- REFLEX_UNBIND (R529): CONSOLE REFLEX_UNBIND removes a control's reflex binding. -/
  | reflexUnbind (d : Desc)
  /-- TIMESTAMP (R111): TIMESTAMP returns Spire time at its execution in RESULT. -/
  | timestamp (d : Desc)
  /-- EXPORT (R338): EXPORT begins a Spire stream sending the handle's latched buffer to another device. -/
  | export_ (d : Desc)
  /-- EXPORT_STOP (R97): EXPORT with STOP ends a matching running export, completing both descriptors. -/
  | exportStop (d : Desc)
  /-- VIEWPORT_QUERY (R111): VIEWPORT_QUERY returns a viewport's size, mapping, liveness and rate group. -/
  | viewportQuery (d : Desc)
  /-- VIEWPORT_MAP (R51): Manager VIEWPORT_MAP maps, moves or resizes a viewport on an output, checked for admission and shares. -/
  | viewportMap (d : Desc)
  /-- VIEWPORT_UNMAP (R51): Manager VIEWPORT_MAP with UNMAP removes a viewport from its output at the next latch. -/
  | viewportUnmap (d : Desc)
  /-- GRANT_SLOT (R98): LEASE_SLOTS GRANT_SLOT leases a slot to a Pavilion and binds it to a handle. -/
  | grantSlot (d : Desc)
  /-- RELEASE_SLOT (R151): LEASE_SLOTS RELEASE_SLOT unbinds a slot, discarding its pending commits and freeing it at the next latch. -/
  | releaseSlot (d : Desc)
  /-- GRANT_GRANULES (R147): LEASE_SLOTS GRANT_GRANULES leases line-buffer granules to a slot. -/
  | grantGranules (d : Desc)
  /-- RELEASE_GRANULES (R150): LEASE_SLOTS RELEASE_GRANULES returns granules unless the slot's states still need them. -/
  | releaseGranules (d : Desc)
  /-- ADD_EXTENT (R89): LEASE_SLOTS ADD_EXTENT appends a zeroed memory extent to a Pavilion's BAR2 extent list. -/
  | addExtent (d : Desc)
  /-- RELEASE_EXTENT (R90): LEASE_SLOTS RELEASE_EXTENT releases an extent and queues it for zeroing. -/
  | releaseExtent (d : Desc)
  /-- EXTENT_ZERO_BLOCK (R90): The device zeroes a released 4 KiB block through port 82 and makes it grantable again. -/
  | extentZeroBlock
  /-- BUDGET_SET (R353): Manager BUDGET_SET applies quota, share and DRAM grant entries all or none from its begin cycle. -/
  | budgetSet (d : Desc)
  /-- OUTPUT_MODE (R254): Manager OUTPUT_MODE enables an output or changes its mode, link, group or parameters. -/
  | outputMode (d : Desc)
  /-- OUTPUT_MODE_COMPLETE (R254): After PLL lock the output scans line 0 at the next grid instant and the OUTPUT_MODE completes. -/
  | outputModeComplete (o : Fin 8)
  /-- OUTPUT_DISABLE (R564): OUTPUT_MODE with ENABLE 0 requests OUTPUT-IDLE, refused if Dome-held, then waits for the island to idle. -/
  | outputDisable (d : Desc)
  /-- GATE_IDLE (R564): At the first idle cycle of a gate wait the island is gated, ending captures and discarding groups for an output. `isl` is the island. -/
  | gateIdle (isl : Fin 45)
  /-- GATE_TIMEOUT (R567): A gate wait of 4,096 cycles ends without idle; the island stays on and EV_GATE_TIMEOUT is raised. -/
  | gateTimeout (isl : Fin 45)
  /-- WALL_PARAMS (R329): WALL_COMMIT_CFG PARAMS sets a rate group's wall-commit lead, checked against lead_min. -/
  | wallParams (d : Desc)
  /-- GROUP_DEFINE (R189): WALL_COMMIT_CFG GROUP_DEFINE defines a cross-Pavilion commit group. -/
  | groupDefine (d : Desc)
  /-- GROUP_DELETE (R191): WALL_COMMIT_CFG GROUP_DELETE deletes a group, expiring its pending members. -/
  | groupDelete (d : Desc)
  /-- DESCRIPTOR_FETCH (R66): The device issues a fetch of up to WEIGHT+1 entries from a RUNNING ring when outstanding and CQ room allow. `n` is how many entries the device asks for, limited by R66. -/
  | descriptorFetch (p : Fin 64) (q : Fin 8) (n : Nat)
  /-- FETCH_DATA_ARRIVAL (R65): Fetch completion data arrives; HEAD advances and the descriptors join the Pavilion's begin order. `tag` names the read request the entries answer. -/
  | fetchDataArrival (p : Fin 64) (q : Fin 8) (tag : Nat) (entries : List (BitVec 512))
  /-- FETCH_TIMEOUT (R71): The ring fetch timer reaches TIMEOUT_US; the ring stops with FETCH_TIMEOUT. -/
  | fetchTimeout (p : Fin 64) (q : Fin 8)
  /-- FETCH_ERROR (R74): A PCIe completion timeout, UR or CA ends a fetch; the ring stops with FETCH_ERROR. `q` says of which ring, and which of them. -/
  | fetchError (p : Fin 64) (q : FetchFail)
  /-- SQ_DOORBELL (R67): A write of a submission ring's tail to its doorbell is range-checked and stored. -/
  | sqDoorbell (p : Fin 64) (q : Fin 8) (tail : BitVec 16)
  /-- CQ_DOORBELL (R68): A write of the completion ring's head frees entries if it lies within range. -/
  | cqDoorbell (p : Fin 64) (head : BitVec 16)
  /-- EQ_DOORBELL (R68): A write of the event ring's head frees entries if it lies within range. -/
  | eqDoorbell (p : Fin 64) (head : BitVec 16)
  /-- SQ_ENABLE (R671): Writing ENABLE 1 to a submission ring starts it under R61 or keeps the enable while draining. `v` is the word written to PAV_SQ_CTL, ENABLE 1. -/
  | sqEnable (p : Fin 64) (q : Fin 8) (v : Word)
  /-- SQ_DISABLE (R671): Writing ENABLE 0 to a submission ring stops fetching and puts it in DRAINING. `v` is the word written to PAV_SQ_CTL, ENABLE 0. -/
  | sqDisable (p : Fin 64) (q : Fin 8) (v : Word)
  /-- SQ_DRAIN_DONE (R671): A draining ring with nothing outstanding becomes DISABLED and applies any kept enable. -/
  | sqDrainDone (p : Fin 64) (q : Fin 8)
  /-- CQ_ENABLE_WRITE (R63): Writing the completion ring's ENABLE starts or stops posting, writing held records on enable. -/
  | cqEnableWrite (p : Fin 64) (v : Word)
  /-- EQ_ENABLE_WRITE (R63): Writing the event ring's ENABLE starts or stops event posting. -/
  | eqEnableWrite (p : Fin 64) (v : Word)
  /-- MODERATION_TIMEOUT (R83): The moderation timer reaches TIME_US with records unsignalled and an interrupt is sent. `eq`: the event ring's timer; otherwise the completion ring's. -/
  | moderationTimeout (p : Fin 64) (eq : Bool)
  /-- MSIX_UNMASK (R86): Unmasking an MSI-X vector with its PBA bit set sends the pending message. -/
  | msixUnmask (p : Fin 64) (vec : Fin 32)
  /-- CONFIG_REQUEST (R42): A PCIe configuration request is answered with CRS until the port is enabled, or normally after. -/
  | configRequest (p : Fin 64) (c : CfgOp)
  /-- FLR (R88): Initiate FLR resets a Pavilion: stops work, discards descriptors, orphans leases and restores its page. -/
  | flr (p : Fin 64)
  /-- D3HOT_TO_D0 (R44): A function's transition from D3hot to D0 resets it as an FLR does. -/
  | d3hotToD0 (p : Fin 64)
  /-- VF_ENABLE_CLEAR (R87): Clearing VF Enable resets the PF's VFs and makes them absent. -/
  | vfEnableClear (port : Fin 4)
  /-- VF_ENABLE_SET (R87): Setting VF Enable with NumVFs brings covered VFs back ready. -/
  | vfEnableSet (port : Fin 4) (numVfs : Fin 16)
  /-- HOT_RESET (R87): A hot reset of a port resets all 16 of its Pavilions and clears VF Enable. -/
  | hotReset (port : Fin 4)
  /-- PCIE_LINK_DOWN (R87): Loss of a host port's link resets its 16 Pavilions. -/
  | pcieLinkDown (port : Fin 4)
  /-- HP_PERST (R609): HPn_PERST_N held low takes port n's link down and resets its Pavilions only. -/
  | hpPerst (port : Fin 4)
  /-- BAR2_WRITE (R56): A BAR2 write lands through the extent list; bytes beyond the last extent are discarded and counted. -/
  | bar2Write (p : Fin 64) (off : Nat) (data : List Byte)
  /-- BAR2_READ (R56): A BAR2 read returns data, or Unsupported Request if it reaches beyond the last extent. -/
  | bar2Read (p : Fin 64) (off : Nat) (len : Nat)
  /-- REGISTER_WRITE (R17): A write to a register without its own row acts per its access type, lock and world. Offset `off` of BAR0 of Pavilion `p`, `size` bytes, written by `src`. -/
  | registerWrite (src : Src) (p : Fin 64) (off : Nat) (size : Nat) (v : Word)
  /-- READ_CLEAR (R17): A full-width read of an RC register returns its value and clears it. -/
  | readClear (src : Src) (p : Fin 64) (off : Nat) (size : Nat)
  /-- MULTIWORD_LOW_READ (R14): Reading the low word of a multi-word register captures its higher words. -/
  | multiwordLowRead (src : Src) (p : Fin 64) (off : Nat)
  /-- FENCE_LO_WRITE (R168): A write to PAV_FENCE_LO_c applies the staged high word and the low word to fence cell c. -/
  | fenceLoWrite (p : Fin 64) (c : Fin 256) (v : Word)
  /-- FENCE_HI_WRITE (R168): A write to PAV_FENCE_HI_c stages a high word for fence cell c. -/
  | fenceHiWrite (p : Fin 64) (c : Fin 256) (v : Word)
  /-- MBX_SEND (R452): Writing PAV_MBX_SEND submits a mailbox request slot to the Dome. -/
  | mbxSend (p : Fin 64) (v : Word)
  /-- MBX_ACK (R453): Writing PAV_MBX_ACK frees a mailbox reply slot. -/
  | mbxAck (p : Fin 64) (v : Word)
  /-- MAILBOX_TIMEOUT (R454): No Dome reply within TIMEOUT_MS; the mailbox hardware writes a TIMEOUT reply. -/
  | mailboxTimeout (p : Fin 64) (slot : Fin 2)
  /-- TIME_SET_HI (R321): A write to SPIRE_TIME_SET_HI stages the high word of a new Spire time. -/
  | timeSetHi (v : Word)
  /-- TIME_SET_LO (R321): A write to SPIRE_TIME_SET_LO steps Spire time on the master or a stand-alone device. -/
  | timeSetLo (v : Word)
  /-- WARM_RESET_KEY (R578): Writing 0xA55A to PWR_WARM_RESET starts a warm reset. -/
  | warmResetKey (v : Word)
  /-- STANDBY_REQUEST (R597): Writing STANDBY 1 requests STANDBY, refused if an output is on or a DMC is Dome-held, else DMCs self-refresh. -/
  | standbyRequest
  /-- RUN_REQUEST (R598): Writing STANDBY 0 takes the DMCs out of self-refresh back to RUN. -/
  | runRequest
  /-- RESUME (R238): Writing OUT_RECOVER.RESUME requests return from a cause-1 safe frame when RECOVER_FRAMES is 0. -/
  | resume (o : Fin 8)
  /-- EDID_START (R229): Writing START in OUT_EDID_CTL begins an EDID block read over I2C-over-AUX. -/
  | edidStart (o : Fin 8) (block : BitVec 8)
  /-- EDID_READ_DONE (R229): An EDID read finishes, filling OUT_EDID_DATA and setting DONE or an error. -/
  | edidReadDone (o : Fin 8) (result : EdidResult)
  /-- LINK_ENABLE_WRITE (R314): Writing SPIRE_LINK_CTL.ENABLE starts training a declared link or turns it off. -/
  | linkEnableWrite (l : Fin 12) (en : Bool)
  /-- LINK_RETRY (R308): Writing RETRY takes a DISABLED Spire link back to TRAIN. -/
  | linkRetry (l : Fin 12)
  /-- SL_GATE_REQUEST (R564): Writing 1 to CLK_GATE_REQ bit l requests an explicit gate of Spire link island SLl. -/
  | slGateRequest (l : Fin 12)
  /-- SL_GATE_RELEASE (R569): Writing 0 to a CLK_GATE_REQ bit ends explicit gating of that link island. -/
  | slGateRelease (l : Fin 12)
  /-- MARCH_START (R426): The Dome writes ORG_MARCH_CTL.START to begin a preserving or destructive march test. -/
  | marchStart (v : Word)
  /-- MARCH_RUN_DONE (R430): A march run finishes, recording faults, repairs and UNREPAIRED. -/
  | marchRunDone (fails : List MarchFail)
  /-- RECAPTURE (R510): Writing RECAPTURE captures the control's baseline at the next scan. -/
  | recapture (c : Fin 32)
  /-- WDT_KICK (R475): The Dome writes DOME_WDT_KICK to restart the watchdog. -/
  | wdtKick (v : Word)
  /-- WM_MODE_EXIT (R466): The Dome writes WM_MODE 0 to switch from watermarks to region checks. -/
  | wmModeExit
  /-- LOG_TAIL_WRITE (R641): The manager writes EVT_LOG_TAIL to consume log entries, checked against HEAD. -/
  | logTailWrite (v : Word)
  /-- KEEP_APERTURE_WRITE (R445): A manager write through the Keep aperture is posted to the Keep customer area. -/
  | keepApertureWrite (off : Nat) (v : Word)
  /-- SB_POINTER_WRITE (R665): A sideband I2C transaction writes the register pointer byte. -/
  | sbPointerWrite (a : BitVec 7) (v : Byte)
  /-- SB_READ (R665): A sideband byte read returns the byte at the pointer and advances it. -/
  | sbRead (a : BitVec 7)
  /-- JTAG_BYPASS (R600): JTAG BYPASS instruction, and any instruction not offered in the life cycle. -/
  | jtagBypass
  /-- JTAG_IDCODE (R602): JTAG IDCODE returns 0xB825_6D6B. -/
  | jtagIdcode
  /-- JTAG_SAMPLE_PRELOAD (R600): JTAG SAMPLE/PRELOAD captures or loads the boundary register. -/
  | jtagSamplePreload (load : List Bool)
  /-- JTAG_EXTEST (R603): JTAG EXTEST drives every pin from the boundary register where the life cycle offers it. -/
  | jtagExtest
  /-- JTAG_MEM_ACCESS (R601): JTAG register and memory access acts as master 4 under region checks. -/
  | jtagMemAccess (a : JtagAccess)
  /-- JTAG_DOME_DEBUG (R600): JTAG Dome debug, offered only in BLANK. -/
  | jtagDomeDebug (a : JtagAccess)
  /-- INFO (R453): Mailbox INFO returns life cycle, Dome state, versions and memory status. -/
  | info (p : Fin 64) (slot : Fin 2)
  /-- MARCH_REQUEST (R467): Mailbox MARCH_REQUEST runs a preserving test or, in BUILD, a destructive one via warm reset. -/
  | marchRequest (p : Fin 64) (slot : Fin 2)
  /-- INSTALL_FIRMWARE (R448): Mailbox INSTALL KIND 0 checks signed firmware, burns security version fuses and writes the Keep copy. -/
  | installFirmware (p : Fin 64) (slot : Fin 2)
  /-- INSTALL_POLICY (R477): Mailbox INSTALL KIND 1 checks a policy, records PENDING_GEN and a carried record. -/
  | installPolicy (p : Fin 64) (slot : Fin 2)
  /-- INSTALL_TOPOLOGY (R461): Mailbox INSTALL KIND 2 checks a topology image and writes it to the Keep for the next warm reset. -/
  | installTopology (p : Fin 64) (slot : Fin 2)
  /-- INSTALL_SAFE_FRAME (R439): Mailbox INSTALL KIND 3 writes a signed safe frame slot and re-verifies it. -/
  | installSafeFrame (p : Fin 64) (slot : Fin 2)
  /-- CHALLENGE (R481): Mailbox CHALLENGE returns a fresh nonce for the next LIFECYCLE. -/
  | challenge (p : Fin 64) (slot : Fin 2)
  /-- LIFECYCLE (R482): Mailbox LIFECYCLE burns fuses for an allowed transition, then wipes and warm-resets. `stuck` are bits of the
  life-cycle word that do not burn. -/
  | lifecycle (p : Fin 64) (slot : Fin 2) (stuck : Word)
  /-- BELV_UPDATE (R282): Safety BELV_UPDATE is checked, copied into the secure buffer and its proof value computed. -/
  | belvUpdate (p : Fin 64) (slot : Fin 2)
  /-- BELV_UPDATE_READY (R283): An accepted update becomes ready and awaits the latch after the next cut-off. -/
  | belvUpdateReady (o : Fin 8)
  /-- BELV_REAFFIRM (R284): Safety BELV_REAFFIRM raises the latched Belvedere buffer's timestamp. -/
  | belvReaffirm (p : Fin 64) (slot : Fin 2)
  /-- BELV_RESUME (R294): Safety BELV_RESUME ends cause 2, clears proof-set FORCE_LOW and the mismatch run. -/
  | belvResume (p : Fin 64) (slot : Fin 2)
  /-- SAFE_SET (R457): OUTPUT_CMD SAFE_SET puts target outputs on their safe frame with cause 4. -/
  | safeSet (p : Fin 64) (slot : Fin 2)
  /-- SAFE_RELEASE (R457): OUTPUT_CMD SAFE_RELEASE ends cause 4 on target outputs. -/
  | safeRelease (p : Fin 64) (slot : Fin 2)
  /-- FORCE_LOW_SET (R457): OUTPUT_CMD FORCE_LOW_SET holds PVALID low on target outputs. -/
  | forceLowSet (p : Fin 64) (slot : Fin 2)
  /-- FORCE_LOW_CLEAR (R457): OUTPUT_CMD FORCE_LOW_CLEAR releases FORCE_LOW on target outputs. -/
  | forceLowClear (p : Fin 64) (slot : Fin 2)
  /-- SAFE_SEND (R458): Mailbox SAFE_SEND has the Dome originate an ALARM with the given word. -/
  | safeSend (p : Fin 64) (slot : Fin 2)
  /-- BLOCK_TAKE (R471): Mailbox BLOCK_TAKE begins hand-over of a movable block to the secure world. -/
  | blockTake (p : Fin 64) (slot : Fin 2)
  /-- BLOCK_RELEASE (R471): Mailbox BLOCK_RELEASE begins hand-over of a block back to the normal world. -/
  | blockRelease (p : Fin 64) (slot : Fin 2)
  /-- HANDOVER_QUIESCE_DONE (R473): The losing world's work on a block ends; SCRUB resets it and the world flips with EV_HANDOVER. `b` is the block code. -/
  | handoverQuiesceDone (b : BitVec 8)
  /-- HANDOVER_QUIESCE_TIMEOUT (R472): At 50 ms of QUIESCE running work is abandoned and the hand-over proceeds to SCRUB. -/
  | handoverQuiesceTimeout (b : BitVec 8)
  /-- HELD_CONSOLE (R460): Mailbox HELD_CONSOLE runs a CONSOLE operation on a secure-held block. -/
  | heldConsole (p : Fin 64) (slot : Fin 2)
  /-- MBX_BAD_TYPE (R461): A mailbox request with an unlisted TYPE is answered BAD_TYPE. -/
  | mbxBadType (p : Fin 64) (slot : Fin 2)
  /-- DOME_WATCHDOG_EXPIRY (R476): The Dome watchdog expires; a failure is counted and the Dome restarts. -/
  | domeWatchdogExpiry
  /-- TAMPER (R483): TAMPER_N low for 10 µs latches tamper, raises EV_TAMPER, wipes and applies TAMPER_RESPONSE. -/
  | tamper
  /-- PROOF_COMPARE (R291): The Dome compares window 0's result with the expected value and counts mismatches. -/
  | proofCompare (o : Fin 8)
  /-- FRAME_START (R214): Line 0 of a frame starts on the grid; the output measures and steers its grid error. `err` is the measured error e of R214 in ns. -/
  | frameStart (o : Fin 8) (f : Nat) (err : Int)
  /-- LINE_MATCH (R246): The start of a matched output line raises EV_LINE_MATCH. -/
  | lineMatch (o : Fin 8) (line : Nat)
  /-- FRESHNESS_CHECK (R263): At a layer's check instant the Lantern judges its age against its limits and applies stale actions. -/
  | freshnessCheck (o : Fin 8) (f : Nat) (slot : Fin 256)
  /-- COMMIT_CUTOFF (R174): At the cut-off the device decides readiness and wall decisions for each group, holding or discarding. -/
  | commitCutoff (o : Fin 8) (f : Nat)
  /-- LATCH (R174): At the first vertical blanking line ready groups, mapping changes and Belvedere updates latch. -/
  | latch (o : Fin 8) (f : Nat)
  /-- FRAME_END (R244): End of the last active line posts EV_FRAME_DONE, commit completions and EV_VBLANK. -/
  | frameEnd (o : Fin 8) (f : Nat)
  /-- REPORT_POINT (R195): At a report point the device forms READY or NOT_READY for its rate group's wall groups. -/
  | reportPoint (g : Fin 4) (f : Nat)
  /-- UNDERRUN (R234): A pixel due at the formatter is undelivered; the rest of the frame is black and aborted. -/
  | underrun (o : Fin 8) (line : Nat)
  /-- CAPTURE_REQUEST_DROP (R367): A capture request waiting beyond its buffering is dropped and the record marked incomplete. -/
  | captureRequestDrop (o : Fin 8) (p : Fin 64) (v : Fin 8) (line : Nat)
  /-- SAFE_FRAME_LINE_READ (R440): A safe-frame source read is CRC-checked; a mismatch clears SF_VERIFIED and gives cause 5. -/
  | safeFrameLineRead (o : Fin 8) (line : Nat)
  /-- HPD_IRQ (R227): An HPD low pulse of 250 µs to 2 ms is an IRQ; link status is read and retraining done if lock is lost. `status` is DPCD 0x00200 to 0x00207 as read, none where no reply came. -/
  | hpdIrq (o : Fin 8) (status : Option (BitVec 64))
  /-- HPD_UNPLUG (R228): HPD low for 2 ms is an unplug; training is abandoned and the main link turned off. -/
  | hpdUnplug (o : Fin 8)
  /-- HPD_PLUG (R221): HPD high for 10 ms after an unplug is a plug and starts link training. -/
  | hpdPlug (o : Fin 8)
  /-- AUX_TIMEOUT (R224): No AUX reply within 3,200 µs triggers a retry, up to 7. `x` is the access that had no reply, or was deferred. -/
  | auxTimeout (o : Fin 8) (x : AuxMissed)
  /-- LINK_TRAINING_COMPLETE (R225): DP link training ends trained or failed with EV_DP_LINK_FAIL and a stage code. -/
  | linkTrainingComplete (o : Fin 8) (r : TrainRun)
  /-- TRAIN_RETRY_TIMER (R225): TRAIN_RETRY_MS expires while HPD is high and training is retried. -/
  | trainRetryTimer (o : Fin 8)
  /-- SYNC (R318): A SYNC flit from the active parent corrects or steps the Spire time counter. `arr` is the arrival time in the 24-bit-fraction unit of Spire time. -/
  | sync (l : Fin 12) (flit : BitVec 256) (arr : Nat)
  /-- DELAY_REQ (R317): A DELAY_REQ flit is answered by a DELAY_RESP with T2 and T3. -/
  | delayReq (l : Fin 12) (flit : BitVec 256)
  /-- DELAY_RESP (R317): A DELAY_RESP flit yields a link delay sample for the median. -/
  | delayResp (l : Fin 12) (flit : BitVec 256)
  /-- REPORT (R331): A REPORT flit from a child feeds the vote, forwarded up or decided by the master. -/
  | report (l : Fin 12) (flit : BitVec 256)
  /-- VOTE_UP_DEADLINE (R332): At the up-deadline with a report missing the master decides HOLD. -/
  | voteUpDeadline (g : Fin 4) (f : Nat)
  /-- DECIDE (R333): The first DECIDE for (g, F) is kept for the cut-off and flooded onward. -/
  | decide (l : Fin 12) (flit : BitVec 256)
  /-- ADOPT (R327): An ADOPT flit makes the sender a child from the next report point. -/
  | adopt (l : Fin 12) (flit : BitVec 256)
  /-- MASTER (R327): A MASTER heartbeat keeps the device in the wall and is flooded; a higher TERM is adopted. -/
  | master (l : Fin 12) (flit : BitVec 256)
  /-- ALARM (R335): An ALARM flit is accepted by join time and sequence, forwarded, delivered and applied to SAFE_IN. -/
  | alarm (l : Fin 12) (flit : BitVec 256)
  /-- IDLE (R309): An IDLE flit keeps the link alive and carries ACK. -/
  | idle (l : Fin 12) (flit : BitVec 256)
  /-- IDENT (R308): IDENT parts are checked against the declared pairing, wall and generation. -/
  | ident (l : Fin 12) (flit : BitVec 256)
  /-- PRESENCE (R337): A PRESENCE flit is routed to the master, which marks the sender present. -/
  | presence (l : Fin 12) (flit : BitVec 256)
  /-- STREAM_ALIVE (R338): A STREAM ALIVE flit keeps an import stream from being declared lost. -/
  | streamAlive (l : Fin 12) (flit : BitVec 256)
  /-- STREAM_NAK (R338): A STREAM NAK makes the exporter send a new full transfer. -/
  | streamNak (l : Fin 12) (flit : BitVec 256)
  /-- STREAM_TS_UPDATE (R341): A STREAM TS_UPDATE raises the latched import buffer's timestamp. -/
  | streamTsUpdate (l : Fin 12) (flit : BitVec 256)
  /-- CREDIT (R302): A CREDIT flit returns CTRL and PIX credits. -/
  | credit (l : Fin 12) (flit : BitVec 256)
  /-- XFER_BEGIN (R339): An XFER_BEGIN flit opens an import transfer into the unlatched half. -/
  | xferBegin (l : Fin 12) (flit : BitVec 256)
  /-- DATA_HEAD (R302): A DATA_HEAD flit starts a packet of DATA flits of a transfer. -/
  | dataHead (l : Fin 12) (flit : BitVec 256)
  /-- DATA (R301): A DATA flit carries transfer pixel bytes. -/
  | data (l : Fin 12) (flit : BitVec 256)
  /-- XFER_END (R339): XFER_END checks the transfer's CRC and size, completing it or rejecting with NAK. -/
  | xferEnd (l : Fin 12) (flit : BitVec 256)
  /-- FLIT_CRC_ERROR (R305): A flit with bad CRC or out-of-order SEQ is discarded and NAK set. -/
  | flitCrcError (l : Fin 12) (flit : BitVec 256)
  /-- FLIT_UNLISTED (R300): A flit with an unlisted class and type is discarded and counted. -/
  | flitUnlisted (l : Fin 12) (flit : BitVec 256)
  /-- REPLAY_TIMEOUT (R306): ACK not advancing for 2 µs triggers replay; 8 such replays take the link down. -/
  | replayTimeout (l : Fin 12)
  /-- LINK_SILENCE_TIMEOUT (R309): 1 µs without a good flit takes an UP link down with cause 1. -/
  | linkSilenceTimeout (l : Fin 12)
  /-- LINK_LANE_LOCK (R297): Lanes lock and deskew in TRAIN and the link moves to IDENT. -/
  | linkLaneLock (l : Fin 12)
  /-- LINK_TRAIN_TIMEOUT (R310): No lane lock within 2 ms; training is retried 10 ms later. -/
  | linkTrainTimeout (l : Fin 12)
  /-- SYNC_TIMER (R316): Every 8,192 ns SYNC is sent on each UP link to active children. -/
  | syncTimer
  /-- DELAY_REQ_TIMER (R317): Every 1 ms DELAY_REQ is sent on the active parent link. -/
  | delayReqTimer
  /-- MASTER_BEAT_TIMER (R325): The master sends MASTER every 100 µs. -/
  | masterBeatTimer
  /-- MASTER_HEARTBEAT_TIMEOUT (R325): No MASTER of the current term within the limit takes the device out of the wall. -/
  | masterHeartbeatTimeout
  /-- HOLDOVER_TIMEOUT (R319): 64 µs without SYNC puts Spire time in holdover with EV_TIME_HOLDOVER. -/
  | holdoverTimeout
  /-- PRESENCE_TIMER (R337): At each 1 ms boundary a device in the wall sends PRESENCE. -/
  | presenceTimer
  /-- PRESENCE_TIMEOUT (R337): 3 ms without a device's PRESENCE makes the master mark it absent. -/
  | presenceTimeout (id : BitVec 14)
  /-- STREAM_ALIVE_TIMER (R338): Every 10 ms the exporter sends STREAM ALIVE. -/
  | streamAliveTimer
  /-- IMPORT_LOST_TIMEOUT (R342): 50 ms without stream flits declares the import lost with EV_IMPORT_LOST. -/
  | importLostTimeout (slot : Fin 256)
  /-- TIME_IN_EDGE (R322): A TIME_IN rising edge on the master steps or slews Spire time to a whole second. -/
  | timeInEdge (t : Nat)
  /-- TIME_IN_LOSS_TIMEOUT (R322): 1.5 s without an accepted TIME_IN edge clears LOCK and sets LOST. -/
  | timeInLossTimeout
  /-- BUDGET_PERIOD_START (R344): A 1 ms budget period starts; quotas reset and deferred work, held events and queued ALARMs proceed. -/
  | budgetPeriodStart (k : Nat)
  /-- DRAM_READ (R383): A DRAM read is forwarded from the write queue or scheduled, waking a self-refreshing DMC. -/
  | dramRead (r : MemReq) (ecc : Ecc)
  /-- DRAM_WRITE (R382): A DRAM write merges into or opens a write-queue entry. `same` is a read registered in the same DMC cycle (R385). -/
  | dramWrite (r : MemReq) (data : List Byte) (same : Option (MemReq × Ecc))
  /-- REFRESH_TICK (R387): The refresh interval timer ticks and raises the refresh debt by one unit. -/
  | refreshTick (c : Fin 8)
  /-- RT_BURST_END (R388): The real-time queue empty for BURST_GAP cycles ends an RT burst. -/
  | rtBurstEnd (c : Fin 8)
  /-- MR4_READ (R391): Every 4 ms MR4 is read and the temperature range set. -/
  | mr4Read (c : Fin 8) (rate : Fin 32)
  /-- DQ_RETRAIN (R398): Every 100 ms the DMC retrains DQ delays during a REFab. -/
  | dqRetrain (c : Fin 8) (drift : Bool)
  /-- ROW_IDLE_CLOSE (R379): IDLE_CLOSE_NS without a request closes an open row. -/
  | rowIdleClose (c : Fin 8) (bank : Nat)
  /-- SCRUB_READ (R408): The scrubber reads an ECC-region atom and handles any error. -/
  | scrubRead (c : Fin 8) (ecc : Ecc)
  /-- SRAM_ACCESS (R417): An Orangery or SRAM port access, resolved for same-word conflicts and checked for ECC. `l` are the accesses registered
  in one cycle, each within one word. -/
  | sramAccess (l : List SramReq)
  /-- XIN_STABLE (R544): XIN shows good amplitude for 2,048 cycles and becomes stable. -/
  | xinStable
  /-- XIN_LOST (R552): XIN lost; REF moves to RCO/2, PLLs coast, DRAM is abandoned and EV_CLK_FAIL raised. -/
  | xinLost
  /-- MONITOR_WINDOW (R545): A frequency monitor window ends; C_T is tracked and off-frequency judged. The window's count of XIN cycles, and the
  cycles of each host reference clock in it, which the monitor counts in the window after an off-frequency one (R546). -/
  | monitorWindow (count : Nat) (refs : Vector Nat 4)
  /-- REFCLK_LOST (R548): A host reference clock stops; its PCIe PLL coasts and the port link goes down. -/
  | refclkLost (port : Fin 4)
  /-- PLL_REFERENCE_LOST (R551): A PLL loses its reference and coasts with EV_PLL_COAST. -/
  | pllReferenceLost (n : Fin 48)
  /-- PLL_RELOCK (R551): The reference returns and the PLL relocks, clearing COAST. -/
  | pllRelock (n : Fin 48)
  /-- RCO_STOPPED (R555): The analog detector registers RCO stopped; AON moves to XIN or the device is held in reset. -/
  | rcoStopped
  /-- SWITCH_FORCE_TIMEOUT (R557): No old-clock edge in 16 RCO cycles forces a clock switch with EV_SWITCH_FORCED. -/
  | switchForceTimeout (isl : Fin 45)
  /-- AUTO_GATE (R563): GATE_HYST idle cycles stop an island's clock. -/
  | autoGate (isl : Fin 45)
  /-- POWER_ON_RESET (R577): PORST_N low for 100 RCO cycles starts a power-on reset. -/
  | powerOnReset
  /-- PORST_RELEASE (R576): PORST_N rises; the power-on reset ends and Spire time starts at 0. -/
  | porstRelease
  /-- WRST_PIN (R578): WRST_N low for 10 µs starts a warm reset. -/
  | wrstPin
  /-- RAIL_DROP (R575): A rail below power-good puts the device in power-on reset within 1 µs. -/
  | railDrop (r : Fin 5)
  /-- RAIL_POWER_GOOD (R575): All rails reach power-good, releasing the supply hold on reset. -/
  | railPowerGood
  /-- BOOT (R584): At the end of a reset the boot flow runs from ROM to joining the wall. -/
  | boot (e : BootEnv)
  /-- BOOT_XIN_TIMEOUT (R593): XIN not stable 50 ms after reset; XIN_FAIL and DRAM_FAIL are set and the boot continues. -/
  | bootXinTimeout
  /-- THERMAL_SAMPLE (R630): Every 100 µs the temperature sensors are sampled. `tj` is the highest sensor in 0.1 degC. -/
  | thermalSample (tj : Int)
  /-- CAPACITIVE_SCAN (R503): A scan starts at the ladder's rate and measures every element. -/
  | capacitiveScan
  /-- SCAN_COMPLETE (R506): A scan ends; touch, release, position, baselines and events are updated. `raw` holds the counts measured, element e of control c at entry 16 × c + e; the mutual count for a node (R502). -/
  | scanComplete (raw : List Nat)
  /-- LADDER_STEP (R516): Idle time reaching AFTER_MS lowers the scan rate to the next level. -/
  | ladderStep
  /-- HAPTIC_HALF_CYCLE (R519): A drive half-cycle ends; back-EMF timing sets the next and the effect advances. -/
  | hapticHalfCycle (h : Fin 16) (b : Bemf)
  /-- TRIG_EDGE (R528): A trigger pin edge starts its effect on the channels of its mask. -/
  | trigEdge (t : Fin 8) (falling : Bool)
  /-- SAMPLE_FRAME (R530): A 48 kHz sample frame is mixed and sent on AUD0 and AUD1. -/
  | sampleFrame
  /-- VOICE_DURATION_END (R533): A voice's duration ends and its release begins. -/
  | voiceDurationEnd (v : Fin 16)
  /-- UNLISTED_SUBOP (R668): A CONSOLE, LEASE_SLOTS or WALL_COMMIT_CFG descriptor whose SUBOP the layout does not list completes with ST_BAD_FIELD and FIELD_BYTE 8. -/
  | unlistedSubop (op : BitVec 8) (d : Desc)
  /-- PCIE_LINK_UP (R585): A host port's PCIe link finishes training after a reset, hot reset, link loss or the rise of HPn_PERST_N, and configuration requests reach the device again. -/
  | pcieLinkUp (port : PortLink)
  /-- LINK_TRAIN_RETRY_DELAY (R310): Ten ms after a Spire link failed to lock within 2 ms, the link starts TRAIN again. -/
  | linkTrainRetryDelay (l : Fin 12)
  /-- RETRAIN_REFAB_DUE (R398): When no REFab has been issued within 1 ms of DQ retraining falling due, the DMC issues one outside an RT burst and retrains during it. -/
  | retrainRefabDue (c : Fin 8)
deriving DecidableEq, Repr

end Sys2Proof
end

