-- ==== Sys2Proof/Config.lean ====
section
/-!
DEFINITION. What the silicon fixes, and the free values: values the spec leaves open, about which nothing can be
proved (log 6).
-/
namespace Sys2Proof.Config

/-- A value the spec leaves open. The step applies it to `State.freeCount` and advances that counter, so that each
use is a new value. It has no body: no proof can know it (log 6). -/
opaque freeValue : Nat → BitVec 64

/-- A 256-bit value the spec leaves open (the nonce of CHALLENGE, R481), drawn as `freeValue` is (log 6). -/
opaque freeNonce : Nat → BitVec 256

/-- Words of the ROM effects whose value the spec does not print (14, effect library), by effect and word. -/
opaque effectRom : Nat → Nat → BitVec 32

/-- The SHA-256 digest of Holteel's firmware public key in the Dome ROM; the spec does not print it (log 6). -/
opaque romDigest : BitVec 256

/-- The DMC_ECC_REGION words the Dome writes at a boot; the spec leaves them to the Dome (R400; log 6). -/
opaque eccRegion : Nat → BitVec 32

/-- The frequency monitor's count of XIN cycles in 1/256 count that the Spire time counter runs by from RCO before the monitor has formed C_T
(R545, R554): the spec states none (log 55). -/
opaque rcoTrack : BitVec 32

/-- Part number (PAV_DEV_ID, DEV_ID). -/
def partNumber : Nat := 0x8256

/-- Silicon revision B0. -/
def siliconRev : Nat := 0xB0

/-- Device family code (DEV_ID [31:24]). -/
def familyCode : Nat := 0x01

end Sys2Proof.Config
end

