-- ==== Sys2Proof/Machine/State.lean ====
section
/-!
DEFINITION. The state of the device as plain data: everything the spec gives it, grouped by unit, with the queue of
waiting commands; `State.reset`; the faults and refusals.
-/
namespace Sys2Proof.Machine
open Sys2Proof

/-- A stop of the machine. No command of the table raises one: every rule of the spec gives an effect. -/
inductive Fault where
  /-- Never raised: kept so that the type is inhabited. Safe. -/
  | unreachable
deriving DecidableEq, Repr

/-- A refusal of a command. -/
inductive Refusal where
  /-- The command has no meaning yet. Raised by `exec` only. Safe. -/
  | notModelled (mnemonic : String)
deriving DecidableEq, Repr

/-! ### Geometry and layers -/

/-- A rectangle (x0, y0, x1, y1), covering x0 ≤ x < x1 and y0 ≤ y < y1 (R11). -/
structure Rect where
  x0 : Nat := 0
  y0 : Nat := 0
  x1 : Nat := 0
  y1 : Nat := 0
deriving DecidableEq, Repr

/-- An extent of a Pavilion's BAR2 window: device address and length in bytes (R53). -/
structure Ext where
  base : Nat
  len : Nat
deriving DecidableEq, Repr

/-- The fields of a LAYER_SET (03). -/
structure Layer where
  view : Nat := 0
  z : Nat := 0
  fmt : Nat := 0
  enable : Bool := false
  hflip : Bool := false
  vflip : Bool := false
  premult : Bool := false
  palette : Bool := false
  matrix : Bool := false
  intScale : Bool := false
  alpha : Nat := 0
  hTaps : Nat := 2
  vTaps : Nat := 1
  action : Nat := 0
  src : Rect := {}
  dst : Rect := {}
  lim1 : Nat := 1
  lim2 : Nat := 0
  palOff : Nat := 0
  matOff : Nat := 0
  repOff : Nat := 0
deriving DecidableEq, Repr

/-- One attachment of a buffer (R207): a BUF_ATTACH's fields, the device address its offset translated to, and the
source timestamp as raised since (R257). An import buffer has two halves (R340): the half the composer reads, the
timestamp each half carries, whether each half holds a complete transfer. -/
structure Attach where
  id : Nat
  import_ : Bool := false
  addr : Nat
  off : Nat
  pitch : Nat
  width : Nat
  height : Nat
  time : DWord
  fenceWait : Bool := false
  fenceVal : DWord := 0
  cell : Nat := 0
  srcId : Nat := 0
  expId : Nat := 0
  /-- When the timestamp last changed, and what it was before (R264). -/
  was : Option (Nat × DWord) := none
deriving DecidableEq, Repr

/-- The state of one handle as a COMMIT captures it and as a latch applies it: the layer, its buffer, the copies of
palette and matrix (R128), the Pavilion whose viewport it lies on and the address of the replacement buffer. -/
structure Latched where
  pav : Fin 64
  handle : Nat
  layer : Layer
  buf : Option Attach
  pal : List Byte := []
  mat : List Word := []
  repAddr : Nat := 0
  /-- The number of the COMMIT's begin (R173). -/
  no : Nat := 0
deriving DecidableEq, Repr

/-- Who holds a layer slot (R48, R89, R151). -/
inductive Lease where
  | free
  | held (p : Fin 64) (h : Nat)
  | orphan
  | releasing
deriving DecidableEq, Repr

/-- A layer slot: lease, granules, staged state, latched state and the Lantern's judgement (R263 to R276). -/
structure Slot where
  lease : Lease := .free
  granules : Nat := 0
  staged : Option Layer := none
  att : Option Attach := none
  attTaken : Bool := false
  cur : Option Latched := none
  stale : Bool := false
  over2 : Bool := false
  lost : Bool := false
  age : DWord := 0
  checked : Bool := false
  /-- The stale action that the last check applied (R269). -/
  action : Nat := 0
deriving DecidableEq, Repr

/-! ### Commits -/

/-- One member COMMIT of a group (R171): its place in the order of begins, where it came from, where it shows, and what it captured, by slot. -/
structure Member where
  no : Nat
  pav : Fin 64
  sq : Fin 8
  seq : BitVec 16
  view : Fin 8
  out : Fin 8
  deferred : Bool
  caps : List (Fin 256 × Latched)
deriving DecidableEq, Repr

/-- The states of a commit group between its begin and its latch (05, "State of a commit"). -/
inductive GState where
  | pending
  | held
  | reported
  | latchWait
deriving DecidableEq, Repr

/-- An open commit group (R171 to R200). `owner` is the Pavilion of a local group, none for a cross-Pavilion one; `gid` is 0
for a group of one. `size` is the number of members that makes it complete. -/
structure Group where
  owner : Option (Fin 64)
  gid : Nat
  size : Nat
  expiry : Nat
  wall : Bool
  wallFrame : Nat
  rg : Fin 4
  first : Nat
  target : Nat
  members : List Member
  st : GState := .pending
  late : Bool := false
  heldWall : Bool := false
  fenceHold : Bool := false
  latchedOuts : List (Fin 8) := []
deriving DecidableEq, Repr

/-- A member that has latched and waits for the end of its frame (R201). -/
structure Done where
  m : Member
  frame : Nat
  late : Bool
  heldWall : Bool
deriving DecidableEq, Repr

/-- A cross-Pavilion group definition (R189). -/
structure GroupDef where
  gid : Nat
  members : List (Fin 64 × Fin 8)
deriving DecidableEq, Repr

/-! ### Pavilions -/

/-- States of a submission ring (02). -/
inductive SqSt where
  | disabled
  | running
  | stopped
  | draining
deriving DecidableEq, Repr

/-- A read request for ring entries (R65, R71): its tag, the entries still to come, and those that came while an older request of the ring
was still waiting. -/
structure FetchReq where
  tag : Nat
  left : Nat
  got : List (BitVec 512) := []
deriving DecidableEq, Repr

/-- A submission ring. `fetch` lists the read requests outstanding, oldest first; `live` counts descriptors fetched and not completed;
`keep` is a kept enable (R671). -/
structure Sq where
  base : DWord := 0
  size : Nat := 0
  weight : Nat := 0
  head : BitVec 16 := 0
  tail : BitVec 16 := 0
  st : SqSt := .disabled
  err : Nat := 0
  errFlag : Bool := false
  keep : Bool := false
  fetch : List FetchReq := []
  nextTag : Nat := 0
  live : Nat := 0
  /-- The number of the next BAR2 access of the port at the last doorbell (R57). -/
  bell : Nat := 0
deriving DecidableEq, Repr

/-- The completion ring; `unsig` and `timer` are its moderation state (R83); `held` are records not yet written, in order
(R63). -/
structure Cq where
  base : DWord := 0
  size : Nat := 0
  vector : Nat := 0
  enable : Bool := false
  cfgErr : Bool := false
  head : BitVec 16 := 0
  tail : BitVec 16 := 0
  dbRange : Bool := false
  shadow : DWord := 0
  mod : Word := 1
  unsig : Nat := 0
  timer : Bool := false
  held : List (BitVec 128) := []
deriving DecidableEq, Repr

/-- The event ring; `unsigGroups` lists the groups with unsignalled records (R84); `lost` is PAV_EQ_LOST; `owed` says that
losses have not been announced yet (R80). -/
structure Evq where
  base : DWord := 0
  size : Nat := 0
  enable : Bool := false
  cfgErr : Bool := false
  head : BitVec 16 := 0
  tail : BitVec 16 := 0
  dbRange : Bool := false
  shadow : DWord := 0
  mod : Word := 1
  unsig : Nat := 0
  unsigGroups : BitVec 8 := 0
  timer : Bool := false
  lost : Word := 0
  owed : Bool := false
  seq : BitVec 16 := 0
  vecMap0 : Word := 0x01010101
  vecMap1 : Word := 0x01010101
deriving DecidableEq, Repr

/-- An MSI-X vector: its table entry and its PBA bit. -/
structure Msix where
  addr : DWord := 0
  data : Word := 0
  masked : Bool := true
  pend : Bool := false
deriving DecidableEq, Repr

/-- An event as it is delivered (03, event records). -/
structure Ev where
  code : Nat
  inst : Nat := 0xFF
  view : Nat := 0xFF
  handle : Nat := 0xFFFF
  time : DWord := 0
  frame : Nat := 0
  detail : Nat := 0
deriving DecidableEq, Repr

/-- A viewport's mapping onto an output. -/
structure VMap where
  out : Fin 8
  zBase : Nat
  zDepth : Nat
  rect : Rect
deriving DecidableEq, Repr

/-- A viewport: the mapping in effect, a change waiting for its latches (`some none` is an unmap; R51), the composition
share (R355) and the line-match line (EVENT_ARM). -/
structure View where
  cur : Option VMap := none
  pend : Option (Option VMap) := none
  share : DWord := 0
  lmLine : Option Nat := none
deriving DecidableEq, Repr

/-- A descriptor fetched and not begun. -/
structure Waiting where
  op : BitVec 8
  d : Desc
  deferred : Bool := false
  /-- The BAR2 writes of its port with a smaller number are made before it begins (R57). -/
  after : Nat := 0
deriving DecidableEq, Repr

/-- A PCM buffer of a stream (R536): device address, BAR2 offset, bytes, output and slot. -/
structure PcmBuf where
  addr : Nat
  off : Nat
  bytes : Nat
  aud : Nat
  slot : Nat
deriving DecidableEq, Repr

/-- A PCM stream (R536 to R538). -/
structure Pcm where
  queue : List PcmBuf := []
  pos : Nat := 0
  done : BitVec 16 := 0
  underrun : Word := 0
deriving DecidableEq, Repr

/-- One request slot and its reply slot (R452). -/
structure MboxSlot where
  inp : BitVec 2048 := 0
  out : BitVec 2048 := 0
  busy : Bool := false
  full : Bool := false
  /-- The Dome has taken the request and owes its reply. -/
  taken : Bool := false
deriving DecidableEq, Repr

/-- The Advanced Error Reporting registers of a function (R41, R74): uncorrectable and correctable status, their masks, and the severity, with
the reset values of PCI Express (log 11). -/
structure Aer where
  ue : Word := 0
  ueMask : Word := 0
  ueSev : Word := 0x00462030
  ce : Word := 0
  ceMask : Word := 0x2000
deriving DecidableEq, Repr

/-- The PCI Express function of a Pavilion (R41, R44, R52): the addresses its BARs hold, the codes of Max Payload Size and Max Read Request
Size, and whether it is in D3hot; MSI-X Enable and Function Mask, the enables of error reports, the 10-bit tag requester's enable, the
writable bits of Link Control, and AER. -/
structure PcieFn where
  msixEn : Bool := false
  msixMask : Bool := false
  errEn : Nat := 0
  tag10 : Bool := false
  linkCtl : Nat := 0
  aer : Aer := {}
  bar0 : DWord := 0
  bar2 : DWord := 0
  mps : Nat := 0
  mrrs : Nat := 2
  d3 : Bool := false
deriving DecidableEq, Repr

/-- A Pavilion: its PCIe function, rings, viewports, fences, mailbox, quotas and streams. -/
structure Pav where
  present : Bool := false
  ready : Bool := false
  bme : Bool := false
  mse : Bool := false
  fn : PcieFn := {}
  exts : List Ext := []
  bar2Miss : Word := 0
  sqs : Vector Sq 8 := Vector.replicate 8 {}
  cq : Cq := {}
  eq : Evq := {}
  errVector : Word := 2
  fetchTo : Word := 10000
  nmiPending : Bool := false
  nmiCode : Nat := 0
  msix : Vector Msix 32 := Vector.replicate 32 {}
  order : List Waiting := []
  armed : BitVec 128 := 0
  views : Vector View 8 := Vector.replicate 8 {}
  fences : Vector DWord 256 := Vector.replicate 256 0
  fenceHi : Vector Word 256 := Vector.replicate 256 0
  fenceDiscard : Word := 0
  mbox : Vector MboxSlot 2 := Vector.replicate 2 {}
  sendErr : Bool := false
  mboxCfg : Word := 0x01F40003
  limits : Vector DWord 4 := Vector.replicate 4 (BitVec.allOnes 64)
  used : Vector Nat 4 := Vector.replicate 4 0
  overrun : Vector Word 4 := Vector.replicate 4 0
  deferRaised : Vector Bool 4 := Vector.replicate 4 false
  evHold : List Ev := []
  dramWait : Word := 0
  pcm : Vector Pcm 8 := Vector.replicate 8 {}
deriving DecidableEq, Repr

/-- A BAR2 access that a host port has taken and not yet made (R364, R368): a write of bytes at a device address, or a read of a range of
BAR2 offsets, which waits behind the writes before it; `ok` says that its region permitted it as it was registered (R462). A write of a fence
cell by register waits behind the BAR2 writes received before it (R170). -/
inductive HostOp where
  | write (p : Fin 64) (a : Nat) (l : List Byte) (ok : Bool)
  | read (p : Fin 64) (off len : Nat) (ok : Bool)
  | fence (p : Fin 64) (c : Fin 256) (v : DWord)
deriving DecidableEq, Repr

/-- A host port: whether the boot has enabled it (R585), its link, HPn_PERST_N, SR-IOV, and the BAR2 writes it has
buffered (R368), oldest first. -/
structure Port where
  enabled : Bool := false
  linkUp : Bool := false
  vfEnable : Bool := false
  numVfs : Nat := 0
  /-- ARI Capable Hierarchy (R43) and the addresses in the VF BARs of the SR-IOV capability. -/
  ari : Bool := false
  vfBar0 : DWord := 0
  vfBar2 : DWord := 0
  /-- VF MSE and the System Page Size of the SR-IOV capability (log 11), and the speed and width the link has trained to (R41): 1 to 5, and 1, 2, 4
  or 8 lanes. -/
  vfMse : Bool := false
  pageSize : Word := 1
  speed : Nat := 0
  width : Nat := 0
  posted : List (Nat × HostOp) := []
  /-- The number of the next access the port takes: `posted` numbers them in the order received (R57). -/
  opNo : Nat := 0
  /-- Whose turn it is: the submission ring, 8 × function + ring, that may fetch next (R66), and the function that may begin next (R370). -/
  fetchTurn : Nat := 0
  beginTurn : Nat := 0
  /-- The function whose COPY transfer the copy engine serves next (R371). -/
  copyTurn : Nat := 0
deriving DecidableEq, Repr

/-! ### Jobs -/

/-- A check-value parameter set (R484). -/
structure Crc where
  width : Nat := 32
  refin : Bool := true
  refout : Bool := true
  poly : DWord := 0x04C11DB7
  init : DWord := 0xFFFFFFFF
  xorout : DWord := 0xFFFFFFFF
deriving DecidableEq, Repr

/-- What a running COPY or CHECK does with its channel. -/
inductive CheckMode where
  | report
  | append
  | verify
deriving DecidableEq, Repr

/-- A COPY or CHECK that has begun and not completed, with what it captured as it began (R487). `src` and `dst` are device
addresses, or host addresses where the flag says so. `chan` is the channel with its mode and captured parameters. -/
structure Job where
  pav : Fin 64
  sq : Fin 8
  seq : BitVec 16
  op : BitVec 8
  deferred : Bool
  waiting : Bool := false
  /-- Bytes moved so far (R371), and whether a quota holds the job (R348); paused jobs stand last in `State.jobs`, in the order in which they
  paused. -/
  moved : Nat := 0
  paused : Bool := false
  /-- The end of the transfer has come: what host memory returned and whether the transfer met an uncorrectable error. -/
  fin : Option (List Byte × Bool) := none
  /-- The channel's register (R496) and its job buffer (R490). -/
  reg : Nat := 0
  buf : List Byte := []
  /-- A read of the job has met an error (R492). -/
  bad : Bool := false
  /-- The mismatch or match a verification found (R491). -/
  good : Bool := false
  fenceCell : Nat := 0
  fenceVal : DWord := 0
  srcHost : Bool := false
  dstHost : Bool := false
  src : Nat := 0
  dst : Nat := 0
  len : Nat := 0
  rows : Nat := 0
  srcPitch : Nat := 0
  dstPitch : Nat := 0
  chan : Option (Fin 16 × CheckMode × Crc) := none
deriving DecidableEq, Repr

/-- A check-value channel's registers (13). -/
structure Cvu where
  crc : Crc := {}
  polyHi : Word := 0
  initHi : Word := 0
  xorHi : Word := 0
  lastRes : DWord := 0
  lastRx : DWord := 0
  failCount : Word := 0
  bytes : BitVec 48 := 0
  /-- The Pavilion whose job the channel serves next (R371, R496). -/
  turn : Nat := 0
  /-- The Dome's four job contexts, and which of them hold a job (R495); the spec names no request that begins one. -/
  domeJobs : Vector Bool 4 := Vector.replicate 4 false
deriving DecidableEq, Repr

/-- A running capture (R248 to R253). `dest` and `record` are device addresses. -/
structure Capture where
  pav : Fin 64
  sq : Fin 8
  seq : BitVec 16
  view : Fin 8
  deferred : Bool
  dest : Nat
  pitch : Nat
  frames : Nat
  ring : Nat
  record : Nat
  index : Nat := 0
  rect : Rect
  inFrame : Bool := false
  startTime : DWord := 0
  incomplete : Bool := false
  /-- Lines lost in the frame (R367). -/
  lost : List Nat := []
  pvalidLow : Bool := false
  /-- The WRITEBACKs with STOP that end it: ring, SEQ, DEFERRED. -/
  stops : List (Fin 8 × BitVec 16 × Bool) := []
  /-- The atom of its record met an uncorrectable error (R404). -/
  bad : Bool := false
deriving DecidableEq, Repr

/-! ### Outputs and composers -/

/-- The settings an OUTPUT_MODE carries (03). -/
structure ModeSet where
  mode : Nat := 0
  rg : Fin 4 := 0
  lanes : Nat := 0
  rate : Nat := 0
  ssc : Nat := 0
  dither : Bool := false
  commitOffset : Nat := 8
  abortLimit : Nat := 3
  policy : Nat := 0
deriving DecidableEq, Repr

/-- What an OUTPUT_MODE in progress waits for (R254, R255, R564). -/
inductive ModeWait where
  | sequence
  | line0
  | regroup
  | gate
deriving DecidableEq, Repr

/-- The OUTPUT_MODE in progress on an output; `silent` says that its descriptor was discarded by a reset of Pavilion 0 (R88),
so that nothing is posted for it. -/
structure ModeJob where
  silent : Bool := false
  sq : Fin 8
  seq : BitVec 16
  deferred : Bool
  set : ModeSet
  wait : ModeWait
deriving DecidableEq, Repr

/-- A proof window (R287 to R290): registers, and the rectangle and enable in effect for the frame. -/
structure Proof where
  en : Bool := false
  xy0 : Word := 0
  xy1 : Word := 0
  res : DWord := 0
  frame : DWord := 0
  live : Bool := false
  rect : Rect := {}
deriving DecidableEq, Repr

/-- A slot's hold on cause 3 (R275, R276). -/
structure Hold3 where
  slot : Fin 256
  start : Nat
  until_ : Option Nat := none
deriving DecidableEq, Repr

/-- An output (06) with its proof windows (07). -/
structure Out where
  enabled : Bool := false
  scanning : Bool := false
  coast : Bool := false
  rephase : Bool := false
  set : ModeSet := {}
  job : Option ModeJob := none
  /-- The ENABLE field of the last OUTPUT_MODE. -/
  enableSet : Bool := false
  hpd : Bool := false
  abortRun : Nat := 0
  /-- Frames complete in a row, for RECOVER_FRAMES (R238). -/
  completeRun : Nat := 0
  recover : Word := 60
  resumeReq : Bool := false
  /-- Past the last active line of the frame. -/
  vblank : Bool := false
  frame : DWord := 0
  frameCount : Word := 0
  gridErr : Int := 0
  lineMatch : Word := 0
  underruns : Word := 0
  rephases : Word := 0
  /-- The line at which the current frame underran (R234). -/
  underrunAt : Option Nat := none
  /-- The first pixel of that line which was not delivered (R234). -/
  underrunX : Nat := 0
  /-- The lines of the current frame fetched so far, as the formatter's words before any replacement of R234. -/
  rows : List (List Nat) := []
  /-- The stream is on the link; idle patterns are otherwise (R215, R216, R221). -/
  stream : Bool := false
  /-- The current frame met a failure while its composition is discarded (R238). -/
  discardFail : Bool := false
  /-- The safe frame is shown, and the causes in effect (R239): 1, 2, 4 and 5; cause 3 is in effect while
  a slot holds it (R275). `shown` lists the causes in effect at the last line 0. -/
  safe : Bool := false
  cause1 : Bool := false
  cause2 : Bool := false
  cause4 : Bool := false
  cause5 : Bool := false
  /-- What holds cause 3 (R275, R276): the slot, the first frame that shows it, and the frame of the check that released it. -/
  hold3 : List Hold3 := []
  shown : List Nat := []
  /-- The source line of the safe frame that is read first next, and the running CRC-32 register over what has been read of it (R440). -/
  sfLine : Nat := 0
  sfReg : Nat := 0
  /-- The first frame that shows cause 2 (R293). -/
  cause2At : Nat := 0
  trained : Bool := false
  training : Bool := false
  lanesActive : Nat := 0
  rateActive : Nat := 0
  sscActive : Bool := false
  failStage : Nat := 0
  fail : Bool := false
  irqs : BitVec 16 := 0
  trainRetry : Word := 1000
  /-- Retries of the AUX access that waits for its reply (R224), and that access where it is no step of a training or an EDID read. -/
  auxRetries : Nat := 0
  auxOp : Option AuxAcc := none
  /-- The access that the retries count. -/
  auxLast : Option AuxAcc := none
  /-- Accesses of the current training, after its step 1, that have been made (R221). -/
  auxDone : Nat := 0
  pvalid : Bool := false
  forceLow : Bool := false
  /-- FORCE_LOW was set by a proof fault (R294). -/
  forceByProof : Bool := false
  caps : List Capture := []
  capIncomplete : BitVec 24 := 0
  edidBlock : BitVec 8 := 0
  edidBusy : Bool := false
  edidDone : Bool := false
  edidErr : Nat := 0
  edid : Vector Word 32 := Vector.replicate 32 0
  proof : Vector Proof 4 := Vector.replicate 4 {}
  pcrc : Crc := {}
  pcrcLive : Crc := {}
  hatch : Word := 0x3FFB0000
deriving DecidableEq, Repr

/-- A composer (04, 05). -/
structure Comp where
  bg : Word := 0
  bgLive : Word := 0
  fetchFault : Bool := false
  /-- Uncorrectable errors met whose underruns are still to come (R234): device addresses, none for the line buffer. -/
  faults : List (Option Nat) := []
  costAdm : Nat := 0
  costLine : Nat := 0
  costPeak : Nat := 0
  fetchRate : Nat := 0
  granAdm : Nat := 0
  rejLbuf : Word := 0
  rejCost : Word := 0
  fetchBytes : BitVec 48 := 0
  coefAddr : Word := 2
  latchFrame : DWord := 0
  late : Word := 0
  expired : Word := 0
  holdFrames : Word := 0
  /-- The frame whose window is open, or closed last (05). -/
  winFrame : Nat := 0
  winOpen : Bool := false
deriving DecidableEq, Repr

/-- A buffer of a Belvedere slot: which secure half, its timestamp, digest and expected proof value (R283). -/
structure BelvBuf where
  half : Nat
  time : DWord
  /-- When the timestamp last changed, and what it was before (R264). -/
  was : Option (Nat × DWord) := none
  digest : BitVec 256
  expected : DWord
  /-- Where the reply to the update goes: the mailbox slot, none once replied. -/
  reply : Option (Fin 64 × Fin 2) := none
  ready : Bool := false
  /-- The first frame whose cut-off came after the update was ready (R283). -/
  due : Option Nat := none
deriving DecidableEq, Repr

/-- A frame of window 0 that waits to be compared (R291): its result, whether it is compared, the secure half and the expected value of the
buffer it showed, and the DITHER and the parameters it ran with. -/
structure BelvAwait where
  frame : Nat
  result : DWord
  compared : Bool
  half : Nat
  expected : DWord
  dither : Bool := false
  crc : Crc := {}
deriving DecidableEq, Repr

/-- The Belvedere slot of an output (07). -/
structure Belv where
  cfg : Word := 0
  pos : Word := 0
  size : Word := 0
  limit : Word := 0
  limit2 : Word := 0
  bufBase : Nat := 0
  hasKey : Bool := false
  key : BitVec 256 := 0
  seq : DWord := 0
  cur : Option BelvBuf := none
  next : Option BelvBuf := none
  run : Nat := 0
  /-- DITHER as the expected value took it. -/
  dither : Bool := false
  proofFault : Bool := false
  mismatch : Word := 0
  faults : Word := 0
  /-- Frames that wait to be compared, oldest first. -/
  awaits : List BelvAwait := []
deriving DecidableEq, Repr

/-- The Lantern's policy registers of one Pavilion (07). -/
structure LtnPolicy where
  actions : Nat := 0xF
  defAction : Nat := 0
  max1 : Word := 0xFFFFFFFF
  max2 : Word := 0
deriving DecidableEq, Repr

/-! ### Budgets and the event log -/

/-- A DRAM regulator (R362 to R367): grant in bytes per period, configuration, bucket in micro-bytes, waits. -/
structure BPort where
  grant : Nat
  cfg : Word := 0x100
  bucket : Nat
  wait : Word := 0
  waited : Bool := false
  /-- Bytes of real-time fetch in this period (R365). -/
  used : Nat := 0
deriving DecidableEq, Repr

/-- The event log writer (18). -/
structure Evt where
  head : BitVec 16 := 0
  tail : BitVec 16 := 0
  dbRange : Bool := false
  lost : Word := 0
  count : BitVec 48 := 0
  lostRaised : Bool := false
deriving DecidableEq, Repr

/-! ### Memories -/

/-- One of the three memories with device addresses (R652), the Dome's private SRAM, and the line-buffer pool. -/
inductive MemId where
  | dram
  | org
  | keep
  | dome
  | pool
deriving DecidableEq, Repr

/-- A store made by the command that runs: one byte, or a whole range made zero (from `lo` up to but not including
`hi`). -/
inductive Store where
  | byte (m : MemId) (a : Nat) (v : Byte)
  | clear (m : MemId) (lo hi : Nat)
deriving DecidableEq, Repr

/-- The contents of the memories: for each, (offset, byte) pairs with offsets strictly rising and no zero byte; an
unlisted byte reads 0 (log 7). -/
structure Images where
  dram : List Host.Cell := []
  org : List Host.Cell := []
  keep : List Host.Cell := []
  dome : List Host.Cell := []
  pool : List Host.Cell := []
deriving DecidableEq, Repr

/-- One atom in a DMC's write queue (R382): its DRAM address, its valid bytes, its page hint (R378), the Spire time at which it was
registered and its place in the order of the channel's registrations. -/
structure WAtom where
  addr : Nat
  bytes : List (Nat × Byte)
  keepOpen : Bool := false
  since : Nat := 0
  no : Nat := 0
deriving DecidableEq, Repr

/-- A read in a DMC's read queue (R380): the request, the Spire time at which it was registered and its place in the order of the channel's
registrations. -/
structure RAtom where
  req : MemReq
  since : Nat
  no : Nat
  /-- The read is part of an access whose answer is put together elsewhere (a BAR2 read, a COPY, a table): it sends nothing itself. -/
  part : Bool := false
  /-- The Pavilion that asks, which learns of an error (R406). -/
  who : Option (Fin 64) := none
deriving DecidableEq, Repr

/-- A request that waits at fabric entry for tokens (R364, R366): what it writes, nothing for a read. -/
structure EntryReq where
  req : MemReq
  data : Option (List Byte)
  ecc : Ecc
  /-- Whether its region permitted it as it was registered (R462). -/
  ok : Bool
deriving DecidableEq, Repr

/-! ### Spire -/

/-- States of a Spire link (08, link states). DOWN is left immediately for TRAIN, so no state rests in it. -/
inductive LinkSt where
  | off
  | train
  | ident
  | measure
  | up
  | disabled
deriving DecidableEq, Repr

/-- A Spire link (08). `retrain` says that TRAIN waits for the 10 ms retry; `req` is the DELAY_REQ outstanding (REQ_ID and
T1 in 2^-24 ns); `delay` and `samples` are in 1/16 ns; `waiting` are sequenced flits not yet sent, oldest first. -/
structure Link where
  enable : Bool := true
  st : LinkSt := .off
  retrain : Bool := false
  cause : Nat := 0
  downFlag : Bool := false
  nbId : Nat := 0
  nbLink : Nat := 0
  delay : Nat := 0
  samples : List Nat := []
  exchanges : Nat := 0
  reqId : Word := 0
  req : Option (Word × Nat) := none
  identA : Option (BitVec 256) := none
  identB : Option (BitVec 256) := none
  seqTx : BitVec 12 := 0
  seqRx : BitVec 12 := 0
  /-- A sequenced flit has been received in order, so that ACK is valid. -/
  rxAny : Bool := false
  ackRx : BitVec 12 := 0xFFF
  unacked : List (BitVec 256) := []
  waiting : List (BitVec 256) := []
  nakSend : Bool := false
  nakSent : Bool := false
  stalls : Nat := 0
  credCtrl : Nat := 0
  credPix : Nat := 0
  /-- A packet being received: its DATA_HEAD and the DATA flits so far, newest first. -/
  head : Option (BitVec 256 × List (BitVec 256)) := none
  /-- The running window of 1,024 flits (R369): flits, CTRL flits and PIX flits sent. -/
  winAll : Nat := 0
  winCtrl : Nat := 0
  winPix : Nat := 0
  crcErr : Word := 0
  replays : Word := 0
  downs : Word := 0
  tx : BitVec 48 := 0
  rx : BitVec 48 := 0
  share : Word := 0x04000080
deriving DecidableEq, Repr

/-- A rate group's entry of the image (R311); `cls` 0xFF for none. -/
structure RateGroup where
  cls : Nat := 0xFF
  guardNs : Nat := 0
  reportNs : Nat := 0
  originNs : Nat := 0
deriving DecidableEq, Repr

/-- A declared pairing of one of this device's links: the neighbour's serial, ID and link, MAX_DELAY_NS (R308), and whether the
neighbour's PARENT and B_PARENT are this link. -/
structure Pairing where
  link : Nat
  serial : BitVec 128
  id : Nat
  nbLink : Nat
  maxDelay : Nat
  nbParent : Bool := false
  nbBParent : Bool := false
deriving DecidableEq, Repr

/-- What the device keeps of an accepted topology image (R311, R312). -/
structure Image where
  wallId : DWord
  gen : DWord
  myId : Nat
  masterId : Nat
  backupId : Nat
  devices : List (Nat × BitVec 128)
  propNs : Nat
  safeNs : Nat
  marginNs : Nat
  maxHops : Nat
  groups : Vector RateGroup 4
  parents : Vector Nat 4
  pairings : List Pairing
  runs : List (Nat × Nat × Nat)
deriving DecidableEq, Repr

/-- The reports gathered for (g, F): own report, children's reports, whether the REPORT has gone up (R331). -/
structure Vote where
  g : Fin 4
  frame : Nat
  own : Option Bool := none
  ownFirst : Nat := 0
  children : List (Nat × Bool × Nat × Nat) := []
  sent : Bool := false
deriving DecidableEq, Repr

/-- A running export (R338). `bad`: a read of the transfer in progress has failed (R404). -/
structure Export where
  pav : Fin 64
  sq : Fin 8
  seq : BitVec 16
  deferred : Bool
  handle : Nat
  dest : Nat
  expId : Nat
  xferSeq : Word := 0
  paused : Bool := false
  /-- The buffer whose transfer was sent last, with what distinguishes the halves of an import buffer, and the transfer in progress: the captured buffer with its bytes per
  pixel, the next byte of the transfer and the running CRC register; `due` asks for a new transfer after it. -/
  sentId : Option (Nat × Nat) := none
  cur : Option (Attach × Nat × Nat × Nat) := none
  bad : Bool := false
  due : Bool := false
deriving DecidableEq, Repr

/-- An import stream of one attachment (R339 to R342): the transfer arriving (sequence, source time, next byte, check
register, packet left), the last complete transfer not yet latched, and the latched half. -/
structure Import where
  attId : Nat
  pav : Fin 64
  handle : Nat
  srcId : Nat
  expId : Nat
  addr : Nat
  pitch : Nat
  width : Nat
  height : Nat
  curSeq : Option Word := none
  curBad : Bool := false
  curBpp : Nat := 0
  curTime : DWord := 0
  got : Nat := 0
  crc : Nat := 0
  ready : Option (Nat × DWord × Word) := none
  live : Option (Nat × Word) := none
  /-- Halves latched since the attachment began, by which an exporter tells them apart (R338). -/
  shown : Nat := 0
  lost : Bool := false
  /-- When a flit of the stream came last (R342). -/
  last : Nat := 0
deriving DecidableEq, Repr

/-- The Spire unit (08). -/
structure Spire where
  /-- Spire time in ns and its fraction in units of 2^-24 ns. -/
  now : DWord := 0
  frac : Nat := 0
  /-- Offset still to be slewed away, in 2^-24 ns, and the rate correction in force, in 2^-24 ns per cycle. -/
  slew : Int := 0
  rate : Int := 0
  timeHi : Word := 0
  image : Option Image := none
  imageErr : Nat := 0
  master : Bool := false
  masterId : Nat := 0
  term : Word := 0
  beat : Word := 0
  lastBeat : Option (Nat × Word × Word) := none
  inWall : Bool := false
  holdover : Bool := false
  synced : Bool := false
  /-- A SYNC has stepped the counter since the reset, and one with |o| ≤ 1 µs has come after that (R596). -/
  stepped : Bool := false
  settled : Bool := false
  offset : Int := 0
  steps : Word := 0
  tiEn : Bool := false
  tiFirst : Bool := false
  tiLock : Bool := false
  tiLost : Bool := false
  tiRej : Word := 0
  leads : Vector Nat 4 := Vector.replicate 4 1
  unreach : Word := 0
  hopDrop : Word := 0
  safeLate : Word := 0
  importRej : Word := 0
  absentSel : Nat := 0
  absent : List Nat := []
  present : List Nat := []
  flips : Vector Word 4 := Vector.replicate 4 0
  holds : Vector Word 4 := Vector.replicate 4 0
  nodec : Vector Word 4 := Vector.replicate 4 0
  /-- One more than the last frame whose cut-off the three counts above have counted, by rate group. -/
  counted : Vector Nat 4 := Vector.replicate 4 0
  classes : Vector (Option Nat) 4 := Vector.replicate 4 none
  parent : Option (Fin 12) := none
  onBackupTree : Bool := false
  children : List (Fin 12) := []
  newChildren : List (Fin 12) := []
  votes : List Vote := []
  /-- Report points passed, by rate group: the last frame whose report point has passed. -/
  reported : Vector (Option Nat) 4 := Vector.replicate 4 none
  /-- The first decision received for (g, F): FLIP, DETAIL (R333). -/
  decisions : List (Fin 4 × Nat × Bool × Nat) := []
  /-- EV_WALL_HOLD raised: rate group, frame, Pavilion (R198). -/
  holdRaised : List (Fin 4 × Nat × Fin 64) := []
  joined : Bool := false
  joinTime : DWord := 0
  msgSeq : Word := 0
  alarmsSeen : List (Nat × DWord × Word) := []
  exports : List Export := []
  imports : List Import := []
  links : Vector Link 12 := Vector.replicate 12 {}
deriving DecidableEq, Repr

/-! ### Memory controllers -/

/-- Refresh state of a DMC (R387 to R392). -/
inductive RefSt where
  | settled
  | owing
  | postponed
  | preempt
  | batch
  | selfRefresh
deriving DecidableEq, Repr

/-- A DMC (10). -/
structure Dmc where
  trained : Bool := false
  trainFail : Nat := 0
  ref : RefSt := .settled
  rtBurst : Bool := false
  wq : List WAtom := []
  rq : List RAtom := []
  /-- The write queue is draining (R381), and the writes left of a run that began with it full (R380). -/
  draining : Bool := false
  fullRun : Nat := 0
  postpone : Nat := 8
  pbEn : Bool := true
  burstGap : Nat := 32
  debt : Nat := 0
  interval : Nat := 3906
  mr4 : Nat := 0
  hot : Bool := false
  hotOver : Bool := false
  pageForce : Nat := 0
  idleClose : Nat := 256
  preempts : Word := 0
  bursts : Word := 0
  partialWait : Word := 0
  fwd : BitVec 48 := 0
  refreshes : BitVec 48 := 0
  rdBytes : BitVec 48 := 0
  wrBytes : BitVec 48 := 0
  ce : Word := 0
  ue : Word := 0
  eccAddr : Nat := 0
  eccUe : Bool := false
  drift : Bool := false
  attempts : Nat := 0
  driftCount : BitVec 16 := 0
  selfRef : Bool := false
  /-- Retraining waits for the next REFab, with whether its drift passes one update (R398, R399); a REFab for it waits for the end of an RT burst. -/
  retrain : Option Bool := none
  retrainDue : Bool := false
  /-- Open rows: bank (rank, bank) and row (R379). -/
  openRows : List (Nat × Nat) := []
  nextPb : Nat := 0
  /-- The atom scrubbed last (R408). -/
  scrubAt : Nat := 0
  /-- The number of the next request the channel registers (R386). -/
  nextNo : Nat := 0
deriving DecidableEq, Repr

/-- The DMC global block (10). -/
structure DmcGlobal where
  density : Bool := false
  ranks2 : Bool := false
  valid : Bool := false
  lock : Bool := false
  scrubPeriod : Nat := 0
  clearDone : Bool := false
  clearRun : Bool := false
  eccRegion : Vector Word 8 := Vector.replicate 8 0
deriving DecidableEq, Repr

/-- The Orangery, the march engine and the line-buffer pool (11). -/
structure Org where
  clearDone : Bool := false
  logKept : Bool := false
  preserveLog : Bool := false
  ce : Word := 0
  ue : Word := 0
  eccOff : Nat := 0
  eccInst : Nat := 0
  eccUe : Bool := false
  regionViol : Word := 0
  marchTarget : Nat := 0
  marchPreserve : Bool := true
  marchBase : Nat := 0
  marchLimit : Nat := 0x1FFF
  marchRun : Bool := false
  /-- The range of the run in progress. -/
  runBase : Nat := 0
  runLimit : Nat := 0x1FFF
  marchDone : Bool := false
  marchErr : Bool := false
  unrepaired : Bool := false
  faults : Nat := 0
  bank : Nat := 0
  /-- The master that port 1 of each Orangery bank serves next (R413). -/
  turns : Vector Nat 16 := Vector.replicate 16 0
  /-- The mailbox slot that asked for the run (R467). -/
  marchReply : Option (Fin 64 × Fin 2) := none
  /-- Factory repairs held in fuses: the memory, the bank, the kind (1 column) and the failing index of each (11, Repair). -/
  fuseRepairs : List (Nat × Nat × Nat × Nat) := []
  /-- The repairs in effect (R430, R431). -/
  applied : List (Nat × Nat × Nat × Nat) := []
deriving DecidableEq, Repr

/-- The Keep controller (11). -/
structure Keep where
  wiping : Bool := false
  /-- The step of R441 that comes next in a running wipe, and when its cause was registered. -/
  wipeStep : Nat := 0
  wipeFrom : DWord := 0
  /-- The write buffer of 16 words (R434 to R436, R445): the Dome's writes that wait and the aperture's, oldest first, each its address and its
  bytes within one word. -/
  dbuf : List (Nat × List Byte) := []
  buf : List (Nat × List Byte) := []
  wipeDone : Bool := false
  sfVerified : BitVec 8 := 0
  aperture : Nat := 0xA1
  ce : Word := 0
  ue : Word := 0
  writes : BitVec 48 := 0
deriving DecidableEq, Repr

/-! ### The Dome -/

/-- A region register (R463). -/
structure Region where
  base : Nat := 0
  limit : Nat := 0
  read : BitVec 16 := 0
  write : BitVec 16 := 0
  en : Bool := false
  secure : Bool := false
deriving DecidableEq, Repr

/-- Dome states (DOME_STATUS.STATE). -/
inductive DomeSt where
  | boot
  | run
  | restart
  | down
deriving DecidableEq, Repr

/-- A SAFE_OUT entry of the policy. -/
structure SafeOut where
  code : Nat
  inst : Nat
  word : Word
deriving DecidableEq, Repr

/-- A SAFE_IN entry of the policy. -/
structure SafeIn where
  word : Word
  mask : BitVec 8
  action : Nat
deriving DecidableEq, Repr

/-- The settings of the policy in force (12, policy layout) that no register shows. -/
structure Policy where
  subsys : Word := 0
  tamperResponse : Nat := 0
  haltHz : Nat := 0
  haltLevel : Nat := 0
  haltWord : Word := 0
  haltAlarm : Bool := false
  movable : BitVec 256 := 0
  safeOut : List SafeOut := []
  safeIn : List SafeIn := []
deriving DecidableEq, Repr

/-- A hand-over in progress (R471 to R474). -/
structure Handover where
  block : Nat
  toSecure : Bool
  scrub : Bool := false
  pavs : List (Fin 64) := []
  reply : Option (Fin 64 × Fin 2) := none
deriving DecidableEq, Repr

/-- The Dome (12). -/
structure Dome where
  st : DomeSt := .boot
  wmMode : Bool := true
  tamper : Bool := false
  tamperKeys : Bool := false
  policyErr : Nat := 0
  failTimes : List DWord := []
  fwVersion : Word := 0
  policyGen : DWord := 0
  lcFuse : Word := 0
  secVersion : Word := 0
  custKey : BitVec 512 := 0
  kek : BitVec 256 := 0
  serial : BitVec 128 := 0
  restarts : Word := 0
  watermark : Vector Nat 3 := Vector.replicate 3 0x1FFFFFF
  held : BitVec 256 := 0
  regions : Vector (Vector Region 64) 3 := Vector.replicate 3 (Vector.replicate 64 {})
  policy : Policy := {}
  ho : List Handover := []
  hoBlock : Nat := 0
  hoToSecure : Bool := false
  nonce : Option (BitVec 256) := none
  /-- The last write to DOME_WDT_KICK (R475). -/
  lastKick : DWord := 0
  /-- The Spire time at which a restart ends (R476 step 5; log 24). -/
  restartEnd : DWord := 0
  /-- The secure partition holds a carried record (R477); what it carries is in force and so in State already (log 52). -/
  carried : Bool := false
  mbxTimeouts : Word := 0
  /-- ALARM words waiting (R647): the word and the SAFE_OUT entry it came from, oldest first. -/
  alarms : List (Word × Option Nat) := []
  alarmSent : Bool := false
  /-- SAFE_OUT entries that have matched in this period (R458). -/
  safeOutDone : List Nat := []
  haltTone : Bool := false
  /-- The ALARM of the halt has still to be sent (R479). -/
  haltSend : Bool := false
deriving DecidableEq, Repr

/-! ### Gazebo -/

/-- A capacitive element of a control: its pin register, the setting in effect since the start of the last scan (R504), raw count,
baseline in 1/65,536 counts. -/
structure Elem where
  cfg : Word := 0
  live : Word := 0
  raw : Nat := 0
  base : Nat := 0
deriving DecidableEq, Repr

/-- A reflex binding (R529); `dome` where HELD_CONSOLE made it. -/
structure Reflex where
  pav : Fin 64
  dome : Bool := false
  chan : Nat
  effect : Nat
  prio : Nat
deriving DecidableEq, Repr

/-- A Gazebo control (14): its registers, the settings in effect since the start of the last scan (R504), whether that scan measures it,
its baseline's follower and its touch. -/
structure Control where
  cfg : Word := 0x02000000
  th : Word := 0x080320C8
  base : Word := 0x0780640A
  liveCfg : Word := 0x02000000
  liveTh : Word := 0x080320C8
  liveBase : Word := 0x0780640A
  cfgErr : Bool := false
  measured : Bool := false
  elems : Vector Elem 16 := Vector.replicate 16 {}
  touched : Bool := false
  provisional : Bool := true
  stuck : Bool := false
  pos : Nat := 0
  posSent : Nat := 0
  /-- Consecutive scans towards a touch or release (R506), and below −NEG_TH (R512). -/
  pendingN : Nat := 0
  negN : Nat := 0
  /-- Microseconds touched (R514), and followed on a provisional baseline (R513). -/
  touchUs : Nat := 0
  provUs : Nat := 0
  /-- A capture owed from the next scan on, and one that the running scan makes (R510). -/
  capture : Bool := false
  capNow : Bool := false
  recaptures : Word := 0
  reflex : Option Reflex := none
deriving DecidableEq, Repr

/-- States of a haptic channel (HAP_STATUS.STATE). -/
inductive HapSt where
  | idle
  | overdrive
  | drive
  | brake
deriving DecidableEq, Repr

/-- Who started an effect (R525). -/
inductive HapSrc where
  | none
  | pav (p : Fin 64)
  | trig
  | dome
deriving DecidableEq, Repr

/-- A haptic channel (14). -/
structure Hap where
  cfg : Word := 0x12C1E0AA
  drive : Word := 0x00143828
  st : HapSt := .idle
  effect : Nat := 0
  prio : Nat := 0
  amp : Nat := 100
  src : HapSrc := .none
  noBemf : Bool := false
  lastEnd : Nat := 0
  ignored : Word := 0
  halfUs : Nat := 0
  /-- The last sense window held no crossing, so that the drive is at F_NOM (R519). -/
  nom : Bool := false
  seg : Nat := 0
  halves : Nat := 0
  brakes : Nat := 0
  neg : Bool := false
  level : Int := 0
  /-- A stop with brake ends the effect. -/
  stopped : Bool := false
deriving DecidableEq, Repr

/-- Phases of a voice (VOICE_STATE.PHASE). -/
inductive VoPhase where
  | idle
  | attack
  | sustain
  | release
deriving DecidableEq, Repr

/-- A Belfry voice (14). -/
structure Voice where
  env : Word := 0x00050005
  phase : VoPhase := .idle
  pav : Fin 64 := 0
  wave : Nat := 0
  f0 : Nat := 0
  f1 : Nat := 0
  durMs : Nat := 0
  level : Nat := 0
  aud : Nat := 0
  slot : Nat := 0
  acc : Nat := 0
  /-- Samples since the start, and since the release began. -/
  n : Nat := 0
  rel : Nat := 0
  /-- The envelope at which the release began, as a fraction. -/
  relNum : Nat := 1
  relDen : Nat := 1
  /-- ATTACK_MS and RELEASE_MS as captured (R533). -/
  attack : Nat := 5
  release : Nat := 5
deriving DecidableEq, Repr

/-- The Gazebo and the Belfry (14). -/
structure Gaz where
  level : Nat := 0
  scanUs : Nat := 0
  /-- The Spire time at which the latest scan started, none before the first, and the time that had then passed since the start of the scan
  before it, in microseconds (R511). -/
  scanAt : Option Nat := none
  gapUs : Nat := 0
  scanEn : Bool := false
  scanning : Bool := false
  ladder : Vector Word 4 := #v[200, 50 + 2000 * 256, 10 + 30000 * 256, 2 + 300000 * 256]
  csRole : Vector Nat 128 := Vector.replicate 128 0
  controls : Vector Control 32 := Vector.replicate 32 {}
  diagSel : Word := 0
  haps : Vector Hap 16 := Vector.replicate 16 {}
  trig : Vector Word 8 := Vector.replicate 8 0x100
  effectAddr : Word := 1
  voices : Vector Voice 16 := Vector.replicate 16 {}
  duck : Nat := 64
  slotGain : Vector Nat 16 := Vector.replicate 16 255
  v15Route : Word := 0
  clip : Word := 0
  /-- The next sample frame (R530), and the frames the halt tone has run (R479). -/
  sample : Nat := 0
  haltN : Nat := 0
deriving DecidableEq, Repr

/-! ### Clocks, power, package -/

/-- The clock unit (15). -/
structure Clk where
  xinOk : Bool := false
  onRco : Bool := false
  aonOnXin : Bool := false
  rcoFail : Bool := false
  monTracking : Bool := false
  failCode : Nat := 0
  refclkOk : BitVec 4 := 0
  xinMode : Bool := false
  ampTh : Nat := 1
  xinLock : Bool := false
  monCount : Nat := 0
  monTrack : Nat := 0
  monSum : Nat := 0
  monWindows : Nat := 0
  monBad : Nat := 0
  pllLock : BitVec 48 := 0
  pllCoast : BitVec 48 := 0
  run : BitVec 45 := 0x3
  gateReq : BitVec 12 := 0
  gated : BitVec 45 := 0
  gateWait : BitVec 45 := 0
  gateErr : BitVec 12 := 0
  hyst : Nat := 64
  forced : Word := 0
  timeouts : Word := 0
deriving DecidableEq, Repr

/-- What holds the device in reset (16). -/
inductive ResetSt where
  | running
  | powerOn
  | railDown
  | warm
  | tripped
  | dead
deriving DecidableEq, Repr

/-- Power and reset (16). -/
structure Pwr where
  reset : ResetSt := .running
  standby : Bool := false
  /-- The DMCs run the self-refresh entry sequence (R597). -/
  entering : Bool := false
  /-- PWR_STATE_REQ.STANDBY as written. -/
  standbyReq : Bool := false
  reqErr : Bool := false
  railGood : BitVec 5 := 0x1F
  railDropped : BitVec 5 := 0
  cause : BitVec 5 := 1
  stage : Nat := 0
  booted : Bool := false
  fwSource : Bool := false
  policyEmpty : Bool := false
  standAlone : Bool := false
  xinFail : Bool := false
  dramFail : Bool := false
  memDegraded : Bool := false
  bootUs : Word := 0
  destructive : Bool := false
deriving DecidableEq, Repr

/-- Thermal sensors, GPIO, sideband and JTAG (16, 17, 19). -/
structure Glb where
  tj : Int := 0
  tjPeak : Int := 0
  warn : Bool := false
  tripped : Bool := false
  warnTh : Word := 1000
  gpioIn : BitVec 16 := 0
  gpioOut : BitVec 16 := 0
  gpioOe : BitVec 16 := 0
  gpioPull : BitVec 16 := 0xFFFF
  /-- The levels of SB_ADDR1 and SB_ADDR0, which the board ties, and as sampled when PORST_N rose (R610). -/
  sbPins : BitVec 2 := 0
  sbAddr : BitVec 2 := 0
  /-- PORST_N has risen and the device has not booted since (R664). -/
  sbWait : Bool := false
  sbPtr : Byte := 0
  sbTimeHi : Word := 0
  jtagIr : Nat := 0
  boundary : List Bool := []
deriving DecidableEq, Repr

/-! ### What leaves the device -/

/-- The Main Stream Attributes (R219): the size and the totals of the mode, RGB 4:4:4 (COLOR 0), bits a component, VESA full range (else CTA), and
whether the sync pulses are positive. -/
structure Msa where
  w : Nat
  h : Nat
  hTotal : Nat
  vTotal : Nat
  color : Nat := 0
  bpc : Nat := 10
  vesa : Bool := true
  hPos : Bool
  vPos : Bool
deriving DecidableEq, Repr

/-- One thing the device sent (log 10). -/
inductive Tx where
  /-- A write to host memory through the function of a Pavilion. -/
  | hostWrite (p : Fin 64) (addr : Nat) (data : List Byte)
  | msix (p : Fin 64) (vec : Nat) (addr : DWord) (data : Word)
  /-- A read request for ring entries: ring, tag, host address, count. -/
  | fetchReq (p : Fin 64) (q : Fin 8) (tag addr n : Nat)
  /-- A read request to host memory. -/
  | hostRead (p : Fin 64) (addr : Nat) (len : Nat)
  | readData (p : Fin 64) (data : List Byte)
  | regData (v : Word)
  | ur (p : Fin 64)
  | crs (p : Fin 64)
  | cfgData (p : Fin 64) (v : Word)
  | flit (l : Fin 12) (f : BitVec 256)
  | auxWrite (o : Fin 8) (addr : Nat) (v : Nat)
  | auxRead (o : Fin 8) (addr : Nat) (len : Nat)
  | i2cAux (o : Fin 8) (segment : Nat) (offset : Nat)
  /-- The pixel stream of one frame on an output's link, line by line, as words of R248 (R30). -/
  | pixels (o : Fin 8) (frame : Nat) (rows : List (List Nat))
  /-- The Main Stream Attributes of a stream that starts (R219), idle patterns (R215, R216), the main link off (R228). -/
  | msa (o : Fin 8) (a : Msa)
  | idle (o : Fin 8)
  | linkOff (o : Fin 8)
  | sideband (b : Byte)
  | jtag (v : List Bool)
  /-- One TDM frame of an audio output, from the BCLK before slot 0 on: FSYNC and SD in each of its 256 BCLKs (R531). A BCLK is counted from
  falling edge to falling edge, where FSYNC and SD change; a receiver samples them at the rising edge within. -/
  | audio (a : Nat) (fsync sd : List Bool)
  /-- The drive of a half-cycle (R518, R519): its length and how long both pins are low at its beginning and at its end, in microseconds, and in
  between the duties of HAPn_A and HAPn_B in 1/1,024, one for each PWM period of 16 µs from the half-cycle's start; without a period both pins are low. -/
  | haptic (h : Fin 16) (us lowUs : Nat) (a b : List Nat)
  | domeEvent (e : Ev)
  | memData (ok : Bool) (data : List Byte)
  | aer (port : Fin 4)
  /-- A host port withholds PCIe posted credits, or gives them again (R368). -/
  | postedCredits (port : Fin 4) (given : Bool)
  /-- A read of the boot flash (R582): command, address, clocks between the address and the data, mode bits where the command has them, bytes
  read. -/
  | flash (cmd : Byte) (addr : BitVec 32) (dummy : Nat) (mode : Option Byte) (n : Nat)
deriving DecidableEq, Repr

/-- An event that a timeout awaits (R8). -/
inductive Awaited where
  /-- A good flit on a link (R309), and an ACK that advances (R306). -/
  | flit (l : Fin 12)
  | ack (l : Fin 12)
  | sync
  | beat
  | presence (id : Nat)
  | stream (att : Nat)
  | timeIn
  | kick
  /-- A touch or a release of a control (R516). -/
  | touch
  /-- A trigger that a haptic channel has taken in this cycle: its priority, the rank of its source and the source (R526). -/
  | hap (h : Fin 16) (prio rank : Nat) (src : HapSrc)
  /-- A VOICE_START that a Pavilion has begun in this cycle (R534). -/
  | voice (v : Fin 16) (p : Fin 64)
deriving DecidableEq, Repr

/-! ### The machine -/

/-- The device. -/
structure State where
  pending : List Instr := []
  img : Images := {}
  stores : List Store := []
  /-- The words and atoms that hold an uncorrectable error (R404, R405, R422), and those that hold a single-bit one (R403, R421, R437). -/
  poison : List (MemId × Nat) := []
  flips : List (MemId × Nat) := []
  pavs : Vector Pav 64 := (Vector.replicate 64 {}).set 0 { present := true }
  ports : Vector Port 4 := Vector.replicate 4 {}
  flrDone : BitVec 64 := 0
  zeroQ : List Ext := []
  /-- Extents orphaned by Pavilion resets (R88, R89). -/
  orphanExts : List Ext := []
  slots : Vector Slot 256 := Vector.replicate 256 {}
  groups : List Group := []
  doneQ : List Done := []
  groupDefs : List GroupDef := []
  nextId : Nat := 0
  comps : Vector Comp 8 := Vector.replicate 8 {}
  outs : Vector Out 8 := Vector.replicate 8 {}
  belvs : Vector Belv 8 := Vector.replicate 8 {}
  ltn : Vector LtnPolicy 64 := Vector.replicate 64 {}
  ageSel : Nat := 0
  staleCount : Word := 0
  jobs : List Job := []
  cvus : Vector Cvu 16 := Vector.replicate 16 {}
  bports : Vector BPort 83
  /-- Requests that wait for tokens, oldest first, and the port that is served next among those that wait (R366). -/
  entry : List EntryReq := []
  entryTurn : Nat := 0
  period : Nat := 0
  evt : Evt := {}
  spire : Spire := {}
  dmcs : Vector Dmc 8 := Vector.replicate 8 {}
  dmcg : DmcGlobal := {}
  org : Org := {}
  keep : Keep := {}
  dome : Dome := {}
  gaz : Gaz := {}
  clk : Clk := {}
  pwr : Pwr := {}
  glb : Glb := {}
  /-- Higher words captured by a read of a low word (R14): the Pavilion of the page (64 for the device blocks), the offset and the word. -/
  caps : List (Nat × Nat × Word) := []
  /-- Memories and channels that have raised EV_ECC_CE in this budget period (R403, R421). -/
  ceRaised : List Nat := []
  tx : List Tx := []
  freeCount : Nat := 0
  /-- The awaited events registered since Spire time last moved (R8). -/
  arrived : List Awaited := []
deriving DecidableEq, Repr

/-- The grant of regulator port `q` after reset (R362). -/
def resetGrant (q : Nat) : Nat :=
  if q < 8 then 20000000 else if q < 16 then 6000000 else if q < 80 then 437500
  else if q < 82 then 4000000 else 6000000

/-- The regulators after reset: buckets full (R364), nothing waited. -/
def resetPorts : Vector BPort 83 :=
  Vector.ofFn fun q => { grant := resetGrant q.val, bucket := resetGrant q.val * 1000000 }

/-- The machine right after a power-on reset has ended, before the boot flow has run: every register at the value the
spec states for reset (log 4 names those it does not state), Spire time 0 (R321), nothing waiting (log 5). -/
def State.reset : State :=
  { bports := resetPorts
    dome := { held := (1 : BitVec 256) <<< 0x4F } }

end Sys2Proof.Machine
end

