-- ==== Sys2Proof/Machine/Bits.lean ====
section
/-!
DEFINITION. Bit fields, byte orders and counters: the helpers every meaning uses.
-/
namespace Sys2Proof.Machine
open Sys2Proof

/-- Field [hi:lo] of a number (R4). -/
def bits (v hi lo : Nat) : Nat := (v >>> lo) % 2 ^ (hi + 1 - lo)

/-- Bit k of a number. -/
def bit (v k : Nat) : Bool := v.testBit k

/-- A Bool as a bit. -/
def b2n (b : Bool) : Nat := if b then 1 else 0

/-- Little-endian bytes of a number (R5). -/
def leBytes (n v : Nat) : List Byte := (List.range n).map fun i => BitVec.ofNat 8 (v >>> (8 * i))

/-- The number that little-endian bytes spell (R5). -/
def ofLe (l : List Byte) : Nat := l.foldr (fun b acc => b.toNat + 256 * acc) 0

/-- `n` bytes at byte `k` of a packed little-endian value. -/
def uAt (v k n : Nat) : Nat := (v >>> (8 * k)) % 2 ^ (8 * n)

/-- A 32-bit counter that saturates. -/
def satInc (w : Word) : Word := if w = BitVec.allOnes 32 then w else w + 1

/-- A 32-bit counter raised by `n`, saturating. -/
def satAdd (w : Word) (n : Nat) : Word := BitVec.ofNat 32 (min (w.toNat + n) (2 ^ 32 - 1))

/-- A 16-bit counter that saturates. -/
def satInc16 (w : BitVec 16) : BitVec 16 := if w = BitVec.allOnes 16 then w else w + 1

/-- A 24-bit counter that saturates. -/
def satInc24 (w : BitVec 24) : BitVec 24 := if w = BitVec.allOnes 24 then w else w + 1

/-- Signed value of the low `n` bits. -/
def sext (n v : Nat) : Int := if (v % 2 ^ n).testBit (n - 1) then ((v % 2 ^ n : Nat) : Int) - 2 ^ n else ((v % 2 ^ n : Nat) : Int)

/-- Ceiling of a quotient; 0 when the divisor is 0. -/
def cdiv (a b : Nat) : Nat := (a + b - 1) / b

/-- A word from a number. -/
def w32 (n : Nat) : Word := BitVec.ofNat 32 n

/-- A 64-bit value from a number. -/
def w64 (n : Nat) : DWord := BitVec.ofNat 64 n

/-- Index types from numbers taken modulo the size. -/
def fp (n : Nat) : Fin 64 := Fin.ofNat 64 n
/-- Index 0 to 7. -/
def f8 (n : Nat) : Fin 8 := Fin.ofNat 8 n
/-- Index 0 to 15. -/
def f16 (n : Nat) : Fin 16 := Fin.ofNat 16 n
/-- Index 0 to 255. -/
def f256 (n : Nat) : Fin 256 := Fin.ofNat 256 n
/-- Rate group 0 to 3. -/
def f4 (n : Nat) : Fin 4 := Fin.ofNat 4 n
/-- Link 0 to 11. -/
def f12 (n : Nat) : Fin 12 := Fin.ofNat 12 n
/-- Regulator port 0 to 82. -/
def f83 (n : Nat) : Fin 83 := Fin.ofNat 83 n
/-- Control 0 to 31. -/
def f32 (n : Nat) : Fin 32 := Fin.ofNat 32 n

/-- One entry of a vector changed. -/
def upd {α : Type} {n : Nat} (v : Vector α n) (i : Fin n) (f : α → α) : Vector α n := v.set i.val (f v[i.val])

/-- The indices of a vector. -/
def idx (n : Nat) : List (Fin n) := List.finRange n

/-- The other half of a word from a write: fields under `mask` are taken from `v`. -/
def mergeW (old v mask : Word) : Word := (old &&& ~~~mask) ||| (v &&& mask)

/-- Bit k of a vector given a value. -/
def putB {w : Nat} (v : BitVec w) (k : Nat) (b : Bool) : BitVec w := if b then v ||| (1#w <<< k) else v &&& ~~~(1#w <<< k)

/-- Reversal of the low `n` bits. -/
def revBits (n v : Nat) : Nat := (List.range n).foldl (fun acc i => acc * 2 + b2n (v.testBit i)) 0

/-- Payload field of a descriptor: `n` bytes at descriptor byte `k` (k ≥ 8). -/
def dU (d : Desc) (k n : Nat) : Nat := uAt d.payload.toNat (k - 8) n

/-- Bits [hi:lo] of the field of `n` bytes at byte `k`. -/
def dBits (d : Desc) (k n hi lo : Nat) : Nat := bits (dU d k n) hi lo

end Sys2Proof.Machine
end

