-- ==== Sys2Proof/Machine/Crc.lean ====
section
/-!
DEFINITION. The check value of R484 and its stored form (R485).
-/
namespace Sys2Proof.Machine
open Sys2Proof

/-- One data bit taken into the register (R484). -/
def crcBit (w poly reg : Nat) (b : Bool) : Nat :=
  let sh := (reg * 2) % 2 ^ w
  if reg.testBit (w - 1) != b then sh ^^^ (poly % 2 ^ w) else sh

/-- One byte taken into the register (R484). -/
def crcByte (c : Crc) (reg : Nat) (b : Byte) : Nat :=
  let d := if c.refin then revBits 8 b.toNat else b.toNat
  [7, 6, 5, 4, 3, 2, 1, 0].foldl (fun r i => crcBit c.width c.poly.toNat r (d.testBit i)) reg

/-- The register before the first byte (R484). -/
def crcStart (c : Crc) : Nat := c.init.toNat % 2 ^ c.width

/-- The check value from the register (R484). -/
def crcFinish (c : Crc) (reg : Nat) : Nat :=
  let r := if c.refout then revBits c.width reg else reg
  (r ^^^ c.xorout.toNat) % 2 ^ c.width

/-- The check value over a byte sequence (R484). -/
def crcOf (c : Crc) (l : List Byte) : Nat := crcFinish c (l.foldl (crcByte c) (crcStart c))

/-- Bytes a check value occupies (R485). -/
def crcBytes (c : Crc) : Nat := cdiv c.width 8

/-- Whether stored check-value bytes match, bits above the width ignored (R485). -/
def crcMatch (c : Crc) (v : Nat) (stored : List Byte) : Bool := ofLe stored % 2 ^ c.width == v

/-- The CRC-16 of a flit (R299). -/
def crc16 : Crc := { width := 16, refin := false, refout := false, poly := 0x1021, init := 0xFFFF, xorout := 0 }

/-- The CRC-8 of an event log entry (R638). -/
def crc8 : Crc := { width := 8, refin := false, refout := false, poly := 0x07, init := 0xFF, xorout := 0 }

end Sys2Proof.Machine
end

