-- ==== Sys2Proof/Machine/Ops.lean ====
section
/-!
DEFINITION. The named operations every meaning is built from: reading and storing memory, updating one unit, free
values, interrupts, completions, events and the event log.
-/
namespace Sys2Proof.Machine
open Sys2Proof

/-! ### Memory -/

/-- The size of each memory in bytes (R652, R655); the DRAM's is its capacity (R372). -/
def dramGib (g : DmcGlobal) : Nat := 16 * (if g.density then 2 else 1) * (if g.ranks2 then 2 else 1)

/-- Bytes of a memory: Orangery 32 MiB, Keep 16 MiB, Dome SRAM 2 MiB, line-buffer pool 24 MiB, DRAM as fitted. -/
def State.memSize (s : State) : MemId → Nat
  | .dram => dramGib s.dmcg * 2 ^ 30
  | .org => 2 ^ 25
  | .keep => 2 ^ 24
  | .dome => 2 ^ 21
  | .pool => 24 * 2 ^ 20

/-- The cells of one memory's image. -/
def Images.cells (i : Images) : MemId → List Host.Cell
  | .dram => i.dram
  | .org => i.org
  | .keep => i.keep
  | .dome => i.dome
  | .pool => i.pool

/-- What a cell list holds at an offset; an unlisted byte reads 0 (log 7). -/
def cellGet : List Host.Cell → Nat → Byte
  | [], _ => 0
  | (k, v) :: rest, a => if k = a then v else cellGet rest a

/-- A cell list with one byte changed, kept in canonical form: offsets rising, no zero byte listed. -/
def cellSet : List Host.Cell → Nat → Byte → List Host.Cell
  | [], a, v => if v = 0 then [] else [(a, v)]
  | (k, w) :: rest, a, v =>
    if a < k then (if v = 0 then (k, w) :: rest else (a, v) :: (k, w) :: rest)
    else if a = k then (if v = 0 then rest else (a, v) :: rest)
    else (k, w) :: cellSet rest a v

/-- A cell list with the offsets from `lo` up to `hi` made zero. -/
def cellClear (l : List Host.Cell) (lo hi : Nat) : List Host.Cell := l.filter fun c => c.1 < lo || hi ≤ c.1

/-- The canonical form of a cell list: offsets strictly rising and no zero byte. -/
def cellsWf : List Host.Cell → Bool
  | [] => true
  | [(_, v)] => v != 0
  | (k, v) :: (k', v') :: rest => v != 0 && decide (k < k') && cellsWf ((k', v') :: rest)

/-- The canonical form of all memories. -/
def Images.wf (i : Images) : Bool := cellsWf i.dram && cellsWf i.org && cellsWf i.keep && cellsWf i.dome && cellsWf i.pool

/-- One store applied to the images. -/
def Images.apply (i : Images) : Store → Images
  | .byte .dram a v => { i with dram := cellSet i.dram a v }
  | .byte .org a v => { i with org := cellSet i.org a v }
  | .byte .keep a v => { i with keep := cellSet i.keep a v }
  | .byte .dome a v => { i with dome := cellSet i.dome a v }
  | .byte .pool a v => { i with pool := cellSet i.pool a v }
  | .clear .dram lo hi => { i with dram := cellClear i.dram lo hi }
  | .clear .org lo hi => { i with org := cellClear i.org lo hi }
  | .clear .keep lo hi => { i with keep := cellClear i.keep lo hi }
  | .clear .dome lo hi => { i with dome := cellClear i.dome lo hi }
  | .clear .pool lo hi => { i with pool := cellClear i.pool lo hi }

/-- The images after a command's stores, the oldest store last in the list. -/
def Images.applyAll (i : Images) (l : List Store) : Images := l.foldr (fun st i => i.apply st) i

/-- What the stores of the running command say of a byte, the newest first. -/
def storeGet : List Store → MemId → Nat → Option Byte
  | [], _, _ => none
  | .byte m k v :: rest, n, a => if m = n ∧ k = a then some v else storeGet rest n a
  | .clear m lo hi :: rest, n, a => if m = n ∧ lo ≤ a ∧ a < hi then some 0 else storeGet rest n a

/-- The byte a memory's cells hold, the running command's stores included. -/
def State.rdCell (s : State) (m : MemId) (a : Nat) : Byte :=
  match storeGet s.stores m a with
  | some v => v
  | none => cellGet (s.img.cells m) a

/-- The newest queued byte of an atom for an address (R383). -/
def wqGet : List WAtom → Nat → Option Byte
  | [], _ => none
  | w :: rest, a =>
    if w.addr = a / 64 * 64 then
      match w.bytes.lookup (a % 64) with
      | some v => some v
      | none => wqGet rest a
    else wqGet rest a

/-- The channel of a DRAM address (R376). -/
def chanOf (a : Nat) : Fin 8 := f8 (bits a 10 8 ^^^ bits a 15 13 ^^^ bits a 20 18)

/-- The newest buffered byte of the Keep's write buffer for an address, of writes listed oldest first (R435). -/
def bufGet : List (Nat × List Byte) → Nat → Option Byte → Option Byte
  | [], _, r => r
  | (k, l) :: rest, a, r => bufGet rest a (if k ≤ a then (match l[a - k]? with | some v => some v | none => r) else r)

/-- One byte of memory as a reader sees it: in the DRAM, the newest queued byte, in the Keep the buffered one, else what the memory holds (R383,
R435). The Dome's buffered writes go before the aperture's (R436), so that the aperture's are the newer. -/
def State.rdByte (s : State) (m : MemId) (a : Nat) : Byte :=
  match m with
  | .dram =>
    match wqGet (s.dmcs[(chanOf a).val]).wq a with
    | some v => v
    | none => s.rdCell .dram a
  | .keep =>
    match bufGet s.keep.buf a (bufGet s.keep.dbuf a none) with
    | some v => v
    | none => s.rdCell .keep a
  | m => s.rdCell m a

/-- `n` bytes of memory. -/
def State.rdBytes (s : State) (m : MemId) (a n : Nat) : List Byte := (List.range n).map fun i => s.rdByte m (a + i)

/-- A little-endian value of `n` bytes in memory. -/
def State.rdVal (s : State) (m : MemId) (a n : Nat) : Nat := ofLe (s.rdBytes m a n)

/-- One byte stored to a memory's cells. -/
def State.stCell (s : State) (m : MemId) (a : Nat) (v : Byte) : State := { s with stores := .byte m a v :: s.stores }

/-- Bank (with the rank above it) and row of a DRAM address (R376, R377). -/
def rowOf (ranks2 : Bool) (a : Nat) : Nat × Nat :=
  let l := a % 256 + a / 2048 * 256
  (bits l 15 12 + (if ranks2 then bits l 16 16 * 16 else 0), l >>> (if ranks2 then 17 else 16))

/-- The open rows of a channel after an access: the row left open or closed by its hint or by DMC_PAGE_CTL.FORCE, another row of its bank
closed (R378, R379). -/
def Dmc.touchRow (d : Dmc) (ranks2 : Bool) (a : Nat) (keepOpen : Bool) : Dmc :=
  let (b, r) := rowOf ranks2 a
  let keep := match d.pageForce with | 1 => true | 2 => false | _ => keepOpen
  { d with openRows := (if keep && d.idleClose != 0 then [(b, r)] else []) ++ d.openRows.filter fun q => q.1 != b }

/-- An access to a row at its channel. -/
def State.rowUse (s : State) (a : Nat) (keepOpen : Bool) : State :=
  { s with dmcs := upd s.dmcs (chanOf a) fun d => d.touchRow s.dmcg.ranks2 a keepOpen }

/-- Whether an access to an address hits an open row. -/
def Dmc.rowHit (d : Dmc) (ranks2 : Bool) (a : Nat) : Bool := d.openRows.contains (rowOf ranks2 a)

/-- Bytes stored to the cells of a memory from an address on. -/
def State.stCells (s : State) (m : MemId) (a : Nat) (l : List Byte) : State :=
  (l.zipIdx).foldl (fun s b => s.stCell m (a + b.2) b.1) s

/-- Bytes under one error check: a DRAM atom, the 64-bit lane of an SRAM word (R415), a Keep word (11, Keep). -/
def wordBytes : MemId → Nat
  | .dram => 64
  | _ => 8

/-- The word or atom of a memory that an address lies in. -/
def wordAt (m : MemId) (a : Nat) : MemId × Nat := (m, a / wordBytes m * wordBytes m)

/-- Errors of the words that lie wholly in a range end: it has been written with valid check bits (R405, R427). -/
def State.unpoison (s : State) (m : MemId) (a n : Nat) : State :=
  let out (q : MemId × Nat) : Bool := !(q.1 == m && decide (a ≤ q.2) && decide (q.2 + wordBytes m ≤ a + n))
  { s with poison := s.poison.filter out, flips := s.flips.filter out }

/-- A range of a memory made zero, with valid check bits and nothing queued for it: the clear of a reset or a boot. -/
def State.zero (s : State) (m : MemId) (lo hi : Nat) : State :=
  { s with stores := .clear m lo hi :: s.stores }.unpoison m lo (hi - lo)

/-- The memory and offset a device address names (R652); none where nothing is mapped. -/
def State.locate (s : State) (a : Nat) : Option (MemId × Nat) :=
  if a < 0x2000000 then some (.org, a)
  else if 0x10000000 ≤ a ∧ a < 0x11000000 then some (.keep, a - 0x10000000)
  else if 0x1000000000 ≤ a ∧ a < 0x1000000000 + s.memSize .dram then some (.dram, a - 0x1000000000)
  else none

/-- Bytes at a device address; unmapped bytes read 0. -/
def State.rdDev (s : State) (a n : Nat) : List Byte :=
  (List.range n).map fun i => match s.locate (a + i) with | some (m, o) => s.rdByte m o | none => 0

/-- Whether every DRAM access is answered with an error: XIN has failed (R552), or the boot enabled no DRAM (R590, R594). -/
def State.dramGone (s : State) : Bool := s.clk.onRco || s.pwr.dramFail || s.pwr.stage == 15

/-- Whether a DRAM address lies in an ECC region (R400). -/
def State.inEcc (s : State) (a : Nat) : Bool :=
  s.dmcg.eccRegion.toList.any fun w =>
    let b := bits w.toNat 9 0 * 2 ^ 26
    w.getLsbD 31 && decide (b ≤ a) && decide (a < b + bits w.toNat 26 16 * 2 ^ 26)

/-- The words of a list of errors that a range of a memory meets. -/
def errIn (l : List (MemId × Nat)) (m : MemId) (a n : Nat) : List Nat :=
  (l.filter fun q => q.1 == m && decide (q.2 < a + n) && decide (a < q.2 + wordBytes m)).map Prod.snd

/-- The words of a range that read as uncorrectable (R404, R405, R422): in the DRAM only atoms of ECC regions, in
the Keep no word that stands whole in the write buffer (R435). -/
def State.badWords (s : State) (m : MemId) (a n : Nat) : List Nat :=
  (errIn s.poison m a n).filter fun w => match m with
    | .dram => s.inEcc w
    | .keep => !(List.range 8).all fun i => (bufGet s.keep.buf (w + i) (bufGet s.keep.dbuf (w + i) none)).isSome
    | _ => true

/-- Whether a range of a memory reads as uncorrectable, or not at all. -/
def State.poisoned (s : State) (m : MemId) (a n : Nat) : Bool := (m == .dram && s.dramGone) || !(s.badWords m a n).isEmpty

/-- The error that an access finds in a word or atom as it reads it: it stays there until it is corrected or written over (R403, R405, R421,
R651). -/
def State.meet (s : State) (m : MemId) (a : Nat) (e : Ecc) : State :=
  let q := wordAt m a
  match e with
  | .clean => s
  | .corrected => if s.flips.contains q then s else { s with flips := q :: s.flips }
  | .uncorrectable => if s.poison.contains q then s else { s with poison := q :: s.poison }

/-! ### Who may reach what (12, Dividing memory) -/

/-- The memory number of INSTANCE and of the region registers: 0 DRAM, 1 Orangery, 2 Keep. -/
def memNo : MemId → Nat
  | .dram => 0
  | .org => 1
  | _ => 2

/-- Whether a DRAM block lies in the top eighth of an ECC region (R402). -/
def State.eccTop (s : State) (blk : Nat) : Bool :=
  s.dmcg.eccRegion.toList.any fun w =>
    let b := bits w.toNat 9 0 * 2 ^ 26
    let z := bits w.toNat 26 16 * 2 ^ 26
    w.getLsbD 31 && decide (b + z / 8 * 7 ≤ blk * 4096) && decide (blk * 4096 < b + z)

/-- Whether a master may reach a 4 KiB block (R402, R420, R463, R465). -/
def State.permitBlock (s : State) (master : Nat) (secure : Bool) (m : MemId) (write : Bool) (blk : Nat) : Bool :=
  if m == .dram && s.eccTop blk then false
  else if master == 10 && m == .org && s.org.marchRun then true
  else if s.dome.wmMode then master == 0 || master == 10 || decide (s.dome.watermark[memNo m % 3]'(Nat.mod_lt _ (by decide)) ≤ blk)
  else
    match (s.dome.regions[memNo m % 3]'(Nat.mod_lt _ (by decide))).toList.find? fun r => r.en && decide (r.base ≤ blk) && decide (blk ≤ r.limit) with
    | some r => (if write then r.write.getLsbD master else r.read.getLsbD master) && (!r.secure || secure)
    | none => master == 0

/-- Whether a master may make an access (R462). -/
def State.permit (s : State) (master : Nat) (secure : Bool) (m : MemId) (a n : Nat) (write : Bool) : Bool :=
  (List.range ((a + max n 1 - 1) / 4096 - a / 4096 + 1)).all fun k => s.permitBlock master secure m write (a / 4096 + k)

/-! ### One unit changed -/

/-- A Pavilion changed. -/
def State.modPav (s : State) (p : Fin 64) (f : Pav → Pav) : State := { s with pavs := upd s.pavs p f }
/-- A host port changed. -/
def State.modPort (s : State) (p : Fin 4) (f : Port → Port) : State := { s with ports := upd s.ports p f }
/-- A slot changed. -/
def State.modSlot (s : State) (i : Fin 256) (f : Slot → Slot) : State := { s with slots := upd s.slots i f }
/-- An output changed. -/
def State.modOut (s : State) (o : Fin 8) (f : Out → Out) : State := { s with outs := upd s.outs o f }
/-- A composer changed. -/
def State.modComp (s : State) (o : Fin 8) (f : Comp → Comp) : State := { s with comps := upd s.comps o f }
/-- A Belvedere slot changed. -/
def State.modBelv (s : State) (o : Fin 8) (f : Belv → Belv) : State := { s with belvs := upd s.belvs o f }
/-- A check-value channel changed. -/
def State.modCvu (s : State) (c : Fin 16) (f : Cvu → Cvu) : State := { s with cvus := upd s.cvus c f }
/-- A DMC changed. -/
def State.modDmc (s : State) (c : Fin 8) (f : Dmc → Dmc) : State := { s with dmcs := upd s.dmcs c f }
/-- A regulator changed. -/
def State.modBport (s : State) (q : Fin 83) (f : BPort → BPort) : State := { s with bports := upd s.bports q f }
/-- A Spire link changed. -/
def State.modLink (s : State) (l : Fin 12) (f : Link → Link) : State :=
  { s with spire := { s.spire with links := upd s.spire.links l f } }
/-- A control changed. -/
def State.modCtl (s : State) (c : Fin 32) (f : Control → Control) : State :=
  { s with gaz := { s.gaz with controls := upd s.gaz.controls c f } }
/-- A haptic channel changed. -/
def State.modHap (s : State) (h : Fin 16) (f : Hap → Hap) : State :=
  { s with gaz := { s.gaz with haps := upd s.gaz.haps h f } }
/-- A voice changed. -/
def State.modVoice (s : State) (v : Fin 16) (f : Voice → Voice) : State :=
  { s with gaz := { s.gaz with voices := upd s.gaz.voices v f } }
/-- A viewport of a Pavilion changed. -/
def State.modView (s : State) (p : Fin 64) (v : Fin 8) (f : View → View) : State :=
  s.modPav p fun q => { q with views := upd q.views v f }
/-- A submission ring changed. -/
def State.modSq (s : State) (p : Fin 64) (q : Fin 8) (f : Sq → Sq) : State :=
  s.modPav p fun v => { v with sqs := upd v.sqs q f }
/-- The completion ring changed. -/
def State.modCq (s : State) (p : Fin 64) (f : Cq → Cq) : State := s.modPav p fun v => { v with cq := f v.cq }
/-- The event ring changed. -/
def State.modEq (s : State) (p : Fin 64) (f : Evq → Evq) : State := s.modPav p fun v => { v with eq := f v.eq }
/-- A mailbox slot changed. -/
def State.modMbox (s : State) (p : Fin 64) (i : Fin 2) (f : MboxSlot → MboxSlot) : State :=
  s.modPav p fun v => { v with mbox := upd v.mbox i f }

/-- An island's clock runs, or stops. -/
def State.runIsland (s : State) (i : Nat) (b : Bool) : State := { s with clk := { s.clk with run := putB s.clk.run i b } }

/-- An access to a gated island wakes it (R27). -/
def State.wakeIsland (s : State) (i : Nat) : State := if s.clk.run.getLsbD i then s else s.runIsland i true

/-- The islands by their code (15): host port n, composer n, output n, link n, DRAM channel n, the Orangery. -/
def islHost (n : Nat) : Nat := 3 + n
def islComp (n : Nat) : Nat := 7 + n
def islOut (n : Nat) : Nat := 15 + n
def islLink (n : Nat) : Nat := 23 + n
def islDmc (n : Nat) : Nat := 35 + n
def islOrg : Nat := 43
def islFabric : Nat := 2
def islGazebo : Nat := 44

/-- An event that a timeout awaits is registered (R8). -/
def State.arrive (s : State) (a : Awaited) : State := if s.arrived.contains a then s else { s with arrived := a :: s.arrived }

/-- Something sent (log 10). -/
def State.emit (s : State) (t : Tx) : State := { s with tx := t :: s.tx }

/-- Spire time (R7). -/
def State.now (s : State) : DWord := s.spire.now

/-- A fresh free value and the state with the counter advanced (log 6). -/
def State.free (s : State) : DWord × State := (Config.freeValue s.freeCount, { s with freeCount := s.freeCount + 1 })

/-- The host port of a Pavilion. -/
def portOf (p : Fin 64) : Fin 4 := f4 (p.val / 16)

/-- Whether a Pavilion is present (R45). -/
def State.present (s : State) (p : Fin 64) : Bool := s.pavs[p.val].present

/-- The state an effect leaves: its stores applied to the memories, the queue as it was. -/
def State.run (s : State) (f : State → State) : State :=
  let t := f s
  { t with img := s.img.applyAll t.stores, stores := [], pending := s.pending }

/-- An effect as the outcome of a command. -/
def runOk (f : State → State) (s : State) : Host.Outcome State Fault Refusal := .next (s.run f)

/-! ### Interrupts and posting -/

/-- Whether a Pavilion's function may send requests: present, port linked, Bus Master Enable set. -/
def State.canPost (s : State) (p : Fin 64) : Bool := s.pavs[p.val].present && s.pavs[p.val].bme

/-- Whether a function sends MSI-X messages: it may send requests, MSI-X Enable is set and Function Mask clear (R41; log 11). -/
def State.msixOn (s : State) (p : Fin 64) : Bool := s.canPost p && s.pavs[p.val].fn.msixEn && !s.pavs[p.val].fn.msixMask

/-- A message on an MSI-X vector: sent, or kept in the PBA while the vector is masked (R86). Where the function sends none it is kept as well. -/
def State.msi (s : State) (p : Fin 64) (vec : Nat) : State :=
  let v := Fin.ofNat 32 vec
  let m := s.pavs[p.val].msix[v.val]
  if m.masked || !s.msixOn p then s.modPav p fun q => { q with msix := upd q.msix v fun m => { m with pend := true } }
  else s.emit (.msix p v.val m.addr m.data)

/-- The ring-error interrupt on PAV_ERR_VECTOR (R61, R67, R71, R74). -/
def State.errMsi (s : State) (p : Fin 64) : State := s.msi p (bits s.pavs[p.val].errVector.toNat 4 0)

/-- Entries of a ring (R59). -/
def ringN (size : Nat) : Nat := 2 ^ size

/-- Entries between two free-running indices, counted forward mod 65,536. -/
def gap (a b : BitVec 16) : Nat := (b - a).toNat

/-- Free entries of the completion ring; none while it is disabled (R63, R69). -/
def cqFree (c : Cq) : Nat := if c.enable then min (ringN c.size) 65535 - gap c.head c.tail else 0

/-- Free entries of the event ring. -/
def eqFree (e : Evq) : Nat := if e.enable then min (ringN e.size) 65535 - gap e.head e.tail else 0

/-- The completion ring's interrupt, ending its moderation (R83). -/
def State.cqInt (s : State) (p : Fin 64) : State :=
  (s.msi p s.pavs[p.val].cq.vector).modCq p fun c => { c with unsig := 0, timer := false }

/-- The vector of an event group (R84). -/
def eqVec (e : Evq) (g : Nat) : Nat :=
  bits (if g < 4 then e.vecMap0.toNat else e.vecMap1.toNat) (8 * (g % 4) + 4) (8 * (g % 4))

/-- The event ring's interrupt: one message on each vector named by a group with unsignalled records (R84). -/
def State.eqInt (s : State) (p : Fin 64) : State :=
  let e := s.pavs[p.val].eq
  let vecs := ((List.range 8).filter fun g => e.unsigGroups.getLsbD g).map (eqVec e)
  (vecs.eraseDups.foldl (fun s v => s.msi p v) s).modEq p fun e => { e with unsig := 0, unsigGroups := 0, timer := false }

/-- The COUNT of a moderation register; 0 acts as 1. -/
def modCount (m : Word) : Nat := max 1 (bits m.toNat 7 0)

/-- One record written to the completion ring with its tail shadow and moderation (R77, R83). -/
def State.cqWrite (s : State) (p : Fin 64) (rec : BitVec 128) : State :=
  let c := s.pavs[p.val].cq
  let s := s.emit (.hostWrite p (c.base.toNat + c.tail.toNat % ringN c.size * 16) (leBytes 16 rec.toNat))
  let s := s.emit (.hostWrite p c.shadow.toNat (leBytes 4 (c.tail + 1).toNat))
  let s := s.modCq p fun c => { c with tail := c.tail + 1, unsig := c.unsig + 1, timer := true }
  if modCount c.mod ≤ c.unsig + 1 then s.cqInt p else s

/-- A completion record posted, or held while the ring is disabled or Bus Master Enable is clear (R63). -/
def State.postCq (s : State) (p : Fin 64) (rec : BitVec 128) : State :=
  let v := s.pavs[p.val]
  if v.cq.enable && v.bme && v.cq.held.isEmpty && decide (0 < cqFree v.cq) then s.cqWrite p rec
  else s.modCq p fun c => { c with held := c.held ++ [rec] }

/-- Held completion records written while the ring takes them (R63). -/
def State.flushCq : Nat → State → Fin 64 → State
  | 0, s, _ => s
  | n + 1, s, p =>
    let v := s.pavs[p.val]
    match v.cq.held with
    | [] => s
    | r :: rest =>
      if v.cq.enable && v.bme && decide (0 < cqFree v.cq) then
        State.flushCq n ((s.modCq p fun c => { c with held := rest }).cqWrite p r) p
      else s

/-- Status codes (03). -/
def stOk : Nat := 0x00
def stDeferred : Nat := 0x01
def stLate : Nat := 0x02
def stExpired : Nat := 0x03
def stHeldWall : Nat := 0x04
def stBadOpcode : Nat := 0x10
def stBadField : Nat := 0x11
def stNoLease : Nat := 0x12
def stBadFormat : Nat := 0x13
def stLbufShort : Nat := 0x14
def stLineCost : Nat := 0x15
def stBudgetLimit : Nat := 0x16
def stCheckFail : Nat := 0x20
def stFenceTimeout : Nat := 0x21
def stSecureHeld : Nat := 0x30
def stGateTimeout : Nat := 0x31
def stDomeDown : Nat := 0x32
def stDeviceAbort : Nat := 0x3F

/-- A completion record's bytes (03, completion records). -/
def cqRecord (seq : BitVec 16) (status : Nat) (sq : Fin 8) (deferred late heldWall : Bool) (op : BitVec 8) (field : Nat)
    (result : Nat) : BitVec 128 :=
  BitVec.ofNat 128 (seq.toNat + status * 2 ^ 16 + (sq.val + 8 * b2n deferred + 16 * b2n late + 32 * b2n heldWall) * 2 ^ 24
    + op.toNat * 2 ^ 32 + field % 256 * 2 ^ 40 + result % 2 ^ 64 * 2 ^ 64)

/-- The completion of one descriptor: its record posted (R76), the ring's count of live descriptors lowered. -/
def State.complete (s : State) (p : Fin 64) (sq : Fin 8) (seq : BitVec 16) (op : BitVec 8) (status : Nat)
    (deferred late heldWall : Bool) (field result : Nat) : State :=
  (s.modSq p sq fun q => { q with live := q.live - 1 }).postCq p
    (cqRecord seq status sq deferred late heldWall op field result)

/-- A success: STATUS is the highest applying code among deferred, late and held (R111). -/
def State.completeOk (s : State) (p : Fin 64) (sq : Fin 8) (seq : BitVec 16) (op : BitVec 8)
    (deferred late heldWall : Bool) (result : Nat) : State :=
  s.complete p sq seq op (if heldWall then stHeldWall else if late then stLate else if deferred then stDeferred else stOk)
    deferred late heldWall 0xFF result

/-! ### Events -/

/-- Event codes (03). -/
def evVblank : Nat := 0x01
def evLineMatch : Nat := 0x02
def evFrameDone : Nat := 0x03
def evUnderrun : Nat := 0x04
def evSafeFrame : Nat := 0x05
def evHpd : Nat := 0x06
def evDpLinkFail : Nat := 0x07
def evCapIncomplete : Nat := 0x08
def evCommitLate : Nat := 0x10
def evFenceHold : Nat := 0x11
def evStale : Nat := 0x12
def evStaleClear : Nat := 0x13
def evProofFail : Nat := 0x14
def evWallHold : Nat := 0x15
def evLinkDown : Nat := 0x20
def evLinkUp : Nat := 0x21
def evTopoMismatch : Nat := 0x22
def evMasterFailover : Nat := 0x23
def evSafeMsg : Nat := 0x24
def evTimeHoldover : Nat := 0x25
def evImportLost : Nat := 0x26
def evRefreshBurst : Nat := 0x30
def evEccCe : Nat := 0x31
def evEccUe : Nat := 0x32
def evRegionViolation : Nat := 0x33
def evClkFail : Nat := 0x40
def evPllCoast : Nat := 0x41
def evSwitchForced : Nat := 0x42
def evGateTimeout : Nat := 0x43
def evThermal : Nat := 0x44
def evPavReset : Nat := 0x45
def evSecureHeld : Nat := 0x50
def evDomeDown : Nat := 0x51
def evTamper : Nat := 0x52
def evHandover : Nat := 0x53
def evTouch : Nat := 0x60
def evStuckTouch : Nat := 0x61
def evHapticDone : Nat := 0x62
def evBudgetDefer : Nat := 0x70
def evLogLost : Nat := 0x71

/-- The event codes of the table; every other code is reserved. -/
def eventCodes : List Nat :=
  [0x01, 0x02, 0x03, 0x04, 0x05, 0x06, 0x07, 0x08, 0x10, 0x11, 0x12, 0x13, 0x14, 0x15, 0x20, 0x21, 0x22, 0x23, 0x24,
   0x25, 0x26, 0x30, 0x31, 0x32, 0x33, 0x40, 0x41, 0x42, 0x43, 0x44, 0x45, 0x50, 0x51, 0x52, 0x53, 0x60, 0x61, 0x62,
   0x70, 0x71]

/-- The non-maskable events (R634). -/
def isNmi (code : Nat) : Bool := code == evClkFail || code == evDomeDown || code == evTamper

/-- The bytes of an event record (03, event records). -/
def eqRecord (e : Ev) (seq : BitVec 16) : List Byte :=
  leBytes 1 e.code ++ leBytes 1 (b2n (isNmi e.code)) ++ leBytes 2 seq.toNat ++ leBytes 1 e.inst ++ leBytes 1 e.view
    ++ leBytes 2 e.handle ++ leBytes 8 e.time.toNat ++ leBytes 8 e.frame ++ leBytes 8 e.detail

/-- One record written to the event ring, with its shadow, moderation and charge (R77, R83 to R85, R346). -/
def State.eqWrite (s : State) (p : Fin 64) (ev : Ev) : State :=
  let e := s.pavs[p.val].eq
  let s := s.emit (.hostWrite p (e.base.toNat + e.tail.toNat % ringN e.size * 32) (eqRecord ev e.seq))
  let s := s.emit (.hostWrite p e.shadow.toNat (leBytes 4 (e.tail + 1).toNat))
  let s := s.modEq p fun e => { e with tail := e.tail + 1, seq := e.seq + 1 }
  let s := s.modPav p fun v => { v with used := upd v.used 3 (· + 1) }
  if isNmi ev.code then s.msi p (eqVec e (ev.code / 16))
  else
    let s := s.modEq p fun e => { e with unsig := e.unsig + 1, unsigGroups := e.unsigGroups ||| (1 <<< (ev.code / 16)), timer := true }
    if modCount e.mod ≤ e.unsig + 1 then s.eqInt p else s

/-- The Dome notes an event that a SAFE_OUT entry names: one ALARM per entry and period waits to be sent, unless one of
that entry waits already (R458, R647). -/
def State.safeOut (s : State) (ev : Ev) : State :=
  if s.dome.st != .run then s
  else
    (s.dome.policy.safeOut.zipIdx).foldl (fun s q =>
      let (e, i) := q
      if e.code == ev.code && (e.inst == 0xFF || e.inst == ev.inst) && !s.dome.safeOutDone.contains i
          && !(s.dome.alarms.any fun a => a.2 == some i) && decide (s.dome.alarms.length < 64) then
        { s with dome := { s.dome with alarms := s.dome.alarms ++ [(e.word, some i)], safeOutDone := i :: s.dome.safeOutDone } }
      else s) s

/-- An event that cannot be posted: counted, and owed an EV_LOG_LOST (R79, R80). -/
def State.eqLose (s : State) (p : Fin 64) : State := s.modEq p fun e => { e with lost := satInc e.lost, owed := true }

/-- EV_LOG_LOST posted before any other event once losses are owed and 2 entries are free (R80, R635). What brings it about is the next record
to the ring, its doorbell or a new period: where the loss came from a full event hold while the ring has room, it waits for one of these
(DESIGN CHOICE, log 48). -/
def State.eqOwed (s : State) (p : Fin 64) : State :=
  let e := s.pavs[p.val].eq
  if e.owed && decide (2 ≤ eqFree e) && s.pavs[p.val].bme then
    let ev : Ev := { code := evLogLost, time := s.now, detail := e.lost.toNat }
    ((s.modEq p fun e => { e with owed := false }).safeOut ev).eqWrite p ev
  else s

/-- Whether the event ring can take a record of this kind (R63, R79). -/
def State.eqRoom (s : State) (p : Fin 64) (nmi : Bool) : Bool :=
  s.pavs[p.val].bme && decide ((if nmi then 1 else 2) ≤ eqFree s.pavs[p.val].eq)

/-- An event posted to the ring, or counted as lost (R79 to R81). -/
def State.eqPost (s : State) (p : Fin 64) (ev : Ev) : State :=
  let s := s.eqOwed p
  if s.eqRoom p (isNmi ev.code) then s.eqWrite p ev else s.eqLose p

/-- EV_BUDGET_DEFER for one quota first used up in the period (R351); never held (R349). -/
def State.noteOne (s : State) (p : Fin 64) (k : Fin 4) : State :=
  let v := s.pavs[p.val]
  if v.limits[k.val] != BitVec.allOnes 64 && decide (v.limits[k.val].toNat ≤ v.used[k.val]) && !v.deferRaised[k.val] then
    let s := s.modPav p fun v => { v with overrun := upd v.overrun k satInc, deferRaised := upd v.deferRaised k fun _ => true }
    let n := s.pavs[p.val].overrun[k.val]
    let ev : Ev := { code := evBudgetDefer, inst := k.val, time := s.now, detail := n.toNat }
    let s := s.safeOut ev
    if v.armed.getLsbD evBudgetDefer then s.eqPost p ev else s
  else s

/-- What a charge to a quota brings about (R351): the event it posts is itself charged to the event quota. -/
def State.noteQuota (s : State) (p : Fin 64) (k : Fin 4) : State := let s := s.noteOne p k; if k = 3 then s else s.noteOne p 3

/-- EV_LOG_LOST announced where it is owed (R80), with its charge (R351). -/
def State.announce (s : State) (p : Fin 64) : State := (s.eqOwed p).noteQuota p 3

/-- Whether a quota is used up in this period (R346). -/
def quotaUp (v : Pav) (k : Fin 4) : Bool :=
  v.limits[k.val] != BitVec.allOnes 64 && decide (v.limits[k.val].toNat ≤ v.used[k.val])

/-- A charge to a quota (R346, R351). -/
def State.charge (s : State) (p : Fin 64) (k : Fin 4) (n : Nat) : State :=
  (s.modPav p fun v => { v with used := upd v.used k (· + n) }).noteQuota p k

/-- An event to one Pavilion: non-maskable events latch and always go (R81, R634); others only when armed (R78), and all but EV_LOG_LOST
wait in the event hold while the event quota is used up (R349). -/
def State.deliver (s : State) (p : Fin 64) (ev : Ev) : State :=
  let v := s.pavs[p.val]
  if !v.present then s
  else if isNmi ev.code then
    let s := s.modPav p fun v => { v with nmiPending := true, nmiCode := ev.code }
    (s.eqPost p ev).noteQuota p 3
  else if v.ready && v.armed.getLsbD ev.code then
    if quotaUp v 3 && ev.code != evLogLost then
      if v.evHold.length < 64 then s.modPav p fun v => { v with evHold := v.evHold ++ [ev] } else s.eqLose p
    else (s.eqPost p ev).noteQuota p 3
  else s

/-! ### The event log -/

/-- Events that are not logged (R636). -/
def notLogged (ev : Ev) : Bool :=
  [evVblank, evLineMatch, evTouch, evHapticDone, evBudgetDefer, evLogLost].contains ev.code
    || (ev.code == evFrameDone && ev.detail == 0)

/-- The Orangery offset of log entry i (R416, R640). -/
def logAddr (i : Nat) : Nat := 0x1FE0000 + i % 4096 * 32

/-- The bytes of a log entry with its check byte (R637, R638). -/
def logEntry (ev : Ev) (seq : Nat) : List Byte :=
  let a := leBytes 1 ev.code ++ leBytes 1 (b2n (isNmi ev.code)) ++ leBytes 2 seq ++ leBytes 1 ev.inst
  let b := leBytes 2 ev.handle ++ leBytes 8 ev.time.toNat ++ leBytes 8 ev.frame ++ leBytes 8 ev.detail
  a ++ leBytes 1 (crcOf crc8 (a ++ b)) ++ b

/-- Something the Dome learns of. -/
def State.toDome (s : State) (e : Ev) : State := s.emit (.domeEvent e)

/-- Entry `i` of the log written as one Orangery word by FABRIC (R637), whose islands it wakes (R27). A region that denies the write discards it
and is reported (R419, R462); that report is not logged itself, for it would be denied again (DESIGN CHOICE, log 47). -/
def State.logStore (s : State) (i : Nat) (l : List Byte) : State :=
  let s := (s.wakeIsland islFabric).wakeIsland islOrg
  let a := logAddr i
  if s.dome.wmMode || s.permit 1 false .org a 32 true then (s.stCells .org a l).unpoison .org a l.length
  else
    let ev : Ev := { code := evRegionViolation, inst := memNo .org, time := s.now, detail := a }
    ({ s with org := { s.org with regionViol := satInc s.org.regionViol } }.toDome ev).deliver 0 ev

/-- One entry written to the log (R636 to R643). -/
def State.logWrite (s : State) (ev : Ev) : State :=
  if notLogged ev then s
  else
    let full := gap s.evt.tail s.evt.head == 4096
    let s := if full then { s with evt := { s.evt with tail := s.evt.tail + 1, lost := satInc s.evt.lost } } else s
    let s := s.logStore s.evt.head.toNat (logEntry ev (s.evt.count.toNat % 65536))
    let s := { s with evt := { s.evt with head := s.evt.head + 1, count := s.evt.count + 1 } }
    if full && !s.evt.lostRaised then
      let ev : Ev := { code := evLogLost, handle := 0, time := s.now, detail := s.evt.lost.toNat }
      ({ s with evt := { s.evt with lostRaised := true } }.safeOut ev).deliver 0 ev
    else s

/-- An event raised: logged once in the form Pavilion 0 receives (R636), noted by the Dome, and delivered to each
recipient in its own form. -/
def State.raiseAs (s : State) (logged : Ev) (dests : List (Fin 64 × Ev)) : State :=
  dests.foldl (fun s q => s.deliver q.1 q.2) ((s.logWrite logged).safeOut logged)

/-- An event at the Spire time it carries, or now where it carries none. -/
def State.stamp (s : State) (e : Ev) : Ev := { e with time := if e.time = 0 then s.now else e.time }

/-- An event raised now. -/
def State.raise (s : State) (logged : Ev) (dests : List (Fin 64 × Ev)) : State :=
  s.raiseAs (s.stamp logged) (dests.map fun q => (q.1, s.stamp q.2))

/-- An event to Pavilion 0 alone. -/
def State.raise0 (s : State) (ev : Ev) : State := s.raise ev [(0, ev)]

/-- An event to every present Pavilion (R634). -/
def State.raiseAll (s : State) (ev : Ev) : State := s.raise ev ((idx 64).map fun p => (p, ev))

/-! ### Budget periods and the passing of time -/

/-- The events in a Pavilion's hold posted in order, while the event quota lasts (R349, R353). -/
def State.flushEvents : Nat → State → Fin 64 → State
  | 0, s, _ => s
  | n + 1, s, p =>
    match s.pavs[p.val].evHold with
    | [] => s
    | e :: rest =>
      if quotaUp s.pavs[p.val] 3 then s
      else State.flushEvents n (((s.modPav p fun v => { v with evHold := rest }).eqPost p e).noteQuota p 3) p

/-- Length of a budget period in ns (R38). -/
def periodNs : Nat := 1000000

/-- A new budget period (R344, R345): every quota starts unused, paused jobs may go on in the order in which they paused (R348), held events
are posted in order and charged to it (R349), and what is raised or sent at most once a period may be again (R351, R403, R421, R458, R643, R647). -/
def State.newPeriod (s : State) (k : Nat) : State :=
  let s := { s with
    period := k, ceRaised := [], evt := { s.evt with lostRaised := false }
    pavs := s.pavs.map fun v => { v with used := Vector.replicate 4 0, deferRaised := Vector.replicate 4 false }
    bports := s.bports.map fun b => { b with waited := false, used := 0 }
    jobs := s.jobs.map fun j => { j with paused := false }
    dome := { s.dome with safeOutDone := [], alarmSent := false } }
  (idx 64).foldl (fun s p => if s.pavs[p.val].evHold.isEmpty then s else s.flushEvents 64 p) s

/-- The period that Spire time has reached starts where it has not yet (R38, R344). -/
def State.periodGo (s : State) : State :=
  if s.period < s.now.toNat / periodNs then s.newPeriod (s.now.toNat / periodNs) else s

/-- Bucket depth in grants: 0 acts as 1, above 8 as 8. -/
def BPort.depth (b : BPort) : Nat := max 1 (min 8 (bits b.cfg.toNat 11 8))

/-- The buckets of the DRAM regulators after `ns` nanoseconds (R364). -/
def State.refill (s : State) (ns : Nat) : State :=
  { s with bports := s.bports.map fun b => { b with bucket := min (b.depth * b.grant * 1000000) (b.bucket + b.grant * ns) } }

/-- Spire time moved on to a time in ns and 2^-24 ns: the regulators fill, the period it reaches starts, and what was registered before is no
longer registered now (R8, R38, R364). -/
def State.moveTo (s : State) (ns frac : Nat) : State :=
  { s.refill (ns - s.now.toNat) with spire := { s.spire with now := w64 ns, frac }, arrived := [] }.periodGo

/-- Spire time advanced to an instant in ps that an event of a grid has (log 2); it never goes back. -/
def State.upTo (s : State) (ps : Nat) : State := if s.now.toNat < ps / 1000 then s.moveTo (ps / 1000) 0 else s

/-- The largest slew of one cycle, ±200 ppm of 10 ns, in 2^-24 ns (R318, R322). -/
def slewMax : Int := 33554

/-- Spire time in 2^-24 ns. -/
def State.fine (s : State) : Nat := s.spire.now.toNat * 2 ^ 24 + s.spire.frac

/-- Spire time advanced to an instant in 2^-24 ns. -/
def State.upToFine (s : State) (t : Nat) : State := if s.fine < t then s.moveTo (t / 2 ^ 24) (t % 2 ^ 24) else s

end Sys2Proof.Machine
end

