-- ==== Sys2Proof/Machine/Operands.lean ====
section
/-!
DEFINITION. Operand forms: addresses through a Pavilion's extents, handles, blocks held by the secure world, pixel
formats, the mode table, and the fields of the layer descriptors.
-/
namespace Sys2Proof.Machine
open Sys2Proof

/-! ### Addresses -/

/-- The device address of a BAR2 range that lies within one extent (R53 to R55); none where it does not. -/
def xlateIn : List Ext → Nat → Nat → Nat → Option Nat
  | [], _, _, _ => none
  | e :: rest, start, off, len =>
    if start ≤ off ∧ off + len ≤ start + e.len ∧ off < start + e.len then some (e.base + (off - start))
    else xlateIn rest (start + e.len) off len

/-- Translation of `len` bytes at BAR2 offset `off` of a Pavilion (R54, R55). -/
def State.xlate (s : State) (p : Fin 64) (off len : Nat) : Option Nat := xlateIn s.pavs[p.val].exts 0 off len

/-- Bytes of a Pavilion's extent list. -/
def extTotal (l : List Ext) : Nat := (l.map Ext.len).sum

/-- Whether a device address lies in DRAM (R652). -/
def inDram (a : Nat) : Bool := decide (0x1000000000 ≤ a)

/-! ### Handles, slots and held blocks -/

/-- The slot bound to a handle of a Pavilion (R48). -/
def State.slotOf (s : State) (p : Fin 64) (h : Nat) : Option (Fin 256) :=
  (idx 256).find? fun i => s.slots[i.val].lease == .held p h

/-- Whether a block is secure (DOME_HELD_MAP). -/
def State.isHeld (s : State) (b : Nat) : Bool := s.dome.held.getLsbD b

/-- Whether the normal world is kept off a block: it is secure, or a hand-over of it runs (R468, R472). -/
def State.heldFromNormal (s : State) (b : Nat) : Bool := s.isHeld b || s.dome.ho.any fun h => h.block == b

/-! ### Modes and formats -/

/-- A mode: active size, class code, totals and line time (R208). -/
structure Mode where
  w : Nat
  h : Nat
  cls : Nat
  hTotal : Nat
  vTotal : Nat
  linePs : Nat
deriving DecidableEq, Repr

/-- Mode table entries (R208). -/
def modesA : List Mode :=
  [⟨1280, 720, 0, 1650, 800, 20833472⟩, ⟨1920, 1080, 0, 2000, 1111, 15001600⟩, ⟨1920, 1200, 0, 2000, 1280, 13020920⟩,
   ⟨2560, 1440, 0, 2640, 1465, 11376640⟩, ⟨2560, 1600, 0, 2640, 1616, 10313600⟩, ⟨3440, 1440, 0, 3520, 1465, 11376640⟩,
   ⟨3840, 2160, 0, 3920, 2222, 7500800⟩, ⟨4096, 2160, 0, 4176, 2222, 7500800⟩, ⟨5120, 2160, 0, 5200, 2222, 7500800⟩,
   ⟨5120, 2880, 0, 5200, 2930, 5688320⟩, ⟨7680, 4320, 0, 8100, 4444, 3750400⟩, ⟨1280, 720, 1, 1980, 822, 24330900⟩,
   ⟨1920, 1080, 1, 2640, 1111, 18001800⟩, ⟨1920, 1200, 1, 2000, 1233, 16220600⟩, ⟨2560, 1440, 1, 2640, 1460, 13698630⟩,
   ⟨2560, 1600, 1, 2640, 1644, 12165450⟩, ⟨3440, 1440, 1, 3520, 1460, 13698630⟩, ⟨3840, 2160, 1, 5280, 2222, 9000900⟩,
   ⟨4096, 2160, 1, 4176, 2222, 9000900⟩, ⟨5120, 2160, 1, 5200, 2222, 9000900⟩, ⟨5120, 2880, 1, 5200, 2920, 6849315⟩,
   ⟨7680, 4320, 1, 8100, 4444, 4500450⟩, ⟨1920, 1080, 2, 2200, 1111, 30003200⟩, ⟨2560, 1440, 2, 2640, 1465, 22753280⟩]

/-- Mode table entries (R208). -/
def modesB : List Mode :=
  [⟨3840, 2160, 2, 4400, 2222, 15001600⟩, ⟨4096, 2160, 2, 4176, 2222, 15001600⟩, ⟨5120, 2880, 2, 5200, 2930, 11376640⟩,
   ⟨7680, 4320, 2, 8100, 4444, 7500800⟩, ⟨1920, 1080, 3, 2640, 1111, 36003600⟩, ⟨2560, 1440, 3, 2640, 1460, 27397260⟩,
   ⟨3840, 2160, 3, 5280, 2222, 18001800⟩, ⟨7680, 4320, 3, 8100, 4444, 9000900⟩, ⟨1920, 1080, 4, 2000, 1111, 7500800⟩,
   ⟨1920, 1200, 4, 2000, 1280, 6510460⟩, ⟨2560, 1440, 4, 2640, 1465, 5688320⟩, ⟨2560, 1600, 4, 2640, 1616, 5156800⟩,
   ⟨3440, 1440, 4, 3520, 1465, 5688320⟩, ⟨3840, 2160, 4, 3920, 2222, 3750400⟩, ⟨4096, 2160, 4, 4176, 2222, 3750400⟩,
   ⟨1920, 1080, 5, 2000, 1111, 9000900⟩, ⟨1920, 1200, 5, 2000, 1233, 8110300⟩, ⟨2560, 1440, 5, 2640, 1460, 6849315⟩,
   ⟨2560, 1600, 5, 2640, 1644, 6082725⟩, ⟨3440, 1440, 5, 3520, 1460, 6849315⟩, ⟨3840, 2160, 5, 3920, 2222, 4500450⟩,
   ⟨1920, 1080, 6, 2000, 1114, 3740000⟩, ⟨2560, 1440, 6, 2640, 1496, 2785000⟩, ⟨3840, 2160, 6, 3908, 2228, 1870000⟩]

/-- The mode of an index; index 48 and above name no mode and give the first entry. -/
def modeOf (i : Nat) : Mode := ((modesA ++ modesB)[i]?).getD ⟨1280, 720, 0, 1650, 800, 20833472⟩

/-- Frame period in ps of a frame class (R210). -/
def classPs (c : Nat) : Nat :=
  match c with
  | 0 => 16666777600 | 1 => 19999999800 | 2 => 33333555200 | 3 => 39999999600
  | 4 => 8333388800 | 5 => 9999999900 | _ => 4166360000

/-- The mode an output runs. -/
def Out.mode (o : Out) : Mode := modeOf o.set.mode

/-- The active line of the commit line of an output (05): the last active line less COMMIT_OFFSET. -/
def commitLine (m : Mode) (off : Nat) : Nat := m.h - 1 - off

/-- Bytes per pixel of a format; 0 where the code is unknown (R122). -/
def fmtBpp (f : Nat) : Nat :=
  match f with
  | 0x01 | 0x02 | 0x03 | 0x04 | 0x11 => 4
  | 0x05 | 0x06 | 0x10 => 2
  | 0x07 => 1
  | _ => 0

/-- Whether a format carries alpha (R122, R126); a palette entry does. -/
def fmtAlpha (f : Nat) : Bool := f == 0x01 || f == 0x03 || f == 0x04 || f == 0x06 || f == 0x07 || f == 0x11

/-- Effective rate of one lane in 10^6 bit/s (R218). -/
def laneMbit (r : Nat) : Nat :=
  match r with
  | 0 => 1296 | 1 => 2160 | 2 => 4320 | 3 => 6480 | 4 => 9671 | 5 => 13057 | _ => 19342

/-- Whether a link carries a mode (R218): lanes × rate ≥ H_TOTAL × 30 × 10^12 / LINE_PS bit/s. -/
def linkFits (m : Mode) (rate lanes : Nat) : Bool :=
  decide (m.hTotal * 30 * 1000000000000 ≤ lanes * laneMbit rate * 1000000 * m.linePs)

/-! ### Descriptor fields -/

/-- A rectangle of four 16-bit values at byte k (R11). -/
def dRect (d : Desc) (k : Nat) : Rect := ⟨dU d k 2, dU d (k + 2) 2, dU d (k + 4) 2, dU d (k + 6) 2⟩

/-- x1 below x0 or y1 below y0 (R12). -/
def Rect.inverted (r : Rect) : Bool := decide (r.x1 < r.x0) || decide (r.y1 < r.y0)

/-- Covers no pixel (R12). -/
def Rect.empty (r : Rect) : Bool := decide (r.x1 ≤ r.x0) || decide (r.y1 ≤ r.y0)

/-- Width. -/
def Rect.w (r : Rect) : Nat := r.x1 - r.x0
/-- Height. -/
def Rect.h (r : Rect) : Nat := r.y1 - r.y0
/-- Intersection. -/
def Rect.inter (a b : Rect) : Rect := ⟨max a.x0 b.x0, max a.y0 b.y0, min a.x1 b.x1, min a.y1 b.y1⟩
/-- Whether a pixel lies inside (R11). -/
def Rect.has (r : Rect) (x y : Nat) : Bool := decide (r.x0 ≤ x) && decide (x < r.x1) && decide (r.y0 ≤ y) && decide (y < r.y1)

/-- The rectangle moved by an offset. -/
def Rect.move (r : Rect) (x y : Nat) : Rect := ⟨r.x0 + x, r.y0 + y, r.x1 + x, r.y1 + y⟩

/-- The layer a LAYER_SET stages (03). -/
def layerOf (d : Desc) : Layer :=
  { view := dBits d 8 1 2 0, z := dBits d 9 1 5 0, fmt := dU d 10 1
    enable := bit (dU d 11 1) 0, hflip := bit (dU d 11 1) 1, vflip := bit (dU d 11 1) 2, premult := bit (dU d 11 1) 3
    palette := bit (dU d 11 1) 4, matrix := bit (dU d 11 1) 5, intScale := bit (dU d 11 1) 6
    alpha := dBits d 12 2 11 0, hTaps := dBits d 14 1 3 0, vTaps := dBits d 14 1 7 4, action := dBits d 15 1 1 0
    src := dRect d 16, dst := dRect d 24, lim1 := dU d 32 4, lim2 := dU d 36 4
    palOff := dU d 40 8, matOff := dU d 48 8, repOff := dU d 56 8 }

/-- The handle byte of HANDLE. -/
def dHandle (d : Desc) : Nat := bits d.handle.toNat 7 0

/-- The viewport field of HANDLE. -/
def dView (d : Desc) : Fin 8 := f8 d.handle.toNat

/-! ### The grid -/

/-- The class of a rate group (R211): the image's, else that of its first enabled output; none when it has none. -/
def State.rgClass (s : State) (g : Fin 4) : Option Nat :=
  match s.spire.image with
  | some i => if (i.groups[g.val]).cls = 0xFF then s.spire.classes[g.val] else some (i.groups[g.val]).cls
  | none => s.spire.classes[g.val]

/-- ORIGIN_g in ps (R324). -/
def State.originPs (s : State) (g : Fin 4) : Nat :=
  match s.spire.image with
  | some i => if (i.groups[g.val]).cls = 0xFF then 0 else (i.groups[g.val]).originNs * 1000
  | none => 0

/-- The frame period of a rate group in ps. -/
def State.periodPs (s : State) (g : Fin 4) : Nat := classPs ((s.rgClass g).getD 0)

/-- The grid instant T(F) of a rate group in ps (R213). -/
def State.gridPs (s : State) (g : Fin 4) (f : Nat) : Nat := s.originPs g + f * s.periodPs g

/-- The cut-off of frame F on an output in ps (05, R217): the start of the commit line of frame F − 1. -/
def State.cutPs (s : State) (o : Fin 8) (f : Nat) : Nat :=
  let u := s.outs[o.val]
  s.gridPs u.set.rg (f - 1) + commitLine u.mode u.set.commitOffset * u.mode.linePs

/-- The latch of frame F on an output in ps: the start of the first blanking line of frame F − 1. -/
def State.latchPs (s : State) (o : Fin 8) (f : Nat) : Nat :=
  let u := s.outs[o.val]
  s.gridPs u.set.rg (f - 1) + u.mode.h * u.mode.linePs

/-- The report point of frame F in ps (R328). -/
def State.reportPs (s : State) (g : Fin 4) (f : Nat) : Nat :=
  s.gridPs g (f - s.spire.leads[g.val]) + (match s.spire.image with | some i => (i.groups[g.val]).reportNs * 1000 | none => 0)

/-- Whether the device runs stand-alone (R313): no image accepted. -/
def State.standAlone (s : State) : Bool := s.spire.image.isNone

end Sys2Proof.Machine
end

