-- ==== Sys2Proof/Machine/Compose.lean ====
section
/-!
DEFINITION. Admission (04, 09): the stack of an output, its line cost, fetch rate and line-buffer need, and the shares.
-/
namespace Sys2Proof.Machine
open Sys2Proof

/-- One state of a slot under one mapping, as admission and scan-out see it; `clip` is its destination clipped to the
viewport in output coordinates (R118). -/
structure Placed where
  lat : Latched
  map : VMap
  clip : Rect
deriving DecidableEq, Repr

/-- A state placed under a mapping. -/
def place (lat : Latched) (m : VMap) : Placed :=
  { lat, map := m, clip := (lat.layer.dst.move m.rect.x0 m.rect.y0).inter m.rect }

/-- Enabled and not hidden under R117. -/
def Placed.shown (q : Placed) : Bool := q.lat.layer.enable && decide (q.lat.layer.z < q.map.zDepth)

/-- Stack position (R113). -/
def Placed.z (q : Placed) : Nat := q.map.zBase + q.lat.layer.z

/-- Horizontally scaled. -/
def Layer.hScaled (l : Layer) : Bool := l.src.w != l.dst.w
/-- Vertically scaled. -/
def Layer.vScaled (l : Layer) : Bool := l.src.h != l.dst.h
/-- Source lines per output line (R146, R153). Of a rectangle of height 0, which only a disabled layer can have, the quotient is 0 (DESIGN CHOICE,
log 56). -/
def Layer.vf (l : Layer) : Nat := if l.vScaled && !l.intScale then cdiv l.src.h l.dst.h else 1

/-- Line-buffer requirement in granules (R146). -/
def Layer.granules (l : Layer) : Nat :=
  let lines := if l.vScaled && !l.intScale then l.vTaps + max 2 l.vf else 2
  cdiv (lines * l.src.w * 4) 16384

/-- Cycles a layer adds to a line it touches, before the merge term (R153). -/
def Placed.cycles (q : Placed) : Nat :=
  let l := q.lat.layer
  let o := ((q.clip.x1 - 1) >>> 3) - (q.clip.x0 >>> 3) + 1
  let qn := if !l.hScaled then 0 else if l.intScale then cdiv l.src.w 8 else cdiv l.src.w 8 + 1
  4 + max o qn + (l.vf - 1) * cdiv l.src.w 8

/-- Whether the state draws on line y. -/
def Placed.onLine (q : Placed) (y : Nat) : Bool := q.shown && !q.clip.empty && decide (q.clip.y0 ≤ y) && decide (y < q.clip.y1)

/-- Bytes fetched for a line, DRAM buffers only (R155). -/
def Placed.fetch (q : Placed) : Nat :=
  match q.lat.buf with
  | some b => if inDram b.addr then q.lat.layer.vf * q.lat.layer.src.w * fmtBpp q.lat.layer.fmt else 0
  | none => 0

/-- Largest of a list. -/
def maxOf (l : List Nat) : Nat := l.foldl max 0

/-- The mappings of a viewport that place it on an output: the one in effect and the staged one (R157). -/
def View.mapsOn (v : View) (o : Fin 8) : List VMap :=
  (v.cur.toList ++ (match v.pend with | some (some m) => [m] | _ => [])).filter fun m => m.out == o

/-- The Belvedere layer of an output as a state, when enabled (R277, R278). -/
def State.belvLatched (s : State) (o : Fin 8) : Option Placed :=
  let b := s.belvs[o.val]
  if b.cfg.getLsbD 0 then
    let x := bits b.pos.toNat 15 0; let y := bits b.pos.toNat 31 16
    let w := bits b.size.toNat 15 0; let h := bits b.size.toNat 31 16
    let i8 := b.cfg.getLsbD 1
    let bpp := if i8 then 1 else 4
    let half := match b.cur with | some c => c.half | none => 0
    let addr := b.bufBase + half * (w * h * bpp + 1024)
    let r : Rect := ⟨x, y, x + w, y + h⟩
    let lay : Layer := { enable := true, fmt := if i8 then 0x07 else 0x01, palette := i8, alpha := 4095, src := ⟨0, 0, w, h⟩, dst := ⟨0, 0, w, h⟩,
                         action := if b.cfg.getLsbD 2 then 3 else 0, lim1 := b.limit.toNat, lim2 := b.limit2.toNat }
    some { lat := { pav := 0, handle := 0, layer := lay
                    buf := some { id := 0, addr, off := 0, pitch := w * bpp, width := w, height := h, time := match b.cur with | some c => c.time | none => 0
                                  was := match b.cur with | some c => c.was | none => none } }
           map := { out := o, zBase := 0, zDepth := 64, rect := r }
           clip := ⟨x, y, min (x + w) s.outs[o.val].mode.w, min (y + h) s.outs[o.val].mode.h⟩ }
  else none

/-- What admission counts for one slot on an output (R157): the latched state, every state awaiting latch, and the states
given, each under every mapping on the output. `views` gives the viewports' mappings to count. -/
def State.slotStates (s : State) (o : Fin 8) (views : Fin 64 → Fin 8 → List VMap) (extra : List (Fin 256 × Latched)) (i : Fin 256) : List Placed :=
  if 248 ≤ i.val then (if i.val - 248 = o.val then (s.belvLatched o).toList else [])
  else
    let waiting := s.groups.flatMap fun g => g.members.flatMap fun m => if g.latchedOuts.contains m.out then [] else m.caps
    let sts := s.slots[i.val].cur.toList ++ ((waiting ++ extra).filter fun c => c.1 == i).map Prod.snd
    sts.flatMap fun l => (views l.pav (f8 l.layer.view)).map (place l)

/-- The counted stack of an output: its slots with their counted states. -/
def State.stack (s : State) (o : Fin 8) (views : Fin 64 → Fin 8 → List VMap) (extra : List (Fin 256 × Latched)) : List (List Placed) :=
  ((idx 256).map (s.slotStates o views extra)).filter fun l => !l.isEmpty

/-- Octets a state touches. -/
def Placed.octets (q : Placed) : Nat × Nat := (q.clip.x0 >>> 3, (q.clip.x1 - 1) >>> 3)

/-- The merge term of a line (R153): (n − 1) / 16 summed over the octets, n counting slots. -/
def mergeTerm (width : Nat) (rows : List (List Placed)) : Nat :=
  if rows.length ≤ 16 then 0
  else (List.range (cdiv width 8)).foldl (fun acc o =>
    acc + ((rows.filter fun l => l.any fun q => decide (q.octets.1 ≤ o) && decide (o ≤ q.octets.2)).length - 1) / 16) 0

/-- The line cost of a stack on line y without the fixed 32 cycles (R153). -/
def lineCost (width : Nat) (st : List (List Placed)) (y : Nat) : Nat :=
  let rows := (st.map fun l => l.filter fun q => q.onLine y).filter fun l => !l.isEmpty
  (rows.map fun l => maxOf (l.map Placed.cycles)).sum + mergeTerm width rows

/-- The fetch of a stack on line y in bytes (R155). -/
def lineFetch (st : List (List Placed)) (y : Nat) : Nat :=
  ((st.map fun l => l.filter fun q => q.onLine y).map fun l => maxOf (l.map Placed.fetch)).sum

/-- The lines at which the set of layers changes; cost is constant between them. -/
def breakLines (h : Nat) (st : List (List Placed)) : List Nat :=
  (0 :: st.flatMap fun l => l.flatMap fun q => [q.clip.y0, q.clip.y1]).filter (· < h)

/-- What a stack needs. -/
structure Need where
  layers : Nat
  granules : Nat
  cost : Nat
  line : Nat
  fetch : Nat
deriving DecidableEq, Repr

/-- The smallest line of the largest value, with that value. -/
def firstMax (l : List (Nat × Nat)) : Nat × Nat :=
  l.foldl (fun best q => if best.2 < q.2 ∨ (best.2 = q.2 ∧ q.1 < best.1) then q else best) (l.headD (0, 0))

/-- The need of a stack on a mode (R120, R148, R154, R155). `fixed` is the per-line fixed work. A layer hidden under R117 counts none of its
granules (DESIGN CHOICE, log 56). -/
def need (m : Mode) (fixed : Nat) (st : List (List Placed)) (belv : Bool) : Need :=
  let ls := breakLines m.h st
  let c := firstMax (ls.map fun y => (y, fixed + lineCost m.w st y))
  let shown := (st.map fun l => l.filter Placed.shown).filter fun l => !l.isEmpty
  { layers := shown.length - b2n belv
    granules := (shown.map fun l => maxOf (l.map fun q => q.lat.layer.granules)).sum
    cost := c.2, line := c.1
    fetch := cdiv (maxOf (ls.map (lineFetch st)) * 1000000000) m.linePs }

/-- The mappings in effect and staged (R157). -/
def State.viewsOn (s : State) (o : Fin 8) (p : Fin 64) (v : Fin 8) : List VMap := s.pavs[p.val].views[v.val].mapsOn o

/-- The need of an output with extra states. -/
def State.outNeed (s : State) (o : Fin 8) (views : Fin 64 → Fin 8 → List VMap) (extra : List (Fin 256 × Latched)) : Need :=
  need s.outs[o.val].mode 32 (s.stack o views extra) (s.belvs[o.val].cfg.getLsbD 0)

/-- A viewport's use on an output (R356): its Pavilion's layers, never a Belvedere layer. -/
def State.viewUse (s : State) (o : Fin 8) (views : Fin 64 → Fin 8 → List VMap) (extra : List (Fin 256 × Latched)) (p : Fin 64) (v : Fin 8) : Need :=
  need s.outs[o.val].mode 0 (((idx 248).map fun i =>
    (s.slotStates o (fun p' v' => if p' = p ∧ v' = v then views p v else []) extra (f256 i.val)).filter fun q =>
      q.lat.pav == p && q.lat.layer.view == v.val).filter fun l => !l.isEmpty) false

/-- Fields of a share (R355). -/
def shCycles (sh : DWord) : Nat := bits sh.toNat 15 0
/-- LAYERS. -/
def shLayers (sh : DWord) : Nat := bits sh.toNat 22 16
/-- GRANULES. -/
def shGranules (sh : DWord) : Nat := bits sh.toNat 41 32
/-- FETCH_KIB. -/
def shFetch (sh : DWord) : Nat := bits sh.toNat 63 42

/-- Whether an output's stack needs more granules than a composer has (R148). -/
def Need.lbufShort (n : Need) : Bool := decide (512 < n.granules)

/-- Whether an output's stack passes the limits of R120, R154 and R155: `budget` is its line budget, `grant` its port's grant. -/
def Need.costly (n : Need) (budget grant : Nat) : Bool :=
  decide (64 < n.layers) || decide (budget < n.cost) || decide (grant < n.fetch)

/-- Whether a viewport's use is above its share in GRANULES (R357); a share of 0 is none (R355). -/
def Need.overGran (u : Need) (sh : DWord) : Bool := sh != 0 && decide (shGranules sh < u.granules)

/-- Whether a viewport's use is above another field of its share (R357). -/
def Need.overShare (u : Need) (sh : DWord) : Bool :=
  sh != 0 && (decide (shCycles sh < u.cost) || decide (shLayers sh < u.layers) || decide (shFetch sh * 1024 < u.fetch))

/-- Step 10 of R99 on an output, with the viewport concerned where it lies on it: whether R148 or the viewport's granules refuse (R357). -/
def State.lbufRefuses (s : State) (o : Fin 8) (views : Fin 64 → Fin 8 → List VMap) (extra : List (Fin 256 × Latched))
    (p : Fin 64) (v : Fin 8) : Bool :=
  (s.outNeed o views extra).lbufShort || (s.viewUse o views extra p v).overGran s.pavs[p.val].views[v.val].share

/-- Step 11 of R99 on an output: whether R120, R154, R155 or another field of the viewport's share refuses (R156, R357). -/
def State.costRefuses (s : State) (o : Fin 8) (views : Fin 64 → Fin 8 → List VMap) (extra : List (Fin 256 × Latched))
    (p : Fin 64) (v : Fin 8) : Bool :=
  (s.outNeed o views extra).costly (s.outs[o.val].mode.linePs / 1250) (s.bports[(f83 o.val).val]).grant
    || (s.viewUse o views extra p v).overShare s.pavs[p.val].views[v.val].share

/-- Admission of an output: the status that refuses, if any (R147's own check apart; R156). -/
def State.refuseStack (s : State) (o : Fin 8) (views : Fin 64 → Fin 8 → List VMap) (extra : List (Fin 256 × Latched))
    (p : Fin 64) (v : Fin 8) : Option Nat :=
  if s.lbufRefuses o views extra p v then some stLbufShort else if s.costRefuses o views extra p v then some stLineCost else none

/-- The evaluation recorded in the composer's registers (COMP_LINE_COST_ADM, FETCH_RATE, GRANULES_ADM). -/
def State.noteNeed (s : State) (o : Fin 8) (n : Need) : State :=
  s.modComp o fun c => { c with costAdm := n.cost, costLine := n.line, fetchRate := n.fetch, granAdm := min n.granules 512 }

/-- The evaluation of the stack as it stands, after a latch, a discard or a mapping change (R157, R158). -/
def State.reEval (s : State) (o : Fin 8) : State := s.noteNeed o (s.outNeed o (s.viewsOn o) [])

/-- A refusal counted on the output (COMP_REJ_LBUF, COMP_REJ_COST). -/
def State.noteReject (s : State) (o : Fin 8) (st : Nat) : State :=
  s.modComp o fun c => if st = stLbufShort then { c with rejLbuf := satInc c.rejLbuf } else { c with rejCost := satInc c.rejCost }

/-- The viewports mapped to an output, with their shares. -/
def sharesOn (o : Fin 8) (views : Fin 64 → Fin 8 → List VMap) (share : Fin 64 → Fin 8 → DWord) : List DWord :=
  ((idx 64).flatMap fun p => (idx 8).filterMap fun v =>
    if (views p v).any fun m => m.out == o then (if share p v = 0 then none else some (share p v)) else none)

/-- Whether the share ceilings of an output hold (R358). -/
def State.ceilingsHold (s : State) (o : Fin 8) (views : Fin 64 → Fin 8 → List VMap) (share : Fin 64 → Fin 8 → DWord) (grant : Nat) : Bool :=
  let m := s.outs[o.val].mode
  let b := s.belvs[o.val]
  let en := b.cfg.getLsbD 0
  let wb := bits b.size.toNat 15 0
  let bpp := if b.cfg.getLsbD 1 then 1 else 4
  let bc := if en then 5 + cdiv wb 8 else 0
  let bg := if en then cdiv (2 * wb * 4) 16384 else 0
  let bf := if en then cdiv (wb * bpp * 1000000000) m.linePs else 0
  let l := sharesOn o views share
  l.isEmpty ||
  (decide ((l.map shCycles).sum + 32 + 4 * cdiv m.w 8 + bc ≤ m.linePs / 1250) && decide ((l.map shLayers).sum ≤ 64)
    && decide ((l.map shGranules).sum + bg ≤ 512) && decide ((l.map shFetch).sum * 1024 + bf ≤ grant))

/-- The shares in force. -/
def State.shareOf (s : State) (p : Fin 64) (v : Fin 8) : DWord := s.pavs[p.val].views[v.val].share

/-- Line-buffer granules free in the pool: 1,536 less the leased and the enabled Belvedere layers' (R278, LBUF_FREE). -/
def State.lbufFree (s : State) : Nat :=
  1536 - ((s.slots.toList.map Slot.granules).sum + ((idx 8).map fun o => match s.belvLatched o with
    | some q => q.lat.layer.granules | none => 0).sum)

end Sys2Proof.Machine
end

