-- ==== Sys2Proof/Machine/Real.lean ====
section
/-!
DEFINITION. Binary64 arithmetic and the sine, as the filter ROM's generation needs them (R675): a value is m × 2^e,
every operation rounds to nearest, ties to even.
-/
namespace Sys2Proof.Machine

/-- A binary64 value m × 2^e (finite, in the normal range, which the generation never leaves). -/
structure B64 where
  m : Int
  e : Int
deriving DecidableEq, Repr

/-- A natural quotient rounded to nearest, ties to even. -/
def rneDiv (a b : Nat) : Nat :=
  let q := a / b
  let r := a % b
  if 2 * r < b then q else if b < 2 * r then q + 1 else q + q % 2

/-- The binary64 value nearest to (num / den) × 2^e. -/
def b64Round (num : Int) (den : Nat) (e : Int) : B64 :=
  if num = 0 then ⟨0, 0⟩
  else
    let a := num.natAbs
    -- a shift that leaves at least 54 bits of quotient; then the quotient is cut to 53 with a sticky bit
    let sh := 130 + Nat.log2 den - Nat.log2 a
    let q := (a * 2 ^ sh) / den
    let sticky := b2n ((a * 2 ^ sh) % den != 0)
    let n := Nat.log2 q
    let cut := n - 52
    let m := rneDiv (q * 2 + sticky) (2 ^ (cut + 1))
    ⟨if num < 0 then -(m : Int) else m, e - (sh : Int) + (cut : Int)⟩

/-- A natural number as binary64. -/
def b64Nat (n : Nat) : B64 := b64Round n 1 0

/-- Rounded product. -/
def B64.mul (a b : B64) : B64 := b64Round (a.m * b.m) 1 (a.e + b.e)

/-- Rounded quotient. -/
def B64.div (a b : B64) : B64 :=
  b64Round (if b.m < 0 then -a.m else a.m) b.m.natAbs (a.e - b.e)

/-- Rounded sum. -/
def B64.add (a b : B64) : B64 :=
  let e := min a.e b.e
  b64Round (a.m * 2 ^ (a.e - e).toNat + b.m * 2 ^ (b.e - e).toNat) 1 e

/-- Rounded difference. -/
def B64.sub (a b : B64) : B64 := a.add ⟨-b.m, b.e⟩

/-- Exact comparison. -/
def B64.lt (a b : B64) : Bool :=
  let e := min a.e b.e
  decide (a.m * 2 ^ (a.e - e).toNat < b.m * 2 ^ (b.e - e).toNat)

/-- The value as a fixed-point number with 320 fraction bits. -/
def B64.fix (a : B64) : Int := if 0 ≤ a.e + 320 then a.m * 2 ^ (a.e + 320).toNat else a.m / 2 ^ (-(a.e + 320)).toNat

/-- The sine's Taylor sum in fixed point with 320 fraction bits: `t` is the running term x^(2k+1)/(2k+1)! with sign. -/
def sinTaylor : Nat → Nat → Int → Int → Int → Int
  | 0, _, _, _, acc => acc
  | n + 1, k, x2, t, acc =>
    let acc := acc + t
    let t := -(t * x2 / 2 ^ 320) / ((2 * k + 2 : Nat) * (2 * k + 3 : Nat) : Int)
    sinTaylor n (k + 1) x2 t acc

/-- Sine of a fixed-point number with 320 fraction bits (|x| below 14). -/
def sinFix (x : Int) : Int := sinTaylor 90 0 (x * x / 2 ^ 320) x 0

/-- The correctly rounded binary64 sine (R675). -/
def B64.sin (a : B64) : B64 := b64Round (sinFix a.fix) 1 (-320)

/-- π as a binary64 value. -/
def b64Pi : B64 := ⟨7074237752028440, -51⟩

/-- sinc(x) = sin(πx)/(πx), sinc(0) = 1 (R675). -/
def B64.sinc (x : B64) : B64 :=
  if x.m = 0 then b64Nat 1
  else
    let px := b64Pi.mul x
    px.sin.div px

/-- The cut-off of a band (04). -/
def cutOff (band : Nat) : B64 :=
  match band with
  | 0 => b64Nat 1
  | 1 => (b64Nat 2).div (b64Nat 3)
  | 2 => (b64Nat 2).div (b64Nat 5)
  | _ => (b64Nat 1).div (b64Nat 4)

/-- The weight of tap k (R675). -/
def tapWeight (n phase band k : Nat) : B64 :=
  let f := (b64Nat phase).div (b64Nat 64)
  let d := (b64Round ((k : Int) - (((n + 1) / 2 - 1 : Nat) : Int)) 1 0).sub f
  let half := (b64Nat n).div (b64Nat 2)
  let absd : B64 := ⟨d.m.natAbs, d.e⟩
  if absd.lt half then
    let fc := cutOff band
    (fc.mul (fc.mul d).sinc).mul (((b64Nat 2).mul d).div (b64Nat n)).sinc
  else ⟨0, 0⟩

/-- Round half away from zero to an integer. -/
def B64.roundAway (a : B64) : Int :=
  let n := a.m.natAbs
  let v : Nat := if 0 ≤ a.e then n * 2 ^ a.e.toNat else (n * 2 + 2 ^ (-a.e).toNat) / (2 * 2 ^ (-a.e).toNat)
  if a.m < 0 then -(v : Int) else v

/-- The index of the largest weight, the lowest on a tie. -/
def largestTap : List B64 → Nat → Nat → B64 → Nat
  | [], _, best, _ => best
  | w :: rest, k, best, bw => if bw.lt w then largestTap rest (k + 1) k w else largestTap rest (k + 1) best bw

/-! ### Sine, exponential and logarithm in fixed point (R532): 320 fraction bits -/

/-- π·2^320, rounded down. -/
def piFix : Int := 6710401180212168915155840974220003240804194089427148950727106424351713218671805380099500388914039

/-- A quotient rounded to the nearest integer, halves away from zero. -/
def roundDiv (a : Int) (b : Nat) : Int :=
  let q := (2 * a.natAbs + b) / (2 * b)
  if a < 0 then -(q : Int) else q

/-- The sum of z^(2k+1)/(2k+1): the inverse hyperbolic tangent; `t` is z^(2k+1). -/
def atanhFix : Nat → Nat → Int → Int → Int → Int
  | 0, _, _, _, acc => acc
  | n + 1, k, z2, t, acc => atanhFix n (k + 1) z2 (t * z2 / 2 ^ 320) (acc + t / (2 * k + 1 : Nat))

/-- ln of a positive fraction num / den with 1/3 ≤ num/den ≤ 3. -/
def lnNear (num den : Nat) : Int :=
  let z : Int := ((num : Int) - den) * 2 ^ 320 / (num + den : Nat)
  2 * atanhFix 170 0 (z * z / 2 ^ 320) z 0

/-- ln of a positive natural number: its power of two apart. -/
def lnNat (n : Nat) : Int :=
  let k := Nat.log2 n
  k * lnNear 2 1 + lnNear n (2 ^ k)

/-- The sum of x^k/k!; `t` is the running term. -/
def expSum : Nat → Nat → Int → Int → Int → Int
  | 0, _, _, _, acc => acc
  | n + 1, k, x, t, acc => expSum n (k + 1) x (t * x / 2 ^ 320 / (k + 1 : Nat)) (acc + t)

/-- e^x for |x| below 16: squared out of e^(x/16). -/
def expFix (x : Int) : Int :=
  let sq (v : Int) : Int := v * v / 2 ^ 320
  sq (sq (sq (sq (expSum 90 0 (x / 16) (2 ^ 320) 0))))

/-- The coefficients of a phase (R139, R675). -/
def coefs (n phase band : Nat) : List Int :=
  let ws := (List.range n).map (tapWeight n phase band)
  let sum := ws.foldl B64.add ⟨0, 0⟩
  let cs := ws.map fun w => (((b64Nat 4096).mul w).div sum).roundAway
  let res := 4096 - cs.sum
  let best := match ws with | [] => 0 | w :: rest => largestTap rest 1 0 w
  cs.zipIdx.map fun c => if c.2 = best then c.1 + res else c.1

end Sys2Proof.Machine
end

