-- ==== Sys2Proof/Machine/Pixels.lean ====
section
/-!
DEFINITION. The pixel path (01, 04, 06, 07): unpack, palette, matrix, scaler, plane alpha, blend, Lantern overlay,
formatter, and the safe frame.
-/
namespace Sys2Proof.Machine
open Sys2Proof

/-- A pixel of four 12-bit components: three colour components and alpha. -/
structure Px where
  a : Nat
  r : Nat
  g : Nat
  b : Nat
deriving DecidableEq, Repr

/-- An n-bit component widened to 12 bits (R125). -/
def widen (n c : Nat) : Nat :=
  match n with
  | 10 => (c <<< 2) ||| (c >>> 8)
  | 8 => (c <<< 4) ||| (c >>> 4)
  | 6 => (c <<< 6) ||| c
  | 5 => (c <<< 7) ||| (c <<< 2) ||| (c >>> 3)
  | 2 => c * 0x555
  | _ => c * 0xFFF

/-- An ARGB8888 word unpacked (R122, R125). -/
def unpack8888 (w : Nat) : Px := ⟨widen 8 (bits w 31 24), widen 8 (bits w 23 16), widen 8 (bits w 15 8), widen 8 (bits w 7 0)⟩

/-- A pixel's word unpacked by format (R122, R125, R126); for YCbCr422 the word is the pair's and `odd` selects Y1; for I8
the palette gives the entry. -/
def unpack (fmt w : Nat) (odd : Bool) (pal : List Byte) : Px :=
  match fmt with
  | 0x01 => unpack8888 w
  | 0x02 => { unpack8888 w with a := 4095 }
  | 0x03 => ⟨widen 8 (bits w 31 24), widen 8 (bits w 7 0), widen 8 (bits w 15 8), widen 8 (bits w 23 16)⟩
  | 0x04 => ⟨widen 2 (bits w 31 30), widen 10 (bits w 29 20), widen 10 (bits w 19 10), widen 10 (bits w 9 0)⟩
  | 0x05 => ⟨4095, widen 5 (bits w 15 11), widen 6 (bits w 10 5), widen 5 (bits w 4 0)⟩
  | 0x06 => ⟨widen 1 (bits w 15 15), widen 5 (bits w 14 10), widen 5 (bits w 9 5), widen 5 (bits w 4 0)⟩
  | 0x07 => unpack8888 (ofLe ((pal.drop (bits w 7 0 * 4)).take 4))
  | 0x10 => ⟨4095, widen 8 (if odd then bits w 23 16 else bits w 7 0), widen 8 (bits w 15 8), widen 8 (bits w 31 24)⟩
  | _ => ⟨widen 8 (bits w 31 24), widen 8 (bits w 23 16), widen 8 (bits w 15 8), widen 8 (bits w 7 0)⟩

/-- Limit to a range from 0. -/
def clampI (v : Int) (hi : Nat) : Nat := if v < 0 then 0 else if (hi : Int) < v then hi else v.toNat

/-- One row of the colour matrix (R129). -/
def matRow (m : List Word) (i : Nat) (p : Px) : Nat :=
  let c (k : Nat) : Int := sext 16 ((m.getD (4 * i + k) 0).toNat)
  let acc := c 0 * (p.r : Int) + c 1 * p.g + c 2 * p.b
  clampI ((acc + 2048) / 4096 + c 3) 4095

/-- The colour matrix (R129, R130). -/
def applyMat (m : List Word) (p : Px) : Px := ⟨p.a, matRow m 0 p, matRow m 1 p, matRow m 2 p⟩

/-- The half of an import buffer the composer reads (R340, R341). -/
def State.importHalf (s : State) (b : Attach) : Nat :=
  match s.spire.imports.find? fun i => i.attId == b.id with
  | some i => (match i.live with | some (h, _) => h | none => 0)
  | none => 0

/-- Device address of line 0 of a state's buffer; under REPLACE, of its replacement buffer (R274). -/
def State.bufAddr (s : State) (l : Latched) (replace : Bool) : Nat :=
  match l.buf with
  | none => 0
  | some b => if replace then l.repAddr else if b.import_ then b.addr + s.importHalf b * (b.pitch * b.height) else b.addr

/-- Where the word of source pixel (x, y) of SRC_RECT lies, and its bytes (R122, R124). -/
def State.pixAt (s : State) (l : Latched) (replace : Bool) (x y : Nat) : Nat × Nat :=
  let lay := l.layer
  let pitch := match l.buf with | some b => b.pitch | none => 0
  let bx := lay.src.x0 + (if lay.hflip then lay.src.w - 1 - x else x)
  let bY := lay.src.y0 + (if lay.vflip then lay.src.h - 1 - y else y)
  let base := s.bufAddr l replace + bY * pitch
  if lay.fmt = 0x10 then (base + bx / 2 * 4, 4) else (base + bx * fmtBpp lay.fmt, fmtBpp lay.fmt)

/-- Source pixel (x, y) of SRC_RECT after flip, unpack, palette and matrix (R122 to R133). -/
def State.srcPix (s : State) (l : Latched) (replace : Bool) (x y : Nat) : Px :=
  let lay := l.layer
  let bx := lay.src.x0 + (if lay.hflip then lay.src.w - 1 - x else x)
  let q := s.pixAt l replace x y
  let w := ofLe (s.rdDev q.1 q.2)
  let p := unpack lay.fmt w (bx % 2 = 1) l.pal
  if lay.matrix then applyMat l.mat p else p

/-- The source position of a destination index on a polyphase axis: base and phase (R134). -/
def srcPos (sz d i : Nat) : Int × Nat :=
  let step := sz * 65536 / d
  let pos : Int := (i : Int) * step + (step / 2 : Nat) - 32768
  (pos / 65536, ((pos / 1024) % 64).toNat)

/-- The band of an axis ratio (04). -/
def bandOf (sz d : Nat) : Nat := if sz ≤ d then 0 else if 2 * sz ≤ 3 * d then 1 else if 2 * sz ≤ 5 * d then 2 else 3

/-- A source index limited to the source (R135). -/
def limIdx (i : Int) (sz : Nat) : Nat := clampI i (sz - 1)

/-- The taps of a destination index: source index and coefficient (R135 to R139). -/
def taps (n sz d i : Nat) : List (Nat × Int) :=
  let (base, phase) := srcPos sz d i
  (coefs n phase (bandOf sz d)).zipIdx.map fun c => (limIdx (base - (((n + 1) / 2 - 1 : Nat) : Int) + c.2) sz, c.1)

/-- The nearest source line of a destination line (R141). -/
def nearestRow (sz d j : Nat) : Nat := let (base, phase) := srcPos sz d j; limIdx (if phase < 32 then base else base + 1) sz

/-- The source lines that destination line j uses (R136, R137, R141). -/
def Layer.rowsOf (l : Layer) (j : Nat) : List Nat :=
  if !l.vScaled then [j]
  else if l.intScale then [j / (l.dst.h / l.src.h)]
  else if l.vTaps = 1 then [nearestRow l.src.h l.dst.h j]
  else (taps l.vTaps l.src.h l.dst.h j).map Prod.fst

/-- The source columns that destination column i uses (R134 to R141). -/
def Layer.colsOf (l : Layer) (i : Nat) : List Nat :=
  if !l.hScaled then [i]
  else if l.intScale then [i / (l.dst.w / l.src.w)]
  else (taps l.hTaps l.src.w l.dst.w i).map Prod.fst

/-- A filtered pixel (R137, R138). -/
def filterPx (l : List (Px × Int)) : Px :=
  let f (g : Px → Nat) : Nat := clampI (((l.map fun q => q.2 * (g q.1 : Int)).sum + 2048) / 4096) 4095
  ⟨f Px.a, f Px.r, f Px.g, f Px.b⟩

/-- The vertical stage at source column x and destination line j (R136, R137, R141). -/
def State.vertPix (s : State) (l : Latched) (replace : Bool) (x j : Nat) : Px :=
  let lay := l.layer
  if !lay.vScaled then s.srcPix l replace x j
  else if lay.intScale then s.srcPix l replace x (j / (lay.dst.h / lay.src.h))
  else if lay.vTaps = 1 then s.srcPix l replace x (nearestRow lay.src.h lay.dst.h j)
  else filterPx ((taps lay.vTaps lay.src.h lay.dst.h j).map fun t => (s.srcPix l replace x t.1, t.2))

/-- The scaled pixel (i, j) of a layer's unclipped DST_RECT (R134 to R141). -/
def State.scaledPix (s : State) (l : Latched) (replace : Bool) (i j : Nat) : Px :=
  let lay := l.layer
  if !lay.hScaled then s.vertPix l replace i j
  else if lay.intScale then s.vertPix l replace (i / (lay.dst.w / lay.src.w)) j
  else filterPx ((taps lay.hTaps lay.src.w lay.dst.w i).map fun t => (s.vertPix l replace t.1 j, t.2))

/-- Rounding division by 4,095 (04). -/
def div4095 (p : Nat) : Nat := let q := p + 2048; (q + (q >>> 12)) >>> 12
/-- The rounding product (04). -/
def mul12 (x y : Nat) : Nat := div4095 (x * y)

/-- The premultiplied layer values (R142). -/
def planeAlpha (premult : Bool) (pa : Nat) (p : Px) : Px :=
  let a := mul12 p.a pa
  let c (v : Nat) := mul12 v (if premult then pa else a)
  ⟨a, c p.r, c p.g, c p.b⟩

/-- One component blended (R143). -/
def blend1 (d c a : Nat) : Nat := min 4095 (c + mul12 d (4095 - a))

/-- A layer blended over a pixel (R143 to R145). -/
def blendPx (d p : Px) : Px := ⟨4095, blend1 d.r p.r p.a, blend1 d.g p.g p.a, blend1 d.b p.b p.a⟩

/-- A 10-bit RGB register widened (COMP_BG_COLOUR, LTN_HATCH_COLOUR; R125). -/
def widen10 (w : Nat) : Px := ⟨4095, widen 10 (bits w 29 20), widen 10 (bits w 19 10), widen 10 (bits w 9 0)⟩

/-- The stale action in force for a latched layer, as a check takes it (R269). -/
def State.actionOf (s : State) (l : Latched) : Nat :=
  let p := s.ltn[l.pav.val]
  if p.actions.testBit l.layer.action then l.layer.action else p.defAction

/-- The stack as scanned: latched states under mappings in effect, in ascending stack position, ties by slot (R113, R114);
the Belvedere layer last (R115). -/
def State.scanStack (s : State) (o : Fin 8) : List (Fin 256 × Placed) :=
  let ls := (idx 248).filterMap fun i =>
    let i : Fin 256 := f256 i.val
    match s.slots[i.val].cur with
    | some l =>
      match s.pavs[l.pav.val].views[(f8 l.layer.view).val].cur with
      | some m => if m.out = o then (let q := place l m; if q.shown then some (i, q) else none) else none
      | none => none
    | none => none
  let sorted := (List.range 128).flatMap fun z => ls.filter fun q => q.2.z == z
  sorted ++ (match s.belvLatched o with | some q => [(f256 (248 + o.val), q)] | none => [])

/-- Where a pixel of a Belvedere layer lies in its secure half, and its bytes (R277). -/
def belvPixAt (q : Placed) (x y : Nat) : Nat × Nat :=
  let l := q.lat.layer
  let base := match q.lat.buf with | some a => a.addr | none => 0
  (base + (y - q.clip.y0) * (l.src.w * fmtBpp l.fmt) + (x - q.clip.x0) * fmtBpp l.fmt, fmtBpp l.fmt)

/-- What one layer of the stack contributes at an output pixel (R271 to R277), none outside its clip. -/
def State.layerPix (s : State) (o : Fin 8) (i : Fin 256) (q : Placed) (x y : Nat) : Option Px :=
  if !q.clip.has x y then none
  else
    let st := s.slots[i.val]
    let l := q.lat
    let dx := x - (q.map.rect.x0 + l.layer.dst.x0); let dy := y - (q.map.rect.y0 + l.layer.dst.y0)
    if 248 ≤ i.val then
      let b := s.belvs[o.val]
      if b.cur.isNone || (st.stale && st.action == 3) then some ⟨4095, 0, 0, 0⟩
      else
        let base := (match l.buf with | some a => a.addr | none => 0)
        let pix := l.layer.src.w * l.layer.src.h
        let at_ := belvPixAt q x y
        let w := ofLe (s.rdDev at_.1 at_.2)
        let pal := if l.layer.fmt = 0x07 then s.rdDev (base + pix) 1024 else []
        some { unpack l.layer.fmt w false pal with a := 4095 }
    else if l.buf.isNone then none
    else
      let act := st.action
      if st.stale && act == 3 then some ⟨4095, 0, 0, 0⟩
      else
        -- the destination index counts from the unclipped DST_RECT origin
        some (planeAlpha l.layer.premult l.layer.alpha (s.scaledPix l (st.stale && act == 1) dx dy))

/-- Whether a stale layer hatches a pixel (R271, R272, R279). -/
def State.hatches (s : State) (o : Fin 8) (i : Fin 256) (q : Placed) (x y : Nat) : Bool :=
  let st := s.slots[i.val]
  q.clip.has x y && decide ((x + y) % 32 < 8) &&
    (if 248 ≤ i.val then (s.belvs[o.val].cur.isNone || st.stale) && (s.belvs[o.val].cur.isNone || st.action == 0)
     else st.stale && st.action == 0 && !(match s.belvLatched o with | some b => b.clip.has x y | none => false))

/-- A composed pixel of 12-bit components: background, blend, hatch (R143, R144, R271 to R273). -/
def State.composePix (s : State) (o : Fin 8) (stack : List (Fin 256 × Placed)) (x y : Nat) : Px :=
  let d := stack.foldl (fun d q => match s.layerPix o q.1 q.2 x y with | some p => blendPx d p | none => d)
    (widen10 s.comps[o.val].bgLive.toNat)
  if stack.any fun q => s.hatches o q.1 q.2 x y then widen10 s.outs[o.val].hatch.toNat else d

/-- One component through the formatter (R231, R232). -/
def format1 (dither : Bool) (x y c : Nat) : Nat :=
  let d := if !dither then 2 else if y % 2 = 0 then (if x % 2 = 0 then 0 else 2) else (if x % 2 = 0 then 3 else 1)
  min 1023 ((c + d) >>> 2)

/-- The packed word of a formatted pixel (R248, R287). -/
def packWord (r g b : Nat) : Nat := 3 * 2 ^ 30 + r * 2 ^ 20 + g * 2 ^ 10 + b

/-- Keep offset of the safe frame of an output (R438). -/
def sfBase (o : Fin 8) : Nat := 0x600000 + o.val * 0x82000

/-- The palette entry of a safe frame as a 12-bit pixel; alpha is ignored (R438). -/
def State.sfEntry (s : State) (o : Fin 8) (i : Nat) : Px :=
  { unpack8888 (s.rdVal .keep (sfBase o + 0x400 + i * 4) 4) with a := 4095 }

/-- A pixel of the safe frame at integer scale with its border (R237); black under cause 5 (R239). -/
def State.safePix (s : State) (o : Fin 8) (x y : Nat) : Px :=
  if s.outs[o.val].cause5 then ⟨4095, 0, 0, 0⟩
  else
    let m := s.outs[o.val].mode
    let k := min (m.w / 960) (m.h / 540)
    let x0 := (m.w - 960 * k) / 2
    let y0 := (m.h - 540 * k) / 2
    if k ≠ 0 ∧ x0 ≤ x ∧ x < x0 + 960 * k ∧ y0 ≤ y ∧ y < y0 + 540 * k then
      s.sfEntry o ((s.rdByte .keep (sfBase o + 0x800 + (y - y0) / k * 960 + (x - x0) / k)).toNat)
    else s.sfEntry o 0

/-- The formatter's word of an output pixel as composition gives it now (R231, R232). -/
def State.freshWord (s : State) (o : Fin 8) (stack : List (Fin 256 × Placed)) (x y : Nat) : Nat :=
  let ou := s.outs[o.val]
  let p := if ou.safe then s.safePix o x y else s.composePix o stack x y
  packWord (format1 ou.set.dither x y p.r) (format1 ou.set.dither x y p.g) (format1 ou.set.dither x y p.b)

/-- Whether a pixel is replaced by black after an underrun (R234): it is the rest of that line, or a later one. -/
def Out.lostPix (u : Out) (x y : Nat) : Bool :=
  match u.underrunAt with
  | some l => decide (l < y) || (decide (l = y) && decide (u.underrunX ≤ x))
  | none => false

/-- The formatter's output word of an output pixel of the frame being scanned (R231, R232, R234): of a line fetched already as it was then. -/
def State.outWord (s : State) (o : Fin 8) (stack : List (Fin 256 × Placed)) (x y : Nat) : Nat :=
  let ou := s.outs[o.val]
  if ou.lostPix x y then packWord 0 0 0
  else match ou.rows[y]? with
    | some r => r.getD x 0
    | none => s.freshWord o stack x y

/-- The lines of the current frame of an output whose scan has started before Spire time. -/
def State.linesDue (s : State) (o : Fin 8) : Nat :=
  let u := s.outs[o.val]
  if u.scanning && !u.vblank then min u.mode.h (cdiv (s.now.toNat * 1000 - s.gridPs u.set.rg u.frame.toNat) (max 1 u.mode.linePs)) else 0

/-- The words of a rectangle in raster order (R248, R287). -/
def State.rectWords (s : State) (o : Fin 8) (r : Rect) : List Nat :=
  let st := s.scanStack o
  (List.range r.h).flatMap fun j => (List.range r.w).map fun i => s.outWord o st (r.x0 + i) (r.y0 + j)

/-- The check value of a proof window over the frame being scanned (R287, R288). -/
def State.proofValue (s : State) (o : Fin 8) (r : Rect) : Nat :=
  crcOf s.outs[o.val].pcrcLive ((s.rectWords o r).flatMap (leBytes 4))

/-- The expected value of window 0 from the secure buffer (R291): unpack and palette, formatter with a DITHER setting, packing, under a
parameter set. -/
def State.expectedWith (s : State) (o : Fin 8) (base : Nat) (dith : Bool) (c : Crc) : Nat :=
  match s.belvLatched o with
  | none => 0
  | some q =>
    let l := q.lat.layer
    let bpp := fmtBpp l.fmt
    let pal := if l.fmt = 0x07 then s.rdDev (base + l.src.w * l.src.h) 1024 else []
    crcOf c ((List.range l.src.h).flatMap fun j => (List.range l.src.w).flatMap fun i =>
      let p := unpack l.fmt (ofLe (s.rdDev (base + (j * l.src.w + i) * bpp) bpp)) false pal
      let x := q.clip.x0 + i; let y := q.clip.y0 + j
      leBytes 4 (packWord (format1 dith x y p.r) (format1 dith x y p.g) (format1 dith x y p.b)))

/-- The expected value under the output's settings in effect. -/
def State.expectedProof (s : State) (o : Fin 8) (base : Nat) : Nat :=
  s.expectedWith o base s.outs[o.val].set.dither s.outs[o.val].pcrcLive

end Sys2Proof.Machine
end

