-- ==== Sys2Proof/Machine/Access.lean ====
section
/-!
DEFINITION. Accesses of masters to the memories: region checks and watermarks (12), memory errors and their events (10, 11),
the DRAM regulators (09).
-/
namespace Sys2Proof.Machine
open Sys2Proof

/-- A region violation (R419). -/
def State.violation (s : State) (m : MemId) (addr : Nat) : State :=
  let ev : Ev := { code := evRegionViolation, inst := memNo m, time := s.now, detail := addr }
  ({ s with org := { s.org with regionViol := satInc s.org.regionViol } }.toDome ev).raise0 ev

/-- INSTANCE of a memory event (R406, R423). -/
def memInst (m : MemId) (a : Nat) : Nat :=
  match m with
  | .dram => (chanOf a).val
  | .org => 0x10 + bits a 11 8
  | .keep => 0x30
  | .dome => 0x28
  | .pool => 0x20

/-- The device address of an offset in a memory (R652); none for the memories that have none. -/
def devAddr : MemId → Nat → Option Nat
  | .dram, a => some (0x1000000000 + a)
  | .org, a => some a
  | .keep, a => some (0x10000000 + a)
  | _, _ => none

/-- The BAR2 offset at which a Pavilion sees a device address (R53). -/
def barOffset : List Ext → Nat → Nat → Option Nat
  | [], _, _ => none
  | e :: rest, start, a => if e.base ≤ a ∧ a < e.base + e.len then some (start + (a - e.base)) else barOffset rest (start + e.len) a

/-- An uncorrectable error noted (R404, R422, R437): counters, address, EV_ECC_UE. `who` is the Pavilion whose request found it, which learns the
BAR2 offset of the failing word (R406). -/
def State.noteUe (s : State) (m : MemId) (a : Nat) (who : Option (Fin 64)) : State :=
  let s := match m with
    | .dram => s.modDmc (chanOf a) fun d => { d with ue := satInc d.ue, eccAddr := a, eccUe := true }
    | .keep => { s with keep := { s.keep with ue := satInc s.keep.ue } }
    | m => { s with org := { s.org with ue := satInc s.org.ue, eccOff := a, eccInst := memInst m a, eccUe := true } }
  let ev : Ev := { code := evEccUe, inst := memInst m a, time := s.now, detail := a }
  let s := (s.toDome ev).raise ev [(0, ev)]
  match who, devAddr m a with
  | some p, some x => (match barOffset s.pavs[p.val].exts 0 x with | some off => s.deliver p { ev with detail := off } | none => s)
  | _, _ => s

/-- A corrected error noted (R403, R421, R437): counters, address, and EV_ECC_CE at most once a memory (or channel) and
budget period. -/
def State.noteCe (s : State) (m : MemId) (a : Nat) : State :=
  let s := match m with
    | .dram => s.modDmc (chanOf a) fun d => { d with ce := satInc d.ce, eccAddr := a, eccUe := false }
    | .keep => { s with keep := { s.keep with ce := satInc s.keep.ce } }
    | m => { s with org := { s.org with ce := satInc s.org.ce, eccOff := a, eccInst := memInst m a, eccUe := false } }
  let key := if m == .dram then memInst m a else match m with | .pool => 105 | .dome => 103 | _ => 101
  if m == .keep || s.ceRaised.contains key then s
  else
    let ev : Ev := { code := evEccCe, inst := memInst m a, time := s.now, detail := a }
    let s := { s with ceRaised := key :: s.ceRaised }
    (s.toDome ev).raise ev [(0, ev)]

/-- The first wait of a port in a period counted (BUD_PORT_WAIT; BUD_DRAM_WAIT of a Pavilion's port). -/
def State.portWaits (s : State) (q : Fin 83) : State :=
  if (s.bports[q.val]).waited then s
  else
    let s := s.modBport q fun b => { b with waited := true, wait := satInc b.wait }
    if 16 ≤ q.val ∧ q.val < 80 then s.modPav (fp (q.val - 16)) fun v => { v with dramWait := satInc v.dramWait } else s

/-- The bytes of a DRAM range that lie in ECC regions, whose edges are multiples of 64 MiB (R400). -/
def State.eccBytes (s : State) (a n : Nat) : Nat :=
  ((List.range ((a + max n 1 - 1) / 2 ^ 26 - a / 2 ^ 26 + 1)).map fun k =>
    let lo := max a ((a / 2 ^ 26 + k) * 2 ^ 26)
    if s.inEcc lo then min (a + n) ((a / 2 ^ 26 + k + 1) * 2 ^ 26) - lo else 0).sum

/-- The tokens an access to DRAM takes: its bytes, those in an ECC region at 9/8 rounded up to 64 (R364, R407). -/
def State.dramSize (s : State) (a n : Nat) : Nat := let e := s.eccBytes a n; (n - e) + cdiv (e * 9) (8 * 64) * 64

/-- Whether a bucket holds a request of `n` bytes (R364). -/
def BPort.passes (b : BPort) (n : Nat) : Bool := decide (n * 1000000 ≤ b.bucket)

/-- Whether a port may borrow (R366). -/
def BPort.borrows (b : BPort) : Bool := b.cfg.getLsbD 0

/-- Tokens taken from a regulator for `n` bytes (R364): a real-time port is never held, its fetch beyond the grant counted (R365); a borrowed
request takes nothing (R366). An access made within its command although the tokens do not suffice empties the bucket and counts as
having waited (log 18). -/
def State.portUse (s : State) (q : Fin 83) (n : Nat) : State :=
  let b := s.bports[q.val]
  if q.val < 8 then
    let s := s.modBport q fun b => { b with used := b.used + n }
    if b.grant < b.used + n then s.portWaits q else s
  else if b.passes n then s.modBport q fun b => { b with bucket := b.bucket - n * 1000000 }
  else if b.borrows then s
  else (s.modBport q fun b => { b with bucket := 0 }).portWaits q

/-- The charge of an access to DRAM (R407). -/
def State.dramCharge (s : State) (q : Fin 83) (a n : Nat) : State := s.portUse q (s.dramSize a n)

/-- Whether a request of a port passes its regulator now: a real-time one always, else with tokens, or as one that borrows (R364 to R366). -/
def State.admits (s : State) (q : Fin 83) (a n : Nat) : Bool :=
  let b := s.bports[q.val]
  decide (q.val < 8) || b.passes (s.dramSize a n) || b.borrows

/-! ### DRAM channels -/

/-- The page hint of a regulator port's request (R378); `tlp` is the length of the TLP of a BAR2 access of ports 16 to 79. -/
def hintOpen (q : Fin 83) (tlp : Option Nat) : Bool :=
  match tlp with
  | some n => if 16 ≤ q.val ∧ q.val < 80 then decide (256 ≤ n) else decide (q.val ≤ 80)
  | none => decide (q.val ≤ 80)

/-- Whether a request is of the real-time class (R362). -/
def isRt (r : MemReq) : Bool := decide (r.port.val < 8)

/-- The regulator port of a Pavilion (R362). -/
def portP (p : Fin 64) : Fin 83 := f83 (16 + p.val)

/-- The master code of a Pavilion's host port (11, masters). -/
def masterP (p : Fin 64) : Nat := 4 + (portOf p).val

/-- The Pavilion of a regulator port, which learns of an error its request found (R406). -/
def asker (q : Fin 83) : Option (Fin 64) := if 16 ≤ q.val ∧ q.val < 80 then some (fp (q.val - 16)) else none

/-- Whether the newest queued entry of an atom covers the bytes [lo, hi) of it (R383). -/
def Dmc.covers (d : Dmc) (atom lo hi : Nat) : Bool :=
  match d.wq.find? fun w => w.addr == atom with
  | none => false
  | some w => (List.range (hi - lo)).all fun i => (w.bytes.lookup (lo + i)).isSome

/-- A composer's fetch or its line buffer meets an uncorrectable error: FETCH_FAULT, and the underrun of R234 follows. `a` is the device
address, none in the line buffer. -/
def State.fetchFault (s : State) (o : Fin 8) (a : Option Nat) : State :=
  s.modComp o fun c => { c with fetchFault := true, faults := c.faults ++ [a] }

/-- The error response a requester sees (R404): a composer sets FETCH_FAULT. -/
def State.errorTo (s : State) (q : Fin 83) (a : Nat) : State :=
  (if q.val < 8 then s.fetchFault (f8 q.val) (some (0x1000000000 + a)) else s).emit (.memData false [])

/-! #### Refresh as it goes before requests -/

/-- Whether a channel runs: trained, its clock present and not in self-refresh. -/
def State.dmcLive (s : State) (c : Fin 8) : Bool := (s.dmcs[c.val]).trained && !(s.dmcs[c.val]).selfRef && !s.dramGone

/-- The state a debt gives outside a burst or in one. -/
def refStOf (debt : Nat) (burst : Bool) : RefSt := if debt < 8 then .settled else if burst then .postponed else .owing

/-- Retraining as it is done: an update limited where the drift is larger than one update corrects (R399). -/
def Dmc.retrained (d : Dmc) (drift : Bool) : Dmc :=
  { d with retrain := none, retrainDue := false, drift := d.drift || drift, driftCount := if drift then satInc16 d.driftCount else d.driftCount }

/-- `n` REFab issued (R387, R389): every row closes (R379), and retraining that waits is done in the first (R398). -/
def Dmc.refAb (d : Dmc) (n : Nat) : Dmc :=
  if n = 0 then d
  else
    let debt := d.debt - 8 * n
    let d := { d with debt, refreshes := d.refreshes + BitVec.ofNat 48 n, openRows := [], ref := refStOf debt d.rtBurst }
    match d.retrain with | some drift => d.retrained drift | none => d

/-- A REFpb to the next bank pair in rotation (R387); eight of them are one unit. -/
def Dmc.refPb (d : Dmc) : Dmc :=
  let b := d.nextPb
  { d with debt := d.debt - 1, nextPb := (b + 1) % 8, refreshes := if b = 7 then d.refreshes + 1 else d.refreshes
           openRows := d.openRows.filter fun q => q.1 % 8 != b, ref := refStOf (d.debt - 1) d.rtBurst }

/-- Whether a request for the bank pair whose turn it is waits in a queue of the channel (R389). -/
def Dmc.pairBusy (d : Dmc) (ranks2 : Bool) : Bool :=
  (d.rq.map (·.req.addr) ++ d.wq.map (·.addr)).any fun a => (rowOf ranks2 a).1 % 8 == d.nextPb

/-- The refresh that a channel issues now outside an RT burst, before any request (R380 step 1, R389): REFab, or REFpb while no request for its
bank pair waits; none otherwise. -/
def Dmc.payNow (d : Dmc) (ranks2 : Bool) : Option Dmc :=
  if d.rtBurst || d.debt == 0 then none
  else if decide (16 ≤ d.debt) || (!d.pbEn && decide (8 ≤ d.debt)) then some (d.refAb 1)
  else if d.pbEn && !d.pairBusy ranks2 then some d.refPb
  else none

/-! #### The write queue -/

/-- Whether a write may still merge into an entry of the queue (R382): no read of its atom waits that was registered after the entry was opened, for
that read must not see the later write (R386; DEDUCED, log 49). -/
def Dmc.mergeable (d : Dmc) (w : WAtom) : Bool := !(d.rq.any fun r => r.req.addr / 64 * 64 == w.addr && decide (w.no < r.no))

/-- Bytes of an atom that take the place of older ones. -/
def newer (new old : List (Nat × Byte)) : List (Nat × Byte) := new ++ old.filter fun b => (new.lookup b.1).isNone

/-- Bytes of one atom registered at its channel: merged into the newest entry of the atom, else in an entry of their own (R382). The queue starts
draining with 48 entries (R381), and a full one issues 16 before it takes reads again (R380). -/
def State.wqAdd (s : State) (keepOpen : Bool) (atom : Nat) (bytes : List (Nat × Byte)) : State :=
  s.modDmc (chanOf atom) fun d =>
    match d.wq.find? fun w => w.addr == atom with
    | some w =>
      if d.mergeable w then { d with wq := d.wq.map fun x => if x.no = w.no then { x with bytes := newer bytes x.bytes } else x }
      else { d with wq := { addr := atom, bytes, keepOpen, since := s.now.toNat, no := d.nextNo } :: d.wq, nextNo := d.nextNo + 1
                    draining := d.draining || decide (47 ≤ d.wq.length), fullRun := if d.wq.length = 63 then 16 else d.fullRun }
    | none => { d with wq := { addr := atom, bytes, keepOpen, since := s.now.toNat, no := d.nextNo } :: d.wq, nextNo := d.nextNo + 1
                       draining := d.draining || decide (47 ≤ d.wq.length), fullRun := if d.wq.length = 63 then 16 else d.fullRun }

/-- The corrected atom of a read queued as a full-atom write (R403). -/
def State.writeBack (s : State) (atom : Nat) : State :=
  s.wqAdd false atom ((s.rdBytes .dram atom 64).zipIdx.map fun b => (b.2, b.1))

/-- Where a record of a capture lies (R249). -/
def Capture.slotAddr (c : Capture) : Nat := c.record + c.index % c.ring * 64

/-- The captures whose record of the current frame lies in a device atom that cannot be corrected (R404): they end with that frame. -/
def State.recordLost (s : State) (dev : Nat) : State :=
  (idx 8).foldl (fun s o => s.modOut o fun u => { u with caps := u.caps.map fun c => if c.inFrame && c.slotAddr == dev then { c with bad := true } else c }) s

/-- One queued atom written to the DRAM and counted (DMC_WR_BYTES), its row touched. A write of all 64 bytes ends what error the atom held; one of a
part is a read–modify–write in an ECC region, whose old data is corrected, or, where that cannot be, noted and left poisoned (R403 to R405). -/
def State.issueAtom (s : State) (w : WAtom) : State :=
  let old := s.inEcc w.addr && w.bytes.length != 64
  let s := if old && s.poison.contains (MemId.dram, w.addr) then (s.noteUe .dram w.addr none).recordLost (0x1000000000 + w.addr) else s
  let s := if old && s.flips.contains (MemId.dram, w.addr) then
      { s with flips := s.flips.filter fun q => q != (MemId.dram, w.addr) }.noteCe .dram w.addr
    else s
  let s := if w.bytes.length = 64 then s.unpoison .dram w.addr 64 else s
  let s := w.bytes.foldl (fun s b => s.stCell .dram (w.addr + b.1) b.2) s
  s.modDmc (chanOf w.addr) fun d => { d with wrBytes := d.wrBytes + BitVec.ofNat 48 w.bytes.length }.touchRow s.dmcg.ranks2 w.addr w.keepOpen

/-! #### The order of requests -/

/-- An entry of a step of R380 that may go, as its list holds it: registered at `since`, its address, its number. -/
structure Cand where
  since : Nat
  addr : Nat
  no : Nat
deriving DecidableEq, Repr

/-- The choice within one step of R380, over entries from the oldest to the newest: one that has waited 1 µs before every younger one, then
row hits, then the oldest. -/
def chooseCand (d : Dmc) (ranks2 : Bool) (now : Nat) (l : List Cand) : Option Cand :=
  match l with
  | [] => none
  | c :: _ => if c.since + 1000 ≤ now then some c else some ((l.find? fun c => d.rowHit ranks2 c.addr).getD c)

/-- The queued write that a channel issues next: none before an older read of its atom (R386). -/
def nextWrite (d : Dmc) (ranks2 : Bool) (now : Nat) : Option WAtom :=
  let ok := d.wq.reverse.filter fun w => !(d.rq.any fun r => r.req.addr / 64 * 64 == w.addr && decide (r.no < w.no))
  match chooseCand d ranks2 now (ok.map fun w => ⟨w.since, w.addr, w.no⟩) with
  | none => none
  | some c => ok.find? fun w => w.no == c.no

/-- The read that a channel issues next among those of a step of R380: none before the entries of its atom that were queued as it came (R384). -/
def nextRead (d : Dmc) (ranks2 : Bool) (now : Nat) (rt : Bool) : Option RAtom :=
  let ok := d.rq.filter fun x => isRt x.req == rt && !(d.wq.any fun w => w.addr == x.req.addr / 64 * 64 && decide (w.no < x.no))
  match chooseCand d ranks2 now (ok.map fun x => ⟨x.since, x.req.addr, x.no⟩) with
  | none => none
  | some c => ok.find? fun x => x.no == c.no

/-- One write of a channel issued and taken off its queue (R380); draining stops with 16 entries left (R381). -/
def State.issueWrite (s : State) (c : Fin 8) : State :=
  match nextWrite (s.dmcs[c.val]) s.dmcg.ranks2 s.now.toNat with
  | none => s
  | some w => ((s.modDmc c fun d =>
      let l := d.wq.filter fun x => x.no != w.no
      { d with wq := l, draining := d.draining && decide (16 < l.length), fullRun := d.fullRun - 1 }).issueAtom w)

/-- A queued read issued at its channel (R380): its row, the error check inside an ECC region (R403, R404, R408), and the answer, unless the read is
part of an access that is answered as a whole. -/
def State.issueRead (s : State) (c : Fin 8) (x : RAtom) : State :=
  let r := x.req
  let atom := r.addr / 64 * 64
  let s := (s.modDmc c fun d => { d with rq := d.rq.filter fun y => y.no != x.no, rdBytes := d.rdBytes + 64 }).rowUse r.addr (hintOpen r.port r.tlp)
  if s.poisoned .dram r.addr r.len then
    let s := if s.dramGone then s else s.noteUe .dram atom x.who
    if x.part then s else s.errorTo r.port r.addr
  else
    let data := s.rdBytes .dram r.addr r.len
    let s := if s.inEcc atom && s.flips.contains (MemId.dram, atom) then
        ({ s with flips := s.flips.filter fun q => q != (MemId.dram, atom) }.writeBack atom).noteCe .dram atom
      else s
    if x.part then s else s.emit (.memData true data)

/-- A request that a channel issues, by the order of R380: writes while a queue that was full has not issued 16, real-time reads, writes while the
queue drains (R381), other reads, other writes. -/
def State.dmcIssue (s : State) (c : Fin 8) : State :=
  let d := s.dmcs[c.val]
  let read (rt : Bool) : Option RAtom := nextRead d s.dmcg.ranks2 s.now.toNat rt
  let may := (nextWrite d s.dmcg.ranks2 s.now.toNat).isSome
  if may && decide (0 < d.fullRun) then s.issueWrite c
  else match read true with
    | some x => s.issueRead c x
    | none =>
      if may && d.draining then s.issueWrite c
      else match read false with
        | some x => s.issueRead c x
        | none => s.issueWrite c

/-- One piece of work of a channel: a refresh due at once (R389), else a request (R380). -/
def State.dmcStep (s : State) (c : Fin 8) : State :=
  match if s.dmcLive c then (s.dmcs[c.val]).payNow s.dmcg.ranks2 else none with
  | some d => s.modDmc c fun _ => d
  | none => s.dmcIssue c

/-- A channel works until a condition on it holds; `n` bounds the work. -/
def State.dmcUntil : Nat → State → Fin 8 → (Dmc → Bool) → State
  | 0, s, _, _ => s
  | n + 1, s, c, ok => if ok (s.dmcs[c.val]) then s else State.dmcUntil n (s.dmcStep c) c ok

/-- A bound on the work of a channel before a place in a queue is free or a read is issued: its queues, and the refreshes that go before. -/
def Dmc.workLeft (d : Dmc) : Nat := d.rq.length + d.wq.length + d.debt + 1

/-- Bytes written to DRAM through the channels' write queues, atom by atom; a full queue holds the write at fabric entry until it has issued one of
its entries (R380, R382). -/
def State.dramPut (s : State) (keepOpen : Bool) (a : Nat) (l : List Byte) : State :=
  (List.range ((a + max l.length 1 - 1) / 64 - a / 64 + 1)).foldl (fun s k =>
    let atom := (a / 64 + k) * 64
    let lo := max a atom - a
    let part := (l.drop lo).take (min (a + l.length) (atom + 64) - (a + lo))
    let c := chanOf atom
    let bytes := part.zipIdx.map fun b => (a + lo - atom + b.2, b.1)
    let merges := (s.dmcs[c.val]).wq.any fun w => w.addr == atom && (s.dmcs[c.val]).mergeable w
    (if merges then s else State.dmcUntil (s.dmcs[c.val]).workLeft s c fun d => decide (d.wq.length < 64)).wqAdd keepOpen atom bytes) s

/-- The reads of a kind that a channel's queue takes: 64 in all, at most 32 that are not real-time. -/
def Dmc.readRoom (d : Dmc) (rt : Bool) : Bool :=
  decide (d.rq.length < 64) && (rt || decide ((d.rq.filter fun x => !isRt x.req).length < 32))

/-- A real-time read begins or continues an RT burst on its channel (R388). -/
def Dmc.rtBegin (d : Dmc) : Dmc := { d with rtBurst := true, ref := if d.ref == .owing then .postponed else d.ref }

/-- A read of an atom that its channel has queued entries for and that its newest entry does not cover waits for them, which is counted (R384); a
full queue takes it once it has room. The state, and the number the read has. -/
def State.readQueue (s : State) (r : MemReq) (part : Bool) (who : Option (Fin 64)) : State × Nat :=
  let c := chanOf r.addr
  let s := State.dmcUntil (s.dmcs[c.val]).workLeft s c fun d => d.readRoom (isRt r)
  let d := s.dmcs[c.val]
  let waits := d.wq.any fun w => w.addr == r.addr / 64 * 64
  (s.modDmc c fun d => { d with
      partialWait := if waits then satInc d.partialWait else d.partialWait
      rq := d.rq ++ [{ req := r, since := s.now.toNat, no := d.nextNo, part, who }], nextNo := d.nextNo + 1 }, d.nextNo)

/-- A read registered at its channel (R383, R384, R388): answered from the newest queued entry of its atom where that covers it, else queued. -/
def State.readIn (s : State) (r : MemReq) (part : Bool) (who : Option (Fin 64)) : State × Option Nat :=
  let c := chanOf r.addr
  let s := if isRt r then s.modDmc c Dmc.rtBegin else s
  if (s.dmcs[c.val]).covers (r.addr / 64 * 64) (r.addr % 64) (r.addr % 64 + r.len) then
    let s := s.modDmc c fun d => { d with fwd := d.fwd + 1 }
    (if part then s else s.emit (.memData true (s.rdBytes .dram r.addr r.len)), none)
  else
    let (s, k) := s.readQueue r part who
    (s, some k)

/-- One atom read for an access that is answered as a whole: the channel works in its order until the read has been issued (R380). The state, and
whether the atom could not be read. -/
def State.atomRead (s : State) (r : MemReq) (who : Option (Fin 64)) : State × Bool :=
  match s.readIn r true who with
  | (s, none) => (s, false)
  | (s, some k) =>
    let c := chanOf r.addr
    let s := State.dmcUntil (s.dmcs[c.val]).workLeft s c fun d => !d.rq.any fun x => x.no == k
    (s, s.poisoned .dram r.addr r.len)

/-- A range of DRAM read, atom by atom; whether an atom of it could not be read. -/
def State.dmcRead (s : State) (q : Fin 83) (tlp : Option Nat) (who : Option (Fin 64)) (a n : Nat) : State × Bool :=
  (List.range ((a + max n 1 - 1) / 64 - a / 64 + 1)).foldl (fun (s, bad) k =>
    let atom := (a / 64 + k) * 64
    let lo := max a atom
    let (s, b) := s.atomRead { port := q, addr := lo, len := min (a + n) (atom + 64) - lo, tlp } who
    (s, bad || b)) (s, false)

/-! #### Self-refresh -/

/-- Whether an MR4 refresh-rate field means a multiplier below 1×, and below 0.5× (LPDDR5 MR4; PRESUMED, log 15). -/
def mr4Hot (rate : Nat) : Bool := decide (10 ≤ rate)
def mr4Over (rate : Nat) : Bool := decide (12 ≤ rate)

/-- A channel's exit from self-refresh (10, Self-refresh): MR4 is read and the range set, the channel retrains, and it is SETTLED with no debt. The
rate that MR4 gives and, where no retraining was due, the drift it finds are free values (log 6). -/
def State.awake (s : State) (c : Fin 8) : State :=
  if !(s.dmcs[c.val]).selfRef then s
  else
    let (v, s) := s.free
    let rate := bits v.toNat 4 0
    s.modDmc c fun d =>
      let d := { d with selfRef := false, ref := .settled, debt := 0, mr4 := rate, hot := mr4Hot rate, hotOver := d.hotOver || mr4Over rate
                        interval := if mr4Hot rate then 1953 else 3906 }
      d.retrained (d.retrain.getD (v.getLsbD 5))

/-- An access to DRAM in self-refresh wakes the channels and ends STANDBY (R410, R598); one that comes before the last channel has
entered it cancels the entry (R411, R599). -/
def State.wake (s : State) : State :=
  let out (s : State) : State := (idx 8).foldl (fun s c => s.awake c) s
  if s.pwr.standby then out { s with pwr := { s.pwr with standby := false } }
  else if s.pwr.entering then out { s with pwr := { s.pwr with entering := false, reqErr := true } }
  else s

/-- The DRAM channels whose islands an access of `n` bytes reaches wake (R27). -/
def State.wakeDmcs (s : State) (a n : Nat) : State :=
  (List.range ((a + max n 1 - 1) / 64 - a / 64 + 1)).foldl (fun s k => s.wakeIsland (islDmc (chanOf ((a / 64 + k) * 64)).val)) s

/-- What an access to a memory wakes: the DRAM's channels, or the ORANGERY island, which holds the Keep controller too (R27, R410). -/
def State.wakeMem (s : State) (m : MemId) (a n : Nat) : State :=
  match m with
  | .dram => (s.wake).wakeDmcs a n
  | .dome => s
  | _ => s.wakeIsland islOrg

/-! ### What composers fetch -/

/-- Whether a range of device addresses lies in the secure buffers of an enabled Belvedere slot. -/
def State.inBelv (s : State) (a n : Nat) : Bool :=
  s.belvs.toList.any fun b =>
    let w := bits b.size.toNat 15 0
    let h := bits b.size.toNat 31 16
    b.cfg.getLsbD 0 && decide (b.bufBase ≤ a) && decide (a + n ≤ b.bufBase + 2 * (w * h * (if b.cfg.getLsbD 1 then 1 else 4) + 1024))

/-- The source rows that output line y of a layer's clip fetches: those that no earlier line of it has used. -/
def newRows (l : Layer) (j : Nat) (first : Bool) : List Nat :=
  let rows := (l.rowsOf j).eraseDups
  if first then rows else rows.filter fun r => !(l.rowsOf (j - 1)).contains r

/-- What a composer fetches for output line y: device address and bytes of every source line of a layer that the line is the first to use, and
the palette of a Belvedere buffer with its first line (R123, R136, R277). -/
def State.lineFetches (s : State) (st : List (Fin 256 × Placed)) (y : Nat) : List (Nat × Nat) :=
  st.flatMap fun q =>
    let l := q.2.lat
    let t := s.slots[q.1.val]
    if y < q.2.clip.y0 ∨ q.2.clip.y1 ≤ y ∨ l.buf.isNone ∨ (t.stale && t.action == 3) then []
    else if 248 ≤ q.1.val then
      let a := belvPixAt q.2 q.2.clip.x0 y
      let pix := l.layer.src.w * l.layer.src.h
      (a.1, l.layer.src.w * a.2) :: (if l.layer.fmt = 0x07 ∧ y = q.2.clip.y0 then [((match l.buf with | some b => b.addr | none => 0) + pix, 1024)] else [])
    else
      let rep := t.stale && t.action == 1
      (newRows l.layer (y - (q.2.map.rect.y0 + l.layer.dst.y0)) (y == q.2.clip.y0)).map fun r =>
        let a := s.pixAt l rep 0 r
        let b := s.pixAt l rep (l.layer.src.w - 1) r
        (min a.1 b.1, max a.1 b.1 + a.2 - min a.1 b.1)

/-- One fetch of a composer judged: what its region denies and what cannot be read give FETCH_FAULT (R404, R419, R422, R462); the data itself is
taken where the line is composed. -/
def State.fetchCheck (s : State) (o : Fin 8) (x : Nat × Nat) : State :=
  match s.locate x.1 with
  | none => s
  | some (m, a) =>
    if !s.permit 8 (s.inBelv x.1 x.2) m a x.2 false then (s.violation m a).fetchFault o (some x.1)
    else if m == .dram && s.dramGone then s.fetchFault o (some x.1)
    else (s.badWords m a x.2).foldl (fun s w =>
      if m == .dram && (s.dmcs[(chanOf w).val]).covers w (max a w - w) (min (a + x.2) (w + 64) - w) then s
      else (s.noteUe m w none).fetchFault o (devAddr m (max a w))) s

/-- The lines of an output that have started kept as they are now (R163): a line is fetched as its scan starts (DESIGN CHOICE, log 17). -/
def State.freezeOut (s : State) (o : Fin 8) : State :=
  let k := s.outs[o.val].rows.length
  let n := s.linesDue o
  if n ≤ k then s
  else
    let st := s.scanStack o
    let w := s.outs[o.val].mode.w
    let new := (List.range (n - k)).map fun j => (List.range w).map fun x => s.freshWord o st x (k + j)
    let s := if s.outs[o.val].safe then s
      else ((List.range (n - k)).flatMap fun j => s.lineFetches st (k + j)).foldl (fun s x => s.fetchCheck o x) s
    s.modOut o fun u => { u with rows := u.rows ++ new }

/-- What the outputs have fetched kept, before memory changes (R163). -/
def State.freeze (s : State) : State := (idx 8).foldl State.freezeOut s

/-! ### Reads and writes -/

/-- The errors that a read of a range of an on-chip memory meets (R421, R422, R437): each bad word is noted, each single-bit error corrected and noted,
and, but for the line-buffer pool, written back. Whether a word could not be read. -/
def State.readErrs (s : State) (m : MemId) (a n : Nat) (who : Option (Fin 64)) : State × Bool :=
  let bad := s.badWords m a n
  let s := bad.foldl (fun s w => s.noteUe m w who) s
  let fix := (errIn s.flips m a n).filter fun w => !bad.contains w
  (fix.foldl (fun s w =>
    (if m == .pool then s else { s with flips := s.flips.filter fun q => q != (m, w) }).noteCe m w) s, !bad.isEmpty)

/-- Bytes stored to an on-chip memory: words written whole lose what error they held. The Keep's writes go through its write buffer. -/
def State.stWords (s : State) (m : MemId) (a : Nat) (l : List Byte) : State := (s.stCells m a l).unpoison m a l.length

/-- A read that its region permits: none where DRAM is gone or the bytes meet an uncorrectable error. `tlp` as in `hintOpen`; `who` is the Pavilion
that asks (R406). -/
def State.memReadOk (s : State) (tlp : Option Nat) (q : Fin 83) (who : Option (Fin 64)) (a n : Nat) : State × Option (List Byte) :=
  match s.locate a with
  | none => (s, some (s.rdDev a n))
  | some (m, o) =>
    if m == .dram && s.dramGone then (s, none)
    else
      let s := s.wakeMem m o n
      let (s, bad) := if m == .dram then (s.dramCharge q o n).dmcRead q tlp who o n else s.readErrs m o n who
      (s, if bad then none else some (s.rdDev a n))

/-- Whether the region of a device address permits an access (R462); what lies in no memory has no region. -/
def State.permitDev (s : State) (master : Nat) (secure : Bool) (a n : Nat) (write : Bool) : Bool :=
  match s.locate a with
  | none => true
  | some (m, o) => s.permit master secure m o n write

/-- A region violation at a device address (R419). -/
def State.violationDev (s : State) (a : Nat) : State :=
  match s.locate a with
  | none => s
  | some (m, o) => s.violation m o

/-- A master's read at a device address: the region check, then the error check, then the bytes; none on either. -/
def State.memReadT (s : State) (tlp : Option Nat) (master : Nat) (secure : Bool) (q : Fin 83) (who : Option (Fin 64)) (a n : Nat) :
    State × Option (List Byte) :=
  if s.permitDev master secure a n false then s.memReadOk tlp q who a n else (s.violationDev a, none)

/-- A master's read that is no BAR2 access. -/
def State.memRead (s : State) (master : Nat) (secure : Bool) (q : Fin 83) (who : Option (Fin 64)) (a n : Nat) :
    State × Option (List Byte) := s.memReadT none master secure q who a n

/-- Whether a write at a device address reaches its memory: its region permits it, and DRAM is there (R397, R419, R552). -/
def State.writable (s : State) (master : Nat) (secure : Bool) (a n : Nat) : Bool :=
  s.permitDev master secure a n true && !((match s.locate a with | some (.dram, _) => true | _ => false) && s.dramGone)

/-! #### The Keep's write buffer -/

/-- Words of 8 bytes that a range touches. -/
def wordsOf (a n : Nat) : Nat := if n = 0 then 0 else (a + n - 1) / 8 - a / 8 + 1

/-- The bytes of a write word by word: each word's address and bytes. -/
def wordParts (a : Nat) (l : List Byte) : List (Nat × List Byte) :=
  (List.range (wordsOf a l.length)).map fun k =>
    let lo := max a ((a / 8 + k) * 8) - a
    (a + lo, (l.drop lo).take (min (a + l.length) ((a / 8 + k + 1) * 8) - (a + lo)))

/-- One word write of the Keep made (R433, R434, KEEP_WRITES). -/
def State.keepMake (s : State) (q : Nat × List Byte) : State :=
  let s := s.stWords .keep q.1 q.2
  { s with keep := { s.keep with writes := s.keep.writes + 1 } }

/-- Words in the Keep's write buffer. -/
def Keep.used (k : Keep) : Nat := k.dbuf.length + k.buf.length

/-- The oldest write of the buffer made, the Dome's before the aperture's (R436). -/
def State.keepDrain (s : State) : State :=
  match s.keep.dbuf, s.keep.buf with
  | q :: rest, _ => { s with keep := { s.keep with dbuf := rest } }.keepMake q
  | [], q :: rest => { s with keep := { s.keep with buf := rest } }.keepMake q
  | [], [] => s

/-- Bytes written to the Keep by the Dome (R433 to R436): word by word into the write buffer, which makes its oldest write where it is full. -/
def State.keepPut (s : State) (a : Nat) (l : List Byte) : State :=
  (wordParts a l).foldl (fun (s : State) q =>
    let s := if 16 ≤ s.keep.used then s.keepDrain else s
    { s with keep := { s.keep with dbuf := s.keep.dbuf ++ [q] } }) (s.freeze.wakeIsland islOrg)

/-- A write that its region permits: the bytes, where there is a memory. -/
def State.memWriteOk (s : State) (tlp : Option Nat) (q : Fin 83) (a : Nat) (l : List Byte) : State :=
  match s.locate a with
  | none => s
  | some (m, o) =>
    if m == .dram && s.dramGone then s
    else
      let s := s.freeze.wakeMem m o l.length
      match m with
      | .dram => (s.dramCharge q o l.length).dramPut (hintOpen q tlp) o (l.take (s.memSize .dram - o))
      | .keep => s.keepPut o (l.take (s.memSize .keep - o))
      | m => s.stWords m o (l.take (s.memSize m - o))

/-- A master's write at a device address: the region check, then the bytes. -/
def State.memWriteT (s : State) (tlp : Option Nat) (master : Nat) (secure : Bool) (q : Fin 83) (a : Nat) (l : List Byte) : State :=
  if s.permitDev master secure a l.length true then s.memWriteOk tlp q a l else s.violationDev a

/-- A master's write that is no BAR2 access. -/
def State.memWrite (s : State) (master : Nat) (secure : Bool) (q : Fin 83) (a : Nat) (l : List Byte) : State :=
  s.memWriteT none master secure q a l

/-! ### Who asks -/

/-- The master of a regulator port (09, 11): composers, outputs, host ports, Spire, the Dome, FABRIC. -/
def portMaster (q : Fin 83) : Nat :=
  if q.val < 8 then 8 else if q.val < 16 then 9 else if q.val < 80 then masterP (fp (q.val - 16)) else if q.val = 80 then 3
  else if q.val = 81 then 0 else 1

/-- Whether an access carries the secure tag (12, Dividing memory): the Dome's, a composer's fetch for a Belvedere slot, an output's
safe-frame read. -/
def State.secureTag (s : State) (master : Nat) (dev n : Nat) : Bool :=
  master == 0 || (master == 8 && s.inBelv dev n) || (master == 9 && decide (0x10000000 ≤ dev) && decide (dev < 0x11000000))

/-! ### Requests of DRAM (DRAM_READ, DRAM_WRITE) -/

/-- The error that a DRAM request finds in its atom, where an ECC region guards it (R400). -/
def State.meetIf (s : State) (a : Nat) (e : Ecc) : State := if s.inEcc a then s.meet .dram a e else s

/-- A request that has passed its regulator (R382 to R386, R404, R405, R410, R419): what its region denied has no effect, every other goes to
its channel. Its answer is a Tx that comes when the channel issues it. -/
def State.dramDo (s : State) (x : EntryReq) : State :=
  let r := x.req
  match x.data with
  | none =>
    if s.memSize .dram < r.addr + r.len then s.emit (.memData true (List.replicate r.len 0))
    else if !x.ok then (s.violation .dram r.addr).errorTo r.port r.addr
    else if s.dramGone then s.errorTo r.port r.addr
    else ((((s.wakeMem .dram r.addr r.len).dramCharge r.port r.addr r.len).meetIf r.addr x.ecc).readIn r false (asker r.port)).1
  | some data =>
    if s.memSize .dram < r.addr + r.len then s
    else if x.ok then s.memWriteOk r.tlp r.port (0x1000000000 + r.addr) data
    else s.violation .dram r.addr

/-- A request registered at fabric entry (R364, R462): its region is checked, then it passes, or it waits behind the earlier requests of its
port. -/
def State.dramReq (s : State) (r : MemReq) (data : Option (List Byte)) (ecc : Ecc) : State :=
  let q := r.port
  let m := portMaster q
  let n := match data with | some l => l.length | none => r.len
  let x : EntryReq := { req := r, data, ecc, ok := s.permit m (s.secureTag m (0x1000000000 + r.addr) r.len) .dram r.addr n data.isSome }
  let s := if s.memSize .dram < r.addr + r.len || !x.ok || s.dramGone then s else s.wakeMem .dram r.addr r.len
  if !(s.entry.any fun y => y.req.port == q) && s.admits q x.req.addr x.req.len then s.dramDo x
  else { s.portWaits q with entry := s.entry ++ [x] }

/-! ### The Dome's reads for proof -/

/-- Width, height and bytes per pixel of a Belvedere slot. -/
def Belv.geom (b : Belv) : Nat × Nat × Nat :=
  (bits b.size.toNat 15 0, bits b.size.toNat 31 16, if b.cfg.getLsbD 1 then 1 else 4)

/-- Bytes of one secure half of a Belvedere slot. -/
def Belv.halfBytes (b : Belv) : Nat := let (w, h, bpp) := b.geom; w * h * bpp + 1024

/-- The expected proof value of an output's secure half, as the Dome reads it through port 82 (R282, R291, R362): the read is checked, charged and
counted as any other; where it cannot be made, the value is free (DESIGN CHOICE, log 51). -/
def State.expectedRead (s : State) (o : Fin 8) (base : Nat) (dith : Bool) (c : Crc) : State × DWord :=
  match s.belvLatched o with
  | none => (s, w64 (s.expectedWith o base dith c))
  | some q =>
    let l := q.lat.layer
    match s.memRead 0 true 82 none base (l.src.w * l.src.h * fmtBpp l.fmt + (if l.fmt = 0x07 then 1024 else 0)) with
    | (t, some _) => (t, w64 (t.expectedWith o base dith c))
    | (t, none) => let (v, t) := t.free; (t, v)

/-- The same under the output's settings in effect. -/
def State.expectedNow (s : State) (o : Fin 8) (base : Nat) : State × DWord :=
  s.expectedRead o base s.outs[o.val].set.dither s.outs[o.val].pcrcLive

/-- The Dome recomputes from the secure buffer the expected value of the latched Belvedere buffer and of every frame that waits to be compared (R292,
R296); a half that an update is being written to no longer holds what the frame showed, and its frames keep the value they have (log 58). -/
def State.recomputeExpected (s : State) (o : Fin 8) : State :=
  let b := s.belvs[o.val]
  match b.cur with
  | none => s
  | some c =>
    let (s, v) := s.expectedNow o (b.bufBase + c.half * b.halfBytes)
    let (s, ws) := b.awaits.foldl (fun (s, l) (a : BelvAwait) =>
      if (match b.next with | some n => n.half == a.half | none => false) then (s, l ++ [a])
      else
        let (s, v) := s.expectedRead o (b.bufBase + a.half * b.halfBytes) a.dither a.crc
        (s, l ++ [{ a with expected := v }])) (s, [])
    s.modBelv o fun b => { b with cur := some { c with expected := v }, awaits := ws }

end Sys2Proof.Machine
end

