-- ==== Sys2Proof/Machine/Crypto.lean ====
section
/-!
DEFINITION. The Dome's crypto engine (12): SHA-256 and HMAC-SHA-256 (FIPS 180-4, FIPS 198-1), ECDSA P-256 verification
(FIPS 186-4) and AES-256-GCM decryption (SP 800-38D), as the standards define them.
-/
namespace Sys2Proof.Machine
open Sys2Proof

/-! ### SHA-256 -/

/-- Rotation right of a 32-bit word. -/
def ror32 (x n : Nat) : Nat := (x >>> n) ||| ((x <<< (32 - n)) % 2 ^ 32)

/-- A 32-bit sum. -/
def add32 (a b : Nat) : Nat := (a + b) % 2 ^ 32

/-- The primes below 312, of which SHA-256 takes the first 64 (FIPS 180-4). -/
def shaPrimes : List Nat := (List.range 312).filter fun p => decide (2 ≤ p) && (List.range 16).all fun d => p % (d + 2) != 0 || p == d + 2

/-- The first 32 bits of the fraction of the e-th root of p: bit by bit the largest r with r^e ≤ p · 2^(32 e). -/
def rootFraction (e p : Nat) : Nat :=
  ((List.range 37).reverse.foldl (fun r k => if (r + 2 ^ k) ^ e ≤ p * 2 ^ (32 * e) then r + 2 ^ k else r) 0) % 2 ^ 32

/-- The round constants: from the cube roots of the first 64 primes. -/
def shaK : List Nat := shaPrimes.map (rootFraction 3)

/-- The initial hash value: from the square roots of the first 8 primes. -/
def shaInit : List Nat := (shaPrimes.take 8).map (rootFraction 2)

/-- One round: the eight working variables, the round constant and the schedule word. -/
def shaRound (v : List Nat) (k w : Nat) : List Nat :=
  match v with
  | [a, b, c, d, e, f, g, h] =>
    let s1 := ror32 e 6 ^^^ ror32 e 11 ^^^ ror32 e 25
    let ch := (e &&& f) ^^^ ((e ^^^ 0xFFFFFFFF) &&& g)
    let t1 := h + s1 + ch + k + w
    let s0 := ror32 a 2 ^^^ ror32 a 13 ^^^ ror32 a 22
    let mj := (a &&& b) ^^^ (a &&& c) ^^^ (b &&& c)
    [add32 t1 (s0 + mj), a, b, c, add32 d t1, e, f, g]
  | _ => v

/-- The next 16 words of the schedule from the last 16 (oldest first). -/
def shaExpand : Nat → List Nat → List Nat
  | 0, w => w
  | n + 1, w =>
    let x := w.getD (w.length - 15) 0
    let y := w.getD (w.length - 2) 0
    let s0 := ror32 x 7 ^^^ ror32 x 18 ^^^ (x >>> 3)
    let s1 := ror32 y 17 ^^^ ror32 y 19 ^^^ (y >>> 10)
    shaExpand n (w ++ [add32 (w.getD (w.length - 16) 0 + s0) (w.getD (w.length - 7) 0 + s1)])

/-- The big-endian number that bytes spell. -/
def ofBe (l : List Byte) : Nat := l.foldl (fun acc b => acc * 256 + b.toNat) 0

/-- Big-endian bytes of a number. -/
def beBytes (n v : Nat) : List Byte := (leBytes n v).reverse

/-- One 64-byte block taken into the hash value. -/
def shaBlock (h : List Nat) (blk : List Byte) : List Nat :=
  let w := shaExpand 48 ((List.range 16).map fun i => ofBe ((blk.drop (4 * i)).take 4))
  let v := (shaK.zip w).foldl (fun v q => shaRound v q.1 q.2) h
  List.zipWith add32 h v

/-- A message padded to whole blocks. -/
def shaPad (m : List Byte) : List Byte :=
  m ++ (0x80 : Byte) :: List.replicate ((119 - m.length % 64) % 64) 0 ++ beBytes 8 (8 * m.length)

/-- The SHA-256 digest, 32 bytes. -/
def sha256 (m : List Byte) : List Byte :=
  let p := shaPad m
  let h := (List.range (p.length / 64)).foldl (fun h i => shaBlock h ((p.drop (64 * i)).take 64)) shaInit
  h.flatMap (beBytes 4)

/-- HMAC-SHA-256 with a key of at most 64 bytes. -/
def hmac (key m : List Byte) : List Byte :=
  let k := key ++ List.replicate (64 - key.length) 0
  sha256 (k.map (· ^^^ 0x5c) ++ sha256 (k.map (· ^^^ 0x36) ++ m))

/-! ### ECDSA on P-256 -/

/-- The field prime. -/
def p256 : Nat := 0xffffffff00000001000000000000000000000000ffffffffffffffffffffffff
/-- The group order. -/
def n256 : Nat := 0xffffffff00000000ffffffffffffffffbce6faada7179e84f3b9cac2fc632551
/-- The curve coefficient b. -/
def b256 : Nat := 0x5ac635d8aa3a93e7b3ebbd55769886bc651d06b0cc53b0f63bce3c3e27d2604b
/-- The base point. -/
def g256 : Nat × Nat :=
  (0x6b17d1f2e12c4247f8bce6e563a440f277037d812deb33a0f4a13945d898c296,
   0x4fe342e2fe1a7f9b8ee7eb4a7c0f9e162bce33576b315ececbb6406837bf51f5)

/-- a^e mod m by squaring; `n` bounds the bits of e. -/
def powMod (m : Nat) : Nat → Nat → Nat → Nat → Nat
  | 0, _, _, acc => acc
  | n + 1, a, e, acc => powMod m n (a * a % m) (e / 2) (if e % 2 = 1 then acc * a % m else acc)

/-- Inverse modulo a prime. -/
def invMod (m a : Nat) : Nat := powMod m 256 (a % m) (m - 2) 1

/-- Sum of two curve points; none is the point at infinity. -/
def ecAdd (p q : Option (Nat × Nat)) : Option (Nat × Nat) :=
  match p, q with
  | none, q => q
  | p, none => p
  | some (x1, y1), some (x2, y2) =>
    if x1 = x2 ∧ (y1 + y2) % p256 = 0 then none
    else
      let l := if x1 = x2 then (3 * x1 * x1 + (p256 - 3)) * invMod p256 (2 * y1) % p256
        else (y2 + p256 - y1) * invMod p256 (x2 + p256 - x1) % p256
      let x3 := (l * l + 2 * p256 - x1 - x2) % p256
      some (x3, (l * (x1 + p256 - x3) + p256 - y1) % p256)

/-- k times a point; `n` bounds the bits of k. -/
def ecMul : Nat → Nat → Option (Nat × Nat) → Option (Nat × Nat) → Option (Nat × Nat)
  | 0, _, _, acc => acc
  | n + 1, k, p, acc => ecMul n (k / 2) (ecAdd p p) (if k % 2 = 1 then ecAdd acc p else acc)

/-- Whether (x, y) lies on the curve. -/
def onCurve (x y : Nat) : Bool :=
  decide (x < p256) && decide (y < p256) && y * y % p256 == (x * x * x + (p256 - 3) * x + b256) % p256

/-- Whether (r, s) signs a message under the key (x, y). -/
def ecdsaOk (x y r s : Nat) (m : List Byte) : Bool :=
  if !onCurve x y || r == 0 || s == 0 || decide (n256 ≤ r) || decide (n256 ≤ s) then false
  else
    let e := ofBe (sha256 m)
    let w := invMod n256 s
    match ecAdd (ecMul 256 (e * w % n256) (some g256) none) (ecMul 256 (r * w % n256) (some (x, y)) none) with
    | none => false
    | some (x1, _) => x1 % n256 == r

/-- Whether the last 64 bytes of an object sign the bytes before them under a 64-byte key. The numbers are little-endian
fields of their structures (R5). DEDUCED. -/
def signedBy (key obj : List Byte) : Bool :=
  let n := obj.length - 64
  let sig := obj.drop n
  decide (64 ≤ obj.length) && ecdsaOk (ofLe (key.take 32)) (ofLe ((key.drop 32).take 32)) (ofLe (sig.take 32)) (ofLe (sig.drop 32)) (obj.take n)

/-! ### AES-256-GCM -/

/-- Product in GF(2^8) of AES. -/
def gmul8 (a b : Nat) : Nat :=
  (List.range 8).foldl (fun acc i => if bit b i then acc ^^^ ((List.range i).foldl
    (fun x _ => if x.testBit 7 then ((x * 2) ^^^ 0x11B) else x * 2) a) else acc) 0

/-- a^254, the inverse in GF(2^8). -/
def ginv8 (a : Nat) : Nat := (List.range 7).foldl (fun acc _ => gmul8 (gmul8 acc acc) a) 1 |> fun x => gmul8 x x

/-- The AES S-box. -/
def sbox (a : Nat) : Nat :=
  let x := ginv8 a
  let r (n : Nat) : Nat := ((x <<< n) ||| (x >>> (8 - n))) % 256
  x ^^^ r 1 ^^^ r 2 ^^^ r 3 ^^^ r 4 ^^^ 0x63

/-- Words of the AES-256 key schedule, each of 4 bytes, `n` of them after the first 8. -/
def keyExpand : Nat → List (List Nat) → List (List Nat)
  | 0, w => w
  | n + 1, w =>
    let i := w.length
    let t := w.getD (i - 1) []
    let t := if i % 8 = 0 then
        (match ((t.drop 1 ++ t.take 1).map sbox) with
         | x :: r => (x ^^^ (List.range (i / 8 - 1)).foldl (fun c _ => gmul8 c 2) 1) :: r
         | [] => [])
      else if i % 8 = 4 then t.map sbox else t
    keyExpand n (w ++ [List.zipWith (· ^^^ ·) (w.getD (i - 8) []) t])

/-- The 60 words of a 32-byte key. -/
def aesKey (key : List Byte) : List (List Nat) :=
  keyExpand 52 ((List.range 8).map fun i => ((key.drop (4 * i)).take 4).map BitVec.toNat)

/-- SubBytes and ShiftRows of a state of 16 bytes in column order. -/
def subShift (st : List Nat) : List Nat :=
  (List.range 16).map fun i => sbox (st.getD ((i + 4 * (i % 4)) % 16) 0)

/-- MixColumns. -/
def mixCols (st : List Nat) : List Nat :=
  (List.range 16).map fun i =>
    let c := i / 4 * 4
    let g (k : Nat) : Nat := st.getD (c + (i + k) % 4) 0
    gmul8 (g 0) 2 ^^^ gmul8 (g 1) 3 ^^^ g 2 ^^^ g 3

/-- AES-256 encryption of one block. -/
def aesBlock (w : List (List Nat)) (blk : List Nat) : List Nat :=
  let rk (r : Nat) : List Nat := ((w.drop (4 * r)).take 4).flatten
  let x (a b : List Nat) : List Nat := List.zipWith (· ^^^ ·) a b
  let st := (List.range 13).foldl (fun st r => x (mixCols (subShift st)) (rk (r + 1))) (x blk (rk 0))
  x (subShift st) (rk 14)

/-- Product in GF(2^128) of GCM, bit 0 being the most significant bit of the first byte. -/
def gmul128 (a b : Nat) : Nat :=
  ((List.range 128).foldl (fun (q : Nat × Nat) i =>
    let z := if a.testBit (127 - i) then q.1 ^^^ q.2 else q.1
    (z, if q.2.testBit 0 then (q.2 >>> 1) ^^^ (0xE1 <<< 120) else q.2 >>> 1)) (0, b)).1

/-- GHASH of bytes already padded to whole blocks. -/
def ghash (h : Nat) (l : List Byte) : Nat :=
  (List.range (l.length / 16)).foldl (fun y i => gmul128 (y ^^^ ofBe ((l.drop (16 * i)).take 16)) h) 0

/-- Bytes padded with zeros to whole blocks of 16. -/
def pad16 (l : List Byte) : List Byte := l ++ List.replicate ((16 - l.length % 16) % 16) 0

/-- Decryption under AES-256-GCM with a 12-byte IV: the plaintext, none where the tag does not match. -/
def gcmOpen (key iv aad ct tag : List Byte) : Option (List Byte) :=
  let w := aesKey key
  let enc (blk : List Byte) : List Byte := (aesBlock w (blk.map BitVec.toNat)).map (BitVec.ofNat 8)
  let h := ofBe (enc (List.replicate 16 0))
  let ctr (i : Nat) : List Byte := enc (iv ++ beBytes 4 i)
  let s := ghash h (pad16 aad ++ pad16 ct ++ beBytes 8 (8 * aad.length) ++ beBytes 8 (8 * ct.length))
  let t := beBytes 16 (s ^^^ ofBe (ctr 1))
  if t = tag then
    some (List.zipWith (· ^^^ ·) ct ((List.range (cdiv ct.length 16)).flatMap fun i => ctr (i + 2)))
  else none

end Sys2Proof.Machine
end

