-- ==== Sys2Proof/Machine/Validate.lean ====
section
/-!
DEFINITION. Validation of a descriptor (03, "Validation order"): the reserved bits of every layout, the checks common to
all opcodes, and how a refused or finished descriptor completes.
-/
namespace Sys2Proof.Machine
open Sys2Proof

/-- Bytes of a descriptor's layout: from byte `.1` to byte `.2.1`, the bits of `.2.2` in each. -/
def layout (op sub : Nat) : List (Nat × Nat × Nat) :=
  match op with
  | 0x01 => [(8, 15, 0xFF)]
  | 0x02 => [(4, 4, 0xFF), (8, 8, 7), (9, 9, 0x3F), (10, 10, 0xFF), (11, 11, 0x7F), (12, 12, 0xFF), (13, 13, 0xF),
             (14, 14, 0xFF), (15, 15, 3), (16, 63, 0xFF)]
  | 0x03 => [(1, 1, 3), (4, 4, 0xFF), (8, 40, 0xFF), (42, 42, 0xFF), (43, 43, 0x3F), (44, 45, 0xFF)]
  | 0x04 => [(1, 1, 1), (4, 4, 0xFF), (8, 23, 0xFF)]
  | 0x05 => [(1, 1, 3), (4, 4, 7), (8, 19, 0xFF), (24, 55, 0xFF)]
  | 0x06 => [(4, 4, 0xFF), (8, 15, 0xFF)]
  | 0x07 => [(1, 1, 1), (4, 4, 7), (8, 33, 0xFF)]
  | 0x08 => [(1, 1, 0x1F), (8, 27, 0xFF), (28, 28, 0xF), (32, 44, 0xFF), (46, 55, 0xFF)]
  | 0x09 => [(8, 19, 0xFF), (20, 20, 0xF), (21, 21, 3)]
  | 0x0A => [(8, 39, 0xFF), (40, 40, 0x87), (42, 43, 0xFF)]
  | 0x0B => (8, 8, 0xFF) :: (match sub with
    | 0 => [(9, 12, 0xFF)]
    | 1 => [(9, 9, 0xFF), (10, 10, 1)]
    | 2 => [(9, 10, 0xFF), (12, 18, 0xFF), (19, 19, 0xF)]
    | 3 => [(9, 9, 0xFF)]
    | 4 => [(9, 9, 0xFF), (16, 27, 0xFF), (28, 28, 0xF)]
    | 5 => [(9, 12, 0xFF)]
    | 6 => [(9, 9, 0xFF)]
    | _ => [(9, 63, 0xFF)])
  | 0x0D => [(1, 1, 1), (4, 4, 0xFF), (8, 8, 0xFF), (9, 9, 0x3F), (10, 11, 0xFF)]
  | 0x0E => [(4, 4, 7)]
  | 0x20 => [(1, 1, 1), (4, 4, 0x3F), (5, 5, 7), (8, 8, 7), (9, 9, 0x3F), (10, 10, 0x7F), (12, 19, 0xFF)]
  | 0x21 => (4, 4, 0x3F) :: (8, 8, 0xFF) :: (match sub with
    | 0 => [(10, 10, 0xFF), (12, 12, 0xFF)]
    | 1 => [(10, 10, 0xFF)]
    | 2 | 3 => [(10, 10, 0xFF), (14, 14, 0xFF), (15, 15, 7)]
    | 4 => [(16, 31, 0xFF)]
    | 5 => [(16, 23, 0xFF)]
    | _ => [(9, 63, 0xFF)])
  | 0x22 => (4, 4, 0x3F) :: [8, 20, 32, 44].flatMap fun b => [(b, b + 1, 0xFF), (b + 4, b + 11, 0xFF)]
  | 0x23 => [(1, 1, 3), (4, 4, 7), (8, 8, 0x3F), (9, 9, 3), (10, 10, 7), (11, 11, 0xF), (12, 12, 0xF), (14, 16, 0xFF),
             (17, 17, 3)]
  | 0x24 => (4, 4, 3) :: (8, 8, 0xFF) :: (match sub with
    | 0 => [(10, 11, 0xFF)]
    | 1 => (12, 13, 0xFF) :: (14, 14, 0x1F) :: (List.range 16).flatMap fun i => [(16 + 2 * i, 16 + 2 * i, 0x3F), (17 + 2 * i, 17 + 2 * i, 7)]
    | 2 => [(12, 13, 0xFF)]
    | _ => [(9, 63, 0xFF)])
  | _ => []

/-- Byte k of a descriptor's FLAGS, HANDLE or payload. -/
def dByte (d : Desc) (k : Nat) : Nat :=
  if k = 1 then d.flags.toNat else if k < 4 then 0 else if k < 8 then uAt d.handle.toNat (k - 4) 1 else dU d k 1

/-- The bits of byte k that a layout lists; BARRIER belongs to every opcode. -/
def layoutMask (l : List (Nat × Nat × Nat)) (k : Nat) : Nat :=
  (l.filter fun r => decide (r.1 ≤ k) && decide (k ≤ r.2.1)).foldl (fun m r => m ||| r.2.2) (if k = 1 then 0x80 else 0)

/-- The lowest byte that holds a non-zero reserved bit (R92, R101). -/
def reservedByte (op : Nat) (d : Desc) : Option Nat :=
  let l := layout op (dU d 8 1)
  (List.range 64).find? fun k => dByte d k &&& (255 - layoutMask l k) != 0

/-- The opcodes of the table (03). -/
def opcodes : List Nat :=
  [0x01, 0x02, 0x03, 0x04, 0x05, 0x06, 0x07, 0x08, 0x09, 0x0A, 0x0B, 0x0C, 0x0D, 0x0E, 0x20, 0x21, 0x22, 0x23, 0x24]

/-- Whether an opcode's SUBOP is listed (R668). -/
def subopListed (op sub : Nat) : Bool :=
  match op with
  | 0x0B => decide (sub < 7)
  | 0x21 => decide (sub < 6)
  | 0x24 => decide (sub < 3)
  | _ => true

/-- Whether an opcode's HANDLE names a layer handle (03). -/
def namesLayer (op : Nat) : Bool := op == 0x02 || op == 0x03 || op == 0x04 || op == 0x0D

/-- A failed check: status, FIELD_BYTE and RESULT. -/
abbrev Bad := Nat × Nat × Nat

/-- The first failed check of a list of (fails, status, FIELD_BYTE). -/
def firstBad : List (Bool × Nat × Nat) → Option Bad
  | [] => none
  | (true, st, fb) :: _ => some (st, fb, 0)
  | (false, _, _) :: rest => firstBad rest

/-- A check of step 3 or 6 (ST_BAD_FIELD) on the field at byte `fb`. -/
def badF (fb : Nat) (c : Bool) : Bool × Nat × Nat := (c, stBadField, fb)

/-- A check with another status; FIELD_BYTE is 0xFF (R101). -/
def badSt (st : Nat) (c : Bool) : Bool × Nat × Nat := (c, st, 0xFF)

/-- FIELD_BYTE as R101 gives it: only ST_BAD_FIELD and ST_BAD_FORMAT name a byte. -/
def fieldByte (st fb : Nat) : Nat := if st = stBadField ∨ st = stBadFormat then fb else 0xFF

/-- Pavilions a descriptor names that must be present (R45), with the byte of each. -/
def targets (op : Nat) (d : Desc) : List (Nat × Nat) :=
  if op = 0x20 ∨ op = 0x21 ∨ op = 0x22 then [(4, bits d.handle.toNat 5 0)]
  else if op = 0x24 ∧ dU d 8 1 = 1 then (List.range (min (dBits d 14 1 4 0) 16)).map fun i => (16 + 2 * i, dBits d (16 + 2 * i) 1 5 0)
  else []

/-- Steps 1 to 4 of R99. Bits 248 to 255 of a COMMIT's HANDLE_MASK are handles and judged in step 3 (DESIGN CHOICE, log 36). -/
def State.commonChecks (s : State) (op : Nat) (d : Desc) : Option Bad :=
  let h := dHandle d
  firstBad <|
    [badSt stBadOpcode (!opcodes.contains op), badSt stBadOpcode (decide (0x20 ≤ op) && d.pav != 0)]
    ++ (match reservedByte op d with | some k => [badF k true] | none => [])
    ++ [badF 8 (!subopListed op (dU d 8 1)), badF 4 (namesLayer op && decide (247 < h))]
    ++ (if op = 0x05 then [badF 24 (dU d 55 1 != 0)] else [])
    ++ ((targets op d).map fun t => badF t.1 (!s.present (fp t.2)))
    ++ (if op = 0x21 ∧ dU d 8 1 = 0 then [badF 12 (decide (247 < dU d 12 1))] else [])
    ++ [badSt stNoLease (namesLayer op && (s.slotOf d.pav h).isNone)]
    ++ (if op = 0x05 then [badSt stNoLease ((List.range 248).any fun h => bit (dU d 24 32) h && (s.slotOf d.pav h).isNone)] else [])

/-- A descriptor refused at validation (R100, R101). -/
def State.refuse (s : State) (w : Waiting) (b : Bad) : State :=
  s.complete w.d.pav w.d.sq w.d.seq w.op b.1 w.deferred false false (fieldByte b.1 b.2.1) b.2.2

/-- A descriptor that succeeds at once, with its RESULT (R111). -/
def State.finish (s : State) (w : Waiting) (result : Nat) : State :=
  s.completeOk w.d.pav w.d.sq w.d.seq w.op w.deferred false false result

/-- An immediate descriptor: refused by its first failed check, else its effect and a success with RESULT 0. -/
def State.judge (s : State) (w : Waiting) (checks : List (Bool × Nat × Nat)) (eff : State → State) : State :=
  match firstBad checks with
  | some b => s.refuse w b
  | none => (eff s).finish w 0

end Sys2Proof.Machine
end

