-- ==== Sys2Proof/Machine/Mailbox.lean ====
section
/-!
DEFINITION. The mailboxes between the Pavilions and the Dome (12, R452 to R456; 07, R281 and R286): requests, replies and
the checks of the safety types.
-/
namespace Sys2Proof.Machine
open Sys2Proof

/-! ### Replies -/

/-- A 256-byte message of fields (byte, bytes, value). -/
def mbxMsg (fields : List (Nat × Nat × Nat)) : BitVec 2048 :=
  BitVec.ofNat 2048 (fields.foldl (fun v q => v + (q.2.2 % 2 ^ (8 * q.2.1)) * 2 ^ (8 * q.1)) 0)

/-- `n` bytes of a message at byte k. -/
def mU (m : BitVec 2048) (k n : Nat) : Nat := uAt m.toNat k n

/-- `n` bytes of a message at byte k, as bytes. -/
def mBytes (m : BitVec 2048) (k n : Nat) : List Byte := (leBytes 256 m.toNat).drop k |>.take n

/-- A reply written into its slot in one step: OUT_FULL set, IN_BUSY cleared, the interrupt on VECTOR (R453). A reply to a
request that is no longer pending is discarded (R454). -/
def State.mbxReply (s : State) (p : Fin 64) (i : Fin 2) (m : BitVec 2048) : State :=
  if (s.pavs[p.val].mbox[i.val]).busy then
    (s.modMbox p i fun x => { x with out := m, full := true, busy := false, taken := false }).msi p (bits s.pavs[p.val].mboxCfg.toNat 4 0)
  else s

/-- The fields every reply carries (12, Mailboxes). -/
def replyHdr (req : BitVec 2048) (status : Nat) : List (Nat × Nat × Nat) :=
  [(0, 1, mU req 0 1 ||| 0x80), (1, 1, mU req 1 1), (2, 1, status), (4, 4, mU req 4 4)]

/-- The reply of DOME_DOWN: STATUS and MSG_ID alone (R455). -/
def downReply (req : BitVec 2048) : BitVec 2048 := mbxMsg [(2, 1, stDomeDown), (4, 4, mU req 4 4)]

/-- The reply of a timeout (R454). -/
def timeoutReply (req : BitVec 2048) : BitVec 2048 := mbxMsg (replyHdr req 10)

/-- A plain reply with further fields. -/
def State.answer (s : State) (p : Fin 64) (i : Fin 2) (req : BitVec 2048) (status : Nat) (more : List (Nat × Nat × Nat)) : State :=
  s.mbxReply p i (mbxMsg (replyHdr req status ++ more))

/-- The reply to a safety type (R286): LATCH_FRAME, the last accepted UPDATE_SEQ and the MAC. The spec gives no MAC for a
slot whose key the Dome does not hold; there it is a free value (log 6). -/
def State.safetyReply (s : State) (p : Fin 64) (i : Fin 2) (req : BitVec 2048) (status frame : Nat) : State :=
  let b := s.belvs[(f8 (mU req 1 1)).val]
  let body := mbxMsg (replyHdr req status ++ [(8, 8, frame), (16, 8, b.seq.toNat)])
  let (mac, s) : Nat × State :=
    if b.hasKey then (ofLe (hmac (leBytes 32 b.key.toNat) (mBytes body 0 224)), s)
    else ((Config.freeNonce s.freeCount).toNat, { s with freeCount := s.freeCount + 1 })
  s.mbxReply p i (BitVec.ofNat 2048 (body.toNat + mac * 2 ^ (8 * 224)))

/-! ### Requests -/

/-- Recovery: the ROM answers the mailbox (R590). -/
def State.inRecovery (s : State) : Bool := s.pwr.stage == 15

/-- A request processed by the Dome: the slot's message, when it is pending, is not yet taken and `q` recognises it. In
recovery every TYPE but INFO and INSTALL of KIND 0 is answered with BAD_TYPE (R590). -/
def State.mbxTake (s : State) (p : Fin 64) (i : Fin 2) (q : BitVec 2048 → Bool) (f : State → BitVec 2048 → State) : State :=
  let x := s.pavs[p.val].mbox[i.val]
  if !x.busy || x.taken || !q x.inp then s
  else if s.inRecovery then
    (if mU x.inp 0 1 = 1 ∨ (mU x.inp 0 1 = 3 ∧ mU x.inp 1 1 = 0) then f s x.inp else s.answer p i x.inp 9 [])
  else if s.dome.st == .run then f s x.inp else s

/-- Whether a request has a TYPE. -/
def isType (t : Nat) (m : BitVec 2048) : Bool := mU m 0 1 == t

/-- A request of a type only Pavilion 0 may send: NOT_PERMITTED from any other. -/
def State.managerOnly (s : State) (p : Fin 64) (i : Fin 2) (req : BitVec 2048) (f : State → State) : State :=
  if p ≠ 0 then s.answer p i req 7 [] else f s

/-! ### Safety types -/

/-- Bytes of a safety request that its layout lists, as (first, last, mask). -/
def safetyLayout (ty : Nat) : List (Nat × Nat × Nat) :=
  [(0, 0, 0xFF), (1, 1, 7), (4, 15, 0xFF), (224, 255, 0xFF)] ++ (match ty with
    | 0x10 => [(16, 75, 0xFF)]
    | 0x11 => [(16, 23, 0xFF), (36, 67, 0xFF)]
    | 0x13 => [(16, 16, 0xF), (17, 17, 0xFF)]
    | 0x14 => [(16, 19, 0xFF)]
    | 0x15 | 0x16 => [(16, 16, 0xFF)]
    | 0x17 => [(16, 71, 0xFF)]
    | _ => [])

/-- Whether every reserved bit of a safety request is zero. -/
def reservedZero (m : BitVec 2048) : Bool :=
  let l := safetyLayout (mU m 0 1)
  (List.range 256).all fun k =>
    let mask := (l.filter fun r => decide (r.1 ≤ k) && decide (k ≤ r.2.1)).foldl (fun a r => a ||| r.2.2) 0
    mU m k 1 &&& (255 - mask) == 0

/-- The Dome failures of a list that lie within the current 10 s (R478); one at the 10 s point does. -/
def State.recentFails (s : State) (l : List DWord) : List DWord := l.filter fun t => decide (s.now.toNat ≤ t.toNat + 10000000000)

/-- The Pavilion a Belvedere slot answers to. -/
def Belv.safety (b : Belv) : Fin 64 := fp (bits b.cfg.toNat 13 8)

/-- The staged lines and palette of a BELV_UPDATE as device addresses (R674), none where they leave their extents, or an
alignment or a size of the layout is broken. -/
def State.staging (s : State) (p : Fin 64) (b : Belv) (m : BitVec 2048) : Option (Nat × Nat) :=
  let (w, h, bpp) := b.geom
  let off := mU m 24 8
  let pitch := mU m 32 4
  let pal := mU m 68 8
  if off % 256 ≠ 0 ∨ pitch % 64 ≠ 0 ∨ pitch < w * bpp ∨ pal % 64 ≠ 0 ∨ (bpp = 4 ∧ pal ≠ 0) then none
  else
    match s.xlate p off (pitch * (h - 1) + w * bpp), (if bpp = 1 then s.xlate p pal 1024 else some 0) with
    | some a, some q => some (a, q)
    | _, _ => none

/-- The content of a BELV_UPDATE as the Dome reads it through port 81: its lines without padding, then the palette of I8 (07, The update path);
none where a read fails. -/
def State.belvContent (s : State) (b : Belv) (a pitch pal : Nat) : State × Option (List Byte) :=
  let (w, h, bpp) := b.geom
  let parts := ((List.range h).map fun j => (a + j * pitch, w * bpp)) ++ (if bpp = 1 then [(pal, 1024)] else [])
  parts.foldl (fun (s, acc) q =>
    let (s, d) := s.memRead 0 true 81 none q.1 q.2
    (s, match acc, d with | some l, some m => some (l ++ m) | _, _ => none)) (s, some [])

/-- Steps 1 to 3 of R281 for a safety request: the status of the first that fails, 0 for none. After a tamper every safety
type is answered with NOT_PERMITTED (R483). -/
def State.safetyCheck (s : State) (p : Fin 64) (m : BitVec 2048) : Nat :=
  let b := s.belvs[(f8 (mU m 1 1)).val]
  let ty := mU m 0 1
  if s.dome.tamperKeys then 7
  else if b.safety ≠ p ∨ (if ty < 0x13 then !b.cfg.getLsbD 0 else !b.hasKey) ∨ !reservedZero m
      ∨ (ty = 0x10 ∧ (s.staging p b m).isNone) then 5
  else if hmac (leBytes 32 b.key.toNat) (mBytes m 0 224) ≠ mBytes m 224 32 then 1
  else if mU m 8 8 ≤ b.seq.toNat then 2
  else 0

/-- UPDATE_SEQ of an accepted message recorded (R285). -/
def State.acceptSeq (s : State) (m : BitVec 2048) : State :=
  s.modBelv (f8 (mU m 1 1)) fun b => { b with seq := w64 (mU m 8 8) }

/-- A safety request of types 0x13 to 0x17: refused by its first failed step, else recorded and done; `f` gives the state
and the reply's status. -/
def State.safetyDo (s : State) (p : Fin 64) (i : Fin 2) (m : BitVec 2048) (f : State → State × Nat) : State :=
  let c := s.safetyCheck p m
  if c ≠ 0 then s.safetyReply p i m c 0
  else
    let (t, st) := f s
    if st = 0 then (t.acceptSeq m).safetyReply p i m 0 0 else s.safetyReply p i m st 0

end Sys2Proof.Machine
end

