-- ==== Sys2Proof/Machine/Flits.lean ====
section
/-!
DEFINITION. Spire flits (08): the layout of R299 and R300, and the transmit side of a link: sequence numbers, credits,
shares, replay and routing.
-/
namespace Sys2Proof.Machine
open Sys2Proof

/-- `n` bytes of a flit at byte k (R299). -/
def fU (f : BitVec 256) (k n : Nat) : Nat := uAt f.toNat k n

/-- CLASS: 0 TIME, 1 SAFE, 2 CTRL, 3 PIX. -/
def fClass (f : BitVec 256) : Nat := bits (fU f 0 1) 1 0
/-- TYPE within the class. -/
def fType (f : BitVec 256) : Nat := bits (fU f 0 1) 5 2
/-- NAK. -/
def fNak (f : BitVec 256) : Bool := bit (fU f 0 1) 6
/-- ACK_VALID. -/
def fAckValid (f : BitVec 256) : Bool := bit (fU f 0 1) 7
/-- SEQ. -/
def fSeq (f : BitVec 256) : BitVec 12 := BitVec.ofNat 12 (bits (fU f 1 3) 11 0)
/-- ACK. -/
def fAck (f : BitVec 256) : BitVec 12 := BitVec.ofNat 12 (bits (fU f 1 3) 23 12)

/-- A flit of a class and type with payload fields (byte, bytes, value). -/
def mkFlit (cls ty : Nat) (fields : List (Nat × Nat × Nat)) : BitVec 256 :=
  BitVec.ofNat 256 (fields.foldl (fun v q => v + (q.2.2 % 2 ^ (8 * q.2.1)) * 2 ^ (8 * q.1)) (cls + 4 * ty))

/-- Whether a class and type is sequenced (R300). -/
def isSeq (cls ty : Nat) : Bool :=
  match cls with
  | 0 => decide (4 ≤ ty) && decide (ty ≤ 7)
  | 1 => ty == 0
  | 2 => ty == 2 || ty == 3
  | _ => decide (ty ≤ 3)

/-- Whether a class and type is listed (R300). -/
def isListed (cls ty : Nat) : Bool :=
  match cls with
  | 0 => decide (ty ≤ 2) || (decide (4 ≤ ty) && decide (ty ≤ 7))
  | 1 => ty == 0
  | 2 => decide (ty ≤ 3) || ty == 5
  | _ => decide (ty ≤ 3)

/-- The CRC-16 of a flit's bytes 0 to 29 (R299). -/
def flitCrc (f : BitVec 256) : Nat := crcOf crc16 (leBytes 30 f.toNat)

/-- The header and CRC of a flit as it leaves: NAK, ACK and SEQ of the moment (R299). -/
def sealFlit (k : Link) (seq : BitVec 12) (f : BitVec 256) : BitVec 256 :=
  let body := (f.toNat >>> 32) % 2 ^ 208
  let hdr := fClass f + 4 * fType f + 64 * b2n k.nakSend + 128 * b2n k.rxAny + seq.toNat * 2 ^ 8 + (k.seqRx - 1).toNat * b2n k.rxAny * 2 ^ 20
  let g := BitVec.ofNat 256 (hdr + body * 2 ^ 32)
  BitVec.ofNat 256 (g.toNat + flitCrc g * 2 ^ 240)

/-- Credits a flit takes: CTRL and PIX (R302). -/
def credNeed (f : BitVec 256) : Nat := if fClass f = 3 ∧ fType f = 1 then 1 + fU f 20 2 else 1

/-- Whether a flit of a class waits on a link. -/
def Link.waits (k : Link) (c : Nat) : Bool := k.waiting.any fun f => fClass f == c

/-- The slot of the window of R369 that a flit takes: a sequenced CTRL flit counts while a PIX flit waits, a PIX flit while a CTRL flit waits. -/
def Link.slot (k : Link) (f : BitVec 256) : Link :=
  let k := { k with
    tx := k.tx + 1, nakSend := false, winAll := (k.winAll + 1) % 1024
    winCtrl := if fClass f = 2 ∧ isSeq (fClass f) (fType f) ∧ k.waits 3 then k.winCtrl + 1 else k.winCtrl
    winPix := if fClass f = 3 ∧ k.waits 2 then k.winPix + 1 else k.winPix }
  if k.winAll = 0 then { k with winCtrl := 0, winPix := 0 } else k

/-- One flit leaving on a link, sequenced or not. -/
def State.txFlit (s : State) (l : Fin 12) (f : BitVec 256) : State :=
  let k := s.spire.links[l.val]
  let sq := isSeq (fClass f) (fType f)
  let g := sealFlit k (if sq then k.seqTx else 0) f
  (s.modLink l fun k =>
    let k := k.slot f
    if sq then
      { k with seqTx := k.seqTx + 1, unacked := k.unacked ++ [g]
               credCtrl := if fClass f = 2 then k.credCtrl - 1 else k.credCtrl
               credPix := if fClass f = 3 then k.credPix - 1 else k.credPix }
    else k).emit (.flit l g)

/-- The waiting flit that goes next (R301, R302, R369), none where none may go. -/
def nextWaiting (k : Link) : Option (BitVec 256) :=
  let first (c : Nat) := k.waiting.find? fun f => fClass f == c
  if 256 ≤ k.unacked.length then none
  else match first 0, first 1 with
    | some f, _ => some f
    | none, some f => some f
    | none, none =>
      let ctrlOk := !k.waits 3 || decide (k.winCtrl < max 1 (bits k.share.toNat 10 0))
      let pixOk := !k.waits 2 || decide (k.winPix < min 1024 (bits k.share.toNat 26 16))
      let c := match first 2 with | some f => if 1 ≤ k.credCtrl ∧ ctrlOk then some f else none | none => none
      let p := match first 3 with
        | some f => if (fType f = 2 ∨ credNeed f ≤ k.credPix) ∧ pixOk then some f else none | none => none
      c.or p

/-- Waiting flits sent while the link lets them go; `n` bounds their number. -/
def State.pump : Nat → State → Fin 12 → State
  | 0, s, _ => s
  | n + 1, s, l =>
    let k := s.spire.links[l.val]
    if k.st != .up then s
    else match nextWaiting k with
      | none => s
      | some f => State.pump n ((s.modLink l fun k => { k with waiting := k.waiting.erase f }).txFlit l f) l

/-- A sequenced flit queued on a link and sent as soon as it may go. -/
def State.sendSeq (s : State) (l : Fin 12) (f : BitVec 256) : State :=
  let s := s.modLink l fun k => { k with waiting := k.waiting ++ [f] }
  s.pump (s.spire.links[l.val].waiting.length) l

/-- Whether a link is UP. -/
def State.linkUp (s : State) (l : Fin 12) : Bool := s.spire.links[l.val].st == .up

/-- A sequenced flit flooded on every UP link but one (R325, R333, R335). -/
def State.flood (s : State) (skip : Option (Fin 12)) (f : BitVec 256) : State :=
  (idx 12).foldl (fun s l => if s.linkUp l && skip != some l then s.sendSeq l f else s) s

/-- An unacknowledged flit sent again with the ACK and NAK of the moment. -/
def State.resend (s : State) (l : Fin 12) (f : BitVec 256) : State :=
  let g := sealFlit (s.spire.links[l.val]) (fSeq f) f
  (s.modLink l fun k => k.slot f).emit (.flit l g)

/-- Replay of every unacknowledged flit in order (R306). -/
def State.replay (s : State) (l : Fin 12) : State :=
  let fs := (s.spire.links[l.val]).unacked
  let s := s.modLink l fun k => { k with replays := satInc k.replays, stalls := k.stalls + 1 }
  fs.foldl (fun s f => s.resend l f) s

/-- What a link that carries flits sends when nothing else goes (R301, R309): waiting flits that may go now, else an IDLE flit. -/
def State.linkIdle (s : State) (l : Fin 12) : State :=
  let k := s.spire.links[l.val]
  if !(k.st == .up || k.st == .ident || k.st == .measure) then s
  else if k.st == .up && (nextWaiting k).isSome then s.pump k.waiting.length l
  else s.txFlit l (mkFlit 2 0 [])

/-- This device's Spire ID (SPIRE_STATUS.MY_ID). -/
def Spire.myId (t : Spire) : Nat := match t.image with | some i => i.myId | none => 0

/-- A route table entry (R314): a link, 12 for this device, 15 for none. -/
def State.route (s : State) (dest : Nat) : Nat :=
  match s.spire.image with
  | none => 15
  | some im =>
    match (im.runs.filter fun r => decide (r.1 ≤ dest)).getLast? with
    | none => 15
    | some (_, p, a) =>
      let up (c : Nat) : Bool := decide (c < 12) && s.linkUp (f12 c)
      if p = 12 then 12 else if up p then p else if up a then a else if a = 12 then 12 else 15

/-- A routed flit sent from this device (R314): on its link, or dropped as unreachable. -/
def State.sendRouted (s : State) (dest : Nat) (f : BitVec 256) : State :=
  let r := s.route dest
  if r < 12 then s.sendSeq (f12 r) f
  else { s with spire := { s.spire with unreach := satInc s.spire.unreach } }

/-- HOPS_LEFT of a flit this device originates (R311). -/
def Spire.hops (t : Spire) : Nat := match t.image with | some i => i.maxHops | none => 0

/-- The header fields of a routed flit: DEST, HOPS_LEFT, SRC and EXPORT_ID. -/
def Spire.routedHdr (t : Spire) (dest expId : Nat) : List (Nat × Nat × Nat) :=
  [(4, 2, dest), (6, 2, t.hops), (8, 2, t.myId), (10, 2, expId)]

/-- A STREAM flit of an export (R338): KIND 0 ALIVE, 1 NAK, 2 TS_UPDATE. -/
def Spire.streamFlit (t : Spire) (dest expId kind xfer time : Nat) : BitVec 256 :=
  mkFlit 2 3 (t.routedHdr dest expId ++ [(12, 1, kind), (13, 4, xfer), (17, 8, time)])

end Sys2Proof.Machine
end

