-- ==== Sys2Proof/Machine/Layers.lean ====
section
/-!
DEFINITION. What LAYER_SET, BUF_ATTACH, REAFFIRM and FENCE_SIGNAL do as they begin (03, 04, 05, 07).
-/
namespace Sys2Proof.Machine
open Sys2Proof

/-! ### LAYER_SET -/

/-- A size ratio out of range on one axis (R131). -/
def ratioBad (sz d : Nat) : Bool := sz != 0 && d != 0 && (decide (4 * d < sz) || decide (8 * sz < d))

/-- A whole-multiple scaling broken on one axis (R140). -/
def intBad (sz d : Nat) : Bool := sz != 0 && d != 0 && (d % sz != 0 || decide (8 < d / sz))

/-- The YCbCr formats (R122). -/
def isYcc (f : Nat) : Bool := f == 0x10 || f == 0x11

/-- Steps 5 and 6 of R99 for LAYER_SET (R119, R123, R124, R131, R132, R140, R268); empty and inverted rectangles are judged in the first
pass (R669). -/
def State.layerChecks (s : State) (p : Fin 64) (d : Desc) : List (Bool × Nat × Nat) :=
  let l := layerOf d
  let pol := s.ltn[p.val]
  [ (fmtBpp l.fmt == 0, stBadFormat, 10),
    ((l.fmt == 7) != l.palette || (isYcc l.fmt && !l.matrix), stBadFormat, 10),
    -- first pass
    badF 14 (!l.intScale && (decide (l.hTaps < 2) || decide (8 < l.hTaps) || decide (l.vTaps < 1) || decide (6 < l.vTaps))),
    badF 16 (l.src.inverted || (l.enable && l.src.empty)),
    badF 24 (l.dst.inverted || (l.enable && l.dst.empty) || decide (7680 < l.dst.x1) || decide (4320 < l.dst.y1)),
    badF 32 (l.lim1 == 0),
    badF 40 (l.palOff % 64 != 0),
    badF 48 (l.matOff % 64 != 0),
    -- second pass
    badF 15 (!pol.actions.testBit l.action),
    badF 16 (l.fmt == 0x10 && (l.src.x0 % 2 == 1 || l.src.x1 % 2 == 1)),
    badF 24 (ratioBad l.src.w l.dst.w || ratioBad l.src.h l.dst.h || (l.intScale && (intBad l.src.w l.dst.w || intBad l.src.h l.dst.h))),
    badF 32 (decide (pol.max1.toNat < l.lim1)),
    badF 36 ((l.lim2 != 0 && decide (l.lim2 ≤ l.lim1))
      || (pol.max2 != 0 && (l.lim2 == 0 || decide (pol.max2.toNat < l.lim2)))),
    badF 40 (if l.palette then (s.xlate p l.palOff 1024).isNone else l.palOff != 0),
    badF 48 (if l.matrix then (s.xlate p l.matOff 48).isNone else l.matOff != 0),
    badF 56 (l.action != 1 && l.repOff != 0) ]

/-- LAYER_SET as it begins: the layer is staged for the handle's slot (R106, R107). -/
def State.beginLayerSet (s : State) (w : Waiting) : State :=
  s.judge w (s.layerChecks w.d.pav w.d) fun s =>
    match s.slotOf w.d.pav (dHandle w.d) with
    | some i => s.modSlot i fun t => { t with staged := some (layerOf w.d) }
    | none => s

/-! ### BUF_ATTACH -/

/-- The format pending for a slot: that of its newest LAYER_SET since it was bound (R94). -/
def Slot.pendingFmt (t : Slot) : Option Nat := t.staged.map Layer.fmt

/-- Bytes a BUF_ATTACH reserves (R94, R340). -/
def attachBytes (d : Desc) : Nat := (if d.flags.getLsbD 1 then 2 else 1) * dU d 16 4 * dU d 22 2

/-- Step 6 of R99 for BUF_ATTACH (R34, R94, R124, R340). -/
def State.attachChecks (s : State) (p : Fin 64) (d : Desc) : List (Bool × Nat × Nat) :=
  let fenceWait := d.flags.getLsbD 0
  let imp := d.flags.getLsbD 1
  let fmt := match s.slotOf p (dHandle d) with | some i => s.slots[i.val].pendingFmt | none => none
  let a := s.xlate p (dU d 8 8) (attachBytes d)
  [ badF 8 (dU d 8 8 % 256 != 0),
    badF 16 (dU d 16 4 % 64 != 0),
    badF 20 (dU d 20 2 == 0 || decide (7680 < dU d 20 2)),
    badF 22 (dU d 22 2 == 0 || decide (4320 < dU d 22 2)),
    badF 8 (match a with | none => true | some x => imp && !inDram x),
    badF 16 (decide (dU d 16 4 < dU d 20 2 * (match fmt with | some f => fmtBpp f | none => 1))),
    badF 20 (fmt == some 0x10 && dU d 20 2 % 2 == 1),
    badF 24 (if imp then dU d 24 8 != 0 else decide (s.now.toNat < dU d 24 8)),
    badF 32 (!fenceWait && dU d 32 8 != 0),
    badF 42 (!imp && dU d 42 2 != 0),
    badF 44 (!imp && dU d 44 2 != 0) ]

/-- The attachment a BUF_ATTACH makes (R207). -/
def attachOf (d : Desc) (id addr : Nat) : Attach :=
  { id, import_ := d.flags.getLsbD 1, addr, off := dU d 8 8, pitch := dU d 16 4, width := dU d 20 2, height := dU d 22 2
    time := w64 (dU d 24 8), fenceWait := d.flags.getLsbD 0, fenceVal := w64 (dU d 32 8), cell := dU d 40 1
    srcId := dU d 42 2, expId := dU d 44 2 }

/-- The import stream of an IMPORT attachment (R340). -/
def importOf (p : Fin 64) (h : Nat) (a : Attach) : Import :=
  { attId := a.id, pav := p, handle := h, srcId := a.srcId, expId := a.expId, addr := a.addr, pitch := a.pitch
    width := a.width, height := a.height }

/-- Import streams that no attachment refers to any longer are forgotten. -/
def State.purgeImports (s : State) : State :=
  let ids := s.slots.toList.flatMap (fun t => (t.att.map Attach.id).toList ++ (match t.cur with | some c => (c.buf.map Attach.id).toList | none => []))
    ++ s.groups.flatMap fun g => g.members.flatMap fun m => m.caps.flatMap fun c => (c.2.buf.map Attach.id).toList
  { s with spire := { s.spire with imports := s.spire.imports.filter fun i => ids.contains i.attId } }

/-- BUF_ATTACH as it begins: the buffer is staged for the handle's slot, and the import of one that it replaces ends (R339). -/
def State.beginBufAttach (s : State) (w : Waiting) : State :=
  s.judge w (s.attachChecks w.d.pav w.d) fun s =>
    match s.slotOf w.d.pav (dHandle w.d), s.xlate w.d.pav (dU w.d 8 8) (attachBytes w.d) with
    | some i, some addr =>
      let a := attachOf w.d s.nextId addr
      let s := { s with nextId := s.nextId + 1 }
      let s := s.modSlot i fun t => { t with att := some a, attTaken := false }
      let s := s.purgeImports
      if a.import_ then { s with spire := { s.spire with imports := s.spire.imports ++ [{ importOf w.d.pav (dHandle w.d) a with last := s.now.toNat }] } } else s
    | _, _ => s

/-! ### REAFFIRM -/

/-- The newest pending member that names a slot. -/
def newestCap (i : Fin 256) (l : List Member) : Option (Member × Latched) :=
  ((l.flatMap fun m => m.caps.map fun c => (m, c)).filter fun q => q.2.1 == i).foldl
    (fun best q => match best with
      | none => some (q.1, q.2.2)
      | some (m, c) => if m.no < q.1.no then some (q.1, q.2.2) else some (m, c)) none

/-- The buffer a REAFFIRM selects (R95, R207). The buffer latched on a slot counts as latched for the handle bound to it, also where an orphaned
slot was given to another Pavilion since (DESIGN CHOICE, log 36). -/
def State.reaffirmed (s : State) (i : Fin 256) (pending : Bool) : Option Attach :=
  let t := s.slots[i.val]
  if pending then
    match newestCap i (s.groups.flatMap fun g => g.members.filter fun m => !g.latchedOuts.contains m.out) with
    | some (_, c) => c.buf
    | none => if t.attTaken then none else t.att
  else match t.cur with | some c => c.buf | none => none

/-- What a timestamp was before it changed at an instant (R264): the value before the first change there. -/
def wasBefore (was : Option (Nat × DWord)) (now : Nat) (old : DWord) : Option (Nat × DWord) :=
  match was with
  | some (at_, x) => some (now, if at_ = now then x else old)
  | none => some (now, old)

/-- A timestamp as a check at instant `t` takes it: a change registered at that instant does not count (R264). -/
def timeAt (was : Option (Nat × DWord)) (time : DWord) (t : Nat) : DWord :=
  match was with | some (at_, x) => if at_ = t then x else time | none => time

/-- An attachment with a new timestamp, registered at `now`. -/
def Attach.retime (a : Attach) (now : Nat) (t : DWord) : Attach :=
  if a.time = t then a else { a with time := t, was := wasBefore a.was now a.time }

/-- An attachment's timestamp changed wherever the attachment stands (R207, R258, R259). -/
def State.setTime (s : State) (id : Nat) (t : DWord) : State :=
  let f (a : Attach) : Attach := if a.id = id then a.retime s.now.toNat t else a
  let g (l : Latched) : Latched := { l with buf := l.buf.map f }
  { s with slots := s.slots.map fun q => { q with att := q.att.map f, cur := q.cur.map g }
           groups := s.groups.map fun h => { h with members := h.members.map fun m => { m with caps := m.caps.map fun c => (c.1, g c.2) } } }

/-- Whether an export's stream flows: it is not paused and its destination can be reached (R343). -/
def Export.flows (e : Export) (s : State) : Bool := !e.paused && decide (s.route e.dest < 12)

/-- STREAM TS_UPDATE for the exports of a handle whose latched buffer's timestamp rose (R338). -/
def State.exportTsUpdate (s : State) (p : Fin 64) (h : Nat) (t : DWord) : State :=
  s.spire.exports.foldl (fun s e =>
    if e.pav = p ∧ e.handle = h ∧ e.flows s then
      s.sendRouted e.dest (s.spire.streamFlit e.dest e.expId 2 e.xferSeq.toNat t.toNat)
    else s) s

/-- The timestamp of a buffer raised, with STREAM TS_UPDATE for every handle that has it latched (R338). -/
def State.raiseTime (s : State) (id : Nat) (t : DWord) : State :=
  let s := s.setTime id t
  (idx 256).foldl (fun s i =>
    match s.slots[i.val].lease, s.slots[i.val].cur with
    | .held p h, some c => if c.buf.map Attach.id = some id then s.exportTsUpdate p h t else s
    | _, _ => s) s

/-- Step 6 of R99 for REAFFIRM (R95). -/
def State.reaffirmChecks (s : State) (p : Fin 64) (d : Desc) : List (Bool × Nat × Nat) :=
  let b := match s.slotOf p (dHandle d) with | some i => s.reaffirmed i (d.flags.getLsbD 0) | none => none
  [ badF 8 (decide (s.now.toNat < dU d 8 8) || (match b with | some a => decide (dU d 8 8 < a.time.toNat) | none => false)),
    badF 16 (match b with | some a => a.off != dU d 16 8 | none => true) ]

/-- REAFFIRM as it begins: the selected buffer's timestamp is raised. -/
def State.beginReaffirm (s : State) (w : Waiting) : State :=
  s.judge w (s.reaffirmChecks w.d.pav w.d) fun s =>
    match s.slotOf w.d.pav (dHandle w.d) with
    | none => s
    | some i =>
      match s.reaffirmed i (w.d.flags.getLsbD 0) with
      | none => s
      | some a =>
        if a.time = w64 (dU w.d 8 8) then s else s.raiseTime a.id (w64 (dU w.d 8 8))

/-! ### Fence cells -/

/-- A fence cell given a value (R167). -/
def State.setFence (s : State) (p : Fin 64) (c : Fin 256) (v : DWord) : State :=
  s.modPav p fun q => { q with fences := upd q.fences c fun _ => v }

/-- FENCE_SIGNAL as it begins (R167). -/
def State.beginFenceSignal (s : State) (w : Waiting) : State :=
  let c := f256 (dHandle w.d)
  s.judge w [badF 8 (decide (dU w.d 8 8 < s.pavs[w.d.pav.val].fences[c.val].toNat))] fun s => s.setFence w.d.pav c (w64 (dU w.d 8 8))

/-- A register write that would apply a value to a fence cell: applied, or discarded and counted (R169). -/
def State.fenceRegister (s : State) (p : Fin 64) (c : Fin 256) (v : DWord) : State :=
  if v.toNat < s.pavs[p.val].fences[c.val].toNat then s.modPav p fun q => { q with fenceDiscard := satInc q.fenceDiscard }
  else s.setFence p c v

end Sys2Proof.Machine
end

