-- ==== Sys2Proof/Machine/Commits.lean ====
section
/-!
DEFINITION. Commits (05): what a COMMIT captures and how it is judged and admitted, when a group is ready, and how a
group is held, latched or discarded.
-/
namespace Sys2Proof.Machine
open Sys2Proof

/-! ### Readiness -/

/-- The last frame whose cut-off an output has taken. -/
def Comp.lastCut (c : Comp) : Nat := if c.winOpen then c.winFrame - 1 else c.winFrame

/-- Whether a captured buffer's fence wait is satisfied (R166). -/
def State.fenceOk (s : State) (m : Member) (a : Attach) : Bool :=
  !a.fenceWait || decide (a.fenceVal.toNat ≤ s.pavs[m.pav.val].fences[(f256 a.cell).val].toNat)

/-- The complete transfer of an import stream that a latch may take: none while a write of an import still waits for tokens (R341, R364). -/
def State.importReady (s : State) (i : Import) : Option (Nat × DWord × Word) :=
  if s.entry.any fun x => x.req.port == 80 then none else i.ready

/-- Whether an import buffer is ready: a transfer has completed since its BUF_ATTACH began (R341). -/
def State.importOk (s : State) (a : Attach) : Bool :=
  !a.import_ || s.spire.imports.any fun i => i.attId == a.id && ((s.importReady i).isSome || i.live.isSome)

/-- Whether one member's buffers are ready. -/
def State.memberOk (s : State) (m : Member) : Bool :=
  m.caps.all fun c => match c.2.buf with | some a => s.fenceOk m a && s.importOk a | none => true

/-- Whether a group names a slot in a member that began before a given one and has not latched. -/
def Group.earlier (h g : Group) : Bool :=
  g.members.any fun m => h.members.any fun n => decide (n.no < m.no) && !h.latchedOuts.contains n.out
    && m.caps.any fun c => n.caps.any fun d => c.1 == d.1

/-- The key of a group: the number of its first member. -/
def Group.key (g : Group) : Nat := match g.members with | m :: _ => m.no | [] => 0

/-- The outputs of a group's members. -/
def Group.outs (g : Group) : List (Fin 8) := (g.members.map Member.out).eraseDups

/-- Whether an output of a group has taken the cut-off of F already (R175). -/
def State.cutTaken (s : State) (g : Group) (f : Nat) : Bool := g.outs.any fun q => decide (f ≤ (s.comps[q.val]).lastCut)

/-- Whether a group is ready for frame F (R172). An earlier group that shares a handle must latch at F too: it has been decided so, or it
targets F, the decision for it is still to come and it is ready; a wall group also needs FLIP where it must go before another group (R200).
An earlier wall group of an earlier target, which has reported READY or is ready to, is ready in the sense of R195 for a wall group that follows.
`n` bounds the chain of earlier commits: two groups each earlier than the other on different handles wait for one another, and neither is ever
ready (DESIGN CHOICE, log 57). -/
def State.ready : Nat → State → Group → Nat → Bool
  | 0, _, _, _ => false
  | n + 1, s, g, f =>
    decide (g.members.length = g.size) && g.members.all s.memberOk &&
    (s.groups.all fun h => h.key == g.key || !h.earlier g ||
      (h.st == .latchWait && h.target == f) ||
      (decide (h.first ≤ f) && decide (h.target ≤ f) && !s.cutTaken h f && h.st != .latchWait
        && (!h.wall || g.wall || (h.target == f && h.st == .reported && s.spire.decisions.any fun d => d.1 == h.rg && d.2.1 == f && d.2.2.1))
        && State.ready n s h f))

/-- Whether a group is ready for frame F, whatever the chain. -/
def State.groupReady (s : State) (g : Group) (f : Nat) : Bool := s.ready (s.groups.length + 1) g f

/-! ### Events and counters of a group -/

/-- The Pavilions that have begun a member. -/
def Group.pavs (g : Group) : List (Fin 64) := (g.members.map Member.pav).eraseDups

/-- The lowest-numbered unsatisfied cell of a Pavilion in a group, with the largest value awaited on it (R181). -/
def State.waitedCell (s : State) (g : Group) (p : Fin 64) : Option (Nat × Nat) :=
  let ws := (g.members.filter fun m => m.pav == p).flatMap fun m => m.caps.filterMap fun c =>
    match c.2.buf with | some a => if s.fenceOk m a then none else some (a.cell, a.fenceVal.toNat) | none => none
  match (ws.map Prod.fst).min? with
  | none => none
  | some c => some (c, maxOf ((ws.filter fun w => w.1 == c).map Prod.snd))

/-- The lowest-numbered viewport of a Pavilion's members, with its output. -/
def Group.viewOf (g : Group) (p : Fin 64) : Nat × Nat :=
  (g.members.filter fun m => m.pav == p).foldl (fun b m => if m.view.val < b.1 then (m.view.val, m.out.val) else b) (8, 0)

/-- EV_FENCE_HOLD to each member Pavilion, once for a group (R181, R672). -/
def State.fenceHold (s : State) (g : Group) (f : Nat) : State :=
  if g.fenceHold then s
  else
    let ev (p : Fin 64) : Ev :=
      let v := g.viewOf p
      match s.waitedCell g p with
      | some (c, x) => { code := evFenceHold, inst := v.2, view := v.1, handle := c, time := s.now, frame := f, detail := c + (x % 2 ^ 56) * 256 }
      | none => { code := evFenceHold, inst := v.2, view := v.1, time := s.now, frame := f }
    let dests := g.pavs.map fun p => (p, ev p)
    match dests with
    | [] => s
    | (_, e) :: _ =>
      let logged := (dests.lookup 0).getD e
      let s := s.raise logged dests
      { s with groups := s.groups.map fun h => if h.key = g.key then { h with fenceHold := true } else h }

/-- EV_WALL_HOLD once for a frame to each Pavilion that has a wall group held for it (R197, R198). -/
def State.wallHold (s : State) (rg : Fin 4) (f : Nat) (detail : Nat) (ps : List (Fin 64)) : State :=
  let new := ps.filter fun p => !s.spire.holdRaised.contains (rg, f, p)
  if new.isEmpty then s
  else
    let ev : Ev := { code := evWallHold, inst := rg.val, time := s.now, frame := f, detail }
    let first := !(s.spire.holdRaised.any fun h => h.1 == rg && h.2.1 == f)
    let s := { s with spire := { s.spire with holdRaised :=
      (s.spire.holdRaised.filter fun h => h.1 != rg || decide (f ≤ h.2.1)) ++ new.map fun p => (rg, f, p) } }
    if first then s.raise ev (new.map fun p => (p, ev)) else new.foldl (fun s p => s.deliver p ev) s

/-! ### Discard -/

/-- The completion of a member of a discarded group (R203), with COMP_CMT_EXPIRED. -/
def State.expire (s : State) (m : Member) : State :=
  (s.modComp m.out fun c => { c with expired := satInc c.expired }).complete m.pav m.sq m.seq 0x05 stExpired false false false 0xFF 0

/-- A group discarded (R182, R191, R204 to R206): its members complete with ST_EXPIRED, but for those of a Pavilion being
reset; its admission is released (R158). -/
def State.discardGroup (s : State) (g : Group) (reset : Option (Fin 64)) : State :=
  let s := { s with groups := s.groups.filter fun h => h.key != g.key }
  let s := g.members.foldl (fun s m => if reset = some m.pav ∨ g.latchedOuts.contains m.out then s else s.expire m) s
  g.outs.foldl State.reEval s.purgeImports

/-- Every group that has an unlatched member of a kind discarded. -/
def State.discardWhere (s : State) (q : Member → Bool) (reset : Option (Fin 64)) : State :=
  (s.groups.filter fun g => g.members.any fun m => q m && !g.latchedOuts.contains m.out).foldl (fun s g => s.discardGroup g reset) s

/-! ### COMMIT -/

/-- The handles of a COMMIT, ascending. -/
def commitHandles (d : Desc) : List Nat := (List.range 248).filter fun h => bit (dU d 24 32) h

/-- A matrix as its 12 words (R129). -/
def matWords (l : List Byte) : List Word := (List.range 12).map fun i => w32 (ofLe ((l.drop (4 * i)).take 4))

/-- The state a COMMIT captures of a handle, but for its palette and matrix (R107, R207). A handle with no LAYER_SET since it was bound gives a
layer that is not enabled (DESIGN CHOICE, log 36). A buffer that the former owner of an orphaned slot has latched is none of the new handle's
pending state and is not captured (DESIGN CHOICE, log 36). -/
def State.capture (s : State) (p : Fin 64) (h : Nat) : Option (Fin 256 × Latched) :=
  match s.slotOf p h with
  | none => none
  | some i =>
    let t := s.slots[i.val]
    let l := t.staged.getD {}
    let rep := match t.att with | some a => (s.xlate p l.repOff (a.pitch * a.height)).getD 0 | none => 0
    some (i, { pav := p, handle := h, layer := l, buf := t.att, no := s.nextId, repAddr := if l.action = 1 then rep else 0 })

/-- Bytes at a BAR2 offset read for a COMMIT as the composers' master, through its output's port (R128); none where the read fails. -/
def State.commitRead (s : State) (o : Fin 8) (p : Fin 64) (off n : Nat) : State × Option (List Byte) :=
  match s.xlate p off n with
  | some a => s.memRead 8 false (f83 o.val) (some p) a n
  | none => (s, none)

/-- A captured state with its palette and matrix as they are read when the COMMIT begins (R128), none where a read fails. -/
def State.readTables (s : State) (o : Fin 8) (c : Fin 256 × Latched) : State × Option (Fin 256 × Latched) :=
  let l := c.2.layer
  let (s, pal) : State × Option (List Byte) := if l.palette then s.commitRead o c.2.pav l.palOff 1024 else (s, some [])
  let (s, mat) : State × Option (List Byte) := if l.matrix then s.commitRead o c.2.pav l.matOff 48 else (s, some [])
  (s, match pal, mat with
    | some b, some m => some (c.1, { c.2 with pal := b, mat := if l.matrix then matWords m else [] })
    | _, _ => none)

/-- Every captured state with its tables, none where a read fails. -/
def State.readAll (s : State) (o : Fin 8) (caps : List (Fin 256 × Latched)) : State × Option (List (Fin 256 × Latched)) :=
  caps.foldl (fun (q : State × Option (List (Fin 256 × Latched))) c =>
    let r := q.1.readTables o c
    (r.1, match q.2, r.2 with | some l, some x => some (l ++ [x]) | _, _ => none)) (s, some [])

/-- The checks of a handle's staged state (R116, R121, R127, R128, R268): failing layout byte and whether BUF_ATTACH
staged it. Of several that fail, the first of this list is reported (DESIGN CHOICE, log 36). -/
def State.stagedBad (s : State) (p : Fin 64) (h : Nat) : Option (Nat × Nat) :=
  match s.capture p h with
  | none => none
  | some (_, c) =>
    let l := c.layer
    let zd := match s.pavs[p.val].views[(f8 l.view).val].cur with | some m => some m.zDepth | none => none
    let checks : List (Bool × Nat × Nat) :=
      [ (l.enable && (match zd with | some z => decide (z ≤ l.z) | none => false), 9, 0),
        (l.enable && c.buf.isNone, 11, 0),
        (match c.buf with | some a => decide (a.width < l.src.x1) || decide (a.height < l.src.y1) | none => false, 16, 0),
        (match c.buf with | some a => decide (a.pitch < a.width * (if l.fmt = 0 then 1 else fmtBpp l.fmt)) | none => false, 16, 1),
        (match c.buf with | some a => l.fmt == 0x10 && a.width % 2 == 1 | none => false, 20, 1),
        (l.palette && (s.xlate p l.palOff 1024).isNone, 40, 0),
        (l.matrix && (s.xlate p l.matOff 48).isNone, 48, 0),
        (match c.buf with | some a => l.action == 1 && (s.xlate p l.repOff (a.pitch * a.height)).isNone | none => false, 56, 0) ]
    (checks.find? Prod.fst).map Prod.snd

/-- The open group a COMMIT names, if any (R185, R187, R189). -/
def State.openGroup (s : State) (p : Fin 64) (gid : Nat) : Option Group :=
  if gid = 0 then none
  else s.groups.find? fun g => g.gid == gid && (if gid < 0x8000 then g.owner == some p else g.owner == none) && g.latchedOuts.isEmpty

/-- Step 6 of R99 for COMMIT, its own bytes (R177, R184, R186, R190, R193), in the two passes of R669. -/
def State.commitChecks (s : State) (p : Fin 64) (d : Desc) : List (Bool × Nat × Nat) :=
  let wall := d.flags.getLsbD 0
  let grp := d.flags.getLsbD 1
  let v := dView d
  let gid := dU d 16 2
  let size := dU d 19 1
  let m := s.pavs[p.val].views[v.val].cur
  let cross := decide (0x8000 ≤ gid)
  let g := if grp then s.openGroup p gid else none
  let defd := s.groupDefs.find? fun q => q.gid == gid
  let ou := match m with | some m => some s.outs[m.out.val] | none => none
  let differs (f : Group → Bool) : Bool := match g with | some g => f g | none => false
  -- first pass
  [ badF 18 (dU d 18 1 == 0), badF 19 (decide (64 < size)), badF 24 (dU d 24 32 == 0),
  -- second pass
    badF 1 (differs fun g => g.wall != wall),
    badF 4 ((match ou with | none => true | some u => !u.enabled)
      || differs fun g => match ou with | some u => u.set.rg != g.rg | none => false),
    badF 8 ((!wall && dU d 8 8 != 0)
      || (wall && (match ou with | some u => decide (u.frame.toNat + 65535 < dU d 8 8) | none => false))
      || differs fun g => g.wallFrame != dU d 8 8),
    badF 16 ((!grp && gid != 0) || (grp && gid == 0)
      || (grp && cross && !(match defd with | some q => q.members.contains (p, v) | none => false))
      || differs fun g => if cross then g.members.any fun m => m.pav == p && m.view == v else decide (g.size ≤ g.members.length)),
    badF 18 (differs fun g => g.expiry != dU d 18 1),
    badF 19 (((!grp || cross) && size != 0) || (grp && !cross && size == 0) || differs fun g => !cross && g.size != size),
    badF 24 (!cross && differs fun g => g.members.any fun m => m.caps.any fun c => m.pav == p && bit (dU d 24 32) c.2.handle) ]

/-- The first handle whose staged state fails, as R102 reports it. -/
def State.stagedFail (s : State) (p : Fin 64) (d : Desc) : Option Bad :=
  (commitHandles d).findSome? fun h => (s.stagedBad p h).map fun b => (stBadField, 24 + h / 8, h + b.1 * 256 + b.2 * 65536)

/-- One more than the last frame whose report point lies before Spire time (R328): 0 where there is none. -/
def State.reportsBefore (s : State) (g : Fin 4) : Nat :=
  let t0 := s.reportPs g (s.spire.leads[g.val])
  let now := s.now.toNat * 1000
  if now ≤ t0 then 0 else s.spire.leads[g.val] + cdiv (now - t0) (max 1 (s.periodPs g))

/-- The first frame whose report point has not passed, by the report points taken and by Spire time (R194). -/
def State.nextReport (s : State) (g : Fin 4) : Nat :=
  max (s.reportsBefore g) (match s.spire.reported[g.val] with | some r => r + 1 | none => 0)

/-- The first frame of a COMMIT and whether it is late (R176, R194): of a wall commit by the report points (at each
output's cut-off on a stand-alone device, R313), of another by the window. -/
def State.firstFrame (s : State) (o : Fin 8) (wall : Bool) (wf : Nat) : Nat × Bool :=
  let c := s.comps[o.val]
  if wall then
    let next := if s.standAlone then c.lastCut + 1 else s.nextReport s.outs[o.val].set.rg
    if wf < next then (next, true) else (wf, false)
  else if c.winOpen then (c.winFrame, false) else (c.winFrame + 1, true)

/-- EV_COMMIT_LATE (R179, R672). -/
def State.commitLate (s : State) (m : Member) (e : Nat) : State :=
  let s := s.modComp m.out fun c => { c with late := satInc c.late }
  let ev : Ev := { code := evCommitLate, inst := m.out.val, view := m.view.val, time := s.now, frame := e, detail := m.seq.toNat }
  s.raise ev [(m.pav, ev)]

/-- An admitted COMMIT joins its group or forms one (R171, R182, R185). -/
def State.joinGroup (s : State) (w : Waiting) (o : Fin 8) (caps : List (Fin 256 × Latched)) : State :=
  let d := w.d
  let p := d.pav
  let wall := d.flags.getLsbD 0
  let grp := d.flags.getLsbD 1
  let gid := dU d 16 2
  let m : Member := { no := s.nextId, pav := p, sq := d.sq, seq := d.seq, view := dView d, out := o, deferred := w.deferred, caps }
  let s := { s with nextId := s.nextId + 1 }
  let s := caps.foldl (fun s c => s.modSlot c.1 fun t => { t with attTaken := true }) s
  match (if grp then s.openGroup p gid else none) with
  | some g => { s with groups := s.groups.map fun h => if h.key = g.key then { h with members := h.members ++ [m] } else h }
  | none =>
    let (e, late) := s.firstFrame o wall (dU d 8 8)
    let size := if !grp then 1 else if gid < 0x8000 then dU d 19 1
      else match s.groupDefs.find? fun q => q.gid == gid with | some q => q.members.length | none => 1
    let late := late && size == 1
    let g : Group := { owner := if grp && decide (0x8000 ≤ gid) then none else some p, gid := if grp then gid else 0, size
                       expiry := dU d 18 1, wall, wallFrame := dU d 8 8, rg := s.outs[o.val].set.rg, first := e, target := e
                       members := [m], late }
    let s := { s with groups := s.groups ++ [g] }
    if late then s.commitLate m e else s

/-- The outputs a COMMIT is evaluated on: that of its viewport, and every other on which a captured layer's viewport is counted (R157). -/
def State.commitOuts (s : State) (p : Fin 64) (o : Fin 8) (caps : List (Fin 256 × Latched)) : List (Fin 8) :=
  o :: (idx 8).filter fun q => q != o && caps.any fun c => !(s.viewsOn q p (f8 c.2.layer.view)).isEmpty

/-- Admission of a COMMIT (R156, R357): the output that refuses it and the status; step 10 of R99 is judged on every output before step 11. The
share judged is that of the committed viewport. Of several outputs that fail a step, the committed viewport's is the one reported and counted, else
the lowest (DESIGN CHOICE, log 36). -/
def State.admission (s : State) (p : Fin 64) (v : Fin 8) (os : List (Fin 8)) (caps : List (Fin 256 × Latched)) : Option (Fin 8 × Nat) :=
  match os.find? fun q => s.lbufRefuses q (s.viewsOn q) caps p v with
  | some q => some (q, stLbufShort)
  | none => (os.find? fun q => s.costRefuses q (s.viewsOn q) caps p v).map fun q => (q, stLineCost)

/-- A COMMIT as it begins (R171 to R194, R156 to R159). A read of a palette or matrix that fails is judged before steps 10 and 11 of R99
(DESIGN CHOICE, log 36). -/
def State.beginCommit (s : State) (w : Waiting) : State :=
  let d := w.d
  let p := d.pav
  match firstBad (s.commitChecks p d) with
  | some b => s.refuse w b
  | none =>
    match s.stagedFail p d, s.pavs[p.val].views[(dView d).val].cur with
    | some b, _ => s.refuse w b
    | none, none => s.refuse w (stBadField, 4, 0)
    | none, some m =>
      let (s, read) := s.readAll m.out ((commitHandles d).filterMap (s.capture p))
      match read with
      | none => s.refuse w (stDeviceAbort, 0xFF, 0)
      | some caps =>
        let os := s.commitOuts p m.out caps
        let short := caps.any fun c => c.2.layer.enable && decide (s.slots[c.1.val].granules < c.2.layer.granules)
        match if short then some (m.out, stLbufShort) else s.admission p (dView d) os caps with
        | some (q, st) => (s.noteReject q st).refuse w (st, 0xFF, 0)
        | none => os.foldl State.reEval (s.joinGroup w m.out caps)

/-! ### Decision points -/

/-- One group replaced by a changed one. -/
def State.modGroup (s : State) (g : Group) (f : Group → Group) : State :=
  { s with groups := s.groups.map fun h => if h.key = g.key then f h else h }

/-- A group held at the decision point of frame F, or discarded when F is its last (R182, R199). -/
def State.holdGroup (s : State) (g : Group) (f : Nat) (wall : Bool) : State :=
  if g.first + g.expiry ≤ f + 1 then s.discardGroup g none
  else s.modGroup g fun h => { h with st := .held, target := f + 1, heldWall := h.heldWall || wall }

/-- COMP_CMT_HOLD_FRAMES raised on the outputs of held groups. -/
def State.noteHeld (s : State) (gs : List Group) : State :=
  (gs.flatMap Group.outs).eraseDups.foldl (fun s o => s.modComp o fun c => { c with holdFrames := satInc c.holdFrames }) s

/-- Decision for the groups without WALL that have a member on the output (R174, R175). -/
def State.decidePlain (s : State) (o : Fin 8) (f : Nat) : State :=
  let gs := s.groups.filter fun g => !g.wall && g.st != .latchWait && decide (g.target ≤ f) && decide (g.first ≤ f) && g.outs.contains o
  let (yes, no) := gs.partition fun g => s.groupReady g f && !s.cutTaken g f
  let s := yes.foldl (fun s g => s.modGroup g fun h => { h with st := .latchWait, target := f }) s
  let s := no.foldl (fun s g => (s.fenceHold g f).holdGroup g f false) s
  s.noteHeld (no.filter fun g => decide (f + 1 < g.first + g.expiry))

/-- The decision of (g, F) as FLIP and DETAIL, if one is held (R333). -/
def State.decision (s : State) (g : Fin 4) (f : Nat) : Option (Bool × Nat) :=
  (s.spire.decisions.find? fun d => d.1 == g && d.2.1 == f).map fun d => (d.2.2.1, d.2.2.2)

/-- RG_FLIPS, RG_HOLDS and RG_NODEC: the cut-off of frame F of a rate group, counted once; a stand-alone device counts each
of its votes. -/
def State.countCut (s : State) (g : Fin 4) (f : Nat) (dec : Option (Bool × Nat)) : State :=
  if !s.standAlone && decide (f < s.spire.counted[g.val]) then s
  else
    let t := { s.spire with counted := upd s.spire.counted g fun _ => f + 1 }
    { s with spire := match dec with
        | some (true, _) => { t with flips := upd t.flips g satInc }
        | some (false, _) => { t with holds := upd t.holds g satInc }
        | none => { t with nodec := upd t.nodec g satInc } }

/-- Decision for the wall groups that have a member on the output and target F (R197 to R199): FLIP latches those that are ready. A group that a step of
Spire time has moved past its last frame is discarded at that frame's decision point (R182, R323). -/
def State.decideWall (s : State) (o : Fin 8) (f : Nat) (dec : Option (Bool × Nat)) : State :=
  let rg := s.outs[o.val].set.rg
  let gs := s.groups.filter fun g => g.wall && g.st != .latchWait && decide (g.target ≤ f) && decide (g.first ≤ f) && g.outs.contains o
  let lapsed := s.groups.filter fun g => g.wall && g.st != .latchWait && decide (f < g.target) && decide (g.first + g.expiry ≤ f + 1) && g.outs.contains o
  let flip := match dec with | some (b, _) => b | none => false
  let (yes, no) := gs.partition fun g => flip && g.target == f && (g.st == .reported || s.groupReady g f) && !s.cutTaken g f
  let s := yes.foldl (fun s g => s.modGroup g fun h => { h with st := .latchWait, target := f }) s
  let detail := match dec with | some (_, d) => d | none => 2 ^ 64 - 1
  let s := if no.isEmpty then s else s.wallHold rg f detail (no.flatMap Group.pavs).eraseDups
  let s := no.foldl (fun s g => s.holdGroup g f true) s
  let s := lapsed.foldl (fun s g => s.discardGroup g none) s
  (s.noteHeld (no.filter fun g => decide (f + 1 < g.first + g.expiry))).countCut rg f dec

/-- The report of a rate group's wall groups that target F (R181, R195): ready ones become REPORTED, and the answer is
whether all are ready. -/
def State.reportGroups (s : State) (gs : List Group) (f : Nat) : State × Bool :=
  let (yes, no) := gs.partition fun g => s.groupReady g f
  let s := yes.foldl (fun s g => s.modGroup g fun h => { h with st := .reported, target := f }) s
  let s := no.foldl (fun s g => s.fenceHold g f) s
  (s, no.isEmpty)

/-- A decision of (g, F) kept in place of an earlier one; decisions of long past frames are forgotten. -/
def State.keepDecision (s : State) (g : Fin 4) (f : Nat) (flip : Bool) (detail : Nat) : State :=
  let old : List (Fin 4 × Nat × Bool × Nat) := s.spire.decisions.filter fun d => d.1 != g || (d.2.1 != f && decide (f ≤ d.2.1 + 256))
  { s with spire := { s.spire with decisions := old ++ [(g, f, flip, detail)] } }

/-- The cut-off of frame F on an output (R174, R197). A stand-alone device votes with itself at this point (R313). -/
def State.cutOffAt (s : State) (o : Fin 8) (f : Nat) : State :=
  let rg := s.outs[o.val].set.rg
  let (s, dec) : State × Option (Bool × Nat) :=
    if s.standAlone then
      let gs := s.groups.filter fun g => g.wall && g.st != .latchWait && decide (g.target ≤ f) && decide (g.first ≤ f) && g.outs.contains o
      let (s, ok) := s.reportGroups gs f
      (s, some (ok, if ok then 0 else s.spire.myId))
    else (s, s.decision rg f)
  let s := match s.standAlone, dec with
    | true, some (b, x) => s.keepDecision rg f b x
    | _, _ => s
  let s := s.decideWall o f dec
  let s := s.decidePlain o f
  s.modComp o fun c => { c with winFrame := f, winOpen := false }

/-! ### Points that a forward step of Spire time skips -/

/-- The first cut-off of frame F among a group's outputs (R175). -/
def State.groupCut (s : State) (g : Group) (f : Nat) : Nat := (g.outs.map fun o => s.cutPs o f).min?.getD 0

/-- The next point at which the device judges a group: of a wall group the report point of its target, and once that has passed its
decision point; of another group its decision point. -/
def State.nextPoint (s : State) (g : Group) : Nat :=
  if g.wall && !s.standAlone && decide (s.nextReport g.rg ≤ g.target) then s.reportPs g.rg g.target else s.groupCut g g.target

/-- The first frame from the target on whose report point, or for a group that is not a wall group whose first cut-off, has not passed at
`t1` ps. -/
def State.frameFrom (s : State) (g : Group) (t1 : Nat) : Nat :=
  let p0 := if g.wall && !s.standAlone then s.reportPs g.rg g.target else s.groupCut g g.target
  g.target + cdiv (t1 - p0) (max 1 (s.periodPs g.rg))

/-- EV_FENCE_HOLD for a group whose points a step skips, as R181 has it: not for a wall group whose report was READY and that would report no
further within its frames at a point the step skips. -/
def State.skipHold (s : State) (t1 : Nat) (g : Group) : State :=
  if g.wall && g.st == .reported && (decide (g.first + g.expiry ≤ g.target + 1) || decide (s.frameFrom g t1 ≤ g.target + 1)) then s
  else s.fenceHold g g.target

/-- A group that a step held, once for all the points skipped (R323). -/
def State.holdSkipped (s : State) (t1 : Nat) (g : Group) : State :=
  let n := max (s.frameFrom g t1) (g.target + 1)
  let s := s.skipHold t1 g
  let s := if g.wall then s.wallHold g.rg g.target (2 ^ 64 - 1) g.pavs else s
  s.modGroup g fun h => { h with st := .held, target := n, heldWall := h.heldWall || h.wall }

/-- The groups that a forward step of Spire time to `t1` ps concerns (R323), judged before it: those whose last decision point it skips, and
the others whose next point it skips. -/
def State.skipped (s : State) (t1 : Nat) : List Group × List Group :=
  let q := (s.groups.filter fun g => g.st != .latchWait).partition fun g => decide (s.groupCut g (g.first + g.expiry - 1) < t1)
  (q.1, q.2.filter fun g => decide (s.nextPoint g < t1))

/-- The report points before Spire time have passed (R323), in each rate group that has a class and so frames. -/
def State.passReports (s : State) : State :=
  if s.standAlone then s
  else { s with spire := { s.spire with reported := Vector.ofFn fun g =>
    if (s.rgClass g).isNone then s.spire.reported[g.val] else match s.nextReport g with | 0 => none | n + 1 => some n } }

/-- What a forward step to `t1` ps does to the groups whose points it skips (R323): the first are discarded, the others held once, with one
point without a decision for each rate group that has a wall group there. -/
def State.passPoints (s : State) (t1 : Nat) (q : List Group × List Group) : State :=
  let rgs := (idx 4).filter fun r => q.2.any fun g => g.wall && g.rg == r
  let s := { s with spire := { s.spire with nodec := rgs.foldl (fun v r => upd v r satInc) s.spire.nodec } }
  let s := q.1.foldl (fun s g => (s.skipHold t1 g).discardGroup g none) s
  ((q.2.foldl (fun s g => s.holdSkipped t1 g) s).noteHeld q.2).passReports

end Sys2Proof.Machine
end

