-- ==== Sys2Proof/Machine/Manager.lean ====
section
/-!
DEFINITION. What the small descriptors and the manager's descriptors do as they begin: EVENT_ARM, VIEWPORT_QUERY, EXPORT,
VIEWPORT_MAP, LEASE_SLOTS, BUDGET_SET and WALL_COMMIT_CFG (02, 03, 04, 08, 09).
-/
namespace Sys2Proof.Machine
open Sys2Proof

/-! ### EVENT_ARM and VIEWPORT_QUERY -/

/-- Whether a mask has a bit for a reserved event code. -/
def maskBad (m : Nat) : Bool := (List.range 128).any fun c => bit m c && !eventCodes.contains c

/-- Step 6 of R99 for EVENT_ARM. SET_LINE for an unmapped viewport, which has no height to bound LM_LINE, is refused with byte 42
(DESIGN CHOICE, log 36). -/
def State.armChecks (s : State) (p : Fin 64) (d : Desc) : List (Bool × Nat × Nat) :=
  [ badF 8 (maskBad (dU d 8 16)), badF 24 (maskBad (dU d 24 16)), badF 8 (dU d 8 16 &&& dU d 24 16 != 0),
    badF 42 (dBits d 40 1 7 7 == 1 && (match s.pavs[p.val].views[(f8 (dBits d 40 1 2 0)).val].cur with
      | some m => decide (m.rect.h ≤ dU d 42 2) | none => true)) ]

/-- EVENT_ARM as it begins (R78). -/
def State.beginEventArm (s : State) (w : Waiting) : State :=
  s.judge w (s.armChecks w.d.pav w.d) fun s =>
    let s := s.modPav w.d.pav fun v =>
      { v with armed := (v.armed ||| BitVec.ofNat 128 (dU w.d 8 16)) &&& ~~~(BitVec.ofNat 128 (dU w.d 24 16)) }
    if dBits w.d 40 1 7 7 = 1 then s.modView w.d.pav (f8 (dBits w.d 40 1 2 0)) fun v => { v with lmLine := some (dU w.d 42 2) } else s

/-- Whether a viewport is live: its output scans composed content, not a safe frame, with PVALID high. -/
def State.viewLive (s : State) (m : VMap) : Bool :=
  let u := s.outs[m.out.val]
  u.scanning && !u.safe && u.pvalid

/-- The RESULT of VIEWPORT_QUERY (03). -/
def State.viewResult (s : State) (p : Fin 64) (v : Fin 8) : Nat :=
  match s.pavs[p.val].views[v.val].cur with
  | none => 0
  | some m => m.rect.w + m.rect.h * 2 ^ 16 + 2 ^ 32 + b2n (s.viewLive m) * 2 ^ 33 + (s.outs[m.out.val].set.rg).val * 2 ^ 34

/-! ### EXPORT -/

/-- Whether an export is the one a STOP names (R97). -/
def Export.is (e : Export) (p : Fin 64) (h dest id : Nat) : Bool := e.pav == p && e.handle == h && e.dest == dest && e.expId == id

/-- An export ended with ST_OK (R97, R343). -/
def State.endExport (s : State) (e : Export) : State :=
  ({ s with spire := { s.spire with exports := s.spire.exports.erase e } }).completeOk e.pav e.sq e.seq 0x0D e.deferred false false 0

/-- The latched buffer of a handle, with its format. -/
def State.latchedBuf (s : State) (p : Fin 64) (h : Nat) : Option (Attach × Nat) :=
  match s.slotOf p h with
  | none => none
  | some i => match s.slots[i.val].cur with
    | some c => c.buf.map fun a => (a, c.layer.fmt)
    | none => none

/-- Device address of a latched buffer's line 0: for an import buffer, of its latched half. -/
def State.attachAddr (s : State) (a : Attach) : Nat :=
  if a.import_ then
    match s.spire.imports.find? fun i => i.attId == a.id with
    | some i => (match i.live with | some (h, _) => a.addr + h * (a.pitch * a.height) | none => a.addr)
    | none => a.addr
  else a.addr

/-- Bytes of a transfer of a buffer (R338). -/
def xferBytes (a : Attach) (bpp : Nat) : Nat := a.width * bpp * a.height

/-- Bytes k to k + l − 1 of a transfer read as the Spire's master for a Pavilion, line piece by line piece (R338): lines in order without padding. A
read that fails gives zeros and is noted (R404). `n` bounds the number of pieces. -/
def State.xferRead (p : Fin 64) : Nat → State → Nat → Nat → Nat → Nat → Nat → List Byte → Bool → State × List Byte × Bool
  | 0, s, _, _, _, _, _, acc, bad => (s, acc, bad)
  | n + 1, s, base, pitch, w, k, l, acc, bad =>
    if l = 0 then (s, acc, bad)
    else
      let m := min (w - k % w) l
      let r := s.memRead 3 false 80 (some p) (base + k / w * pitch + k % w) m
      State.xferRead p n r.1 base pitch w (k + m) (l - m) (acc ++ r.2.getD (List.replicate m 0)) (bad || r.2.isNone)

/-- Whether port 80 has the tokens for bytes of a transfer (R364); the Orangery is charged to no port (R414). -/
def State.xferAdmits (s : State) (a n : Nat) : Bool := !inDram a || s.admits 80 (a - 0x1000000000) n

/-- The packets and the end of a transfer sent while the link's credits and window and the tokens of port 80 let them (R302, R338, R339, R364). `n`
bounds the number of packets. -/
def State.exportPump : Nat → State → Nat → State
  | 0, s, _ => s
  | n + 1, s, k =>
    match s.spire.exports[k]? with
    | none => s
    | some e =>
      let r := s.route e.dest
      match e.cur with
      | none => s
      | some (a, bpp, pos, reg) =>
        if 12 ≤ r then { s with spire := { s.spire with exports := s.spire.exports.set k { e with paused := true, cur := none, due := true } } }
        else
          let l := s.spire.links[(f12 r).val]
          if l.waiting.any fun f => fClass f == 3 then s
          else
            let total := xferBytes a bpp
            if total ≤ pos then
              let crc := crcFinish {} reg
              let s := s.sendRouted e.dest (mkFlit 3 3 (s.spire.routedHdr e.dest e.expId ++
                [(12, 4, e.xferSeq.toNat), (16, 4, if e.bad then 2 ^ 32 - 1 - crc else crc)]))
              { s with spire := { s.spire with exports := s.spire.exports.set k { e with cur := none } } }
            else
              let len := min 6656 (total - pos)
              if !s.xferAdmits a.addr len then s.portWaits 80
              else
              let (s, data, bad) := State.xferRead e.pav len s a.addr a.pitch (a.width * bpp) pos len [] false
              let flits := cdiv len 26
              let s := s.sendRouted e.dest (mkFlit 3 1 (s.spire.routedHdr e.dest e.expId ++
                [(12, 4, e.xferSeq.toNat), (16, 4, pos), (20, 2, flits)]))
              let s := (List.range flits).foldl (fun s i =>
                s.sendSeq (f12 r) (mkFlit 3 2 (((data.drop (26 * i)).take 26).zipIdx.map fun q => (4 + q.2, 1, q.1.toNat)))) s
              let e := { e with cur := some (a, bpp, pos + len, data.foldl (crcByte {}) reg), bad := e.bad || bad }
              State.exportPump n { s with spire := { s.spire with exports := s.spire.exports.set k e } } k

/-- What a latched buffer's content is known by: the attachment, and for an import buffer the latch that showed its half. -/
def State.bufKey (s : State) (a : Attach) : Nat × Nat :=
  (a.id, match s.spire.imports.find? fun i => i.attId == a.id with
    | some i => (if i.live.isSome then i.shown + 1 else 0)
    | none => 0)

/-- A transfer of the latched buffer begun on an export (R338), unless one is still being sent (then it is due next) or
the destination cannot be reached (R343). -/
def State.startXfer (s : State) (k : Nat) : State :=
  match s.spire.exports[k]? with
  | none => s
  | some e =>
    let put (e : Export) : State := { s with spire := { s.spire with exports := s.spire.exports.set k e } }
    match s.latchedBuf e.pav e.handle with
    | none => put { e with paused := decide (12 ≤ s.route e.dest), due := decide (12 ≤ s.route e.dest) }
    | some (a, fmt) =>
      if 12 ≤ s.route e.dest then put { e with paused := true, due := true }
      else if e.cur.isSome then put { e with due := true }
      else
        let e := { e with xferSeq := e.xferSeq + 1, paused := false, due := false, bad := false, sentId := some (s.bufKey a)
                          cur := some ({ a with import_ := false, addr := s.attachAddr a }, fmtBpp fmt, 0, crcStart {}) }
        let s := (put e).sendRouted e.dest (mkFlit 3 0 (s.spire.routedHdr e.dest e.expId ++
          [(12, 4, e.xferSeq.toNat), (16, 2, a.width), (18, 2, a.height), (20, 1, fmtBpp fmt), (21, 8, a.time.toNat)]))
        s.exportPump (xferBytes a (fmtBpp fmt) / 26 + 2) k

/-- Every export moved on: transfers go on as far as they may, due ones start (R338, R343). -/
def State.exportsGo (s : State) : State :=
  (List.range s.spire.exports.length).foldl (fun s k =>
    match s.spire.exports[k]? with
    | none => s
    | some e =>
      let s := match e.cur with | some (a, bpp, _, _) => s.exportPump (xferBytes a bpp / 26 + 2) k | none => s
      match s.spire.exports[k]? with
      | some e => if e.due && e.cur.isNone && decide (s.route e.dest < 12) then s.startXfer k else s
      | none => s) s

/-- EXPORT as it begins (R97, R338). -/
def State.beginExport (s : State) (w : Waiting) : State :=
  let d := w.d
  let dest := dU d 8 2
  let id := dU d 10 2
  if d.flags.getLsbD 0 then
    match s.spire.exports.find? fun e => e.is d.pav (dHandle d) dest id with
    | none => s.refuse w (stBadField, 1, 0)
    | some e => (s.endExport e).finish w 0
  else if dest = s.spire.myId then s.refuse w (stBadField, 8, 0)
  else
    let e : Export := { pav := d.pav, sq := d.sq, seq := d.seq, deferred := w.deferred, handle := dHandle d, dest, expId := id }
    let s := { s with spire := { s.spire with exports := s.spire.exports ++ [e] } }
    s.startXfer (s.spire.exports.length - 1)

/-! ### Captures -/

/-- Where line 0 of the frame being captured goes (R249). -/
def Capture.frameAddr (c : Capture) : Nat := c.dest + c.index % c.ring * (c.pitch * c.rect.h)

/-- A capture ended: its WRITEBACK and every STOP on it complete with ST_OK and the frames captured (R253); a WRITEBACK whose record met an
uncorrectable error completes with ST_DEVICE_ABORT (R404). -/
def State.endCapture (s : State) (o : Fin 8) (c : Capture) : State :=
  let s := s.modOut o fun u => { u with caps := u.caps.filter fun x => !(x.pav == c.pav && x.view == c.view) }
  let s := if c.bad then s.complete c.pav c.sq c.seq 0x07 stDeviceAbort c.deferred false false 0xFF 0
    else s.completeOk c.pav c.sq c.seq 0x07 c.deferred false false c.index
  c.stops.foldl (fun s q => s.completeOk c.pav q.1 q.2.1 0x07 q.2.2 false false c.index) s

/-- The captures of a viewport ended (R253). -/
def State.endCapturesOf (s : State) (o : Fin 8) (p : Fin 64) (v : Fin 8) : State :=
  (s.outs[o.val].caps.filter fun c => c.pav == p && c.view == v).foldl (fun s c => s.endCapture o c) s

/-! ### Viewports -/

/-- A mapping change of a viewport in effect (R51, R205, R253): unlatched commits on it are discarded, its captures end. -/
def State.applyView (s : State) (p : Fin 64) (v : Fin 8) (m : Option VMap) (rest : Option (Option VMap)) : State :=
  let old := s.pavs[p.val].views[v.val].cur
  let s := s.discardWhere (fun c => c.pav == p && c.view == v) none
  let s := match old with | some c => s.endCapturesOf c.out p v | none => s
  let s := s.modView p v fun w => { w with cur := m, pend := rest }
  let s := match old with | some c => s.reEval c.out | none => s
  match m with | some c => s.reEval c.out | none => s

/-- Whether an output has taken its latch of the very instant at which another output latches now: R51 counts it as a latch at the removal. -/
def State.latchedWith (s : State) (o q : Fin 8) : Bool :=
  let c := s.comps[q.val]
  c.winOpen && !(s.comps[o.val]).winOpen && s.latchPs q (c.winFrame - 1) == s.latchPs o (s.comps[o.val]).winFrame

/-- The change of a viewport that waits, at a latch of an output or where the output is disabled (R51). -/
def State.viewStep (s : State) (o : Fin 8) (p : Fin 64) (v : Fin 8) : State :=
  let w := s.pavs[p.val].views[v.val]
  match w.cur, w.pend with
  | some c, some (some m) =>
    if c.out ≠ o then s
    else if m.out = o then s.applyView p v (some m) none
    else
      let now := !s.outs[m.out.val].enabled || s.latchedWith o m.out
      let s := s.applyView p v none (some (some m))
      if now then s.applyView p v (some m) none else s
  | some c, some none => if c.out = o then s.applyView p v none none else s
  | none, some (some m) => if m.out = o then s.applyView p v (some m) none else s
  | none, some none => s.modView p v fun w => { w with pend := none }
  | _, none => s

/-- Every viewport change that an output's latch (or its disabling) applies. -/
def State.viewSteps (s : State) (o : Fin 8) : State :=
  (idx 64).foldl (fun s p =>
    if s.pavs[p.val].views.toList.all (fun w => w.pend.isNone) then s
    else (idx 8).foldl (fun s v => s.viewStep o p v) s) s

/-- Whether a viewport carries an enabled layer in some counted state (R160). -/
def State.viewCarries (s : State) (p : Fin 64) (v : Fin 8) : Bool :=
  let on (c : Latched) : Bool := c.pav == p && c.layer.view == v.val && c.layer.enable
  s.slots.toList.any (fun t => match t.cur with | some c => on c | none => false)
    || s.groups.any fun g => g.members.any fun m => !g.latchedOuts.contains m.out && m.caps.any fun c => on c.2

/-- The target of a manager's descriptor. -/
def tgtPav (d : Desc) : Fin 64 := fp (bits d.handle.toNat 5 0)

/-- Step 6 of R99 for VIEWPORT_MAP: the fields' own ranges first, with UNMAP too (R669). -/
def State.mapChecks (s : State) (d : Desc) : List (Bool × Nat × Nat) :=
  let zd := dU d 10 1
  let r := dRect d 12
  let unmap := d.flags.getLsbD 0
  [badF 10 ((!unmap && zd == 0) || decide (64 < zd)), badF 12 (r.inverted || (!unmap && r.empty))]
  ++ (if unmap then
    [badF 8 (dU d 8 1 != 0), badF 9 (dU d 9 1 != 0), badF 10 (zd != 0), badF 12 (dU d 12 8 != 0)]
  else
    let m := s.outs[(f8 (dU d 8 1)).val].mode
    [badF 10 (decide (64 < dU d 9 1 + zd)), badF 12 (decide (m.w < r.x1) || decide (m.h < r.y1))])

/-- VIEWPORT_MAP as it begins (R51, R160, R357, R359). -/
def State.beginViewportMap (s : State) (w : Waiting) : State :=
  let d := w.d
  let p := tgtPav d
  let v := f8 (bits d.handle.toNat 10 8)
  match firstBad (s.mapChecks d) with
  | some b => s.refuse w b
  | none =>
    let unmap := d.flags.getLsbD 0
    let m : VMap := { out := f8 (dU d 8 1), zBase := dU d 9 1, zDepth := dU d 10 1, rect := dRect d 12 }
    let views (p' : Fin 64) (v' : Fin 8) : List VMap :=
      if p' = p ∧ v' = v then ((s.pavs[p.val].views[v.val].cur.toList.filter fun c => c.out == m.out) ++ [m]) else s.viewsOn m.out p' v'
    if !unmap && !s.ceilingsHold m.out views s.shareOf (s.bports[(f83 m.out.val).val]).grant then s.refuse w (stBudgetLimit, 0xFF, 0)
    else
      match (if !unmap && s.viewCarries p v then s.refuseStack m.out views [] p v else none) with
      | some st => (s.noteReject m.out st).refuse w (st, 0xFF, 0)
      | none =>
        let s := s.modView p v fun x => { x with pend := some (if unmap then none else some m) }
        let s := if unmap then s else s.reEval m.out
        let o := match s.pavs[p.val].views[v.val].cur with | some c => c.out | none => m.out
        let s := if s.outs[o.val].enabled && !(unmap && s.pavs[p.val].views[v.val].cur.isNone) then s else s.viewStep o p v
        s.finish w 0

/-! ### LEASE_SLOTS -/

/-- Whether a slot's latched layer lies on an enabled output (R151). -/
def State.onOutput (s : State) (i : Fin 256) : Option (Fin 8) :=
  match s.slots[i.val].cur with
  | none => none
  | some c => match s.pavs[c.pav.val].views[(f8 c.layer.view).val].cur with
    | some m => if s.outs[m.out.val].enabled then some m.out else none
    | none => none

/-- Whether a slot is leased to the target, or orphaned and named through Pavilion 0 (R89). -/
def State.leasedTo (s : State) (i : Fin 256) (p : Fin 64) : Bool :=
  match s.slots[i.val].lease with
  | .held q _ => q == p
  | .orphan => p == 0
  | _ => false

/-- The largest line-buffer requirement of a slot's latched state and of its admitted states awaiting latch (R150). -/
def State.slotNeed (s : State) (i : Fin 256) : Nat :=
  let sts := s.slots[i.val].cur.toList ++ s.groups.flatMap fun g => g.members.flatMap fun m =>
    if g.latchedOuts.contains m.out then [] else (m.caps.filter fun c => c.1 == i).map Prod.snd
  maxOf (sts.map fun c => c.layer.granules)

/-- An output without a slot among those that hold its safe frame for cause 3. -/
def Out.dropHold (u : Out) (i : Fin 256) : Out := { u with hold3 := u.hold3.filter fun h => h.slot != i }

/-- A slot back in the free pool with its granules; a lost producer on it releases cause 3 (R151, R276). -/
def State.freeSlot (s : State) (i : Fin 256) : State :=
  let s := (s.modSlot i fun _ => {}).purgeImports
  { s with outs := s.outs.map fun u => u.dropHold i }

/-- The slots being released whose layer is on an output. -/
def State.releasingOn (s : State) (o : Fin 8) : List (Fin 256) :=
  ((idx 248).map fun k => f256 k.val).filter fun i => s.slots[i.val].lease == .releasing && s.onOutput i == some o

/-- The slots being released freed at an output's latch (R151): those whose layer was on it as the latch began, wherever a viewport has moved
with it, and those that are on no output. -/
def State.freeReleased (s : State) (was : List (Fin 256)) : State :=
  (idx 248).foldl (fun s k =>
    let i := f256 k.val
    if s.slots[i.val].lease == .releasing && (was.contains i || (s.onOutput i).isNone) then s.freeSlot i else s) s

/-- RELEASE_SLOT done (R110, R151, R343). -/
def State.releaseSlot (s : State) (i : Fin 256) : State :=
  let s := match s.slots[i.val].lease with
    | .held p h =>
      let es : List Export := s.spire.exports.filter fun e => e.pav == p && e.handle == h
      es.foldl State.endExport s
    | _ => s
  let gs : List Group := s.groups.filter fun g => g.members.any fun m => !g.latchedOuts.contains m.out && m.caps.any fun c => c.1 == i
  let s := gs.foldl (fun s g => s.discardGroup g none) s
  if (s.onOutput i).isNone then s.freeSlot i
  else s.modSlot i fun t => { t with lease := .releasing, staged := none, att := none, attTaken := false }

/-- Whether two ranges meet. -/
def meets (a n b m : Nat) : Bool := decide (a < b + m) && decide (b < a + n)

/-- Whether memory may be granted as an extent (R58, R89, R397, R402, R416): device DRAM that is enabled, or Orangery, not the log, not
secure, not check bits, not leased, not waiting to be zeroed. -/
def State.grantable (s : State) (base len : Nat) : Bool :=
  match s.locate base, s.locate (base + len - 1) with
  | some (m, o), some (m', _) =>
    (m == .dram || m == .org) && m == m' && !(m == .dram && s.pwr.dramFail)
      && !(m == .org && decide (0x1FE0000 < o + len))
      && !(m == .dram && (List.range (len / 4096)).any fun k => s.eccTop (o / 4096 + k))
      && !((s.dome.regions[memNo m % 3]'(Nat.mod_lt _ (by decide))).toList.any fun r => r.en && r.secure && meets o len (r.base * 4096) ((r.limit + 1 - r.base) * 4096))
      && !((idx 8).any fun n => match s.belvLatched n with
            | some q => meets base len (s.belvs[n.val]).bufBase (2 * (q.lat.layer.src.w * q.lat.layer.src.h * fmtBpp q.lat.layer.fmt + 1024)) | none => false)
      && !(s.pavs.toList.any fun v => v.exts.any fun e => meets base len e.base e.len)
      && !(s.orphanExts.any fun e => meets base len e.base e.len)
      && !(s.zeroQ.any fun e => meets base len e.base e.len)
  | _, _ => false

/-- Steps 6 and 8 of R99 for LEASE_SLOTS. An ADD_EXTENT of EXTENT_LENGTH 0 is refused with byte 24 (DESIGN CHOICE, log 36). -/
def State.leaseChecks (s : State) (d : Desc) : List (Bool × Nat × Nat) :=
  let p := tgtPav d
  let i := f256 (dU d 10 1)
  let slot := badF 10 (decide (247 < dU d 10 1))
  let gran := badF 14 (dU d 14 2 == 0 || decide (1536 < dU d 14 2))
  let exts := s.pavs[p.val].exts
  match dU d 8 1 with
  | 0 => [slot, badF 12 (match s.slotOf p (dU d 12 1) with | some j => j != i | none => false),
          badSt stNoLease (!(s.slots[i.val].lease == .free || s.slots[i.val].lease == .orphan))]
  | 1 => [slot, badSt stNoLease (!s.leasedTo i p)]
  | 2 => [slot, gran, badSt stNoLease (!s.leasedTo i p || decide (s.lbufFree < dU d 14 2))]
  | 3 => [slot, gran, badSt stNoLease (!s.leasedTo i p || decide (s.slots[i.val].granules < s.slotNeed i + dU d 14 2))]
  | 4 => [badF 16 (dU d 16 8 % 4096 != 0), badF 24 (dU d 24 8 % 4096 != 0 || dU d 24 8 == 0),
          badF 24 (decide (16 * 2 ^ 30 < extTotal exts + dU d 24 8)),
          badSt stNoLease (decide (16 ≤ exts.length) || !s.grantable (dU d 16 8) (dU d 24 8))]
  | 5 => [badF 16 (dU d 16 8 % 4096 != 0),
          badSt stNoLease (!(exts.any fun e => e.base == dU d 16 8) && !(p == 0 && s.orphanExts.any fun e => e.base == dU d 16 8))]
  | _ => [badF 8 true]

/-- An extent released: out of its list, queued for zeroing (R89, R90). -/
def State.releaseExtent (s : State) (p : Fin 64) (base : Nat) : State :=
  match s.pavs[p.val].exts.find? fun e => e.base == base with
  | some e => { (s.modPav p fun v => { v with exts := v.exts.erase e }) with zeroQ := s.zeroQ ++ [e] }
  | none =>
    match s.orphanExts.find? fun e => e.base == base with
    | some e => { s with orphanExts := s.orphanExts.erase e, zeroQ := s.zeroQ ++ [e] }
    | none => s

/-- What a LEASE_SLOTS does (R48, R89, R98, R147, R150, R151). -/
def State.leaseDo (s : State) (d : Desc) : State :=
  let p := tgtPav d
  let i := f256 (dU d 10 1)
  match dU d 8 1 with
  | 0 => s.modSlot i fun t => { t with lease := .held p (dU d 12 1), staged := none, att := none, attTaken := false }
  | 1 => s.releaseSlot i
  | 2 => s.modSlot i fun t => { t with granules := t.granules + dU d 14 2 }
  | 3 => s.modSlot i fun t => { t with granules := t.granules - dU d 14 2 }
  | 4 => s.modPav p fun v => { v with exts := v.exts ++ [{ base := dU d 16 8, len := dU d 24 8 }] }
  | 5 => s.releaseExtent p (dU d 16 8)
  | _ => s

/-- LEASE_SLOTS as it begins. -/
def State.beginLease (s : State) (w : Waiting) : State := s.judge w (s.leaseChecks w.d) fun s => s.leaseDo w.d

/-- The memory still to be zeroed after its first block has been. -/
def afterBlock : List Ext → List Ext
  | [] => []
  | e :: rest => if e.len ≤ 4096 then rest else { base := e.base + 4096, len := e.len - 4096 } :: rest

/-- The next 4 KiB block of released memory zeroed (R90), as master 1 through port 82. A block stays in the queue while its write is denied
(R419), while DRAM is not enabled (R397) and while port 82 has no tokens for it (R364). -/
def State.zeroBlock (s : State) : State :=
  match s.zeroQ with
  | [] => s
  | e :: _ =>
    let n := min 4096 e.len
    match s.locate e.base with
    | none => { s with zeroQ := afterBlock s.zeroQ }
    | some (m, o) =>
      if !s.permit 1 false m o n true then s.violation m o
      else if m == .dram && s.dramGone then s
      else if m == .dram && !s.admits 82 o n then s.portWaits 82
      else ({ s with zeroQ := afterBlock s.zeroQ }).memWrite 1 false 82 e.base (List.replicate n 0)

/-! ### BUDGET_SET -/

/-- The entries of a BUDGET_SET in use: the byte of the entry, KIND, TARGET, VALUE. TARGET and VALUE of an unused entry are not judged
(DESIGN CHOICE, log 36). -/
def budgetEntries (d : Desc) : List (Nat × Nat × Nat × Nat) :=
  ([8, 20, 32, 44].map fun b => (b, dU d b 1, dU d (b + 1) 1, dU d (b + 4) 8)).filter fun e => e.2.1 != 0xFF

/-- Whether a VALUE is legal for its KIND (R352, R355, R363). -/
def budgetValueOk (kind v : Nat) : Bool :=
  match kind with
  | 0 => v == 2 ^ 64 - 1 || (decide (1 ≤ v) && decide (v < 2 ^ 32))
  | 1 | 2 => v == 2 ^ 64 - 1 || (v % 64 == 0 && decide (64 ≤ v) && decide (v ≤ 2 ^ 40))
  | 3 => v == 2 ^ 64 - 1 || (decide (1 ≤ v) && decide (v ≤ 65535))
  | 4 => v == 0 || (bits v 15 0 != 0 && bits v 22 16 != 0 && decide (bits v 22 16 ≤ 64) && bits v 31 23 == 0
      && bits v 41 32 != 0 && decide (bits v 41 32 ≤ 512) && bits v 63 42 != 0)
  | _ => decide (v ≤ 250000000)

/-- Largest TARGET of a KIND (03, 09). -/
def budgetTarget (kind : Nat) : Nat := if kind = 4 then 7 else if kind = 5 then 82 else 0

/-- A grant as a BUDGET_SET leaves it. -/
def State.grantAfter (s : State) (d : Desc) (q : Nat) : Nat :=
  match ((budgetEntries d).filter fun e => e.2.1 == 5 && e.2.2.1 == q).getLast? with
  | some e => e.2.2.2
  | none => (s.bports[(f83 q).val]).grant

/-- A share as a BUDGET_SET leaves it. -/
def State.shareAfter (s : State) (d : Desc) (p : Fin 64) (v : Fin 8) : DWord :=
  match (if p = tgtPav d then ((budgetEntries d).filter fun e => e.2.1 == 4 && e.2.2.1 == v.val).getLast? else none) with
  | some e => w64 e.2.2.2
  | none => s.shareOf p v

/-- The outputs whose ceilings a BUDGET_SET concerns (R359). -/
def State.budgetOuts (s : State) (d : Desc) : List (Fin 8) :=
  (idx 8).filter fun o => (budgetEntries d).any fun e =>
    (e.2.1 == 5 && e.2.2.1 == o.val) || (e.2.1 == 4 && !(s.viewsOn o (tgtPav d) (f8 e.2.2.1)).isEmpty)

/-- Steps 6, 7 and 9 of R99 for BUDGET_SET (R39, R352, R355, R359, R363). The TARGET of a KIND-4 entry is judged here in step 6 and not in
step 3 (DESIGN CHOICE, log 36). -/
def State.budgetChecks (s : State) (d : Desc) : List (Bool × Nat × Nat) :=
  let es := budgetEntries d
  (es.map fun e => badF e.1 (decide (5 < e.2.1)))
    ++ (es.flatMap fun e => [badF (e.1 + 1) (decide (budgetTarget e.2.1 < e.2.2.1)), badF (e.1 + 4) (!budgetValueOk e.2.1 e.2.2.2)])
    ++ [ badF 8 es.isEmpty,
         badSt stSecureHeld (es.any fun e => e.2.1 == 5 && e.2.2.1 == 81),
         badSt stBudgetLimit (decide (250000000 < ((List.range 83).map (s.grantAfter d)).sum)),
         badSt stBudgetLimit (es.any fun e => e.2.1 == 5 && decide (e.2.2.1 < 8) && decide (e.2.2.2 < (s.comps[(f8 e.2.2.1).val]).fetchRate)),
         badSt stBudgetLimit ((s.budgetOuts d).any fun o => !s.ceilingsHold o (s.viewsOn o) (s.shareAfter d) (s.grantAfter d o.val)) ]

/-- One entry of a BUDGET_SET applied (R353, R363, R364): a raised limit lets the Pavilion's paused jobs go on. -/
def State.budgetEntry (s : State) (p : Fin 64) (e : Nat × Nat × Nat × Nat) : State :=
  match e.2.1 with
  | 4 => s.modView p (f8 e.2.2.1) fun v => { v with share := w64 e.2.2.2 }
  | 5 => s.modBport (f83 e.2.2.1) fun b => { b with grant := e.2.2.2, bucket := min b.bucket (b.depth * e.2.2.2 * 1000000) }
  | k =>
    let s := (s.modPav p fun v => { v with limits := upd v.limits (f4 k) fun _ => w64 e.2.2.2 }).noteQuota p (f4 k)
    if quotaUp s.pavs[p.val] (f4 k) then s else { s with jobs := s.jobs.map fun j => if j.pav = p then { j with paused := false } else j }

/-- BUDGET_SET as it begins (R353). -/
def State.beginBudgetSet (s : State) (w : Waiting) : State :=
  s.judge w (s.budgetChecks w.d) fun s =>
    ((budgetEntries w.d).foldl (fun s e => s.budgetEntry (tgtPav w.d) e) s).flushEvents 64 (tgtPav w.d)

/-! ### WALL_COMMIT_CFG -/

/-- The least lead of a rate group (R329). -/
def State.leadMin (s : State) (g : Fin 4) : Nat :=
  match s.spire.image with
  | none => 1
  | some i =>
    let r := i.groups[g.val]
    max 1 (cdiv ((r.reportNs + r.guardNs + 2 * i.propNs + i.marginNs) * 1000) (s.periodPs g))

/-- Members of a GROUP_DEFINE. -/
def groupMembers (d : Desc) : List (Fin 64 × Fin 8) :=
  (List.range (dBits d 14 1 4 0)).map fun i => (fp (dBits d (16 + 2 * i) 1 5 0), f8 (dBits d (17 + 2 * i) 1 2 0))

/-- Step 6 of R99 for WALL_COMMIT_CFG. -/
def State.wallChecks (s : State) (d : Desc) : List (Bool × Nat × Nat) :=
  let g := f4 d.handle.toNat
  let lead := dU d 10 2
  let gid := dU d 12 2
  let n := dBits d 14 1 4 0
  let known := s.groupDefs.any fun q => q.gid == gid
  match dU d 8 1 with
  | 0 => [badF 10 (lead == 0 || decide (255 < lead)), badF 10 (decide (lead < s.leadMin g))]
  | 1 => [badF 12 (decide (gid < 0x8000)), badF 14 (decide (n < 2) || decide (16 < n)), badF 4 (g != 0), badF 12 known]
      ++ (List.range 16).map fun i => badF (16 + 2 * i) ((decide (n ≤ i) && dU d (16 + 2 * i) 2 != 0)
        || (decide (i < n) && ((groupMembers d).take i).contains (fp (dBits d (16 + 2 * i) 1 5 0), f8 (dBits d (17 + 2 * i) 1 2 0))))
  | 2 => [badF 12 (decide (gid < 0x8000)), badF 4 (g != 0), badF 12 (!known)]
  | _ => [badF 8 true]

/-- What a WALL_COMMIT_CFG does (R189, R191, R329). A GROUP_DELETE spares a group that has been decided and waits for its latch: its members are
no longer pending (DESIGN CHOICE, log 57). -/
def State.wallDo (s : State) (d : Desc) : State :=
  let gid := dU d 12 2
  match dU d 8 1 with
  | 0 => { s with spire := { s.spire with leads := upd s.spire.leads (f4 d.handle.toNat) fun _ => dU d 10 2 } }
  | 1 => { s with groupDefs := s.groupDefs ++ [{ gid, members := groupMembers d }] }
  | _ =>
    let s := { s with groupDefs := s.groupDefs.filter fun q => q.gid != gid }
    let gs : List Group := s.groups.filter fun g => g.gid == gid && g.owner == none && g.latchedOuts.isEmpty && g.st != .latchWait
    gs.foldl (fun s g => s.discardGroup g none) s

/-- WALL_COMMIT_CFG as it begins. -/
def State.beginWallCfg (s : State) (w : Waiting) : State := s.judge w (s.wallChecks w.d) fun s => s.wallDo w.d

end Sys2Proof.Machine
end

