-- ==== Sys2Proof/Machine/Outputs.lean ====
section
/-!
DEFINITION. Outputs (06): events in their two forms, PVALID, captures, link training, the start and the end of a frame, the
safe frame, re-phases and coasts, and the end of an output.
-/
namespace Sys2Proof.Machine
open Sys2Proof

/-! ### Instants and events -/

/-- The mappings in effect on an output. -/
def State.mapped (s : State) (o : Fin 8) : List (Fin 64 × Fin 8 × VMap) :=
  (idx 64).flatMap fun p => (idx 8).filterMap fun v =>
    match s.pavs[p.val].views[v.val].cur with | some m => if m.out = o then some (p, v, m) else none | none => none

/-- An output event in the form of R245 for the output and for each viewport that `view` gives a DETAIL. -/
def State.outEvent (s : State) (o : Fin 8) (code frame detail : Nat) (view : VMap → Option Nat) : State :=
  let e : Ev := { code, inst := o.val, time := s.now, frame, detail }
  s.raise e ((0, e) :: (s.mapped o).filterMap fun q => (view q.2.2).map fun x => (q.1, { e with inst := 0xFF, view := q.2.1.val, detail := x }))

/-- An output event with one DETAIL for every recipient. -/
def State.outEv (s : State) (o : Fin 8) (code frame detail : Nat) : State := s.outEvent o code frame detail fun _ => some detail

/-- An AUX access as it leaves the device. -/
def auxTx (o : Fin 8) (x : AuxAcc) : Tx :=
  match x with
  | .write a v => .auxWrite o a v
  | .read a n => .auxRead o a n
  | .i2c g f => .i2cAux o g f

/-- The line of an output being scanned, from Spire time (OUT_POSITION). -/
def State.lineNow (s : State) (o : Fin 8) : Nat :=
  let u := s.outs[o.val]
  min ((s.now.toNat * 1000 - s.gridPs u.set.rg u.frame.toNat) / u.mode.linePs) (u.mode.vTotal - 1)

/-! ### PVALID -/

/-- Whether the policy and R240 and R243 let PVALID be high. -/
def Out.pvWant (u : Out) : Bool :=
  u.enabled && u.scanning && u.trained && u.hpd && !u.rephase && !u.coast && !u.forceLow && !(u.safe && u.cause5)
    && (if u.safe then u.set.policy == 1 || u.set.policy == 3 else u.underrunAt.isNone || decide (2 ≤ u.set.policy))

/-- PVALID given a level; a low level during active lines marks the captures (R251's PVALID_LOW). -/
def Out.setPv (u : Out) (b : Bool) : Out :=
  { u with pvalid := b, caps := if !b && u.scanning && !u.vblank then u.caps.map fun c => { c with pvalidLow := true } else u.caps }

/-- PVALID falls at its cause (R242). -/
def Out.pvFall (u : Out) : Out := u.setPv (u.pvalid && u.pvWant)

/-- PVALID at the start of a line 0 (R242). -/
def Out.pvLine0 (u : Out) : Out := u.setPv u.pvWant

/-! ### Captures -/

/-- The regulator port of an output's captures (R362). -/
def portC (o : Fin 8) : Fin 83 := f83 (8 + o.val)

/-- The words of `n` pixels of an output line from x0 on. -/
def State.lineWords (s : State) (o : Fin 8) (st : List (Fin 256 × Placed)) (x0 n y : Nat) : List Nat :=
  (List.range n).map fun i => s.outWord o st (x0 + i) y

/-- The first `n` lines of a capture's frame written, but for the lines lost (R248, R367), as master 9. -/
def State.captureLines (s : State) (o : Fin 8) (c : Capture) (n : Nat) : State :=
  let st := s.scanStack o
  (List.range n).foldl (fun s j =>
    if c.lost.contains j then s
    else s.memWrite 9 false (portC o) (c.frameAddr + j * c.pitch) ((s.lineWords o st c.rect.x0 c.rect.w (c.rect.y0 + j)).flatMap (leBytes 4))) s

/-- Whether line j of a capture's frame is written: it was not lost (R367), and its memory takes it (R32, R419). -/
def State.lineWritten (s : State) (c : Capture) (j : Nat) : Bool :=
  !c.lost.contains j && s.writable 9 false (c.frameAddr + j * c.pitch) (4 * c.rect.w)

/-- The bytes of a capture record (R251, R252). -/
def captureRecord (u : Out) (c : Capture) (lines : Nat) (incomplete : Bool) : List Byte :=
  let flags := 1 + 2 * b2n incomplete + 4 * b2n (u.underrunAt.isSome && !u.safe) + 8 * b2n u.safe + 16 * b2n c.pvalidLow + 32 * b2n u.set.dither
    + ((List.range 4).map fun w => if (u.proof.toList.map Proof.live).getD w false then 2 ^ (8 + w) else 0).sum
  leBytes 8 u.frame.toNat ++ leBytes 8 c.startTime.toNat ++ leBytes 4 c.index ++ leBytes 2 lines ++ leBytes 2 flags ++ leBytes 8 0
    ++ u.proof.toList.flatMap fun p => leBytes 8 (if p.live then p.res.toNat else 0)

/-- One capture's frame ended with its first `n` lines scanned: pixels, then the record in one write (R252), then
EV_CAPTURE_INCOMPLETE for an incomplete one. -/
def State.captureDone (s : State) (o : Fin 8) (c : Capture) (n : Nat) : State :=
  let lines := ((List.range n).filter (s.lineWritten c)).length
  let inc := c.incomplete || decide (lines < c.rect.h)
  let s := s.captureLines o c n
  let s := s.memWrite 9 false (portC o) c.slotAddr (captureRecord s.outs[o.val] c lines inc)
  let s := s.modOut o fun u => { u with
    capIncomplete := if inc then satInc24 u.capIncomplete else u.capIncomplete
    caps := u.caps.map fun x => if x.pav == c.pav && x.view == c.view then { x with index := x.index + 1, inFrame := false, lost := [] } else x }
  if inc then s.outEv o evCapIncomplete s.outs[o.val].frame.toNat lines else s

/-- Whether a capture ends at this frame end (R253, R404). -/
def Capture.isOver (c : Capture) : Bool := c.bad || (c.frames != 0 && decide (c.frames ≤ c.index)) || !c.stops.isEmpty

/-- The captures that are over ended (R253). -/
def State.endOver (s : State) (o : Fin 8) : State :=
  let es : List Capture := s.outs[o.val].caps.filter Capture.isOver
  es.foldl (fun s c => s.endCapture o c) s

/-- The captures at the end of a frame that has scanned its first `y` output lines: all of them (R252, R253), or those before a re-phase, a
coast, a change of mode or the end of the output. -/
def State.cutCaptures (s : State) (o : Fin 8) (y : Nat) : State :=
  let cs : List Capture := s.outs[o.val].caps.filter Capture.inFrame
  if cs.isEmpty then s else (cs.foldl (fun s c => s.captureDone o c (min (y - c.rect.y0) c.rect.h)) s).endOver o

/-- The captures at the end of a frame's last active line (R252, R253). -/
def State.frameCaptures (s : State) (o : Fin 8) : State := (s.cutCaptures o s.outs[o.val].mode.h).endOver o

/-! ### The stream on the link -/

/-- Whether a mode's horizontal and vertical sync pulses are positive: CTA-861 modes both, CVT-RB2 modes the horizontal alone. PRESUMED (log 21). -/
def syncPos (mode : Nat) : Bool × Bool := (true, [0, 11, 12, 17, 22, 24, 28, 30].contains mode)

/-- The Main Stream Attributes of a mode (R219). -/
def msaOf (mode : Nat) : Msa :=
  let m := modeOf mode
  { w := m.w, h := m.h, hTotal := m.hTotal, vTotal := m.vTotal, hPos := (syncPos mode).1, vPos := (syncPos mode).2 }

/-- The first `n` lines of the frame carried to the sink (R30). -/
def State.sendLines (s : State) (o : Fin 8) (n : Nat) : State :=
  let u := s.outs[o.val]
  if u.stream then
    let st := s.scanStack o
    s.emit (.pixels o u.frame.toNat ((List.range (min n u.mode.h)).map fun y => s.lineWords o st 0 u.mode.w y))
  else s

/-- The stream begun at a line 0, on a trained link (R219, R221). -/
def State.streamOn (s : State) (o : Fin 8) : State :=
  let u := s.outs[o.val]
  if u.trained && u.hpd && !u.stream then (s.modOut o fun u => { u with stream := true }).emit (.msa o (msaOf u.set.mode)) else s

/-- The frame stopped after its first `n` lines, if it is still in its active lines, and with it the stream; `x` is what the link carries
from then on. -/
def State.stopStream (s : State) (o : Fin 8) (n : Nat) (x : List Tx) : State :=
  let u := s.outs[o.val]
  let s := if u.scanning && !u.vblank then s.sendLines o n else s
  if u.stream then x.foldl State.emit (s.modOut o fun u => { u with stream := false }) else s

/-- The frame stopped after its first `n` lines: captures, then idle patterns on the link (R215, R216, R253). -/
def State.stopFrame (s : State) (o : Fin 8) (n : Nat) : State :=
  let u := s.outs[o.val]
  (if u.scanning && !u.vblank then s.cutCaptures o n else s).stopStream o n [.idle o]

/-! ### Link training -/

/-- Whether an output is enabled or being enabled (R221). -/
def Out.on (u : Out) : Bool := u.enabled || (match u.job with | some j => j.wait == .sequence | none => false)

/-- An AUX access sent, its retries counted from nothing (R224). -/
def State.auxSend (s : State) (x : AuxAcc) (o : Fin 8) : State :=
  (s.modOut o fun u => { u with auxRetries := 0, auxLast := some x }).emit (auxTx o x)

/-- Training started: step 1 of R221. -/
def State.startTrain (s : State) (o : Fin 8) : State :=
  if !(s.outs[o.val].on && s.outs[o.val].hpd) then s
  else ((s.stopStream o (s.lineNow o) []).modOut o fun u => { u with training := true, trained := false, auxDone := 0 }.pvFall).auxSend (.write 0x600 0x01) o

/-- Training abandoned without a word (R228, R256). -/
def State.dropTrain (s : State) (o : Fin 8) : State :=
  s.modOut o fun u => { u with training := false }

/-- The link bandwidth code of a rate (DisplayPort standard). PRESUMED (log 21). -/
def bwCode (r : Nat) : Nat :=
  match r with
  | 0 => 0x06 | 1 => 0x0A | 2 => 0x14 | 3 => 0x1E | 4 => 0x01 | 5 => 0x04 | _ => 0x02

/-- Whether a link rate code is of the 128b/132b coding. -/
def isUhbr (r : Nat) : Bool := decide (4 ≤ r)

/-- Whether the extended capabilities are flagged: 0x0000E bit 7 (R223). -/
def capFlagged (r : TrainRun) : Bool := bit (uAt r.caps.toNat 14 1) 7

/-- A byte of the receiver's capabilities, the extended ones where they are flagged. -/
def capByte (r : TrainRun) (k : Nat) : Nat := uAt (if capFlagged r then r.ext.toNat else r.caps.toNat) k 1

/-- Step 3 of R221: whether the sink has the rate, the lanes and the coding, by the DisplayPort standard's fields. PRESUMED (log 21). -/
def capFits (r : TrainRun) (rate lanes : Nat) : Bool :=
  decide (lanes ≤ bits (capByte r 2) 4 0) &&
    (if isUhbr rate then bit (capByte r 6) 1 && r.rates.toNat &&& bwCode rate != 0 else decide (bwCode rate ≤ capByte r 1))

/-- Whether the sink supports down-spread: MAX_DOWNSPREAD bit 0. PRESUMED (log 21). -/
def capSpread (r : TrainRun) : Bool := bit (capByte r 3) 0

/-- The reads of step 2 of R221. -/
def trainReads (r : TrainRun) (u : ModeSet) : List AuxAcc :=
  [.read 0 16] ++ (if capFlagged r then [.read 0x2200 16] else []) ++ (if isUhbr u.rate then [.read 0x2215 1] else [])

/-- The writes of step 4 of R221 (R222, R230): SPREAD_AMP only where the sink supports it, enhanced framing for 8b/10b. -/
def trainWrites (r : TrainRun) (u : ModeSet) : List AuxAcc :=
  [.write 0x107 (if capSpread r && u.ssc != 0 then 0x10 else 0), .write 0x108 (if isUhbr u.rate then 2 else 1), .write 0x100 (bwCode u.rate),
   .write 0x101 (u.lanes + (if isUhbr u.rate then 0 else 0x80))]

/-- The accesses of step 5 of R221: the tries as they went. -/
def trainTries (r : TrainRun) (u : ModeSet) : List AuxAcc :=
  (if isUhbr u.rate then [.read 0x2216 1] else []) ++ r.tries.flatMap fun t =>
    [.write 0x102 t.pattern.toNat] ++ ((List.range u.lanes).map fun i => .write (0x103 + i) (uAt t.drive.toNat i 1)) ++ [.read 0x200 8]

/-- How a training ends (R225): 0, or the stage that failed; a sink without the capability fails at step 3 (stage 2). -/
def trainResult (r : TrainRun) (u : ModeSet) : Nat :=
  if r.stage.val = 1 then 1 else if r.stage.val = 2 || !capFits r u.rate u.lanes then 2 else r.stage.val

/-- The accesses of a whole training after its step 1, in order (R221, R223). -/
def trainPlan (r : TrainRun) (u : ModeSet) : List AuxAcc :=
  trainReads r u ++ trainWrites r u ++ trainTries r u ++ [.write 0x102 0]

/-- The accesses of a training after its step 1 that were made before it ended (R221, R223, R225). -/
def trainAccs (r : TrainRun) (u : ModeSet) : List AuxAcc :=
  match trainResult r u with
  | 0 => trainPlan r u
  | 1 => (trainPlan r u).take r.made
  | 2 => trainReads r u
  | _ => trainReads r u ++ trainWrites r u ++ trainTries r u

/-- A failed training (R225). -/
def State.trainFail (s : State) (o : Fin 8) (stage : Nat) : State :=
  (s.modOut o fun u => { u with training := false, trained := false, failStage := stage, fail := true, auxRetries := 0, auxLast := none }.pvFall).outEv
    o evDpLinkFail 0 stage

/-- LINK_TRAINING_COMPLETE (R221, R222, R225, R230). -/
def State.trainEnd (s : State) (o : Fin 8) (r : TrainRun) : State :=
  let u := s.outs[o.val]
  if !u.training then s
  else
    let s := ((trainAccs r u.set).drop u.auxDone).foldl (fun s x => s.emit (auxTx o x)) s
    match trainResult r u.set with
    | 0 => s.modOut o fun u =>
        { u with training := false, trained := true, lanesActive := u.set.lanes, rateActive := u.set.rate, sscActive := capSpread r && u.set.ssc != 0
                 auxRetries := 0, auxLast := none }
    | n => s.trainFail o n

/-! ### Causes of the safe frame -/

/-- Whether a hold on cause 3 is in effect at line 0 of a frame (R275, R276). -/
def Hold3.holds (f : Nat) (h : Hold3) : Bool :=
  decide (h.start ≤ f) && (match h.until_ with | some u => decide (f ≤ u) | none => true)

/-- A slot holds cause 3 from frame f on (R275). -/
def Out.hold (u : Out) (i : Fin 256) (f : Nat) : Out :=
  let old : List Hold3 := u.hold3.filter fun h => h.slot == i
  let rest : List Hold3 := u.hold3.filter fun h => h.slot != i
  let h : Hold3 := match old.head? with
    | some h => (match h.until_ with | some x => if f ≤ x + 1 then { h with until_ := none } else { slot := i, start := f } | none => h)
    | none => { slot := i, start := f }
  { u with hold3 := h :: rest }

/-- What the slots of a kind hold of cause 3 is released in frame f (R276): the frame after it is free of it. -/
def Out.release (u : Out) (p : Fin 256 → Bool) (f : Nat) : Out :=
  { u with hold3 := u.hold3.map fun (h : Hold3) => if p h.slot && h.until_.isNone then { h with until_ := some f } else h }

/-- The causes in effect at line 0 of frame f (R236, R239, R293); cause 5 joins the others while the image is not verified
(R440). -/
def State.causesAt (s : State) (o : Fin 8) (f : Nat) : List Nat :=
  let u := s.outs[o.val]
  let c := (if u.cause1 then [1] else []) ++ (if u.cause2 && decide (u.cause2At ≤ f) then [2] else []) ++ (if u.hold3.any (Hold3.holds f) then [3] else [])
    ++ (if u.cause4 then [4] else [])
  if !c.isEmpty && !s.keep.sfVerified.getLsbD o.val then c ++ [5] else c

/-- The causes taken at line 0 of frame f, with EV_SAFE_FRAME (R239, R276). -/
def State.takeCauses (s : State) (o : Fin 8) (f : Nat) : State :=
  let old := s.outs[o.val].shown
  let now := s.causesAt o f
  let new := now.filter fun c => !old.contains c
  let s := s.modOut o fun u => { u with shown := now, safe := !now.isEmpty, cause5 := now.contains 5 }
  match new.head? with
  | some c => s.outEv o evSafeFrame f c
  | none => if now.isEmpty && !old.isEmpty then s.outEv o evSafeFrame f 0 else s

/-- A slot's layer as the Lantern checks it on an output: shown, with a non-empty clipped rectangle (R261, R262). -/
def State.checkable (s : State) (o : Fin 8) (i : Fin 256) : Option Placed :=
  match (s.scanStack o).find? fun q => q.1 == i with
  | some (_, q) =>
    let m := s.outs[o.val].mode
    let c := q.clip.inter ⟨0, 0, m.w, m.h⟩
    if c.empty || (q.lat.buf.isNone && decide (i.val < 248)) then none else some { q with clip := c }
  | none => none

/-! ### Frame start -/

/-- The proof windows as line 0 takes them (R288, R290); window 0 follows the Belvedere rectangle. -/
def State.takeProof (s : State) (o : Fin 8) : State :=
  let b := s.belvs[o.val]
  let m := s.outs[o.val].mode
  let belv : Option Rect := match s.belvLatched o with | some q => some q.map.rect | none => none
  let dither := s.outs[o.val].set.dither
  let reexp := s.outs[o.val].pcrc != s.outs[o.val].pcrcLive
  let s := s.modOut o fun u =>
    { u with
      pcrcLive := u.pcrc
      proof := u.proof.mapIdx fun w p =>
        let r : Rect := if w = 0 then belv.getD ⟨bits p.xy0.toNat 15 0, bits p.xy0.toNat 31 16, bits p.xy1.toNat 15 0, bits p.xy1.toNat 31 16⟩
          else ⟨bits p.xy0.toNat 15 0, bits p.xy0.toNat 31 16, bits p.xy1.toNat 15 0, bits p.xy1.toNat 31 16⟩
        { p with rect := r, live := (p.en || (w == 0 && belv.isSome)) && !r.empty && decide (r.x1 ≤ m.w) && decide (r.y1 ≤ m.h) } }
  -- the expected value follows the parameters and the DITHER of the frame
  if b.cur.isSome && (reexp || b.dither != dither) then
    let (s, v) := match s.belvLatched o with
      | some q => (match q.lat.buf with | some a => s.expectedNow o a.addr | none => (s, 0))
      | none => (s, 0)
    s.modBelv o fun b => { b with dither, cur := b.cur.map fun c => { c with expected := v } }
  else s

/-- Every capture of the output takes the frame whose line 0 begins: VALID is written 0 in its record slot (R250, R252). -/
def State.takeCaptures (s : State) (o : Fin 8) : State :=
  let t := s.now
  let s := s.modOut o fun u => { u with caps := u.caps.map fun c =>
    { c with inFrame := true, startTime := t, incomplete := false, lost := [], pvalidLow := !u.pvalid } }
  s.outs[o.val].caps.foldl (fun s c => s.memWrite 9 false (portC o) (c.slotAddr + 22) [0, 0]) s

/-- Line 0 of frame f scanned on an output (R214, R235, R236 to R243, R250, R276, R288, R290). -/
def State.lineZero (s : State) (o : Fin 8) (f : Nat) (err : Int) : State :=
  let s := s.modOut o fun u =>
    { u with frame := w64 f, frameCount := u.frameCount + 1, vblank := false, gridErr := err, scanning := true, rephase := false
             underrunAt := none, underrunX := 0, rows := [], discardFail := false, sfLine := 0 }
  let s := s.takeCauses o f
  let s := s.takeProof o
  let s := (s.streamOn o).modOut o fun u =>
    { u with hold3 := u.hold3.filter fun (h : Hold3) => match h.until_ with | some x => decide (f ≤ x) | none => true }.pvLine0
  s.takeCaptures o

/-- The completion of an OUTPUT_MODE that has begun. -/
def State.modeEnd (s : State) (j : ModeJob) (st : Nat) : State :=
  if j.silent then s
  else if st = stOk then s.completeOk 0 j.sq j.seq 0x23 j.deferred false false 0
  else s.complete 0 j.sq j.seq 0x23 st j.deferred false false 0xFF 0

/-- The OUTPUT_MODE in progress completed with ST_OK, its settings in effect (R254, R255). -/
def State.modeDone (s : State) (o : Fin 8) (j : ModeJob) : State :=
  (s.modOut o fun u => { u with set := j.set, job := none }).modeEnd j stOk

/-- A re-phase while `line` is scanned (R215): the frame ends after that line, PVALID falls, line 0 follows at the next grid instant. -/
def State.rePhaseAt (s : State) (o : Fin 8) (line : Nat) : State :=
  let s := s.stopFrame o (line + 1)
  s.modOut o fun u => { u with scanning := false, rephase := true, rephases := satInc u.rephases }.pvFall

/-- A re-phase at the line being scanned. -/
def State.rePhase (s : State) (o : Fin 8) : State := s.rePhaseAt o (s.lineNow o)

/-- FRAME_START: line 0 of frame f begins with error e (R214, R215, R255). A frame does not start on an output that is not
enabled, coasts or runs the sequence of R254. -/
def State.frameStart (s : State) (o : Fin 8) (f : Nat) (err : Int) : State :=
  let u := s.outs[o.val]
  if !u.enabled || u.coast || (match u.job with | some j => j.wait == .sequence | none => false) then s
  else
    let s := match u.job with
      | some j => if j.wait == ModeWait.line0 || j.wait == ModeWait.regroup then s.modeDone o j else s
      | none => s
    let s := s.upTo (s.gridPs s.outs[o.val].set.rg f)
    if u.mode.linePs < err.natAbs * 1000 then (s.modOut o fun u => { u with gridErr := err }).rePhase o
    else s.lineZero o f err

/-! ### Underrun, line match, safe-frame reads -/

/-- Whether a line of the frame being scanned can underrun: once a frame, in its active lines. -/
def Out.canUnderrun (u : Out) (line : Nat) : Bool :=
  u.scanning && !u.vblank && u.underrunAt.isNone && !u.discardFail && decide (line < u.mode.h)

/-- An underrun at pixel x of a line (R234, R236, R238, R247): at ABORT_LIMIT cause 1 is in effect from the next line 0. -/
def State.underrunFrom (s : State) (o : Fin 8) (line x : Nat) : State :=
  if !s.outs[o.val].canUnderrun line then s
  else
    let u := s.outs[o.val]
    let s := s.upTo (s.gridPs u.set.rg u.frame.toNat + line * u.mode.linePs)
    let s := s.modOut o fun u => { u with underruns := satInc u.underruns }
    if u.safe then s.modOut o fun u => { u with discardFail := true, completeRun := 0 }
    else
      let s := s.modOut o fun u =>
        let full := !u.cause1 && decide (u.set.abortLimit ≤ u.abortRun + 1)
        { u with
          underrunAt := some line, underrunX := x, abortRun := u.abortRun + 1, cause1 := u.cause1 || full
          completeRun := if full then 0 else u.completeRun, resumeReq := u.resumeReq && !full }.pvFall
      s.outEvent o evUnderrun u.frame.toNat line fun m => if line < m.rect.y1 then some (line - m.rect.y0) else none

/-- UNDERRUN at a line: the pixel at which the composer falls short is not stated, and free (log 6). -/
def State.underrunDo (s : State) (o : Fin 8) (line : Nat) : State :=
  if !s.outs[o.val].canUnderrun line then s
  else
    let (x, s) := s.free
    s.underrunFrom o line (x.toNat % max 1 s.outs[o.val].mode.w)

/-- Whether a range of bytes meets the 64 bytes from a device address on. -/
def meetsAtom (a : Nat) (r : Nat × Nat) : Bool := decide (r.1 < a + 64) && decide (a < r.1 + r.2)

/-- Whether composing output line y of a layer uses a byte of an atom, through any tap (R234). -/
def State.usesAtom (s : State) (o : Fin 8) (i : Fin 256) (q : Placed) (a y : Nat) : Bool :=
  let t := s.slots[i.val]
  let l := q.lat
  if !(decide (q.clip.y0 ≤ y) && decide (y < q.clip.y1)) || (t.stale && t.action == 3) then false
  else if 248 ≤ i.val then
    (s.belvs[o.val]).cur.isSome && ((l.layer.fmt == 0x07 && meetsAtom a ((match l.buf with | some b => b.addr | none => 0) + l.layer.src.w * l.layer.src.h, 1024))
      || (List.range q.clip.w).any fun k => meetsAtom a (belvPixAt q (q.clip.x0 + k) y))
  else
    l.buf.isSome && (l.layer.rowsOf (y - (q.map.rect.y0 + l.layer.dst.y0))).any fun r => (List.range q.clip.w).any fun k =>
      (l.layer.colsOf (q.clip.x0 + k - (q.map.rect.x0 + l.layer.dst.x0))).any fun c => meetsAtom a (s.pixAt l (t.stale && t.action == 1) c r)

/-- The line that an uncorrectable error makes underrun (R234): of an atom the first line of the frame that uses it; of the line buffer the
line being scanned (DESIGN CHOICE, log 17). -/
def State.faultLine (s : State) (o : Fin 8) (x : Option Nat) : Option Nat :=
  match x with
  | none => some (s.lineNow o)
  | some a =>
    let st := s.scanStack o
    (List.range s.outs[o.val].mode.h).find? fun y => st.any fun q => s.usesAtom o q.1 q.2 (a / 64 * 64) y

/-- The errors a composer has met (R234): in the active lines of a frame each makes its first line underrun from its first pixel; those met
in the blanking wait for the next frame. -/
def State.faultGo (s : State) (o : Fin 8) : State :=
  let u := s.outs[o.val]
  let fs := s.comps[o.val].faults
  if fs.isEmpty || !u.scanning || u.vblank then s
  else
    let s := s.modComp o fun c => { c with faults := [] }
    match (fs.filterMap (s.faultLine o)).min? with
    | some y => s.underrunFrom o y 0
    | none => s

/-- LINE_MATCH at the start of a line (R246). -/
def State.lineMatchDo (s : State) (o : Fin 8) (line : Nat) : State :=
  let u := s.outs[o.val]
  if !u.scanning || decide (u.mode.vTotal ≤ line) then s
  else
    let s := s.upTo (s.gridPs u.set.rg u.frame.toNat + line * u.mode.linePs)
    let e : Ev := { code := evLineMatch, inst := o.val, time := s.now, frame := u.frame.toNat, detail := line }
    let s := if u.lineMatch.getLsbD 31 && bits u.lineMatch.toNat 15 0 == line then s.raise e [(0, e)] else s
    (s.mapped o).foldl (fun s q =>
      match s.pavs[q.1.val].views[q.2.1.val].lmLine with
      | some l => if q.2.2.rect.y0 + l = line then
          let e : Ev := { e with inst := 0xFF, view := q.2.1.val, detail := l }
          (s.safeOut e).deliver q.1 e
        else s
      | none => s) s

/-- CAPTURE_REQUEST_DROP: a line of a capture is lost (R32, R367). -/
def State.captureDrop (s : State) (o : Fin 8) (p : Fin 64) (v : Fin 8) (line : Nat) : State :=
  s.modOut o fun u => { u with caps := u.caps.map fun c =>
    if c.pav == p && c.view == v && c.inFrame then
      { c with incomplete := true, lost := if c.lost.contains line || decide (c.rect.h ≤ line) then c.lost else line :: c.lost }
    else c }

/-- Whether a safe-frame slot passes R439: MAGIC, WIDTH, HEIGHT and the CRC-32 over palette and pixels. -/
def State.sfOk (s : State) (o : Fin 8) : Bool :=
  !s.poisoned .keep (sfBase o) 0x800 && !s.poisoned .keep (sfBase o + 0x800) 518400 && s.rdVal .keep (sfBase o) 4 == 0x5346524D && s.rdVal .keep (sfBase o + 4) 2 == 960 && s.rdVal .keep (sfBase o + 6) 2 == 540
    && s.rdVal .keep (sfBase o + 8) 4 == crcOf {} (s.rdBytes .keep (sfBase o + 0x400) 1024 ++ s.rdBytes .keep (sfBase o + 0x800) 518400)

/-- A safe-frame slot judged again (R439). -/
def State.sfJudge (s : State) (o : Fin 8) : State :=
  let s := (s.readErrs .keep (sfBase o) (0x800 + 518400) none).1
  { s with keep := { s.keep with sfVerified := putB s.keep.sfVerified o.val (s.sfOk o) } }

/-- A range of a safe-frame slot read by its output as master 9 (R437, R440); whether it could be read. -/
def State.sfRead (s : State) (a n : Nat) : State × Bool :=
  if !s.permit 9 true .keep a n false then (s.violation .keep a, false)
  else
    let (s, bad) := s.readErrs .keep a n none
    (s, !bad)

/-- SAFE_FRAME_LINE_READ: a source line of the safe frame is read, with the first the palette. The CRC-32 runs over the first read of each line; an
error clears SF_VERIFIED at once, a result that differs from the header does at the last line (R440). -/
def State.safeLine (s : State) (o : Fin 8) (line : Nat) : State :=
  let u := s.outs[o.val]
  if !u.scanning || !u.safe || !s.keep.sfVerified.getLsbD o.val || decide (540 ≤ line) then s
  else
    let clear (s : State) : State := { s with keep := { s.keep with sfVerified := putB s.keep.sfVerified o.val false } }
    let a := sfBase o + 0x800 + line * 960
    let (s, ok0) := if line = 0 then s.sfRead (sfBase o + 0x400) 1024 else (s, true)
    let (s, ok1) := if ok0 then s.sfRead a 960 else (s, false)
    if !ok1 then clear s
    else if line ≠ u.sfLine then s
    else
      let pal := if line = 0 then s.rdBytes .keep (sfBase o + 0x400) 1024 else []
      let reg := (pal ++ s.rdBytes .keep a 960).foldl (crcByte {}) (if line = 0 then crcStart {} else u.sfReg)
      let s := s.modOut o fun u => { u with sfLine := line + 1, sfReg := reg }
      if line = 539 ∧ crcFinish {} reg ≠ s.rdVal .keep (sfBase o + 8) 4 then clear s else s

/-! ### Frame end -/

/-- The results of the proof windows of the frame (R287, R289). -/
def State.proofResults (s : State) (o : Fin 8) : State :=
  let vals : List Nat := s.outs[o.val].proof.toList.map fun p => if p.live then s.proofValue o p.rect else 0
  let f := s.outs[o.val].frame
  s.modOut o fun u => { u with proof := u.proof.mapIdx fun w p => if p.live then { p with res := w64 (vals.getD w 0), frame := f } else p }

/-- Window 0's frame handed to the Dome (R291); frames that can no longer be compared are forgotten. -/
def State.awaitCompare (s : State) (o : Fin 8) : State :=
  let u := s.outs[o.val]
  let sl := s.slots[(f256 (248 + o.val)).val]
  let p0 := u.proof[0]
  let b := s.belvs[o.val]
  if !b.cfg.getLsbD 0 then s
  else
    let ok := p0.live && !u.safe && u.underrunAt.isNone && sl.checked && !sl.stale && b.cur.isSome
    let (half, exp) : Nat × DWord := match b.cur with | some c => (c.half, c.expected) | none => (0, 0)
    let x : BelvAwait := { frame := u.frame.toNat, result := p0.res, compared := ok, half, expected := exp, dither := u.set.dither, crc := u.pcrcLive }
    s.modBelv o fun b => { b with awaits := (b.awaits.filter fun (a : BelvAwait) => decide (u.frame.toNat < a.frame + 2)) ++ [x] }

/-- The run of aborted frames and the trial of cause 1 at the end of a frame (R236, R238). -/
def Out.endRun (u : Out) : Out :=
  let complete := u.underrunAt.isNone && !u.discardFail
  let u := if complete then { u with abortRun := 0 } else u
  if u.cause1 && u.shown.contains 1 then
    let n := if complete then u.completeRun + 1 else 0
    let lim := bits u.recover.toNat 15 0
    if (lim ≠ 0 ∧ lim ≤ n) ∨ (lim = 0 ∧ u.resumeReq ∧ complete) then { u with cause1 := false, completeRun := 0, resumeReq := false }
    else { u with completeRun := n }
  else u

/-- The stack that an output composes, as admission counts it. -/
def State.shownNeed (s : State) (o : Fin 8) : Need :=
  need s.outs[o.val].mode 32 ((s.scanStack o).map fun q => [q.2]) (s.belvs[o.val].cfg.getLsbD 0)

/-- The bytes fetched and the most cycles a line took in a frame, which the spec bounds and does not state (R155, R162, log 6): nothing is fetched
where no layer has a buffer; a line takes no more than its R153 cost unless it waited for DRAM. -/
def State.frameCounters (s : State) (o : Fin 8) : State :=
  let n := s.shownNeed o
  let late := decide (0 < n.fetch) || s.outs[o.val].underrunAt.isSome || s.outs[o.val].discardFail
  let buffers := (s.scanStack o).any fun q => q.2.lat.buf.isSome
  let (a, s) := s.free
  let (b, s) := s.free
  let cycles := b.toNat % (if late then 65536 else min 65536 (n.cost + 1))
  s.modComp o fun c => { c with
    fetchBytes := if buffers then c.fetchBytes + BitVec.ofNat 48 a.toNat else c.fetchBytes
    costPeak := max c.costPeak cycles }

/-- The commits that latched for frame f on the output completed (R201). -/
def State.completeDone (s : State) (o : Fin 8) (q : Done → Bool) : State :=
  let ds : List Done := s.doneQ.filter fun d => d.m.out == o && q d
  let s := { s with doneQ := s.doneQ.filter fun d => !(d.m.out == o && q d) }
  ds.foldl (fun s d => s.completeOk d.m.pav d.m.sq d.m.seq 0x05 d.m.deferred d.late d.heldWall d.frame) s

/-- FRAME_END: the end of the last active line of frame f (R201, R236, R238, R244, R252, R253, R289). -/
def State.frameEnd (s : State) (o : Fin 8) (f : Nat) : State :=
  let u := s.outs[o.val]
  if !u.enabled then s
  else
    let s := s.upTo (s.gridPs u.set.rg f + u.mode.h * u.mode.linePs)
    if u.scanning && !u.vblank && u.frame == w64 f then
      let s := s.proofResults o
      let s := s.awaitCompare o
      let s := s.sendLines o u.mode.h
      let s := s.frameCaptures o
      let s := s.frameCounters o
      let s := s.modOut o fun u => { u.endRun with vblank := true }
      let s := s.outEv o evFrameDone f s.outs[o.val].abortRun
      let s := s.completeDone o fun d => decide (d.frame ≤ f)
      s.outEv o evVblank f 0
    else s.completeDone o fun d => decide (d.frame ≤ f)

/-! ### Latch -/

/-- A member put in its place in the order of begins. -/
def insertMember (m : Member × Bool × Bool) : List (Member × Bool × Bool) → List (Member × Bool × Bool)
  | [] => [m]
  | x :: rest => if m.1.no < x.1.no then m :: x :: rest else x :: insertMember m rest

/-- One captured state latched for its slot, unless a later commit's state has latched for it already (R173, R258, R267). -/
def State.applyCap (s : State) (c : Fin 256 × Latched) : State :=
  s.modSlot c.1 fun t =>
    if (match t.cur with | some l => decide (c.2.no < l.no) | none => false) then t
    else
    let was := match t.cur with | some l => l.layer.enable && l.pav == c.2.pav | none => false
    { t with cur := some c.2, lost := false, checked := t.checked && (was || !c.2.layer.enable) }

/-- The groups decided for frame f latched on an output (R171, R173, R174). -/
def State.latchGroups (s : State) (o : Fin 8) (f : Nat) : State :=
  let due (g : Group) : Bool := g.st == .latchWait && g.target == f && g.outs.contains o && !g.latchedOuts.contains o
  let ms : List (Member × Bool × Bool) := ((s.groups.filter due).flatMap fun g =>
    (g.members.filter fun m => m.out == o).map fun m => (m, g.late, g.heldWall)).foldl (fun l m => insertMember m l) []
  let s := ms.foldl (fun s m => m.1.caps.foldl State.applyCap s) s
  let gs : List Group := s.groups.map fun g => if due g then { g with latchedOuts := g.latchedOuts ++ [o] } else g
  { s with doneQ := s.doneQ ++ ms.map fun m => { m := m.1, frame := f, late := m.2.1, heldWall := m.2.2 }
           groups := gs.filter fun g => !(g.outs.all fun q => g.latchedOuts.contains q) }

/-- The buffers latched for the layers of an output, shown or not. -/
def State.latchedBufs (s : State) (o : Fin 8) : List Attach :=
  (idx 248).filterMap fun i =>
    match s.slots[(f256 i.val).val].cur with
    | some l => if (match s.pavs[l.pav.val].views[(f8 l.layer.view).val].cur with | some m => m.out == o | none => false) then l.buf else none
    | none => none

/-- Complete import transfers latched for the layers of an output (R341). -/
def State.latchImports (s : State) (o : Fin 8) : State :=
  (s.latchedBufs o).foldl (fun s a =>
    if !a.import_ then s
    else match s.spire.imports.find? fun i => i.attId == a.id with
      | some i => match s.importReady i with
        | some (h, t, sq) =>
          ({ s with spire := { s.spire with imports := s.spire.imports.map fun (x : Import) =>
            if x.attId = a.id then { x with ready := none, live := some (h, sq), shown := x.shown + 1 } else x } }).setTime a.id t
        | none => s
      | none => s) s

/-- A ready Belvedere update latched at the first latch from that of its frame on (R283); its reply follows (R286). The expected proof value is
that of the settings in effect now. -/
def State.latchBelv (s : State) (o : Fin 8) (f : Nat) : State :=
  let b := s.belvs[o.val]
  match b.next with
  | none => s
  | some n =>
    if (match n.due with | some d => decide (f < d) | none => true) then s
    else
      let (s, v) := s.expectedNow o (b.bufBase + n.half * b.halfBytes)
      let s := s.modBelv o fun b => { b with cur := some { n with reply := none, expected := v }, next := none, dither := s.outs[o.val].set.dither }
      match n.reply with
      | some (p, i) => s.safetyReply p i (s.pavs[p.val].mbox[i.val]).inp 0 f
      | none => s

/-- Exports whose handle's latched buffer has changed send a transfer (R338). -/
def State.latchExports (s : State) : State :=
  (List.range s.spire.exports.length).foldl (fun s k =>
    match s.spire.exports[k]? with
    | some e => if (s.latchedBuf e.pav e.handle).map (fun q => s.bufKey q.1) != e.sentId then s.startXfer k else s
    | none => s) s

/-- The slots whose layers are not checked for frame f release cause 3 in it (R262, R276). -/
def State.releaseUnchecked (s : State) (o : Fin 8) (f : Nat) : State :=
  let p (i : Fin 256) : Bool := (s.checkable o i).isNone
  if s.outs[o.val].hold3.isEmpty then s else s.modOut o fun u => u.release p f

/-- The latch of frame f taken now (R51, R151, R174, R205, R258, R283, R341). -/
def State.latchNow (s : State) (o : Fin 8) (f : Nat) : State :=
  let s := s.freezeOut o
  let gone := s.releasingOn o
  let s := s.viewSteps o
  let s := s.latchGroups o f
  let s := s.latchImports o
  let s := s.latchBelv o f
  let s := s.freeReleased gone
  let s := s.modComp o fun c => { c with bgLive := c.bg, latchFrame := w64 f, winFrame := f + 1, winOpen := true }
  (((s.reEval o).purgeImports).latchExports).releaseUnchecked o f

/-- LATCH of frame f. -/
def State.latchDo (s : State) (o : Fin 8) (f : Nat) : State :=
  let c := s.comps[o.val]
  if !s.outs[o.val].enabled || c.winOpen || c.winFrame != f then s else (s.upTo (s.latchPs o f)).latchNow o f

/-- COMMIT_CUTOFF of frame f (R174, R197, R283). -/
def State.cutOffDo (s : State) (o : Fin 8) (f : Nat) : State :=
  if !s.outs[o.val].enabled || decide (f ≤ s.comps[o.val].lastCut) then s
  else
    let s := s.upTo (s.cutPs o f)
    let s := s.cutOffAt o f
    s.modBelv o fun b => { b with next := b.next.map fun n => if n.ready && n.due.isNone then { n with due := some f } else n }

/-! ### Freshness -/

/-- The effective limits of a slot's latched layer (R269, R280). -/
def State.limits (s : State) (i : Fin 256) (l : Latched) : Nat × Nat :=
  if 248 ≤ i.val then (l.layer.lim1, l.layer.lim2)
  else
    let p := s.ltn[l.pav.val]
    (min l.layer.lim1 p.max1.toNat,
     if p.max2 ≠ 0 ∧ (l.layer.lim2 = 0 ∨ p.max2.toNat < l.layer.lim2) then p.max2.toNat else l.layer.lim2)

/-- EV_STALE or EV_STALE_CLEAR to the recipients of R267. -/
def State.staleEvent (s : State) (o : Fin 8) (f : Nat) (i : Fin 256) (stale : Bool) (age : Nat) : State :=
  let e : Ev := { code := if stale then evStale else evStaleClear, inst := o.val, handle := 0x8000 + i.val, time := s.now, frame := f, detail := age }
  let owner : List (Fin 64 × Ev) := match s.slots[i.val].lease with
    | .held p h => if i.val < 248 then [(p, { e with handle := h })] else []
    | _ => []
  let sp := (s.belvs[(f8 (i.val - 248)).val]).safety
  let safety : List (Fin 64 × Ev) := if 248 ≤ i.val ∧ sp ≠ 0 then [(sp, e)] else []
  s.raise e ((0, e) :: owner ++ safety)

/-- FRESHNESS_CHECK of a slot for frame f (R260 to R276, R279). The check fixes the stale action that the frame draws (R269). -/
def State.freshness (s : State) (o : Fin 8) (f : Nat) (i : Fin 256) : State :=
  if !s.outs[o.val].enabled then s
  else match s.checkable o i with
    | none => s
    | some q =>
      let t := (s.gridPs s.outs[o.val].set.rg f + q.clip.y0 * s.outs[o.val].mode.linePs) / 1000
      let s := s.upTo (t * 1000)
      let noBuf := decide (248 ≤ i.val) && (s.belvs[(f8 (i.val - 248)).val]).cur.isNone
      let src := match q.lat.buf with | some a => (timeAt a.was a.time t).toNat | none => 0
      let (fr, s') := s.free
      let (age, s) : Nat × State := if noBuf then (fr.toNat, s') else (t - src, s)
      let sl := s.slots[i.val]
      let (l1, l2) := s.limits i q.lat
      let stale := noBuf || sl.lost || decide (l1 * 1000 ≤ age)
      let over2 := noBuf || (l2 != 0 && decide (l2 * 1000 ≤ age))
      let was := sl.checked && sl.stale
      let act := if 248 ≤ i.val then q.lat.layer.action else s.actionOf q.lat
      let s := s.modSlot i fun t => { t with stale, over2, age := w64 age, checked := true, action := act }
      let s := s.modOut o fun u =>
        if over2 || (stale && act == 2) then u.hold i (f + 1) else if stale then u else u.release (· == i) f
      if stale == was then s
      else (if stale then { s with staleCount := satInc s.staleCount } else s).staleEvent o f i stale age

/-! ### OUTPUT_MODE -/

/-- Other outputs of a rate group that are enabled or being enabled. -/
def State.othersOn (s : State) (o : Fin 8) (g : Fin 4) : Bool := (idx 8).any fun q => q != o && s.outs[q.val].on && s.outs[q.val].set.rg == g

/-- The class that binds an OUTPUT_MODE of an output (R211, R212): the image's, else the group's unless this output alone
claimed it. -/
def State.bindingClass (s : State) (o : Fin 8) (g : Fin 4) : Option Nat :=
  let declared := match s.spire.image with | some i => if (i.groups[g.val]).cls = 0xFF then none else some (i.groups[g.val]).cls | none => none
  match declared with
  | some c => some c
  | none => if s.outs[o.val].on && s.outs[o.val].set.rg == g && !s.othersOn o g then none else s.spire.classes[g.val]

/-- The settings of an OUTPUT_MODE. -/
def modeSetOf (d : Desc) : ModeSet :=
  { mode := dBits d 8 1 5 0, rg := f4 (dBits d 9 1 1 0), lanes := dBits d 10 1 2 0, rate := dBits d 11 1 3 0, ssc := dBits d 12 1 3 0
    dither := d.flags.getLsbD 1, commitOffset := if dU d 14 2 = 0 then 8 else dU d 14 2
    abortLimit := if dU d 16 1 = 0 then 3 else dU d 16 1, policy := dBits d 17 1 1 0 }

/-- Step 6 of R99 for OUTPUT_MODE with ENABLE = 1 (R161, R212, R218, R230, R256, R330). -/
def State.modeChecks (s : State) (o : Fin 8) (d : Desc) : List (Bool × Nat × Nat) :=
  let u := s.outs[o.val]
  let n := modeSetOf d
  let m := modeOf n.mode
  let busy := !(s.mapped o).isEmpty
  [ badF 8 (decide (47 < n.mode)), badF 10 (!(n.lanes == 1 || n.lanes == 2 || n.lanes == 4)), badF 11 (decide (6 < n.rate)),
    badF 12 (decide (10 < n.ssc)),
    badF 4 u.job.isSome,
    badF 8 ((n.mode != u.set.mode && busy) || (match s.bindingClass o n.rg with | some c => c != m.cls | none => false)),
    badF 9 (n.rg != u.set.rg && busy),
    badF 11 (!linkFits m n.rate n.lanes),
    badF 14 (decide (m.h ≤ n.commitOffset) || (match s.spire.image with
      | some i => let g := i.groups[n.rg.val]
                  g.guardNs != 0 && decide (g.guardNs * 1000 < (m.vTotal - commitLine m n.commitOffset) * m.linePs)
      | none => false)) ]

/-- The class of a rate group claimed or released (R211). -/
def State.claim (s : State) (g : Fin 4) (c : Option Nat) : State :=
  { s with spire := { s.spire with classes := upd s.spire.classes g fun _ => c } }

/-- The window of an output set from Spire time: the frame whose window is open, or the one that closed last (R176). -/
def State.reWindow (s : State) (o : Fin 8) : State :=
  let u := s.outs[o.val]
  let g := u.set.rg
  let t := s.now.toNat * 1000
  let f := (t - s.originPs g) / max 1 (s.periodPs g)
  let open_ := decide (t ≤ s.cutPs o (f + 1))
  let late := decide (s.latchPs o (f + 1) ≤ t)
  s.modComp o fun c => { c with winFrame := if late then f + 2 else f + 1, winOpen := open_ || late }

/-- Frame numbers kept of an output as its grid moves so that line 0 of the next frame has number n' in place of n: they stay as far ahead. -/
def Out.rebase (u : Out) (n n' : Nat) : Out :=
  { u with
    cause2At := u.cause2At + n' - n
    hold3 := u.hold3.map fun (h : Hold3) => { h with start := h.start + n' - n, until_ := h.until_.map fun x => x + n' - n } }

/-- The grid of an output's frames has moved (R211, R321): where frame numbers drop, what holds its safe frame goes on holding it (R275, R276,
R294). -/
def State.rebase (s : State) (o : Fin 8) : State :=
  let u := s.outs[o.val]
  let n := u.frame.toNat + 1
  let n' := cdiv (s.now.toNat * 1000 - s.originPs u.set.rg) (max 1 (s.periodPs u.set.rg))
  if n ≤ n' then s else s.modOut o fun u => u.rebase n n'

/-- An output's window set anew on another grid (R176): a Belvedere update whose cut-off has passed latches at the next latch (R283). -/
def State.newGrid (s : State) (o : Fin 8) : State :=
  ((s.reWindow o).rebase o).modBelv o fun b => { b with next := b.next.map fun n => { n with due := n.due.map fun _ => 0 } }

/-- OUTPUT_MODE with ENABLE = 1 begun: the sequence of R254, a re-phase onto another group's grid, or new parameters at the
next line 0 (R255). -/
def State.modeBegin (s : State) (o : Fin 8) (w : Waiting) : State :=
  let n := modeSetOf w.d
  let u := s.outs[o.val]
  let job (wait : ModeWait) : Option ModeJob := some { sq := w.d.sq, seq := w.d.seq, deferred := w.deferred, set := n, wait }
  let s := s.dropTrain o
  let regroup (s : State) : State :=
    let s := if u.on && !s.othersOn o u.set.rg && (u.set.rg != n.rg || u.set.mode != n.mode) then s.claim u.set.rg none else s
    if (s.bindingClass o n.rg).isNone || !s.othersOn o n.rg then s.claim n.rg (some (modeOf n.mode).cls) else s
  if !u.enabled || u.set.mode != n.mode || u.set.lanes != n.lanes || u.set.rate != n.rate || u.set.ssc != n.ssc then
    let s := s.stopFrame o (s.lineNow o + 1)
    let s := regroup s
    let s := s.modOut o fun u => { u with set := n, job := job .sequence, enableSet := true, scanning := false, rephase := false, training := false, trained := false }.pvFall
    let s := if u.enabled && (u.set.rg != n.rg || (modeOf u.set.mode).cls != (modeOf n.mode).cls) then s.newGrid o else s
    ((s.modOut o id).startTrain o).reEval o
  else if u.set.rg ≠ n.rg then
    let s := s.rePhase o
    let s := regroup s
    let s := s.modOut o fun u => { u with set := { u.set with rg := n.rg }, job := job .regroup, enableSet := true }
    s.newGrid o
  else s.modOut o fun u => { u with job := job .line0, enableSet := true }

/-- EV_SECURE_HELD for an island (R470). -/
def State.secureHeld (s : State) (island : Nat) : State := s.raise0 { code := evSecureHeld, inst := 0x80 + island, time := s.now }

/-- OUTPUT_MODE as it begins. -/
def State.beginOutputMode (s : State) (w : Waiting) : State :=
  let o := f8 w.d.handle.toNat
  let u := s.outs[o.val]
  if !w.d.flags.getLsbD 0 then
    if u.job.isSome then s.refuse w (stBadField, 4, 0)
    else if !u.enabled then s.finish w 0
    else if s.belvs[o.val].cfg.getLsbD 0 then (s.secureHeld (15 + o.val)).refuse w (stSecureHeld, 0xFF, 0)
    else
      { ((s.dropTrain o).modOut o fun u => { u with enableSet := false, job := some { sq := w.d.sq, seq := w.d.seq, deferred := w.deferred, set := u.set, wait := .gate } })
        with clk := { s.clk with gateWait := putB s.clk.gateWait (15 + o.val) true } }
  else match firstBad (s.modeChecks o w.d) with
    | some b => s.refuse w b
    | none => if s.pwr.xinFail then s.refuse w (stDeviceAbort, 0xFF, 0) else s.modeBegin o w

/-- OUTPUT_MODE_COMPLETE: step 4 of R254, line 0 of the first frame at the next grid instant (R673), once its pixel PLL is locked (R216). -/
def State.modeComplete (s : State) (o : Fin 8) : State :=
  match s.outs[o.val].job with
  | none => s
  | some j =>
    if j.wait != .sequence || s.outs[o.val].coast then s
    else
      let first := !s.outs[o.val].enabled
      let g := j.set.rg
      let f := cdiv (s.now.toNat * 1000 - s.originPs g) (s.periodPs g)
      let s := s.upTo (s.gridPs g f)
      let (fr, s) := s.free
      let err : Int := ((fr.toNat % 9 : Nat) : Int) - 4
      let s := s.modOut o fun u => if first then
        { u with enabled := true, frameCount := 0, abortRun := 0, completeRun := 0, resumeReq := false, cause1 := false, shown := [], coast := false } else u
      let s := if first then s.modComp o fun c => { c with winFrame := f + 1, winOpen := true, bgLive := c.bg } else s
      let s := (s.runIsland (7 + o.val) true).runIsland (15 + o.val) true
      let s := { s with clk := { s.clk with
        pllLock := putB (putB s.clk.pllLock (8 + o.val) true) (16 + o.val) true, gated := putB s.clk.gated (15 + o.val) false } }
      (s.modeDone o j).lineZero o f err

/-! ### The end of an output -/

/-- An output stopped and its islands gated (R206, R253, R255, R564 step 3, R570). -/
def State.disableOut (s : State) (o : Fin 8) : State :=
  let g := s.outs[o.val].set.rg
  let gone := s.releasingOn o
  -- a frame in progress is incomplete in every capture (R253)
  let s := if s.outs[o.val].scanning && !s.outs[o.val].vblank then
      s.modOut o fun u => { u with caps := u.caps.map fun (c : Capture) => if c.inFrame then { c with incomplete := true } else c } else s
  let s := s.stopFrame o (s.lineNow o)
  let cs : List Capture := s.outs[o.val].caps
  let s := cs.foldl (fun s c => s.endCapture o c) s
  let s := s.discardWhere (fun m => m.out == o) none
  let s := s.completeDone o fun _ => true
  let s := s.modOut o fun u => { u with
    enabled := false, scanning := false, rephase := false, coast := false, training := false, trained := false, safe := false, shown := [], cause1 := false
    abortRun := 0, underrunAt := none, rows := [], hold3 := [], vblank := false, auxOp := some (.write 0x600 0x02) }.setPv false
  let s := s.auxSend (.write 0x600 0x02) o
  let s := if s.othersOn o g then s else s.claim g none
  let s := (s.runIsland (7 + o.val) false).runIsland (15 + o.val) false
  let s := { s with clk := { s.clk with
    pllLock := putB (putB s.clk.pllLock (8 + o.val) false) (16 + o.val) false
    pllCoast := putB (putB s.clk.pllCoast (8 + o.val) false) (16 + o.val) false
    gated := putB s.clk.gated (15 + o.val) true } }
  (s.viewSteps o).freeReleased gone

/-- The pixel PLL of an output coasts: the raster stops at the end of the current line (R216). -/
def State.coastOut (s : State) (o : Fin 8) : State :=
  let u := s.outs[o.val]
  if !u.on then s
  else
    let s := s.stopFrame o (s.lineNow o + 1)
    s.modOut o fun u => { u with coast := true, scanning := false }.pvFall

/-- The pixel PLL of an output has relocked; line 0 follows at the next grid instant, as a re-phase (R215, R216). -/
def State.uncoastOut (s : State) (o : Fin 8) : State :=
  if !s.outs[o.val].coast then s
  else s.modOut o fun u => { u with coast := false, rephase := u.enabled, rephases := if u.enabled then satInc u.rephases else u.rephases }

/-! ### WRITEBACK -/

/-- Step 6 of R99 for WRITEBACK (R249, R251): the fields' own ranges first, with STOP too (R669). -/
def State.writebackChecks (s : State) (p : Fin 64) (d : Desc) : List (Bool × Nat × Nat) :=
  let v := f8 d.handle.toNat
  let stop := d.flags.getLsbD 0
  let dest := dU d 8 8
  let pitch := dU d 16 4
  let recs := dU d 24 8
  let ring := dU d 32 2
  let m := s.pavs[p.val].views[v.val].cur
  let mine (o : Fin 8) : Bool := s.outs[o.val].caps.any fun c => c.pav == p && c.view == v
  let running := (idx 8).any mine
  let h := match m with | some m => m.rect.h | none => 0
  let w := match m with | some m => m.rect.w | none => 0
  [ badF 8 (dest % 256 != 0), badF 16 (pitch % 64 != 0), badF 24 (recs % 64 != 0),
    badF 32 ((!stop && ring == 0) || decide (1024 < ring)) ]
  ++ (if stop then
    [badF 1 (!running), badF 8 (dest != 0), badF 16 (pitch != 0), badF 20 (dU d 20 4 != 0), badF 24 (recs != 0), badF 32 (ring != 0)]
  else
    [ badF 4 (match m with | none => true | some m => running || decide (4 ≤ s.outs[m.out.val].caps.length)),
      badF 8 (s.xlate p dest (ring * (pitch * h))).isNone, badF 16 (decide (pitch < 4 * w)), badF 24 (s.xlate p recs (ring * 64)).isNone ])

/-- WRITEBACK as it begins (R249 to R253). -/
def State.beginWriteback (s : State) (w : Waiting) : State :=
  let d := w.d
  let p := d.pav
  let v := f8 d.handle.toNat
  match firstBad (s.writebackChecks p d) with
  | some b => s.refuse w b
  | none =>
    if d.flags.getLsbD 0 then
      (idx 8).foldl (fun s o => s.modOut o fun u => { u with caps := u.caps.map fun c =>
        if c.pav == p && c.view == v then { c with stops := c.stops ++ [(d.sq, d.seq, w.deferred)] } else c }) s
    else match s.pavs[p.val].views[v.val].cur with
      | none => s
      | some m =>
        let c : Capture := { pav := p, sq := d.sq, seq := d.seq, view := v, deferred := w.deferred
                             dest := (s.xlate p (dU d 8 8) 1).getD 0, pitch := dU d 16 4, frames := dU d 20 4, ring := dU d 32 2
                             record := (s.xlate p (dU d 24 8) 64).getD 0, rect := m.rect }
        s.modOut m.out fun u => { u with caps := u.caps ++ [c] }

/-! ### Hot plug, EDID, timers -/

/-- Whether the lane status of DPCD 0x00202 to 0x00204 shows a loss of clock recovery, equalisation, symbol lock or interlane alignment (R227). -/
def lockLost (lanes : Nat) (status : BitVec 64) : Bool :=
  let lane (i : Nat) : Bool := bits (uAt status.toNat (2 + i / 2) 1) (4 * (i % 2) + 2) (4 * (i % 2)) == 7
  !((List.range lanes).all lane) || !bit (uAt status.toNat 4 1) 0

/-- HPD_IRQ (R225, R226, R227): `status` is DPCD 0x00200 to 0x00207 as read, none where no reply came. The edge wakes the OUT island. -/
def State.hpdIrq (s : State) (o : Fin 8) (status : Option (BitVec 64)) : State :=
  let u := s.outs[o.val]
  if !u.hpd then s
  else
    let s := (((s.wakeIsland (islOut o.val)).modOut o fun u => { u with irqs := satInc16 u.irqs })).outEv o evHpd 0 3
    if !u.on then s
    else
      let s := if u.training then s.emit (auxTx o (.read 0x200 8)) else
        (s.modOut o fun u => { u with auxOp := some (.read 0x200 8) }).auxSend (.read 0x200 8) o
      match status with
      | none => if u.training || u.trained then s else s.startTrain o
      | some st =>
        let v := uAt st.toNat 1 1
        let s := if u.training then s else s.modOut o fun u => { u with auxOp := none }
        let s := if v = 0 then s else if u.training then s.emit (auxTx o (.write 0x201 v)) else
          (s.modOut o fun u => { u with auxOp := some (.write 0x201 v) }).auxSend (.write 0x201 v) o
        if u.training || (u.trained && !lockLost u.set.lanes st) then s else s.startTrain o

/-- HPD_UNPLUG (R226, R228): training is abandoned and the main link off; the raster goes on. -/
def State.hpdUnplug (s : State) (o : Fin 8) : State :=
  let u := s.outs[o.val]
  if !u.hpd then s
  else
    let s := s.wakeIsland (islOut o.val)
    let s := if u.on then (s.stopStream o (s.lineNow o) []).emit (.linkOff o) else s
    (s.modOut o fun u => { u with hpd := false, training := false, trained := u.trained && !u.on }.pvFall).outEv o evHpd 0 0

/-- HPD_PLUG (R221, R226). -/
def State.hpdPlug (s : State) (o : Fin 8) : State :=
  if s.outs[o.val].hpd then s
  else (((s.wakeIsland (islOut o.val)).modOut o fun u => { u with hpd := true }).outEv o evHpd 0 1).startTrain o

/-- The end of an EDID read (R229). -/
def State.edidEnd (s : State) (o : Fin 8) (r : EdidResult) : State :=
  if !s.outs[o.val].edidBusy then s
  else s.modOut o fun u =>
    let u := { u with edidBusy := false, edidDone := true, auxRetries := 0, auxLast := none }
    match r with
    | .data l => { u with edidErr := 0, edid := Vector.ofFn fun k => w32 (ofLe (((l ++ List.replicate 128 0).drop (4 * k.val)).take 4)) }
    | .nack => { u with edidErr := 1 }
    | .timeout => { u with edidErr := 2 }
    | .noSink => { u with edidErr := 3 }

/-- The access that reads an EDID block (R229). -/
def edidAcc (block : BitVec 8) : AuxAcc := .i2c (block.toNat / 2) (block.toNat % 2 * 128)

/-- The accesses of a training (R223). -/
def isTrainAcc (x : AuxAcc) : Bool :=
  match x with
  | .write a _ => a == 0x600 || (decide (0x100 ≤ a) && decide (a ≤ 0x108))
  | .read a _ => a == 0 || a == 0x2200 || a == 0x2215 || a == 0x2216 || a == 0x200
  | .i2c _ _ => false

/-- The accesses of the training so far, up to the next `x` of its plan, made (R221): they had a reply, and `x` has none. A step 1 and an access that
the training is not due to make bring no other. -/
def State.trainReach (s : State) (o : Fin 8) (x : AuxAcc) (run : TrainRun) : State :=
  let u := s.outs[o.val]
  let due := (trainPlan run u.set).drop u.auxDone
  match due.findIdx? (· == x) with
  | none => s
  | some i => (due.take (i + 1)).foldl (fun s x => s.emit (auxTx o x)) (s.modOut o fun u => { u with auxDone := u.auxDone + i + 1 })

/-- AUX_TIMEOUT of an access, or a DEFER in its place (R224: both count alike): it is sent again, at most 7 times; then the training fails at its
AUX stage, the EDID read ends, or the access is given up. Misses of one access in a row are those of one request, and `run` is what the training's
reads have returned so far (DESIGN CHOICE, log 21). -/
def State.auxTimeout (s : State) (o : Fin 8) (x : AuxAcc) (_why : AuxMiss) (run : TrainRun) : State :=
  let u := s.outs[o.val]
  let train := u.training && isTrainAcc x
  let edid := u.edidBusy && x == edidAcc u.edidBlock
  let n := if u.auxLast = some x then u.auxRetries else 0
  if !train && !edid && u.auxOp != some x then s
  else if n < 7 then
    let s := if train && u.auxLast != some x then s.trainReach o x run else s
    (s.modOut o fun u => { u with auxRetries := n + 1, auxLast := some x }).emit (auxTx o x)
  else if edid then s.edidEnd o .timeout
  else if train then s.trainFail o 1
  else s.modOut o fun u => { u with auxOp := none, auxRetries := 0, auxLast := none }

/-- EDID_START (R229), an access that wakes the OUT island (R27). -/
def State.edidStart (s : State) (o : Fin 8) (block : BitVec 8) : State :=
  let s := (s.wakeIsland (islOut o.val)).modOut o fun u => { u with edidBlock := block }
  if s.outs[o.val].edidBusy then s
  else (s.modOut o fun u => { u with edidBusy := true }).auxSend (edidAcc block) o

/-- TRAIN_RETRY_TIMER (R225). -/
def State.trainRetry (s : State) (o : Fin 8) : State :=
  let u := s.outs[o.val]
  if u.hpd && !u.trained && !u.training && bits u.trainRetry.toNat 15 0 != 0 then s.startTrain o else s

/-! ### Proof comparison -/

/-- A mismatch of frame f (R292, R293): after the first the Dome recomputes the expected values, at once (log 58), the second in a row is a proof
fault. -/
def State.proofMiss (s : State) (o : Fin 8) (f : Nat) : State :=
  let b := s.belvs[o.val]
  let s := s.modBelv o fun b => { b with mismatch := satInc b.mismatch, run := min (b.run + 1) 2 }
  if b.run = 0 then s.recomputeExpected o
  else
    let s := s.modBelv o fun b => { b with faults := if b.proofFault then b.faults else satInc b.faults, proofFault := true }
    let s := s.modOut o fun u => { u with cause2 := true, cause2At := if u.cause2 then u.cause2At else f + 2 }
    let s := if b.cfg.getLsbD 3 then
        s.modOut o fun u => { u with forceByProof := u.forceByProof || !u.forceLow, forceLow := true }.pvFall else s
    let e : Ev := { code := evProofFail, inst := o.val, time := s.now, frame := f }
    s.raise e ((0, e) :: (if b.safety = 0 then [] else [(b.safety, e)]))

/-- PROOF_COMPARE: the Dome compares the oldest window 0 result that waits (R291 to R293, R295). -/
def State.proofCompare (s : State) (o : Fin 8) : State :=
  let b := s.belvs[o.val]
  match b.awaits with
  | [] => s
  | a :: rest =>
    let s := s.modBelv o fun b => { b with awaits := rest }
    if s.dome.st != .run || !a.compared then s
    else if a.expected = a.result then s.modBelv o fun b => { b with run := 0 }
    else s.proofMiss o a.frame

end Sys2Proof.Machine
end

