-- ==== Sys2Proof/Machine/Alarms.lean ====
section
/-!
DEFINITION. ALARMs that the Dome originates and the SAFE_IN entries it applies (12, R458, R459; 08, R334 to R336; 18, R647), and
the start of a budget period (09).
-/
namespace Sys2Proof.Machine
open Sys2Proof

/-! ### SAFE_IN -/

/-- Cause 4 of an output set or ended (R457, R459); the output follows at its next line 0. -/
def State.setCause4 (s : State) (o : Fin 8) (b : Bool) : State := s.modOut o fun u => { u with cause4 := b }

/-- FORCE_LOW of an output set or cleared (R243, R457): PVALID falls at once and rises at a line 0. -/
def State.setForceLow (s : State) (o : Fin 8) (b : Bool) : State :=
  s.modOut o fun u => { u with forceLow := b, forceByProof := u.forceByProof && u.forceLow && b }.pvFall

/-- The ACTION of a SAFE_IN entry on one output (12, policy layout; R459). -/
def State.safeAction (s : State) (o : Fin 8) (action : Nat) : State :=
  match action with
  | 1 => s.setCause4 o true
  | 2 => s.setForceLow o true
  | 3 => (s.setCause4 o true).setForceLow o true
  | 4 => s.setCause4 o false
  | 5 => s.setForceLow o false
  | 6 => (s.setCause4 o false).setForceLow o false
  | _ => s

/-- The valid SAFE_IN entries with an ALARM's WORD applied (R458). -/
def State.applySafeIn (s : State) (word : Word) : State :=
  let es : List SafeIn := s.dome.policy.safeIn.filter fun e => e.word == word
  es.foldl (fun s e => ((idx 8).filter fun o => e.mask.getLsbD o.val).foldl (fun s o => s.safeAction o e.action) s) s

/-- EV_SAFE_MSG to every present Pavilion that has armed it (R336), its TIME as the message gives it. -/
def State.safeMsg (s : State) (inst : Nat) (word : Word) (time : DWord) : State :=
  let ev : Ev := { code := evSafeMsg, inst, time, detail := word.toNat }
  s.raiseAs ev ((idx 64).map fun p => (p, ev))

/-! ### Sending -/

/-- An ALARM flit (R300). -/
def alarmFlit (origin seq word time join : Nat) : BitVec 256 :=
  mkFlit 1 0 [(4, 2, origin), (6, 4, seq), (10, 4, word), (14, 8, time), (22, 8, join)]

/-- An ALARM of this device flooded on every UP link (R334, R335). -/
def State.floodAlarm (s : State) (word : Word) : State :=
  let s := { s with spire := { s.spire with msgSeq := s.spire.msgSeq + 1 } }
  s.flood none (alarmFlit s.spire.myId s.spire.msgSeq.toNat word.toNat s.now.toNat s.spire.joinTime.toNat)

/-- An ALARM that the Dome originates: sent, applied to its own SAFE_IN entries and raised as EV_SAFE_MSG (R458). -/
def State.sendAlarm (s : State) (word : Word) : State :=
  ((s.floodAlarm word).applySafeIn word).safeMsg 0xFF word s.now

/-- Whether the first ALARM after a join must wait (R334); a device that is stand-alone or has no UP link waits for nothing
(R458). -/
def State.alarmWaits (s : State) : Bool :=
  match s.spire.image with
  | none => false
  | some i => (idx 12).any (s.linkUp ·) && (!s.spire.joined
      || (s.spire.msgSeq == 0 && decide (s.now.toNat < s.spire.joinTime.toNat + 2 * i.safeNs)))

/-- The oldest ALARM waiting is sent if this period has had none and it need not wait (R334, R647); so is the one of a halt, which the Spire
hardware sends (R479). -/
def State.alarmsGo (s : State) : State :=
  if s.dome.haltSend then
    if s.alarmWaits then s else { s with dome := { s.dome with haltSend := false } }.floodAlarm s.dome.policy.haltWord
  else match s.dome.alarms with
  | [] => s
  | (w, _) :: rest =>
    if s.dome.alarmSent || s.dome.st != .run || s.alarmWaits then s
    else { s with dome := { s.dome with alarms := rest, alarmSent := true } }.sendAlarm w

/-! ### Writes of the Keep, and wipes -/

/-- Steps 1 and 2 of a wipe (R441): the partition's writes still buffered are abandoned, and WIPE_PENDING is 1; the UPDATE_SEQ values and the carried
record end with the partition (R285). -/
def State.wipeMark (s : State) : State :=
  let out (l : List (Nat × List Byte)) : List (Nat × List Byte) := l.filter fun q => decide (q.1 < 0xF00000)
  let s := s.freeze
  let s := { s with
    keep := { s.keep with dbuf := out s.keep.dbuf, buf := out s.keep.buf }
    belvs := s.belvs.map fun (b : Belv) => { b with seq := 0 }
    dome := { s.dome with carried := false } }
  s.keepMake (0, leBytes 8 1)

/-- Step 3 of a wipe (R441): the key block is zero, so that nothing in the secure partition can be read again. -/
def State.wipeKey (s : State) : State :=
  let s := s.zero .keep 0xF00000 0xF00040
  { s with keep := { s.keep with wiping := true, wipeStep := 4, wipeFrom := s.now, writes := s.keep.writes + 8 } }

/-- Steps 1 to 3 of a wipe (R441) at once. A cause during a wipe adds nothing (R443). -/
def State.wipeBegin (s : State) : State := if s.keep.wiping then s else s.wipeMark.wipeKey

/-- The next of steps 4 to 6 of a running wipe (R441). -/
def State.wipeNext (s : State) : State :=
  if !s.keep.wiping then s
  else match s.keep.wipeStep with
    | 4 => let s := s.zero .dome 0 0x200000; { s with keep := { s.keep with wipeStep := 5 } }
    | 5 =>
      let s := s.zero .keep 0xF00040 0x1000000
      { s with keep := { s.keep with wipeStep := 6, writes := s.keep.writes + 131064 } }
    | _ =>
      let s := s.keepMake (0, leBytes 8 0)
      { s with keep := { s.keep with wiping := false, wipeDone := true, wipeStep := 0 } }

/-- The time from its cause within which a step of a wipe ends, in ns (R441). -/
def wipeBound (k : Nat) : Nat := if k = 4 then 1000000 else if k = 5 then 5000000 else 5100000

/-- The steps of a wipe whose time has come (R441); `n` bounds their number. -/
def State.wipeDue : Nat → State → State
  | 0, s => s
  | n + 1, s =>
    if s.keep.wiping && decide (s.keep.wipeFrom.toNat + wipeBound s.keep.wipeStep ≤ s.now.toNat) then State.wipeDue n s.wipeNext else s

/-- A whole wipe, or the rest of the one that runs (R443). -/
def State.wipe (s : State) : State := s.wipeBegin.wipeNext.wipeNext.wipeNext

/-- Steps 3 to 6 of the wipe that a power loss interrupted (R442). -/
def State.wipeRest (s : State) : State := (if s.keep.wiping then s else s.wipeKey).wipeNext.wipeNext.wipeNext

/-- One cycle of the Keep controller (R436): the Dome's oldest write, else a running wipe, else the aperture's oldest write; each counts as one word
(R433). -/
def State.keepWork (s : State) : State :=
  if !s.keep.dbuf.isEmpty then s.keepDrain
  else if s.keep.wiping then s.wipeNext
  else s.keepDrain

/-! ### The end of a restart -/

/-- Step 5 of R476 at its time: the Dome runs again and recomputes the expected proof value of every latched Belvedere buffer, also for
the frames that already wait to be compared (R296). -/
def State.domeBack (s : State) : State :=
  if s.dome.st != .restart || s.keep.wiping || decide (s.now.toNat < s.dome.restartEnd.toNat) then s
  else
    let s := { s with dome := { s.dome with st := .run, lastKick := s.now } }
    (idx 8).foldl State.recomputeExpected s

/-! ### Budget periods -/

/-- BUDGET_PERIOD_START of period k: Spire time has reached it (R344). A period that runs already does not start again. -/
def State.periodStart (s : State) (k : Nat) : State :=
  if k ≤ s.period then s
  else
    let s := s.upTo (k * periodNs * 1000)
    if s.period < k then s.newPeriod k else s

end Sys2Proof.Machine
end

