-- ==== Sys2Proof/Machine/Console.lean ====
section
/-!
DEFINITION. The console operations (03, CONSOLE; 14): haptic effects, voices, PCM buffers and reflex bindings, as a
descriptor, a trigger, a reflex or the Dome starts them.
-/
namespace Sys2Proof.Machine
open Sys2Proof

/-! ### Haptic channels -/

/-- A word of an effect in the ROM (14): 0 the header, 1 to 8 the segments. The spec prints no word, so it is a free
value of Config. -/
def effectWord (effect word : Nat) : Nat := (Config.effectRom effect word).toNat

/-- EV_HAPTIC_DONE for the running effect of a channel (R527), in no form where its starter was reset (R542). -/
def State.hapDone (s : State) (h : Fin 16) : State :=
  let c := s.gaz.haps[h.val]
  let ev : Ev := { code := evHapticDone, inst := h.val, time := s.now, detail := c.effect }
  match c.src with
  | .none => s
  | .pav p => s.raise ev [(p, ev)]
  | .trig => s.raise ev [(0, ev)]
  | .dome => s.toDome ev

/-- What a channel does later than a trigger ends that trigger's cycle (R526). -/
def State.hapPast (s : State) (h : Fin 16) : State :=
  { s with arrived := s.arrived.filter fun a => match a with | .hap x _ _ _ => x != h | _ => true }

/-- A channel back in IDLE with LAST_END set: 0 completed, 1 replaced, 2 cut, 3 stopped with brake. -/
def State.hapIdle (s : State) (h : Fin 16) (last : Nat) : State :=
  ((s.hapPast h).hapDone h).modHap h fun c => { c with st := .idle, lastEnd := last, effect := 0, prio := 0, level := 0, stopped := false }

/-- Overdrive half-cycles of an effect on a channel (R520). -/
def odHalves (c : Hap) (effect : Nat) : Nat := min (bits (effectWord effect 0) 1 0) (bits c.drive.toNat 13 12)

/-- DRIVE_FS in per cent; values outside 10 to 50 act as the nearer end. -/
def driveFs (c : Hap) : Nat := max 10 (min 50 (bits c.drive.toNat 6 0))

/-- The crest duty of an amplitude (R520) in 1/20,400,000: DRIVE_FS × AMP / 255 × amplitude / 100, times a gain in
eighths, at most 100 %. -/
def crest (c : Hap) (amp gain8 : Nat) : Int := min (driveFs c * amp * c.amp * gain8) 20400000

/-- Overdrive gain in eighths (R520). -/
def odGain (c : Hap) (effect : Nat) : Nat := 8 + min (bits (effectWord effect 0) 7 4) (min 8 (bits c.drive.toNat 11 8))

/-- The crest duty a channel drives at now: overdrive at the first segment's amplitude, a segment's amplitude or its ramp
from the previous one (R520, R521), braking at DRIVE_FS in anti-phase (R522). -/
def hapLevel (c : Hap) : Int :=
  let sg (v : Int) : Int := if c.neg then -v else v
  let seg (k : Nat) : Nat := effectWord c.effect (k + 1)
  match c.st with
  | .idle => 0
  | .overdrive => sg (crest c (bits (seg 0) 7 0) (odGain c c.effect))
  | .brake => sg (-(min (driveFs c * 255 * 100 * 8) 20400000 : Nat))
  | .drive =>
    let a := bits (seg c.seg) 7 0
    let prev := if c.seg = 0 then 0 else bits (seg (c.seg - 1)) 7 0
    let n := 2 * max 1 (bits (seg c.seg) 15 8)
    let amp : Int := if bit (seg c.seg) 16 then (prev : Int) + ((a : Int) - prev) * c.halves / n else a
    sg (crest c amp.toNat 8)

/-- The duties of a half-cycle of `us` microseconds in 1/1,024, a sine up to its crest duty (R518): one for each PWM period of 16 µs, taken at the
period's middle and rounded to the nearest step (DESIGN CHOICE, log 53). -/
def hapDuties (crest us : Nat) : List Nat :=
  (List.range (cdiv us 16)).map fun k =>
    (roundDiv ((crest * 1024 : Nat) * max 0 (sinFix (piFix * (16 * k + 8 : Nat) / us))) (20400000 * 2 ^ 320)).toNat

/-- The drive of a channel sent to its bridge: a positive half-cycle modulates HAPn_A with HAPn_B low, a negative one the reverse (R518). Of the
40 µs sense window around a zero crossing 20 µs lie on each side of it (R519; DESIGN CHOICE, log 53). -/
def State.hapDrive (s : State) (h : Fin 16) : State :=
  let v := hapLevel s.gaz.haps[h.val]
  let c := s.gaz.haps[h.val]
  let us := if c.nom || c.halfUs == 0 then 500000 / max 1 (bits c.cfg.toNat 8 0) else c.halfUs
  let pin (on : Bool) : List Nat := if on then hapDuties v.natAbs us else []
  (s.modHap h fun c => { c with level := v }).emit
    (if c.st == .idle then .haptic h 0 0 [] [] else .haptic h us 20 (pin (decide (0 < v))) (pin (decide (v < 0))))

/-- The rank of a trigger among those of one cycle and priority (R526): a pin, a reflex, a descriptor. -/
def hapRank (src : HapSrc) (reflex : Bool) : Nat := if src == .trig then 0 else if reflex then 1 else 2

/-- The other trigger that a channel has taken in this cycle, as its priority and rank (R526). One source's descriptors begin in cycles of their
own (R103). -/
def State.hapRival (s : State) (h : Fin 16) (rank : Nat) (src : HapSrc) : Option (Nat × Nat) :=
  s.arrived.findSome? fun a => match a with
    | .hap x p r f => if x == h && !(r == 2 && rank == 2 && f == src) then some (p, r) else none
    | _ => none

/-- A trigger on a channel (R524 to R526): accepted when IDLE or when its priority is at least the running effect's, else counted as ignored.
Of triggers in one cycle the highest priority applies, among equals a pin before a reflex before a descriptor; the others count as ignored.
Of two that are equal in both, the one registered first applies (DESIGN CHOICE, log 53). -/
def State.hapTrigger (s : State) (h : Fin 16) (src : HapSrc) (effect prio amp : Nat) (reflex : Bool) : State :=
  let c := s.gaz.haps[h.val]
  let rank := hapRank src reflex
  let rival := s.hapRival h rank src
  let loses := match rival with | some (p, r) => decide (prio < p) || (prio == p && decide (r ≤ rank)) | none => false
  let ignore (s : State) : State := s.modHap h fun c => { c with ignored := satInc c.ignored }
  if loses || (rival.isNone && c.st != .idle && decide (prio < c.prio)) then ignore s
  else
    let s := if rival.isSome then ignore (s.hapPast h) else if c.st == .idle then s else s.hapIdle h 1
    let s := (s.arrive (.hap h prio rank src)).modHap h fun x =>
      { x with st := if odHalves x effect = 0 then .drive else .overdrive, effect, prio, amp, src, seg := 0, halves := 0, brakes := 0, stopped := false
               neg := if c.st == .idle then false else c.neg }
    s.hapDrive h

/-- A stop of a channel: braked, or cut (R523). -/
def State.hapStop (s : State) (h : Fin 16) (brake : Bool) : State :=
  let c := s.gaz.haps[h.val]
  if c.st == .idle then s
  else if brake then ((s.hapPast h).modHap h fun c => { c with st := .brake, stopped := true, brakes := if c.st == .brake then c.brakes else 0 }).hapDrive h
  else (s.hapIdle h 2).hapDrive h

/-! ### Voices and streams -/

/-- ATTACK_MS and RELEASE_MS of a voice's register: values above 1,000 act as 1,000. -/
def envMs (w : Word) (hi lo : Nat) : Nat := min 1000 (bits w.toNat hi lo)

/-- A voice started (R533, R534). -/
def State.voiceStart (s : State) (v : Fin 16) (p : Fin 64) (wave f0 f1 dur level aud slot : Nat) : State :=
  s.modVoice v fun x =>
    { x with phase := .attack, pav := p, wave, f0, f1, durMs := dur, level, aud, slot, acc := 0, n := 0, rel := 0
             attack := envMs x.env 9 0, release := envMs x.env 25 16 }

/-- The envelope of a sounding voice before its release, as a fraction (R533). -/
def envNow (v : Voice) : Nat × Nat := if v.attack = 0 ∨ v.attack * 48 ≤ v.n then (1, 1) else (v.n, v.attack * 48)

/-- A voice's release begins, from the level reached (R533, R534); a VOICE_START before it was in an earlier cycle. -/
def State.voiceRelease (s : State) (v : Fin 16) : State :=
  State.modVoice { s with arrived := s.arrived.filter fun a => match a with | .voice x _ => x != v | _ => true } v fun x =>
    match x.phase with
    | .idle | .release => x
    | _ => { x with phase := if x.release = 0 then .idle else .release, rel := 0, relNum := (envNow x).1, relDen := (envNow x).2 }

/-- A stream index. -/
def f8s (d : Desc) : Fin 8 := f8 (dU d 9 1)

/-- Whether a control or channel of a CONSOLE operation is kept from the caller: the secure world may use what it holds,
the normal world what nobody holds or hands over (R468, R472). -/
def State.keptOff (s : State) (secure : Bool) (b : Nat) : Bool := if secure then !s.isHeld b || s.dome.ho.any (fun h => h.block == b) else s.heldFromNormal b

/-- Steps 6 and 7 of R99 for CONSOLE (R529, R532, R535, R536, R541); the Dome may name only blocks it holds, the AUD output of a voice among them
(R460). Voice 15 sounds where BELF_V15_ROUTE says, so the Dome's byte 19 names no output for it (DEDUCED, log 53). -/
def State.consoleChecks (s : State) (p : Fin 64) (d : Desc) (secure : Bool) : List (Bool × Nat × Nat) :=
  let u (k : Nat) : Nat := dU d k 1
  let above (k n : Nat) : Bool × Nat × Nat := badF k (decide (n < u k))
  let held (b : Nat) : Bool × Nat × Nat := badSt stSecureHeld (s.keptOff secure b)
  match u 8 with
  | 0 => [above 9 15, above 10 128, above 11 7, badF 12 (u 12 == 0 || decide (100 < u 12)), held (0x10 + u 9)]
  | 1 => [above 9 15, held (0x10 + u 9)]
  | 2 =>
    let f0 := dU d 12 2
    let f1 := dU d 14 2
    [above 9 15, above 10 2, badF 12 (decide (f0 < 20) || decide (20000 < f0)), badF 16 (dU d 16 2 == 0),
     badF 14 (u 10 == 2 && (decide (f1 < 20) || decide (20000 < f1))),
     held (0x40 + u 9), badSt stSecureHeld (s.keptOff secure (0x50 + dBits d 19 1 0 0) && !(secure && u 9 == 15))]
  | 3 => [above 9 15, held (0x40 + u 9)]
  | 4 => [above 9 7, badF 16 (dU d 16 8 % 64 != 0), badF 24 (dU d 24 4 % 4 != 0),
          badF 9 (decide (16 ≤ (s.pavs[p.val].pcm[(f8s d).val]).queue.length)), badF 16 (s.xlate p (dU d 16 8) (dU d 24 4)).isNone,
          badSt stSecureHeld (s.keptOff secure (0x50 + dBits d 28 1 0 0))]
  | 5 => [above 9 31, above 10 15, badF 11 (u 11 == 0 || decide (128 < u 11)), above 12 7, held (0x20 + u 9), held (0x10 + u 10)]
  | 6 => [above 9 31, held (0x20 + u 9)]
  | _ => [badF 8 true]

/-- What a CONSOLE operation does; `src` starts an effect, `p` owns a voice, a buffer or a binding. Of two Pavilions' VOICE_STARTs for one
voice in one cycle the higher number's applies (R534). -/
def State.consoleDo (s : State) (p : Fin 64) (src : HapSrc) (d : Desc) : State :=
  let u (k : Nat) : Nat := dU d k 1
  match u 8 with
  | 0 => if u 10 = 0 then s.hapStop (f16 (u 9)) true else s.hapTrigger (f16 (u 9)) src (u 10) (u 11) (u 12) false
  | 1 => s.hapStop (f16 (u 9)) (bit (u 10) 0)
  | 2 =>
    let v := f16 (u 9)
    if s.arrived.any fun a => match a with | .voice x q => x == v && decide (p.val < q.val) | _ => false then s
    else (s.arrive (.voice v p)).voiceStart v p (u 10) (dU d 12 2) (dU d 14 2) (dU d 16 2) (u 18) (dBits d 19 1 0 0) (dBits d 19 1 3 1)
  | 3 => s.voiceRelease (f16 (u 9))
  | 4 =>
    let b : PcmBuf := { addr := (s.xlate p (dU d 16 8) (dU d 24 4)).getD 0, off := dU d 16 8, bytes := dU d 24 4, aud := dBits d 28 1 0 0, slot := dBits d 28 1 3 1 }
    s.modPav p fun v => { v with pcm := upd v.pcm (f8s d) fun q => { q with queue := q.queue ++ [b] } }
  | 5 => s.modCtl (f32 (u 9)) fun c => { c with reflex := some { pav := p, dome := src == .dome, chan := u 10, effect := u 11, prio := u 12 } }
  | 6 => s.modCtl (f32 (u 9)) fun c => { c with reflex := none }
  | _ => s

/-- CONSOLE as it begins. -/
def State.beginConsole (s : State) (w : Waiting) : State :=
  s.judge w (s.consoleChecks w.d.pav w.d false) fun s => s.consoleDo w.d.pav (.pav w.d.pav) w.d

end Sys2Proof.Machine
end

