-- ==== Sys2Proof/Machine/Flags.lean ====
section
/-!
DEFINITION. The status the device computes from its state: WALL_OK (R596), the PVALID pins, and the boot stage that follows WALL_OK.
-/
namespace Sys2Proof.Machine
open Sys2Proof

/-- Whether every declared link is UP. -/
def State.linksUp (s : State) : Bool :=
  match s.spire.image with | none => true | some i => i.pairings.all fun q => (s.spire.links[(f12 q.link).val]).st == .up

/-- The third condition of R596: Spire time is corrected; a master needs its links UP instead, and its own clock (R554). -/
def State.timeGood (s : State) : Bool :=
  if s.spire.master then s.linksUp && !s.clk.onRco else !s.spire.holdover && s.spire.settled

/-- WALL_OK (R580, R595, R596). -/
def State.wallOk (s : State) : Bool :=
  s.pwr.reset == .running && s.spire.image.isSome && (s.spire.inWall || s.spire.master) && s.timeGood && !s.pwr.xinFail && !s.pwr.dramFail
    && !s.glb.tripped

/-- The PVALID pins (R29, R240, R580). -/
def State.pvalidPins (s : State) : Nat :=
  if s.pwr.reset == .running then ((List.range 8).filter fun n => (s.outs[(f8 n).val]).pvalid).foldl (fun v n => v + 2 ^ n) 0 else 0

/-- Step 12 of the boot (R584, R586): READY once WALL_OK rises; the time it took is not stated (log 6). -/
def State.noteReady (s : State) : State :=
  if s.pwr.stage = 10 && s.wallOk then
    let (v, s) := s.free
    { s with pwr := { s.pwr with stage := 11, bootUs := w32 (v.toNat % 2 ^ 32) } }
  else s

end Sys2Proof.Machine
end

