-- ==== Sys2Proof/Machine/Jobs.lean ====
section
/-!
DEFINITION. COPY and CHECK: their checks, their jobs on the check-value channels, and how a job ends (03, 09, 13).
-/
namespace Sys2Proof.Machine
open Sys2Proof

/-- The channel of a COPY or CHECK and its mode, if it uses one (R495). -/
def jobChan (op : Nat) (d : Desc) : Option (Fin 16 × CheckMode) :=
  if op = 0x08 then
    if d.flags.getLsbD 2 then some (f16 (dBits d 28 1 3 0), .append)
    else if d.flags.getLsbD 3 then some (f16 (dBits d 28 1 3 0), .verify) else none
  else if op = 0x09 then
    some (f16 (dBits d 20 1 3 0), match dBits d 21 1 1 0 with | 0 => .report | 1 => .append | _ => .verify)
  else none

/-- Bytes a 2-D or linear side spans. -/
def span (len rows pitch : Nat) : Nat := if rows = 0 then len else (rows - 1) * pitch + len

/-- The device address of one side of a COPY: translated unless it is a host address. -/
def State.side (s : State) (p : Fin 64) (host : Bool) (a n : Nat) : Option Nat := if host then some a else s.xlate p a n

/-- Steps 6 and 7 of R99 for COPY (R489, R499). -/
def State.copyChecks (s : State) (p : Fin 64) (d : Desc) : List (Bool × Nat × Nat) :=
  let fl (k : Nat) : Bool := d.flags.getLsbD k
  let len := dU d 24 4
  let rows := dU d 40 4
  let ch := f16 (dBits d 28 1 3 0)
  let k := crcBytes s.cvus[ch.val].crc
  let srcN := span len rows (dU d 32 4) + (if fl 3 then k else 0)
  let dstN := span len rows (dU d 36 4) + (if fl 2 then k else 0)
  [ badF 24 (len == 0 || decide (2 ^ 30 < len)),
    badF 1 ((fl 0 && fl 1) || (fl 2 && fl 3)),
    badF 8 (s.side p (fl 0) (dU d 8 8) srcN).isNone,
    badF 16 (s.side p (fl 1) (dU d 16 8) dstN).isNone,
    badF 24 ((fl 2 || fl 3) && decide (4096 < len)),
    badF 28 (!(fl 2 || fl 3) && dBits d 28 1 3 0 != 0),
    badF 40 ((fl 2 || fl 3) && rows != 0),
    badF 46 (fl 4 && dU d 46 2 == 0),
    badF 48 (!fl 4 && dU d 48 8 != 0),
    badSt stSecureHeld ((fl 2 || fl 3) && s.heldFromNormal ch.val) ]

/-- Steps 6 and 7 of R99 for CHECK (R488, R489, R499). -/
def State.checkChecks (s : State) (p : Fin 64) (d : Desc) : List (Bool × Nat × Nat) :=
  let len := dU d 16 4
  let mode := dBits d 21 1 1 0
  let ch := f16 (dBits d 20 1 3 0)
  [ badF 16 (len == 0 || decide (134217728 < len)),
    badF 21 (mode == 3),
    badF 8 (s.xlate p (dU d 8 8) (len + (if mode = 0 then 0 else crcBytes s.cvus[ch.val].crc))).isNone,
    badF 16 (mode != 0 && decide (4096 < len)),
    badSt stSecureHeld (s.heldFromNormal ch.val) ]

/-- The job a COPY begins (R487). -/
def State.copyJob (s : State) (w : Waiting) : Job :=
  let d := w.d
  let fl (k : Nat) : Bool := d.flags.getLsbD k
  let len := dU d 24 4
  let rows := dU d 40 4
  { pav := d.pav, sq := d.sq, seq := d.seq, op := w.op, deferred := w.deferred, waiting := true, fenceCell := dU d 44 1
    fenceVal := if fl 4 then w64 (dU d 48 8) else 0, srcHost := fl 0, dstHost := fl 1
    src := (s.side d.pav (fl 0) (dU d 8 8) (span len rows (dU d 32 4))).getD 0
    dst := (s.side d.pav (fl 1) (dU d 16 8) (span len rows (dU d 36 4))).getD 0
    len, rows, srcPitch := dU d 32 4, dstPitch := dU d 36 4
    chan := (jobChan w.op.toNat d).map fun c => (c.1, c.2, s.cvus[c.1.val].crc)
    reg := match jobChan w.op.toNat d with | some c => crcStart s.cvus[c.1.val].crc | none => 0 }

/-- The master of a job's accesses (11): the host port for a COPY with a host side, else FABRIC. -/
def jobMaster (j : Job) : Nat := if j.srcHost || j.dstHost then masterP j.pav else 1

/-- Bytes of a job's check value in memory (R485). -/
def Job.k (j : Job) : Nat := match j.chan with | some (_, _, c) => crcBytes c | none => 0

/-- Bytes of data a job moves, row by row. -/
def Job.total (j : Job) : Nat := max 1 j.rows * j.len

/-- Bytes a job takes from its source: its data, and the received check value of a verification (R489). -/
def Job.take (j : Job) : Nat := j.total + (match j.chan with | some (_, .verify, c) => crcBytes c | _ => 0)

/-- Requests a COPY makes of host memory (R489). -/
def State.hostReads (s : State) (j : Job) : State :=
  if j.srcHost then (List.range (max 1 j.rows)).foldl (fun s i =>
    s.emit (.hostRead j.pav (j.src + i * j.srcPitch) (j.len + (j.take - j.total)))) s
  else s

/-- COPY as it begins: host memory is read once nothing holds the transfer (R96). -/
def State.beginCopy (s : State) (w : Waiting) : State :=
  match firstBad (s.copyChecks w.d.pav w.d) with
  | some b => s.refuse w b
  | none => { s with jobs := s.jobs ++ [s.copyJob w] }

/-- CHECK as it begins. -/
def State.beginCheck (s : State) (w : Waiting) : State :=
  match firstBad (s.checkChecks w.d.pav w.d) with
  | some b => s.refuse w b
  | none =>
    let a := (s.xlate w.d.pav (dU w.d 8 8) (dU w.d 16 4)).getD 0
    let j : Job := { pav := w.d.pav, sq := w.d.sq, seq := w.d.seq, op := w.op, deferred := w.deferred, src := a, dst := a + dU w.d 16 4, len := dU w.d 16 4
                     reg := match jobChan w.op.toNat w.d with | some c => crcStart s.cvus[c.1.val].crc | none => 0
                     chan := (jobChan w.op.toNat w.d).map fun c => (c.1, c.2, s.cvus[c.1.val].crc) }
    { s with jobs := s.jobs ++ [j] }

/-- Whether a job is the one a command names. -/
def Job.is (j : Job) (op : Nat) (p : Fin 64) (sq : Fin 8) (seq : BitVec 16) : Bool :=
  j.op.toNat == op && j.pav == p && j.sq == sq && j.seq == seq

/-- The running COPY (0x08) or CHECK (0x09) that a command names. -/
def State.findJob (s : State) (op : Nat) (p : Fin 64) (sq : Fin 8) (seq : BitVec 16) : Option Job := s.jobs.find? fun j => j.is op p sq seq

/-- A job removed and its descriptor completed. -/
def State.endJob (s : State) (j : Job) (status result : Nat) : State :=
  let s := { s with jobs := s.jobs.erase j }
  if status = stOk then s.completeOk j.pav j.sq j.seq j.op j.deferred false false result
  else s.complete j.pav j.sq j.seq j.op status j.deferred false false 0xFF result

/-- Whether a COPY still waits for its fence (R96). -/
def State.fenceWaits (s : State) (j : Job) : Bool :=
  j.waiting && decide (s.pavs[j.pav.val].fences[(f256 j.fenceCell).val].toNat < j.fenceVal.toNat)

/-- COPY_FENCE_TIMEOUT (R96). -/
def State.copyTimeout (s : State) (p : Fin 64) (sq : Fin 8) (seq : BitVec 16) : State :=
  match s.findJob 0x08 p sq seq with
  | some j => if s.fenceWaits j then s.endJob j stFenceTimeout 0 else s
  | none => s

/-- Bytes rounded up to the 64-byte unit of a charge (R346). -/
def up64 (n : Nat) : Nat := cdiv n 64 * 64

/-- What a quota leaves in this period; none for no limit. -/
def quotaRoom (v : Pav) (k : Fin 4) : Option Nat :=
  if v.limits[k.val] = BitVec.allOnes 64 then none else some (v.limits[k.val].toNat - v.used[k.val])

/-- Up to `n` bytes as a job's quotas let them move (R346, R348): all of them, or less at a 64-byte boundary. -/
def quotaPart (v : Pav) (kinds : List (Fin 4)) (n : Nat) : Nat :=
  let room := (kinds.filterMap fun k => quotaRoom v k).foldl min (up64 n)
  if up64 n ≤ room then n else room / 64 * 64

/-- The bytes of a job's source from a position on, cut at the rows of a 2-D copy: device or host address and length. -/
def rowCuts : Nat → Nat → Nat → Nat → Nat → Nat → List (Nat × Nat)
  | 0, _, _, _, _, _ => []
  | f + 1, base, pitch, len, pos, n =>
    if n = 0 then []
    else if len = 0 ∨ pitch = 0 then [(base + pos, n)]
    else
      let m := min n (len - pos % len)
      (base + pos / len * pitch + pos % len, m) :: rowCuts f base pitch len (pos + m) (n - m)

/-- The regulator port of a job's accesses (R362, R497): the Pavilion's, or FABRIC's on a channel that the secure world holds. -/
def State.jobPort (s : State) (j : Job) : Fin 83 :=
  match j.chan with
  | some (c, _) => if s.dome.held.getLsbD c.val then 82 else portP j.pav
  | none => portP j.pav

/-- The source bytes [pos, pos + n) of a job: what the host returned, or what the memory holds; none where a read fails (R404, R419, R492). -/
def State.jobRead (s : State) (j : Job) (pos n : Nat) : State × Option (List Byte) :=
  if j.srcHost then
    let l := (((j.fin.getD ([], false)).1.drop pos).take n)
    (s, some (l ++ List.replicate (n - l.length) 0))
  else
    let cuts := rowCuts (n + 1) j.src (if j.rows = 0 then 0 else j.srcPitch) j.len pos n
    cuts.foldl (fun (s, acc) c =>
      let (s, d) := s.memRead (jobMaster j) false (s.jobPort j) (some j.pav) c.1 c.2
      (s, match acc, d with | some l, some m => some (l ++ m) | _, _ => none)) ((s, some []) : State × Option (List Byte))

/-- Bytes of a job written to its destination from a position on. -/
def State.jobWrite (s : State) (j : Job) (pos : Nat) (l : List Byte) : State :=
  let cuts := rowCuts (l.length + 1) j.dst (if j.rows = 0 then 0 else j.dstPitch) j.len pos l.length
  (cuts.foldl (fun (q : State × List Byte) c =>
    (if j.dstHost then q.1.emit (.hostWrite j.pav c.1 (q.2.take c.2))
     else q.1.memWrite (jobMaster j) false (q.1.jobPort j) c.1 (q.2.take c.2), q.2.drop c.2)) (s, l)).1

/-- The bytes a job still has to move in its present part, and the quotas they are charged to (R346): the bytes a channel takes, then
those it writes; without a channel both at once. -/
def Job.rest (j : Job) : Nat × List (Fin 4) :=
  match j.chan with
  | none => (j.take - j.moved, if j.srcHost || j.dstHost then [1] else [])
  | some _ =>
    if j.moved < j.take then (j.take - j.moved, 2 :: if j.srcHost then [1] else [])
    else (j.take + j.buf.length - j.moved, if j.dstHost then [1] else [])

/-- Whether a job has nothing more to move. -/
def Job.finished (j : Job) : Bool := j.bad || j.rest.1 == 0

/-- The computed value of a job that completes (CVU_LAST_RES). -/
def State.noteChan (s : State) (j : Job) : State :=
  match j.chan with
  | some (c, _, crc) => if j.bad then s else s.modCvu c fun x => { x with lastRes := w64 (crcFinish crc j.reg) }
  | none => s

/-- A verification: the received value recorded, and whether it matches (R491). -/
def State.verify (s : State) (c : Fin 16) (crc : Crc) (v : Nat) (stored : List Byte) : State × Bool :=
  let ok := crcMatch crc v stored
  (s.modCvu c fun x => { x with lastRx := w64 (ofLe stored % 2 ^ crc.width), failCount := if ok then x.failCount else satInc x.failCount }, ok)

/-- A channel that has taken all of a job's bytes (R490, R491): the comparison, and what the job then writes. -/
def State.chanTaken (s : State) (j : Job) : State × Job :=
  match j.chan with
  | none => (s, j)
  | some (c, mode, crc) =>
    let v := crcFinish crc j.reg
    match mode with
    | .report => (s, { j with good := true, buf := [] })
    | .append => (s, { j with good := true, buf := (if j.op = 0x08 then j.buf else []) ++ leBytes (crcBytes crc) v })
    | .verify =>
      let (s, good) := s.verify c crc v (j.buf.drop j.len)
      (s, { j with good, buf := if good && j.op = 0x08 then j.buf.take j.len else [] })

/-- The part of a job's bytes [pos, pos + n) that its channel computes over: its data, not a received check value (R488). -/
def dataPart (j : Job) (l : List Byte) : List Byte := l.take (j.total - j.moved)

/-- `n` bytes of a job moved (R371): from its source into the channel or to its destination, or from the job buffer on. -/
def State.moveBytes (s : State) (j : Job) (n : Nat) : State × Job :=
  match j.chan with
  | none =>
    let (s, d) := s.jobRead j j.moved n
    match d with
    | none => (s, { j with bad := true })
    | some l => (s.jobWrite j j.moved l, { j with moved := j.moved + n })
  | some (c, mode, crc) =>
    if j.moved < j.take then
      let (s, d) := s.jobRead j j.moved n
      match d with
      | none => (s, { j with bad := true })
      | some l =>
        let s := s.modCvu c fun x => { x with bytes := x.bytes + BitVec.ofNat 48 n }
        let j := { j with
          reg := (dataPart j l).foldl (crcByte crc) j.reg, buf := if mode = .report then [] else j.buf ++ l, moved := j.moved + n }
        if j.moved < j.take then (s, j) else s.chanTaken j
    else
      let pos := j.moved - j.take
      (s.jobWrite j pos ((j.buf.drop pos).take n), { j with moved := j.moved + n })

/-- STATUS and RESULT of a job that has ended (R491 to R493). -/
def Job.outcome (j : Job) : Nat × Nat :=
  if j.bad then (stDeviceAbort, 0)
  else match j.chan with
    | none => (stOk, j.total)
    | some (_, .report, c) => (stOk, crcFinish c j.reg)
    | some (_, .append, _) => (stOk, if j.op = 0x08 then j.buf.length else 0)
    | some (_, .verify, _) => if j.good then (stOk, if j.op = 0x08 then j.len else 0) else (stCheckFail, 0)

/-- A job put back after a turn: completed once its bytes have moved and the end of its transfer has come. -/
def State.putJob (s : State) (old new : Job) : State :=
  if new.finished && new.fin.isSome then
    let s := { s with jobs := s.jobs.map fun x => if x = old then new else x }
    (s.noteChan new).endJob new new.outcome.1 new.outcome.2
  else { s with jobs := s.jobs.map fun x => if x = old then new else x }

/-- A job paused by a quota: it stands last among the jobs, so that paused jobs are in the order in which they paused (R348, R350). -/
def State.pauseJob (s : State) (old new : Job) : State :=
  { s with jobs := s.jobs.filter (fun x => x != old) ++ [{ new with paused := true, deferred := true }] }

/-- Whether a job needs the end of its transfer to go on: a channel settles its result, and writes, only once no read can fail any more
(R490, R492). -/
def Job.needsEnd (j : Job) : Bool := j.srcHost || (j.chan.isSome && (decide (j.take ≤ j.moved) || decide (j.rest.1 ≤ 4096)))

/-- The tokens that a job's next turn takes: for what it reads of the DRAM and for what it writes there (R364, R407). -/
def State.turnSize (s : State) (j : Job) : Nat :=
  let n := min 4096 j.rest.1
  let side (a : Nat) : Nat := if inDram a then s.dramSize (a - 0x1000000000) n else 0
  let reads := j.chan.isNone || decide (j.moved < j.take)
  (if reads && !j.srcHost then side j.src else 0) + (if (j.chan.isNone || !reads) && !j.dstHost then side j.dst else 0)

/-- Whether the regulator port of a job passes its next turn (R364, R366). -/
def State.jobAdmits (s : State) (j : Job) : Bool :=
  let b := s.bports[(s.jobPort j).val]
  s.turnSize j == 0 || b.passes (s.turnSize j) || b.borrows

/-- Whether a job can take a turn: its fence is satisfied, no quota holds it, its bytes are at hand and its regulator port passes
them (R364, R371). -/
def State.jobReady (s : State) (j : Job) : Bool :=
  !j.waiting && !j.paused && !j.finished && (!j.needsEnd || j.fin.isSome) && s.jobAdmits j

/-- One turn of at most 4,096 bytes (R371): the job moves what its quotas let it, and pauses where they end (R348). -/
def State.jobTurn (s : State) (j : Job) : State :=
  let n := min 4096 j.rest.1
  let m := quotaPart s.pavs[j.pav.val] j.rest.2 n
  let s := j.rest.2.foldl (fun s k => s.charge j.pav k (up64 m)) s
  let (s, j') := if m = 0 then (s, j) else s.moveBytes j m
  if m < n && !j'.bad then s.pauseJob j j' else s.putJob j j'

/-- The engine that serves a job: its channel (4 on), or the copy engine of its HOST island (R371, R496). A COPY that names a channel takes its turns
there, for its bytes pass through it (DEDUCED, log 44). -/
def Job.engine (j : Job) : Nat := match j.chan with | some (c, _) => 4 + c.val | none => (portOf j.pav).val

/-- The job an engine serves next: of the Pavilions in turn the first that has one ready, its oldest. -/
def State.nextJob (s : State) (e : Nat) : Option Job :=
  let mine := s.jobs.filter fun j => j.engine == e && s.jobReady j
  if e < 4 then
    (List.range 16).findSome? fun i => mine.find? fun j => j.pav.val % 16 == (s.ports[(f4 e).val].copyTurn + i) % 16
  else (List.range 64).findSome? fun i => mine.find? fun j => j.pav.val == (s.cvus[(f16 (e - 4)).val].turn + i) % 64

/-- The turn passes on from a Pavilion. -/
def State.passTurn (s : State) (e : Nat) (p : Fin 64) : State :=
  if e < 4 then s.modPort (f4 e) fun t => { t with copyTurn := (p.val + 1) % 16 } else s.modCvu (f16 (e - 4)) fun c => { c with turn := (p.val + 1) % 64 }

/-- An engine serves turns while a job whose transfer has ended waits for its bytes; `n` bounds the turns. -/
def State.serve : Nat → State → Nat → State
  | 0, s, _ => s
  | n + 1, s, e =>
    if s.jobs.any fun j => j.engine == e && j.fin.isSome && s.jobReady j then
      match s.nextJob e with
      | none => s
      | some j => State.serve n ((s.passTurn e j.pav).jobTurn j) e
    else s

/-- A bound on the turns the jobs can take. -/
def State.turnsLeft (s : State) : Nat := (s.jobs.map fun j => (j.take + j.len + 8) / 4096 + 4).sum

/-- The jobs whose fence is satisfied go on (R96): a COPY from host memory asks for its bytes. -/
def State.releaseJobs (s : State) : State :=
  (s.jobs.filter fun j => j.waiting && !s.fenceWaits j).foldl (fun s j =>
    ({ s with jobs := s.jobs.map fun x => if x = j then { x with waiting := false } else x }).hostReads j) s

/-- Whether a job whose bytes are at hand waits for nothing but the tokens of its regulator port. -/
def State.jobHeld (s : State) (j : Job) : Bool := j.fin.isSome && !j.waiting && !j.paused && !j.finished && !s.jobAdmits j

/-- Every engine serves its jobs; a job that its regulator holds has waited in this period (R364). -/
def State.serveJobs (s : State) : State :=
  if s.jobs.isEmpty then s
  else
    let s := (List.range 20).foldl (fun s e => State.serve s.turnsLeft s e) s.releaseJobs
    (s.jobs.filter s.jobHeld).foldl (fun s j => s.portWaits (s.jobPort j)) s

/-- COPY_TRANSFER_END and CHECK_JOB_END (R348, R371, R490 to R493): the job's bytes are at hand; its engine moves them in turns, as far as
quotas and tokens let it now, and the job completes with the last of them. A transfer that met an error ends with it; one of device memory is noted at
the word where the source begins (R404, R406), for the command names no other. -/
def State.jobEnd (s : State) (op : Nat) (p : Fin 64) (sq : Fin 8) (seq : BitVec 16) (hostData : List Byte) (readError : Bool) : State :=
  match s.findJob op p sq seq with
  | none => s
  | some j =>
    if s.fenceWaits j || j.fin.isSome then s
    else
      let s := s.releaseJobs
      let s := match if readError && !j.srcHost then s.locate j.src else none with
        | some (m, o) => s.noteUe m (wordAt m o).2 (some j.pav)
        | none => s
      let j' := { j with waiting := false, fin := some (hostData, readError), bad := j.bad || readError }
      let s := { s with jobs := s.jobs.map fun x => if x.is op p sq seq then j' else x }
      if j'.finished then s.putJob j' j' else s

end Sys2Proof.Machine
end

