-- ==== Sys2Proof/Machine/Begin.lean ====
section
/-!
DEFINITION. The begins of descriptors (03, "Ordering"; 09): a fetched descriptor joins its Pavilion's order of begins, and the
device begins every descriptor that may begin.
-/
namespace Sys2Proof.Machine
open Sys2Proof

/-- What a descriptor that has passed steps 1 to 4 of R99 does as it begins, by opcode (03, Opcodes). -/
def State.beginOp (s : State) (w : Waiting) : State :=
  match w.op.toNat with
  | 0x01 => s.finish w (dU w.d 8 8)
  | 0x02 => s.beginLayerSet w
  | 0x03 => s.beginBufAttach w
  | 0x04 => s.beginReaffirm w
  | 0x05 => s.beginCommit w
  | 0x06 => s.beginFenceSignal w
  | 0x07 => s.beginWriteback w
  | 0x08 => s.beginCopy w
  | 0x09 => s.beginCheck w
  | 0x0A => s.beginEventArm w
  | 0x0B => s.beginConsole w
  | 0x0C => s.finish w s.now.toNat
  | 0x0D => s.beginExport w
  | 0x0E => s.finish w (s.viewResult w.d.pav (dView w.d))
  | 0x20 => s.beginViewportMap w
  | 0x21 => s.beginLease w
  | 0x22 => s.beginBudgetSet w
  | 0x23 => s.beginOutputMode w
  | 0x24 => s.beginWallCfg w
  | _ => s.refuse w (stBadOpcode, 0xFF, 0)

/-- A begin takes its Pavilion's turn (R370) and is charged as one execution (R346). -/
def State.takeTurn (s : State) (p : Fin 64) : State :=
  (s.charge p 0 1).modPort (portOf p) fun t => { t with beginTurn := (p.val + 1) % 16 }

/-- A descriptor begins: it takes its turn, then it is judged (R99) and does its work. -/
def State.begin1 (s : State) (w : Waiting) : State :=
  let s := s.takeTurn w.d.pav
  match s.commonChecks w.op.toNat w.d with
  | some b => s.refuse w b
  | none => s.beginOp w

/-- The descriptors of a ring that wait to begin. -/
def waitingOn (l : List Waiting) (q : Fin 8) : Nat := (l.filter fun w => w.d.sq == q).length

/-- Whether a BARRIER holds a descriptor: an earlier one of its ring has begun and not completed (03, common header). -/
def barrierHolds (v : Pav) (w : Waiting) : Bool :=
  w.d.flags.getLsbD 7 && decide (waitingOn v.order w.d.sq < (v.sqs[w.d.sq.val]).live)

/-- Whether a COPY or CHECK waits for its Pavilion's job context on its channel (R495). -/
def State.contextHolds (s : State) (w : Waiting) : Bool :=
  match jobChan w.op.toNat w.d with
  | none => false
  | some (c, _) => s.jobs.any fun j => j.pav == w.d.pav && (match j.chan with | some (x, _) => x == c | none => false)

/-- Whether a BAR2 write that its host port received before the doorbell still waits (R57). -/
def State.bellHolds (s : State) (w : Waiting) : Bool :=
  (s.ports[(portOf w.d.pav).val]).posted.any fun y => decide (y.1 < w.after) && (match y.2 with | .write .. => true | _ => false)

/-- The descriptor of a Pavilion's order that begins next (R670): rings held by a BARRIER are passed over, a busy job context and a BAR2 write that
goes before hold everything. -/
def State.pick (s : State) (v : Pav) : List Waiting → List (Fin 8) → Option Waiting
  | [], _ => none
  | w :: rest, held =>
    if held.contains w.d.sq then s.pick v rest held
    else if barrierHolds v w then s.pick v rest (w.d.sq :: held)
    else if s.contextHolds w || s.bellHolds w then none
    else some w

/-- What a Pavilion may begin: nothing while its descriptor quota is used up (R347) or it is in reset (R88). -/
def State.nextBegin (s : State) (p : Fin 64) : Option Waiting :=
  let v := s.pavs[p.val]
  if !v.present || !v.ready || quotaUp v 0 then none else s.pick v v.order []

/-- The Pavilions of a host port in the order of their turns (R370). -/
def turns (n : Fin 4) (t : Nat) : List (Fin 64) := (List.range 16).map fun i => fp (n.val * 16 + (t + i) % 16)

/-- One begin: of a host port's Pavilions the first in turn that may begin a descriptor (R370); the ports in ascending order (log 8). -/
def State.beginNext (s : State) : Option State :=
  match (idx 4).findSome? fun n => (turns n (s.ports[n.val]).beginTurn).findSome? s.nextBegin with
  | none => none
  | some w => some ((s.modPav w.d.pav fun v => { v with order := v.order.erase w }).begin1 w)

/-- Begins until no descriptor may begin; `n` bounds their number. -/
def State.begins : Nat → State → State
  | 0, s => s
  | n + 1, s => match s.beginNext with
    | none => s
    | some t => t.begins n

/-- Descriptors held under R347 are marked: their completions carry DEFERRED (R350). -/
def markHeld (v : Pav) : Pav := if quotaUp v 0 then { v with order := v.order.map fun w => { w with deferred := true } } else v

/-- Whether no Pavilion has a descriptor waiting to begin. -/
def State.quiet (s : State) : Bool := s.pavs.toList.all fun v => v.order.isEmpty

/-- Every descriptor that may begin has begun (R103, R347, R495, R670). -/
def State.settle (s : State) : State :=
  if s.quiet then s
  else
    let t := s.begins (s.pavs.toList.map fun v => v.order.length).sum
    { t with pavs := t.pavs.map markHeld }

/-- A fetched descriptor joins its Pavilion's order of begins (R65, R670); a Pavilion in reset has none (R88). -/
def State.join (s : State) (op : BitVec 8) (d : Desc) : State :=
  let v := s.pavs[d.pav.val]
  if !v.present || !v.ready then s
  else (s.modSq d.pav d.sq fun q => { q with live := q.live + 1 }).modPav d.pav fun v => { v with order := v.order ++ [{ op, d, after := (s.pavs[d.pav.val].sqs[d.sq.val]).bell }] }

/-! ### BAR2 accesses that a host port has taken -/

/-- The pieces of a BAR2 access: device address, first byte and length of each part within one extent (R53). -/
def pieces : List Ext → Nat → Nat → Nat → List (Nat × Nat × Nat)
  | [], _, _, _ => []
  | e :: rest, start, off, len =>
    let a := max start off
    let b := min (start + e.len) (off + len)
    (if a < b then [(e.base + (a - start), a - off, b - a)] else []) ++ pieces rest (start + e.len) off len

/-- The Pavilion of an access. -/
def HostOp.pav : HostOp → Fin 64
  | .write p _ _ _ => p
  | .read p _ _ _ => p
  | .fence p _ _ => p

/-- Whether an access is a BAR2 write. -/
def HostOp.isWrite : HostOp → Bool
  | .write .. => true
  | _ => false

/-- The bytes of DRAM a BAR2 access reaches: the first address in the DRAM and their number. -/
def State.hostDram (s : State) : HostOp → Nat × Nat
  | .write _ a l _ => (a - 0x1000000000, if inDram a then l.length else 0)
  | .read p off len _ =>
    let ps := (pieces s.pavs[p.val].exts 0 off len).filter fun q => inDram q.1
    ((ps.map fun q => q.1 - 0x1000000000).headD 0, (ps.map fun q => q.2.2).sum)
  | .fence .. => (0, 0)

/-- A BAR2 read made (R53, R404): all its data, or poisoned data. -/
def State.hostRead (s : State) (p : Fin 64) (off len : Nat) : State :=
  let (s, r) := (pieces s.pavs[p.val].exts 0 off len).foldl (fun (s, acc) q =>
    let (s, d) := s.memReadOk (some len) (portP p) (some p) q.1 q.2.2
    (s, match acc, d with | some l, some m => some (l ++ m) | _, _ => none)) ((s, some []) : State × Option (List Byte))
  match r with
  | some l => s.emit (.readData p l)
  | none => s.emit (.memData false [])

/-- PAV_FENCE_LO_c as it acts (R168, R169): the cell takes its value, and the staged high word follows the cell. -/
def State.fenceLand (s : State) (p : Fin 64) (c : Fin 256) (v : DWord) : State :=
  (s.fenceRegister p c v).modPav p fun q => { q with fenceHi := upd q.fenceHi c fun _ => w32 (bits (q.fences[c.val]).toNat 63 32) }

/-- An access made (R57, R170); one that its region denied as it was registered has no effect (R419, R462). -/
def State.hostOp (s : State) : HostOp → State
  | .write p a l ok => if ok then s.memWriteOk (some l.length) (portP p) a l else s.violationDev a
  | .read p off len ok =>
    if ok then s.hostRead p off len
    else (s.violationDev (((pieces s.pavs[p.val].exts 0 off len).map fun q => q.1).headD 0)).emit (.memData false [])
  | .fence p c v => s.fenceLand p c v

/-- What waits at fabric entry: a request of DRAM, or an access that a host port has taken, with its number. -/
inductive Want where
  | req (x : EntryReq)
  | op (k : Nat) (x : HostOp)
deriving DecidableEq, Repr

/-- The request of a regulator port that waits first: of a Pavilion's port also the oldest access its host port holds for it. -/
def State.wantOf (s : State) (q : Nat) : Option Want :=
  match s.entry.find? fun x => x.req.port.val == q with
  | some x => some (.req x)
  | none =>
    if 16 ≤ q ∧ q < 80 then
      ((s.ports[(portOf (fp (q - 16))).val]).posted.find? fun y => y.2.pav == fp (q - 16)).map fun y => .op y.1 y.2
    else none

/-- The regulator port of what waits. -/
def Want.port : Want → Fin 83
  | .req x => x.req.port
  | .op _ x => portP x.pav

/-- The tokens it takes (R364); Orangery bytes are charged to no port (R414). -/
def State.wantSize (s : State) : Want → Nat
  | .req x => s.dramSize x.req.addr x.req.len
  | .op _ x => let d := s.hostDram x; if d.2 = 0 then 0 else s.dramSize d.1 d.2

/-- Whether order lets it go: a write of a fence cell goes behind every BAR2 write that its host port received before it (R170). -/
def State.wantFree (s : State) : Want → Bool
  | .op k (.fence p _ _) => !(s.ports[(portOf p).val]).posted.any fun y => decide (y.1 < k) && y.2.isWrite
  | _ => true

/-- Whether tokens pass it, or none are asked of it (R364, R365). -/
def State.wantPass (s : State) (w : Want) : Bool :=
  s.wantFree w && (decide (w.port.val < 8) || s.wantSize w == 0 || (s.bports[w.port.val]).passes (s.wantSize w))

/-- What waits first at each port, in the order of the ports' turns (R366). -/
def State.wants (s : State) : List Want := (List.range 83).filterMap fun i => s.wantOf ((s.entryTurn + i) % 83)

/-- What goes next (R366): of the waiting requests that tokens pass the first in turn, else of those that borrow. -/
def State.wantNext (s : State) : Option Want :=
  match s.wants.find? s.wantPass with
  | some w => some w
  | none => s.wants.find? fun w => s.wantFree w && (s.bports[w.port.val]).borrows

/-- Bytes of writes a port has taken (R368). -/
def postedBytes (t : Port) : Nat := (t.posted.map fun y => match y.2 with | .write _ _ l _ => l.length | _ => 0).sum

/-- Whether a port withholds PCIe posted credits (R368): its buffer of 256 KiB is full. Writes beyond it in `Port.posted` are those that the
host holds back meanwhile. -/
def Port.full (t : Port) : Bool := decide (262144 ≤ postedBytes t)

/-- A change of what a port's buffer holds: as it fills up the port withholds posted credits, and gives them again as there is room (R368). -/
def State.creditsBy (s : State) (n : Fin 4) (t : State) : State :=
  let now := (t.ports[n.val]).full
  if now = (s.ports[n.val]).full then t else t.emit (.postedCredits n !now)

/-- One waiting request goes. -/
def State.wantGo (s : State) (w : Want) : State :=
  let s := { s with entryTurn := (w.port.val + 1) % 83 }
  match w with
  | .req x => { s with entry := s.entry.erase x }.dramDo x
  | .op k x => (s.creditsBy (portOf x.pav) (s.modPort (portOf x.pav) fun t => { t with posted := t.posted.filter fun y => y.1 != k })).hostOp x

/-- The requests at fabric entry that may go go, one after another (R366); `n` bounds their number. -/
def State.wantsGo : Nat → State → State
  | 0, s => s
  | n + 1, s => match s.wantNext with
    | none => s
    | some w => State.wantsGo n (s.wantGo w)

/-- How many requests wait at fabric entry. -/
def State.waitingN (s : State) : Nat := s.entry.length + (s.ports.toList.map fun t => t.posted.length).sum

/-- What waits at the fabric's entries and may go goes (R366). -/
def State.fabricGo (s : State) : State := State.wantsGo s.waitingN s

/-- What follows every effect in the same step: a wipe goes on as its times come (R441), a restart of the Dome ends at its time (R476), an ALARM that is due is sent (R647), requests at
fabric entry that may pass pass (R366), descriptors that may begin begin, jobs move what they can (R371), errors a composer met make their frame underrun (R234), and the boot ends with WALL_OK (R584). -/
def State.after (s : State) : State :=
  ((idx 8).foldl State.faultGo (((s.wipeDue 3).domeBack.alarmsGo.fabricGo).settle.serveJobs).settle).noteReady

/-- A command with its effect and what follows from it; while the device is held in reset it has none (R575, R579, R632). -/
def act (f : State → State) (s : State) : Host.Outcome State Fault Refusal :=
  runOk (fun s => if s.pwr.reset == .running then (f s).after else s) s

/-- A command of the AON domain, which acts in a reset too. -/
def actAon (f : State → State) (s : State) : Host.Outcome State Fault Refusal := runOk (fun s => (f s).after) s

/-- A command of a host port's own side: a port answers configuration requests, and its link trains, from the end of a reset on (R42, R585). -/
def actHost (f : State → State) (s : State) : Host.Outcome State Fault Refusal :=
  runOk (fun s => if s.pwr.reset == .running || s.pwr.reset == .warm then (f s).after else s) s

/-- A descriptor with payload byte `k` given a value. -/
def setByte (d : Desc) (k : Nat) (v : Nat) : Desc :=
  { d with payload := BitVec.ofNat 448 (d.payload.toNat - uAt d.payload.toNat (k - 8) 1 * 2 ^ (8 * (k - 8)) + v % 256 * 2 ^ (8 * (k - 8))) }

/-- A descriptor with a flag given a value. -/
def setFlag (d : Desc) (k : Nat) (b : Bool) : Desc := { d with flags := putB d.flags k b }

end Sys2Proof.Machine
end

