-- ==== Sys2Proof/Machine/Rings.lean ====
section
/-!
DEFINITION. Rings and doorbells (02): enables, fetches and their ends, doorbells, moderation and MSI-X masks.
-/
namespace Sys2Proof.Machine
open Sys2Proof

/-! ### Reaching a Pavilion -/

/-- Whether requests of a Pavilion's host reach the device: its port is enabled and its link is up. -/
def State.reach (s : State) (p : Fin 64) : Bool := (s.ports[(portOf p).val]).enabled && (s.ports[(portOf p).val]).linkUp

/-- A memory request of a host to a Pavilion's BAR: Unsupported Request where the Pavilion is absent, in reset, in D3hot or has
Memory Space Enable clear (R45, R88, "When events meet"). A gated HOST island wakes (R27). -/
def State.hostAcc (s : State) (p : Fin 64) (f : State → State) : State :=
  let v := s.pavs[p.val]
  if !s.reach p then s
  else if v.present && v.ready && v.mse && !v.fn.d3 then f (s.wakeIsland (islHost (portOf p).val))
  else s.emit (.ur p)

/-! ### Submission rings -/

/-- Whether a ring's size and base allow it to start (R59 to R61). -/
def ringOk (size : Nat) (base : DWord) (entry : Nat) : Bool :=
  decide (4 ≤ size) && decide (size ≤ 16) && base.toNat % min 4096 (2 ^ size * entry) == 0

/-- An error of a submission ring (SQ_STATUS): ERR, ERR_FLAG and the interrupt on PAV_ERR_VECTOR. -/
def State.sqError (s : State) (p : Fin 64) (q : Fin 8) (e : Nat) : State :=
  (s.modSq p q fun r => { r with err := e, errFlag := true }).errMsi p

/-- A DISABLED ring enabled under R61. -/
def State.sqStart (s : State) (p : Fin 64) (q : Fin 8) : State :=
  let r := s.pavs[p.val].sqs[q.val]
  if ringOk r.size r.base 64 then s.modSq p q fun r => { r with st := .running } else s.sqError p q 1

/-- A write to PAV_SQ_CTL (R61, R62, R671): the fields land in DISABLED only; then ENABLE acts. -/
def State.sqCtl (s : State) (p : Fin 64) (q : Fin 8) (v : Word) : State :=
  let en := v.getLsbD 0
  match (s.pavs[p.val].sqs[q.val]).st with
  | .disabled =>
    let s := s.modSq p q fun r => { r with size := bits v.toNat 8 4, weight := bits v.toNat 14 12 }
    if en then s.sqStart p q else s
  | .draining => s.modSq p q fun r => { r with keep := en }
  | _ => if en then s else s.modSq p q fun r => { r with st := .draining, keep := false }

/-- SQ_DRAIN_DONE (R671): a draining ring with nothing outstanding becomes DISABLED and applies a kept enable. -/
def State.sqDrained (s : State) (p : Fin 64) (q : Fin 8) : State :=
  let r := s.pavs[p.val].sqs[q.val]
  if r.st == .draining && r.fetch.isEmpty && r.live == 0 then
    let s := s.modSq p q fun r => { r with st := .disabled, keep := false }
    if r.keep then s.sqStart p q else s
  else s

/-- The entries a ring's read requests still owe. -/
def Sq.asked (q : Sq) : Nat := (q.fetch.map fun f => f.left + f.got.length).sum

/-- Descriptors of a Pavilion fetched and not completed, the entries being fetched included (R66). -/
def outstanding (v : Pav) : Nat := (v.sqs.toList.map fun q => q.live + q.asked).sum

/-- The entries a ring may fetch now, at most `n` (R66, R69): records held back count as entries of the completion ring. -/
def fetchable (v : Pav) (q : Fin 8) (n : Nat) : Nat :=
  let r := v.sqs[q.val]
  if r.st != .running || !v.present || !v.ready || !v.bme then 0
  else min (min n (r.weight + 1)) (min (gap r.head r.tail - r.asked) (min (256 - outstanding v) (cqFree v.cq - v.cq.held.length - outstanding v)))

/-- The submission rings of a host port, in the order of their turns: Pavilion and ring (R66). -/
def ringTurns (n : Fin 4) (t : Nat) : List (Fin 64 × Fin 8) :=
  (List.range 128).map fun i => (fp (n.val * 16 + (t + i) % 128 / 8), f8 ((t + i) % 128))

/-- The ring of a host port whose turn it is: the first in turn that may fetch an entry (R66). -/
def State.fetcher (s : State) (n : Fin 4) : Option (Fin 64 × Fin 8) :=
  (ringTurns n (s.ports[n.val]).fetchTurn).find? fun r => decide (0 < fetchable s.pavs[r.1.val] r.2 1)

/-- DESCRIPTOR_FETCH (R65, R66): a ring whose turn it is asks for its next consecutive entries, in two parts where they pass the ring's end. -/
def State.fetch (s : State) (p : Fin 64) (q : Fin 8) (n : Nat) : State :=
  let v := s.pavs[p.val]
  let k := fetchable v q n
  let r := v.sqs[q.val]
  if k = 0 || s.inRecovery || s.fetcher (portOf p) != some (p, q) then s
  else
    let size := ringN r.size
    let i := (r.head.toNat + r.asked) % size
    let first := min k (size - i)
    let s := s.modPort (portOf p) fun t => { t with fetchTurn := (p.val % 16 * 8 + q.val + 1) % 128 }
    let s := (s.modSq p q fun r => { r with fetch := r.fetch ++ [{ tag := r.nextTag, left := k }], nextTag := r.nextTag + 1 }).emit
      (.fetchReq p q r.nextTag (r.base.toNat + i * 64) first)
    if first < k then s.emit (.fetchReq p q r.nextTag r.base.toNat (k - first)) else s

/-- The opcode of a ring entry (R20). -/
def entryOp (e : BitVec 512) : BitVec 8 := BitVec.ofNat 8 (uAt e.toNat 0 1)

/-- A ring entry as a descriptor (R20). -/
def entryDesc (p : Fin 64) (q : Fin 8) (e : BitVec 512) : Desc :=
  { pav := p, sq := q, flags := BitVec.ofNat 8 (uAt e.toNat 1 1), seq := BitVec.ofNat 16 (uAt e.toNat 2 2)
    handle := BitVec.ofNat 32 (uAt e.toNat 4 4), payload := BitVec.ofNat 448 (e.toNat >>> 64) }

/-- Entries that came for the read request with a tag, no more than it still owes. -/
def takeData (tag : Nat) (es : List (BitVec 512)) : List FetchReq → List FetchReq
  | [] => []
  | f :: rest => if f.tag = tag then { f with left := f.left - es.length, got := f.got ++ es.take f.left } :: rest else f :: takeData tag es rest

/-- The entries that may be taken in ring order, those of the oldest request first, and the requests left. -/
def drainData : List FetchReq → List (BitVec 512) × List FetchReq
  | [] => ([], [])
  | f :: rest => if f.left = 0 then let (es, l) := drainData rest; (f.got ++ es, l) else (f.got, { f with got := [] } :: rest)

/-- FETCH_DATA_ARRIVAL (R57, R65): data of a request outstanding; HEAD advances past the entries that came in ring order and their
descriptors join the order of begins as their data come: across rings the order of fetching (R670) is the order in which data arrive
(DESIGN CHOICE, log 25). Data of a request that has ended is discarded (R73). -/
def State.fetchData (s : State) (p : Fin 64) (q : Fin 8) (tag : Nat) (entries : List (BitVec 512)) : State :=
  let r := s.pavs[p.val].sqs[q.val]
  if !(r.fetch.any fun f => f.tag == tag) then s
  else
    let (es, l) := drainData (takeData tag entries r.fetch)
    let s := s.modSq p q fun r => { r with head := r.head + BitVec.ofNat 16 es.length, fetch := l }
    es.foldl (fun s e => s.join (entryOp e) (entryDesc p q e)) s

/-- A fetch ended by its timer or by an error (R71, R74): the ring stops, or goes on draining. -/
def State.fetchEnd (s : State) (p : Fin 64) (q : Fin 8) (e : Nat) : State :=
  if (s.pavs[p.val].sqs[q.val]).fetch.isEmpty then s
  else (s.modSq p q fun r => { r with fetch := [], st := if r.st == .running then .stopped else r.st }).sqError p q e

/-- The bit of the AER uncorrectable status that an error of a fetch sets (R74; PRESUMED, log 11: Completion Timeout, Unsupported Request, Completer
Abort). -/
def aerBit : FetchErr → Nat
  | .timeout => 14
  | .unsupported => 20
  | .abort => 15

/-- An error logged through AER (R74), and reported to the port's root. -/
def State.logAer (s : State) (p : Fin 64) (e : FetchErr) : State :=
  (s.modPav p fun v => { v with fn := { v.fn with aer := { v.fn.aer with ue := putB v.fn.aer.ue (aerBit e) true } } }).emit (.aer (portOf p))

/-- FETCH_ERROR (R74), logged through AER. -/
def State.fetchError (s : State) (p : Fin 64) (q : Fin 8) (e : FetchErr) : State :=
  if (s.pavs[p.val].sqs[q.val]).fetch.isEmpty then s else (s.fetchEnd p q 3).logAer p e

/-- A write to a submission ring's doorbell (R57, R67, R70). -/
def State.sqDoorbell (s : State) (p : Fin 64) (q : Fin 8) (tail : BitVec 16) : State :=
  let r := s.pavs[p.val].sqs[q.val]
  if gap r.head tail ≤ ringN r.size then
    s.modSq p q fun r => { r with tail, bell := (s.ports[(portOf p).val]).opNo }
  else s.sqError p q 4

/-! ### Completion and event rings -/

/-- A write to PAV_CQ_DB (R63, R68): entries freed take held records. -/
def State.cqDoorbell (s : State) (p : Fin 64) (head : BitVec 16) : State :=
  let c := s.pavs[p.val].cq
  if gap c.head head ≤ gap c.head c.tail then
    let s := s.modCq p fun c => { c with head }
    s.flushCq 256 p
  else s.modCq p fun c => { c with dbRange := true }

/-- A write to PAV_EQ_DB (R68); losses are announced once there is room (R80). -/
def State.eqDoorbell (s : State) (p : Fin 64) (head : BitVec 16) : State :=
  let e := s.pavs[p.val].eq
  if gap e.head head ≤ gap e.head e.tail then (s.modEq p fun e => { e with head }).announce p
  else s.modEq p fun e => { e with dbRange := true }

/-- A write to PAV_CQ_CTL (R61 to R63). -/
def State.cqCtl (s : State) (p : Fin 64) (v : Word) : State :=
  let c := s.pavs[p.val].cq
  let s := s.modCq p fun c => { c with vector := bits v.toNat 20 16, size := if c.enable then c.size else bits v.toNat 8 4 }
  if !v.getLsbD 0 then s.modCq p fun c => { c with enable := false }
  else if c.enable then s
  else if ringOk (bits v.toNat 8 4) c.base 16 then
    let s := s.modCq p fun c => { c with enable := true, cfgErr := false }
    s.flushCq 256 p
  else (s.modCq p fun c => { c with cfgErr := true }).errMsi p

/-- A write to PAV_EQ_CTL (R61 to R63, R80). -/
def State.eqCtl (s : State) (p : Fin 64) (v : Word) : State :=
  let e := s.pavs[p.val].eq
  let s := s.modEq p fun e => { e with size := if e.enable then e.size else bits v.toNat 8 4 }
  if !v.getLsbD 0 then s.modEq p fun e => { e with enable := false }
  else if e.enable then s
  else if ringOk (bits v.toNat 8 4) e.base 32 then (s.modEq p fun e => { e with enable := true, cfgErr := false }).announce p
  else (s.modEq p fun e => { e with cfgErr := true }).errMsi p

/-- MODERATION_TIMEOUT (R83): the timer has reached TIME_US with a record unsignalled; TIME_US 0 disables it. -/
def State.modTimeout (s : State) (p : Fin 64) (eq : Bool) : State :=
  let v := s.pavs[p.val]
  if eq then (if v.eq.unsig = 0 ∨ !v.eq.timer ∨ bits v.eq.mod.toNat 31 16 = 0 then s else s.eqInt p)
  else (if v.cq.unsig = 0 ∨ !v.cq.timer ∨ bits v.cq.mod.toNat 31 16 = 0 then s else s.cqInt p)

/-! ### MSI-X -/

/-- A vector masked or unmasked; a message pending on it goes once nothing holds it (R86). -/
def State.msixMask (s : State) (p : Fin 64) (vec : Fin 32) (masked : Bool) : State :=
  let s := s.modPav p fun v => { v with msix := upd v.msix vec fun m => { m with masked } }
  let m := s.pavs[p.val].msix[vec.val]
  if m.pend && !masked && s.msixOn p then
    (s.modPav p fun v => { v with msix := upd v.msix vec fun m => { m with pend := false } }).emit (.msix p vec.val m.addr m.data)
  else s

/-- Every vector's pending message goes that nothing holds any more. -/
def State.msixGo (s : State) (p : Fin 64) : State :=
  (idx 32).foldl (fun s v => s.msixMask p v (s.pavs[p.val].msix[v.val]).masked) s

/-- Bus Master Enable set or cleared ("When events meet"): set, held records and pending messages go. -/
def State.busMaster (s : State) (p : Fin 64) (en : Bool) : State :=
  let s := s.modPav p fun v => { v with bme := en }
  if !en then s
  else ((s.flushCq 256 p).announce p).msixGo p

/-! ### The rows -/

/-- DESCRIPTOR_FETCH (R66). -/
def execDescriptorFetch (p : Fin 64) (q : Fin 8) (n : Nat) (s : State) : Host.Outcome State Fault Refusal := act (fun s => s.fetch p q n) s

/-- FETCH_DATA_ARRIVAL (R65). -/
def execFetchDataArrival (p : Fin 64) (q : Fin 8) (tag : Nat) (entries : List (BitVec 512)) (s : State) : Host.Outcome State Fault Refusal :=
  act (fun s => s.fetchData p q tag entries) s

/-- FETCH_TIMEOUT (R71). -/
def execFetchTimeout (p : Fin 64) (q : Fin 8) (s : State) : Host.Outcome State Fault Refusal := act (fun s => s.fetchEnd p q 2) s

/-- FETCH_ERROR (R74). -/
def execFetchError (p : Fin 64) (q : FetchFail) (s : State) : Host.Outcome State Fault Refusal := act (fun s => s.fetchError p q.sq q.err) s

/-- SQ_DOORBELL (R67). -/
def execSqDoorbell (p : Fin 64) (q : Fin 8) (tail : BitVec 16) (s : State) : Host.Outcome State Fault Refusal :=
  act (fun s => s.hostAcc p fun s => s.sqDoorbell p q tail) s

/-- CQ_DOORBELL (R68). -/
def execCqDoorbell (p : Fin 64) (head : BitVec 16) (s : State) : Host.Outcome State Fault Refusal :=
  act (fun s => s.hostAcc p fun s => s.cqDoorbell p head) s

/-- EQ_DOORBELL (R68, R80). -/
def execEqDoorbell (p : Fin 64) (head : BitVec 16) (s : State) : Host.Outcome State Fault Refusal :=
  act (fun s => s.hostAcc p fun s => s.eqDoorbell p head) s

/-- SQ_ENABLE (R61, R671): PAV_SQ_CTL written with ENABLE = 1. -/
def execSqEnable (p : Fin 64) (q : Fin 8) (v : Word) (s : State) : Host.Outcome State Fault Refusal :=
  act (fun s => s.hostAcc p fun s => s.sqCtl p q (putB v 0 true)) s

/-- SQ_DISABLE (R671): PAV_SQ_CTL written with ENABLE = 0. -/
def execSqDisable (p : Fin 64) (q : Fin 8) (v : Word) (s : State) : Host.Outcome State Fault Refusal :=
  act (fun s => s.hostAcc p fun s => s.sqCtl p q (putB v 0 false)) s

/-- SQ_DRAIN_DONE (R671). -/
def execSqDrainDone (p : Fin 64) (q : Fin 8) (s : State) : Host.Outcome State Fault Refusal := act (fun s => s.sqDrained p q) s

/-- CQ_ENABLE_WRITE (R63). -/
def execCqEnableWrite (p : Fin 64) (v : Word) (s : State) : Host.Outcome State Fault Refusal :=
  act (fun s => s.hostAcc p fun s => s.cqCtl p v) s

/-- EQ_ENABLE_WRITE (R63). -/
def execEqEnableWrite (p : Fin 64) (v : Word) (s : State) : Host.Outcome State Fault Refusal :=
  act (fun s => s.hostAcc p fun s => s.eqCtl p v) s

/-- MODERATION_TIMEOUT (R83). -/
def execModerationTimeout (p : Fin 64) (eq : Bool) (s : State) : Host.Outcome State Fault Refusal := act (fun s => s.modTimeout p eq) s

/-- MSIX_UNMASK (R86). -/
def execMsixUnmask (p : Fin 64) (vec : Fin 32) (s : State) : Host.Outcome State Fault Refusal :=
  act (fun s => s.hostAcc p fun s => s.msixMask p vec false) s

end Sys2Proof.Machine
end

