-- ==== Sys2Proof/Machine/Functions.lean ====
section
/-!
DEFINITION. PCI Express functions (02): configuration requests, BAR2 accesses, and the reset of a Pavilion with its causes.
-/
namespace Sys2Proof.Machine
open Sys2Proof

/-! ### Reset of a Pavilion -/

/-- Where a reply to a request of Pavilion `p` would still go, it goes nowhere (12: a Pavilion reset clears the mailbox). -/
def dropReply (p : Fin 64) (r : Option (Fin 64 × Fin 2)) : Option (Fin 64 × Fin 2) :=
  match r with | some q => if q.1 = p then none else some q | none => none

/-- Step 2 of R88 and R204, R343, R542: descriptors, jobs, captures, exports and unlatched commits of the Pavilion end without a
completion; its voices are released and its bindings removed. -/
def State.resetWork (s : State) (p : Fin 64) : State :=
  let s := s.discardWhere (fun m => m.pav == p) (some p)
  let s := { s with
    jobs := s.jobs.filter fun j => j.pav != p
    doneQ := s.doneQ.filter fun d => d.m.pav != p
    outs := s.outs.map fun u => { u with
      caps := u.caps.filter fun c => c.pav != p
      job := if p = 0 then u.job.map fun j => { j with silent := true } else u.job }
    spire := { s.spire with exports := s.spire.exports.filter fun e => e.pav != p }
    gaz := { s.gaz with
      haps := s.gaz.haps.map fun h => if h.src == .pav p then { h with src := .none } else h
      controls := s.gaz.controls.mapIdx fun i c =>
        if (match c.reflex with | some r => r.pav == p | none => false) && !s.isHeld (0x20 + i) then { c with reflex := none } else c } }
  (idx 16).foldl (fun s v => if (s.gaz.voices[v.val]).pav == p && !s.isHeld (0x40 + v.val) then s.voiceRelease v else s) s

/-- Step 1 of R88: BAR2 reads that the port still holds complete with Unsupported Request. -/
def State.dropReads (s : State) (p : Fin 64) : State :=
  (s.ports[(portOf p).val]).posted.foldl (fun s y => match y.2 with
    | .read q .. => if q = p then s.emit (.ur p) else s
    | _ => s) s

/-- Steps 3 and 4 of R88: the Pavilion's layers lose their producer (R266) and its leases become orphaned (R89). -/
def State.resetLeases (s : State) (p : Fin 64) : State :=
  let mine (t : Slot) : Bool := match t.lease with | .held q _ => q == p | _ => false
  s.creditsBy (portOf p) { s with
    slots := s.slots.map fun t => if mine t then { t with lost := true, lease := .orphan, staged := none, att := none, attTaken := false } else t
    orphanExts := s.orphanExts ++ s.pavs[p.val].exts
    ports := upd s.ports (portOf p) fun t => { t with posted := t.posted.filter fun w => w.2.pav != p } }

/-- The page of a Pavilion after a reset (R88 steps 4 and 5, R660): everything at its reset value but the device's configuration and
AER, whose registers are sticky in PCI Express (PRESUMED, log 11). -/
def pageAfter (v : Pav) (absent : Bool) : Pav :=
  { present := !absent, ready := !absent, views := v.views.map fun w => { w with lmLine := none }, limits := v.limits, fn := { aer := v.fn.aer } }

/-- The recording part of step 5 of R88: PAV_FLR_DONE and EV_PAV_RESET (R91). -/
def State.pavRecord (s : State) (p : Fin 64) : State :=
  { s with flrDone := putB s.flrDone p.val true }.raise0 { code := evPavReset, inst := p.val, time := s.now }

/-- A Pavilion reset (R88); `absent` makes a VF absent (R87). EV_PAV_RESET goes to the manager, whose own reset disabled its
rings (R91). -/
def State.pavReset (s : State) (p : Fin 64) (absent : Bool) : State :=
  if !s.pavs[p.val].present then s
  else
    let s := (s.resetWork p).dropReads p
    let s := s.resetLeases p
    let s := s.modPav p fun v => pageAfter v absent
    let unreply (b : Belv) : Belv := { b with next := match b.next with | some n => some { n with reply := dropReply p n.reply } | none => none }
    let s := { s with
      caps := s.caps.filter fun c => c.1 != p.val
      org := { s.org with marchReply := dropReply p s.org.marchReply }
      dome := { s.dome with ho := s.dome.ho.map fun (h : Handover) => { h with reply := dropReply p h.reply } }
      belvs := s.belvs.map unreply }
    s.purgeImports.pavRecord p

/-- The Pavilions of a port in the order in which one step resets them, which the spec does not give: DESIGN CHOICE (log 38), from the highest
index down, the physical function last, so that the EV_PAV_RESET of the functions of port 0 still reach the manager's ring. -/
def portPavs (n : Fin 4) : List (Fin 64) := ((List.range 16).map fun i => fp (n.val * 16 + 15 - i))

/-- Whether a Pavilion is a physical function. -/
def isPf (p : Fin 64) : Bool := p.val % 16 == 0

/-- An FLR of a function (R44, R87): a physical function takes its virtual functions with it. -/
def State.flr (s : State) (p : Fin 64) : State :=
  if isPf p then (portPavs (portOf p)).foldl (fun s q => s.pavReset q false) s else s.pavReset p false

/-- VF Enable cleared (R87): the virtual functions are reset and become absent, and the physical function is reset as well. NumVFs becomes 0, so that
setting VF Enable again brings back no function before NumVFs is written (DESIGN CHOICE, log 38). -/
def State.vfClear (s : State) (n : Fin 4) : State :=
  let s := (portPavs n).foldl (fun s q => s.pavReset q (!isPf q)) s
  s.modPort n fun t => { t with vfEnable := false, numVfs := 0 }

/-- All 16 Pavilions of a port reset and VF Enable cleared (R87): a function that is absent already is recorded as well. -/
def State.portReset (s : State) (n : Fin 4) : State :=
  let s := (portPavs n).foldl (fun s q => if s.present q then s.pavReset q (!isPf q) else s.pavRecord q) s
  s.modPort n fun t => { t with vfEnable := false, numVfs := 0, ari := false, vfBar0 := 0, vfBar2 := 0, vfMse := false, pageSize := 1, linkUp := false, posted := [] }

/-- A hot reset of a port, or its link lost (R87). -/
def State.portDown (s : State) (n : Fin 4) : State := if (s.ports[n.val]).linkUp then s.portReset n else s

/-- HPn_PERST_N low (R609): the link goes down and the Pavilions reset, whether or not the link was up; before the boot has enabled the port
there is only the link to take down. -/
def State.perst (s : State) (n : Fin 4) : State :=
  if (s.ports[n.val]).enabled then s.portReset n else s.modPort n fun t => { t with linkUp := false }

/-- VF Enable set with NumVFs (R45, R87): the functions it covers come back ready. -/
def State.vfSet (s : State) (n : Fin 4) (k : Nat) : State :=
  if (s.ports[n.val]).vfEnable then s
  else
    let s := s.modPort n fun t => { t with vfEnable := true, numVfs := k }
    (List.range k).foldl (fun s i => s.modPav (fp (n.val * 16 + 1 + i)) fun v => { v with present := true, ready := true, mse := (s.ports[n.val]).vfMse }) s

/-! ### Configuration -/

/-- A capability header: identity and the next capability. -/
def capHdr (id next : Nat) : Nat := id + next * 2 ^ 8

/-- An extended capability header: identity, version and the next one. -/
def extHdr (id ver next : Nat) : Nat := id + ver * 2 ^ 16 + next * 2 ^ 20

/-- Bits of a function's BAR0 that are fixed: 16 MiB on Pavilion 0, 64 KiB on any other (R52). -/
def bar0Bits (p : Fin 64) : Nat := if p.val = 0 then 24 else 16

/-- Bits of BAR2 that are fixed: 16 GiB (R52). -/
def bar2Bits : Nat := 34

/-- A 64-bit BAR with its size bits zero. -/
def barTake (fixed v : Nat) : DWord := w64 (v / 2 ^ fixed * 2 ^ fixed)

/-- Half `h` of a 64-bit BAR as it reads, the type bits in the low half (0x4: 64-bit; 0xC: 64-bit and prefetchable; R52). -/
def barHalf (bar : DWord) (type h : Nat) : Nat := if h = 0 then bits bar.toNat 31 0 + type else bits bar.toNat 63 32

/-- The words of a function's configuration space below 0x100 (R41, R52; the offsets of the capabilities are log 11's): identity, command and
status, class code and revision, the BARs, subsystem IDs; power management (D3hot, No_Soft_Reset 0); MSI-X of 32 vectors; the PCI Express
capability (error reports, payload sizes, FLR, link speeds and width, ASPM L1, the link's state, 10-bit tags). -/
def cfgLow (t : Port) (v : Pav) (p : Fin 64) (subsys : Nat) (off : Nat) : Nat :=
  let page := if p.val = 0 then 0x00F00000 else 0
  match off with
  | 0x00 => 0x1F6B + (if isPf p then 0x8256 else 0x8257) * 2 ^ 16
  | 0x04 => b2n v.mse * 2 + b2n v.bme * 4 + 0x0010 * 2 ^ 16
  | 0x08 => 0x038000 * 2 ^ 8 + Config.siliconRev
  | 0x10 => if isPf p then barHalf v.fn.bar0 0x4 0 else 0
  | 0x14 => if isPf p then barHalf v.fn.bar0 0x4 1 else 0
  | 0x18 => if isPf p then barHalf v.fn.bar2 0xC 0 else 0
  | 0x1C => if isPf p then barHalf v.fn.bar2 0xC 1 else 0
  | 0x2C => subsys
  | 0x34 => 0x40
  | 0x40 => capHdr 0x01 0x48 + 3 * 2 ^ 16
  | 0x44 => if v.fn.d3 then 3 else 0
  | 0x48 => capHdr 0x11 0x60 + (31 + b2n v.fn.msixMask * 2 ^ 14 + b2n v.fn.msixEn * 2 ^ 15) * 2 ^ 16
  | 0x4C => page + 0x3000
  | 0x50 => page + 0x3800
  | 0x60 => capHdr 0x10 0 + 2 * 2 ^ 16
  | 0x64 => 2 + 2 ^ 5 + 2 ^ 15 + 2 ^ 28
  | 0x68 => v.fn.errEn + v.fn.mps * 2 ^ 5 + v.fn.mrrs * 2 ^ 12
  | 0x6C => 5 + 8 * 2 ^ 4 + 2 * 2 ^ 10
  | 0x70 => if isPf p then v.fn.linkCtl + (t.speed + t.width * 2 ^ 4) * 2 ^ 16 else 0
  | 0x84 => 2 ^ 16 + 2 ^ 17
  | 0x88 => b2n v.fn.tag10 * 2 ^ 12
  | 0x8C => 0x3E
  | _ => 0

/-- The extended capabilities (R41, R43; offsets of log 11): AER, Device Serial Number, ARI, ACS, and on a physical function SR-IOV with
the VF Device ID and the VF BARs. -/
def cfgHigh (t : Port) (a : Aer) (p : Fin 64) (serial : Nat) (off : Nat) : Nat :=
  let sriov (n : Nat) : Nat := if isPf p then n else 0
  match off with
  | 0x100 => extHdr 0x0001 2 0x140
  | 0x104 => a.ue.toNat
  | 0x108 => a.ueMask.toNat
  | 0x10C => a.ueSev.toNat
  | 0x110 => a.ce.toNat
  | 0x114 => a.ceMask.toNat
  | 0x140 => extHdr 0x0003 1 0x150
  | 0x144 => bits serial 31 0
  | 0x148 => bits serial 63 32
  | 0x150 => extHdr 0x000E 1 0x160
  | 0x160 => extHdr 0x000D 1 (if isPf p then 0x170 else 0)
  | 0x170 => sriov (extHdr 0x0010 1 0)
  | 0x178 => sriov (b2n t.vfEnable + b2n t.vfMse * 2 ^ 3 + b2n t.ari * 2 ^ 4)
  | 0x17C => sriov (15 + 15 * 2 ^ 16)
  | 0x180 => sriov t.numVfs
  | 0x184 => sriov (1 + 2 ^ 16)
  | 0x188 => sriov (0x8257 * 2 ^ 16)
  | 0x18C => sriov 0x553
  | 0x190 => sriov t.pageSize.toNat
  | 0x194 => sriov (barHalf t.vfBar0 0x4 0)
  | 0x198 => sriov (barHalf t.vfBar0 0x4 1)
  | 0x19C => sriov (barHalf t.vfBar2 0xC 0)
  | 0x1A0 => sriov (barHalf t.vfBar2 0xC 1)
  | _ => 0

/-- A word of configuration space (R41, R52; log 11). -/
def State.cfgWord (s : State) (p : Fin 64) (off : Nat) : Nat :=
  let o := off / 4 * 4
  if o < 0x100 then cfgLow s.ports[(portOf p).val] s.pavs[p.val] p s.dome.policy.subsys.toNat o
  else cfgHigh s.ports[(portOf p).val] s.pavs[p.val].fn.aer p s.dome.serial.toNat o

/-- One half of a 64-bit value replaced. -/
def setHalf (old : DWord) (h v : Nat) : Nat :=
  if h = 0 then bits old.toNat 63 32 * 2 ^ 32 + v else v * 2 ^ 32 + bits old.toNat 31 0

/-- A function into D3hot, in which it sends no request, or back to D0 with a reset (R44). -/
def State.powerState (s : State) (p : Fin 64) (code : Nat) : State :=
  if code = 3 then s.modPav p fun v => { v with bme := false, fn := { v.fn with d3 := true } }
  else if code = 0 ∧ s.pavs[p.val].fn.d3 then s.flr p
  else s

/-- VF MSE and ARI Capable Hierarchy written in the SR-IOV capability: a change of VF MSE sets Memory Space Enable of the port's virtual functions
(log 11). -/
def State.vfSpace (s : State) (n : Fin 4) (mse ari : Bool) : State :=
  let was := (s.ports[n.val]).vfMse
  let s := s.modPort n fun t => { t with ari, vfMse := mse }
  if mse = was then s
  else (List.range 15).foldl (fun s i => s.modPav (fp (n.val * 16 + 1 + i)) fun v => { v with mse }) s

/-- A word of configuration space written (R41, R43, R44, R52, R87; log 11): reserved, read-only and unlisted fields keep their values. -/
def State.cfgSet (s : State) (p : Fin 64) (off : Nat) (w : Word) : State :=
  let n := portOf p
  let v := w.toNat
  let fn (s : State) (f : PcieFn → PcieFn) : State := s.modPav p fun x => { x with fn := f x.fn }
  let pf (s : State) (t : State) : State := if isPf p then t else s
  match off / 4 * 4 with
  | 0x04 => (s.modPav p fun x => { x with mse := w.getLsbD 1 }).busMaster p (w.getLsbD 2)
  | 0x10 => pf s (fn s fun f => { f with bar0 := barTake (bar0Bits p) (setHalf f.bar0 0 v) })
  | 0x14 => pf s (fn s fun f => { f with bar0 := barTake (bar0Bits p) (setHalf f.bar0 1 v) })
  | 0x18 => pf s (fn s fun f => { f with bar2 := barTake bar2Bits (setHalf f.bar2 0 v) })
  | 0x1C => pf s (fn s fun f => { f with bar2 := barTake bar2Bits (setHalf f.bar2 1 v) })
  | 0x44 => s.powerState p (bits v 1 0)
  | 0x48 => (fn s fun f => { f with msixMask := w.getLsbD 30, msixEn := w.getLsbD 31 }).msixGo p
  | 0x70 => pf s (fn s fun f => { f with linkCtl := b2n (w.getLsbD 1) * 2 + b2n (w.getLsbD 6) * 2 ^ 6 + b2n (w.getLsbD 7) * 2 ^ 7 })
  | 0x88 => fn s fun f => { f with tag10 := w.getLsbD 12 }
  | 0x104 => fn s fun f => { f with aer := { f.aer with ue := f.aer.ue &&& ~~~w } }
  | 0x108 => fn s fun f => { f with aer := { f.aer with ueMask := w &&& 0x07F7F031 } }
  | 0x10C => fn s fun f => { f with aer := { f.aer with ueSev := w &&& 0x07F7F031 } }
  | 0x110 => fn s fun f => { f with aer := { f.aer with ce := f.aer.ce &&& ~~~w } }
  | 0x114 => fn s fun f => { f with aer := { f.aer with ceMask := w &&& 0xF1C1 } }
  | 0x68 =>
    let s := fn s fun f => { f with
      errEn := bits v 3 0
      mps := if bits v 7 5 ≤ 2 then bits v 7 5 else f.mps, mrrs := if bits v 14 12 ≤ 5 then bits v 14 12 else f.mrrs }
    if bit v 15 then s.flr p else s
  | 0x178 =>
    let s := pf s (s.vfSpace n (w.getLsbD 3) (w.getLsbD 4))
    if !isPf p || w.getLsbD 0 == (s.ports[n.val]).vfEnable then s
    else if w.getLsbD 0 then s.vfSet n (s.ports[n.val]).numVfs else s.vfClear n
  | 0x180 => pf s (s.modPort n fun t => if t.vfEnable then t else { t with numVfs := min 15 (bits v 15 0) })
  | 0x190 => pf s (s.modPort n fun t => { t with pageSize := if [0, 1, 4, 6, 8, 10].any fun k => v == 2 ^ k then w else t.pageSize })
  | 0x194 => pf s (s.modPort n fun t => { t with vfBar0 := barTake 16 (setHalf t.vfBar0 0 v) })
  | 0x198 => pf s (s.modPort n fun t => { t with vfBar0 := barTake 16 (setHalf t.vfBar0 1 v) })
  | 0x19C => pf s (s.modPort n fun t => { t with vfBar2 := barTake bar2Bits (setHalf t.vfBar2 0 v) })
  | 0x1A0 => pf s (s.modPort n fun t => { t with vfBar2 := barTake bar2Bits (setHalf t.vfBar2 1 v) })
  | _ => s

/-- A configuration request that reaches a present function of an enabled port (R42, R45, R88 step 1); it wakes the HOST island (R27). -/
def State.cfgReach (s : State) (p : Fin 64) (f : State → State) : State :=
  let t := s.ports[(portOf p).val]
  if !t.enabled then s.emit (.crs p)
  else if !t.linkUp then s
  else if !s.present p then s.emit (.ur p)
  else if !s.pavs[p.val].ready then s.emit (.crs p)
  else f (s.wakeIsland (islHost (portOf p).val))

/-- CONFIG_REQUEST (R42, R45): CRS until the boot has enabled the port, then an ordinary answer; an absent function answers with
Unsupported Request. -/
def State.config (s : State) (p : Fin 64) (c : CfgOp) : State :=
  s.cfgReach p fun s => match c with
    | .read off => s.emit (.cfgData p (w32 (s.cfgWord p off)))
    | .busMaster en => s.busMaster p en
    | .memSpace en => s.modPav p fun v => { v with mse := en }
    | .write off v => s.cfgSet p off v

/-! ### BAR2 -/

/-- A BAR2 access is made, or waits behind earlier ones or for tokens, which is counted (R364, R368). -/
def State.postOp (s : State) (x : HostOp) : State :=
  let n := portOf x.pav
  let k := (s.ports[n.val]).opNo
  let s := (if 0 < (s.hostDram x).2 then s.wake else s).modPort n fun t => { t with opNo := k + 1 }
  let first := !(s.ports[n.val]).posted.any (fun y => y.2.pav == x.pav) && !s.entry.any fun y => y.req.port == portP x.pav
  if first && (s.wantPass (.op k x) || (s.wantFree (.op k x) && (s.bports[(portP x.pav).val]).borrows)) then s.hostOp x
  else s.creditsBy n ((if s.wantSize (.op k x) = 0 then s else s.portWaits (portP x.pav)).modPort n fun t => { t with posted := t.posted ++ [(k, x)] })

/-- BAR2_WRITE (R53, R56): bytes beyond the last extent are discarded and the write counted once. The regions are
checked as the access is registered (R462). -/
def State.bar2Write (s : State) (p : Fin 64) (off : Nat) (data : List Byte) : State :=
  let v := s.pavs[p.val]
  let s := if extTotal v.exts < off + data.length then s.modPav p fun v => { v with bar2Miss := satInc v.bar2Miss } else s
  (pieces v.exts 0 off data.length).foldl (fun s q => 
    s.postOp (.write p q.1 ((data.drop q.2.1).take q.2.2) (s.permitDev (masterP p) false q.1 q.2.2 true))) s

/-- BAR2_READ (R53, R56, R404): all the data, poisoned data, or Unsupported Request; it stays behind the port's earlier writes. -/
def State.bar2Read (s : State) (p : Fin 64) (off len : Nat) : State :=
  let v := s.pavs[p.val]
  if extTotal v.exts < off + len then s.emit (.ur p)
  else s.postOp (.read p off len ((pieces v.exts 0 off len).all fun q => s.permitDev (masterP p) false q.1 q.2.2 false))

/-! ### The rows -/

/-- CONFIG_REQUEST (R42). -/
def execConfigRequest (p : Fin 64) (c : CfgOp) (s : State) : Host.Outcome State Fault Refusal := actHost (fun s => s.config p c) s

/-- FLR (R88). -/
def execFlr (p : Fin 64) (s : State) : Host.Outcome State Fault Refusal := actHost (fun s => s.cfgReach p fun s => s.flr p) s

/-- D3HOT_TO_D0 (R44): a function that is in D3hot (log 11). -/
def execD3hotToD0 (p : Fin 64) (s : State) : Host.Outcome State Fault Refusal := actHost (fun s => s.cfgReach p fun s => s.powerState p 0) s

/-- VF_ENABLE_CLEAR (R87). The command is a clearing of VF Enable and resets the port's functions even where VF Enable is 0 already, while a
configuration write that leaves the bit 0 clears nothing (DESIGN CHOICE, log 38). -/
def execVfEnableClear (port : Fin 4) (s : State) : Host.Outcome State Fault Refusal :=
  actHost (fun s => s.cfgReach (fp (port.val * 16)) fun s => s.vfClear port) s

/-- VF_ENABLE_SET (R87). -/
def execVfEnableSet (port : Fin 4) (numVfs : Fin 16) (s : State) : Host.Outcome State Fault Refusal :=
  actHost (fun s => s.cfgReach (fp (port.val * 16)) fun s => s.vfSet port numVfs.val) s

/-- HOT_RESET (R87). -/
def execHotReset (port : Fin 4) (s : State) : Host.Outcome State Fault Refusal := act (fun s => s.portDown port) s

/-- PCIE_LINK_DOWN (R87). -/
def execPcieLinkDown (port : Fin 4) (s : State) : Host.Outcome State Fault Refusal := act (fun s => s.portDown port) s

/-- HP_PERST (R609). -/
def execHpPerst (port : Fin 4) (s : State) : Host.Outcome State Fault Refusal := actHost (fun s => s.perst port) s

/-- BAR2_WRITE (R56). -/
def execBar2Write (p : Fin 64) (off : Nat) (data : List Byte) (s : State) : Host.Outcome State Fault Refusal :=
  act (fun s => s.hostAcc p fun s => s.bar2Write p off data) s

/-- BAR2_READ (R56). -/
def execBar2Read (p : Fin 64) (off : Nat) (len : Nat) (s : State) : Host.Outcome State Fault Refusal :=
  act (fun s => s.hostAcc p fun s => s.bar2Read p off len) s

end Sys2Proof.Machine
end

