-- ==== Sys2Proof/Machine/SpireTime.lean ====
section
/-!
DEFINITION. Spire time and the links (08): steps and slews of the counter, the active parent, the going down and coming up of a link,
and the receipt of a flit with its acknowledgement.
-/
namespace Sys2Proof.Machine
open Sys2Proof

/-! ### Spire time -/


/-- A number put in its place in an ascending list. -/
def insNat (x : Nat) : List Nat → List Nat
  | [] => [x]
  | y :: r => if x ≤ y then x :: y :: r else y :: insNat x r

/-- The frames whose latch on an output a forward step of Spire time to `t1` ps reaches and that are owed: that of its last cut-off, and those of
groups that have been decided at another output's cut-off (R171, R175). -/
def State.latchesOwed (s : State) (o : Fin 8) (t1 : Nat) : List Nat :=
  let c := s.comps[o.val]
  let own := if c.winOpen then [] else [c.winFrame]
  let due := (s.groups.filter fun g => g.st == .latchWait && g.outs.contains o && !g.latchedOuts.contains o).map Group.target
  ((own ++ due).eraseDups.filter fun f => decide (s.latchPs o f ≤ t1)).foldl (fun l f => insNat f l) []

/-- What a forward step of Spire time to `t1` ps does at once on an output whose latch it reaches: the frames already decided latch (DEDUCED,
log 46). -/
def State.latchSkipped (s : State) (o : Fin 8) (t1 : Nat) : State :=
  if s.outs[o.val].enabled then (s.latchesOwed o t1).foldl (fun s f => s.latchNow o f) s else s

/-- The commits latched for frames whose last active line a forward step skips completed (R201). -/
def State.completeSkipped (s : State) (o : Fin 8) : State :=
  let u := s.outs[o.val]
  s.completeDone o fun d => decide (s.gridPs u.set.rg d.frame + u.mode.h * u.mode.linePs < s.now.toNat * 1000)

/-- What a forward step of Spire time to `t1` ps does to what it skips, given the groups concerned (R323). -/
def State.skipTo (s : State) (t1 : Nat) (q : List Group × List Group) : State :=
  let s := (idx 8).foldl (fun s o => (s.latchSkipped o t1).completeSkipped o) s
  let s := s.passPoints t1 q
  (idx 8).foldl (fun s o => if s.outs[o.val].enabled then s.reWindow o else s) s

/-- Spire time stepped to `t` in units of 2^-24 ns (R318, R321), within one cycle, whose arrivals stay those of this cycle: a new budget period starts at once (R345), skipped points pass (R323), the
outputs re-phase at the line they were scanning (R215), and the recorded ALARM origins are forgotten (R335). -/
def State.stepTime (s : State) (t : Nat) : State :=
  let old := s.now.toNat
  let ns := t / 2 ^ 24
  let lines := Vector.ofFn fun o => s.lineNow o
  let q := s.skipped (ns * 1000)
  let s := { s with spire := { s.spire with
    now := w64 ns, frac := t % 2 ^ 24, slew := 0, steps := satInc s.spire.steps, alarmsSeen := [] } }
  let s := s.newPeriod (ns / periodNs)
  let s := if old < ns then s.skipTo (ns * 1000) q else (idx 8).foldl State.rebase s
  (idx 8).foldl (fun s o => if s.outs[o.val].enabled && s.outs[o.val].scanning then s.rePhaseAt o lines[o.val] else s) s

/-- Whether this device sets Spire time itself (R321): the master, or a stand-alone device. -/
def State.timeMaster (s : State) : Bool := s.spire.master || s.standAlone

/-- A write to SPIRE_TIME_SET_LO (R321). -/
def State.timeSetLo (s : State) (v : Word) : State :=
  if s.timeMaster then s.stepTime ((s.spire.timeHi.toNat * 2 ^ 32 + v.toNat) * 2 ^ 24) else s

/-- A TIME_IN edge at Spire time `t` ns (R322). -/
def State.timeIn (s : State) (t : Nat) : State :=
  if !s.spire.tiEn || !s.timeMaster then s
  else
    let s := s.upTo (t * 1000)
    let near := (t + 500000000) / 1000000000 * 1000000000
    if s.spire.tiFirst then
      let s := (s.arrive .timeIn).stepTime (near * 2 ^ 24)
      { s with spire := { s.spire with tiFirst := false, tiLock := true } }
    else if 500000 < (((t : Int) - near).natAbs) then { s with spire := { s.spire with tiRej := satInc s.spire.tiRej } }
    else { (s.arrive .timeIn) with spire := { s.spire with slew := ((near : Int) - t) * 2 ^ 24, tiLock := true } }

/-- TIME_IN_LOSS_TIMEOUT (R322); an edge accepted at this instant is in time (R310). -/
def State.timeInLoss (s : State) : State :=
  if s.spire.tiEn && s.timeMaster && !s.arrived.contains .timeIn then { s with spire := { s.spire with tiLock := false, tiLost := true } } else s

/-- The device joins the wall when it is in it and has been corrected since it last was not (R334). -/
def State.tryJoin (s : State) : State :=
  if s.spire.inWall && s.spire.synced && !s.spire.joined then
    { s with spire := { s.spire with joined := true, joinTime := s.now, msgSeq := 0 } }
  else s

/-- The device is no longer in the wall (R325, R334). -/
def State.leaveWall (s : State) : State := { s with spire := { s.spire with inWall := false, joined := false, synced := false } }

/-- EV_TIME_HOLDOVER to the Dome and to every Pavilion that has armed it (R319), unless a SYNC has come at this instant (R310). -/
def State.holdover (s : State) : State :=
  if s.spire.holdover || s.timeMaster || s.arrived.contains .sync then s
  else
    let ev : Ev := { code := evTimeHoldover, time := s.now, detail := s.now.toNat }
    (({ s with spire := { s.spire with holdover := true } }).toDome ev).raiseAll ev

/-! ### The active parent -/

/-- The primary and the alternate parent link of the tree in use (R327); 12 and above name no link. -/
def Spire.tree (t : Spire) : Nat × Nat :=
  match t.image with
  | none => (15, 15)
  | some i => if t.onBackupTree then (i.parents[2], i.parents[3]) else (i.parents[0], i.parents[1])

/-- A DELAY_REQ sent on a link (R317), T1 taken as it leaves. -/
def State.sendDelayReq (s : State) (l : Fin 12) : State :=
  let id := (s.spire.links[l.val]).reqId + 1
  let t := s.fine
  (s.modLink l fun k => { k with reqId := id, req := some (id, t) }).txFlit l (mkFlit 0 1 [(4, 4, id.toNat)])

/-- The parent link that the links' states give: the primary, else the alternate (R327). -/
def State.bestParent (s : State) : Option (Fin 12) :=
  let (p, a) := s.spire.tree
  if p < 12 ∧ s.linkUp (f12 p) then some (f12 p) else if a < 12 ∧ s.linkUp (f12 a) then some (f12 a) else none

/-- An active parent taken: DELAY_REQ goes to it (R317), and ADOPT where it is the alternate (R327). -/
def State.takeParent (s : State) : State :=
  if s.spire.master then { s with spire := { s.spire with parent := none } }
  else
    let p := s.bestParent
    if p = s.spire.parent then s
    else
      let s := { s with spire := { s.spire with parent := p } }
      match p with
      | none => s
      | some l =>
        let s := s.sendDelayReq l
        if s.spire.tree.1 = l.val then s else s.sendSeq l (mkFlit 0 6 [(4, 2, s.spire.myId)])

/-- The pairing the image declares for a link (R308). -/
def Spire.pairing (t : Spire) (l : Fin 12) : Option Pairing :=
  match t.image with | some i => i.pairings.find? fun q => q.link == l.val | none => none

/-- Whether the neighbour at a link has this link as its parent in the tree in use. -/
def Spire.isChild (t : Spire) (l : Fin 12) : Bool :=
  match t.pairing l with | some q => if t.onBackupTree then q.nbBParent else q.nbParent | none => false

/-- The children as the image and the links' states give them, after a change of tree. -/
def State.resetChildren (s : State) : State :=
  { s with spire := { s.spire with children := (idx 12).filter fun l => s.linkUp l && s.spire.isChild l, newChildren := [] } }

/-! ### Votes -/

/-- The vote of (g, F), if anything of it is known. -/
def State.vote (s : State) (g : Fin 4) (f : Nat) : Option Vote := s.spire.votes.find? fun v => v.g == g && v.frame == f

/-- A vote stored; old votes of the rate group are forgotten. -/
def State.putVote (s : State) (v : Vote) : State :=
  let rest : List Vote := s.spire.votes.filter fun w => !(w.g == v.g && w.frame == v.frame) && (w.g != v.g || decide (v.frame ≤ w.frame + 256))
  { s with spire := { s.spire with votes := rest ++ [v] } }

/-- A DECIDE flit (R300). -/
def decideFlit (g : Fin 4) (f : Nat) (flip : Bool) (detail term : Nat) : BitVec 256 :=
  mkFlit 0 5 [(4, 1, g.val + 128 * b2n flip), (5, 8, f), (13, 8, detail), (21, 4, term)]

/-- A decision of the master, kept and flooded (R332, R333). -/
def State.decideVote (s : State) (g : Fin 4) (f : Nat) (flip : Bool) (detail : Nat) : State :=
  if (s.decision g f).isSome then s
  else (s.keepDecision g f flip detail).flood none (decideFlit g f flip detail s.spire.term.toNat)

/-- The lowest of the Spire IDs that NOT_READY reports of a vote name, its own included (R331). -/
def Vote.firstNr (v : Vote) (cs : List (Nat × Bool × Nat × Nat)) : Option Nat :=
  ((if v.own = some false then [v.ownFirst] else []) ++ (cs.filter fun c => !c.2.1).map fun c => c.2.2.1).min?

/-- What the reports of a vote so far call for (R331, R332): the master decides, another device reports to its parent once. -/
def State.voteGo (s : State) (v : Vote) : State :=
  let cs : List (Nat × Bool × Nat × Nat) := v.children.filter fun c => s.spire.children.any fun l => l.val == c.1
  let all := v.own == some true && s.spire.children.all fun l => cs.any fun c => c.1 == l.val && c.2.1
  let nr := v.firstNr cs
  if s.spire.master then
    match nr with
    | some x => s.decideVote v.g v.frame false x
    | none => if all then s.decideVote v.g v.frame true 0 else s
  else if v.sent then s
  else match s.spire.parent with
    | none => s
    | some l =>
      if nr.isSome || all then
        let count := (if v.own.isSome then 1 else 0) + (cs.map fun c => c.2.2.2).sum
        (s.putVote { v with sent := true }).sendSeq l
          (mkFlit 0 4 [(4, 1, v.g.val + 128 * b2n all), (5, 8, v.frame), (13, 2, nr.getD 0), (15, 2, count)])
      else s

/-- Every open vote looked at again, after a change of the active children (R331). -/
def State.votesGo (s : State) : State := s.spire.votes.foldl (fun s v => match s.vote v.g v.frame with | some w => s.voteGo w | none => s) s

/-! ### Links -/

/-- Exports towards destinations that can no longer be reached pause; those that can be reached again start a full transfer
(R343). -/
def State.exportsRoute (s : State) : State :=
  let es : List Export := s.spire.exports.map fun e =>
    if 12 ≤ s.route e.dest then { e with paused := true, cur := none, due := true } else e
  ({ s with spire := { s.spire with exports := es } }).exportsGo

/-- A link's transmit and receive state as it enters TRAIN. -/
def Link.fresh (k : Link) : Link :=
  { k with identA := none, identB := none, samples := [], exchanges := 0, req := none, seqTx := 0, seqRx := 0, rxAny := false, ackRx := 0xFFF
           unacked := [], waiting := [], nakSend := false, nakSent := false, stalls := 0, credCtrl := 0, credPix := 0, head := none
           winAll := 0, winCtrl := 0, winPix := 0 }

/-- EV_LINK_DOWN (R309). -/
def State.evDown (s : State) (l : Fin 12) (cause : Nat) : State :=
  s.raise0 { code := evLinkDown, inst := l.val, time := s.now, detail := cause }

/-- A link that leaves UP: routes, the active children and the active parent follow at once (R314, R327, R331, R343). -/
def State.afterLoss (s : State) (l : Fin 12) : State :=
  let s := { s with spire := { s.spire with
    children := s.spire.children.filter (· != l), newChildren := s.spire.newChildren.filter (· != l)
    parent := if s.spire.parent = some l then none else s.spire.parent } }
  let s := if s.spire.parent.isNone then s.takeParent else s
  s.votesGo.exportsRoute

/-- An UP link lost (R306, R309): DOWN, and at once TRAIN. -/
def State.linkLost (s : State) (l : Fin 12) (cause : Nat) : State :=
  if !s.linkUp l then s
  else
    let s := s.modLink l fun k => { k.fresh with st := .train, retrain := false, cause, downFlag := true, downs := satInc k.downs }
    (s.evDown l cause).afterLoss l

/-- LINK_SILENCE_TIMEOUT (R309): a good flit received at this instant is in time (R310). -/
def State.silence (s : State) (l : Fin 12) : State := if s.arrived.contains (.flit l) then s else s.linkLost l 1

/-- The PLL of a link that starts locks to XIN (R550), unless XIN has failed (R553). -/
def State.spirePll (s : State) (l : Fin 12) : State :=
  if s.clk.onRco then s
  else { s with clk := { s.clk with pllLock := putB s.clk.pllLock (24 + l.val) true, pllCoast := putB s.clk.pllCoast (24 + l.val) false } }

/-- A link that is declared, enabled and OFF starts to train (link states). -/
def State.linkStart (s : State) (l : Fin 12) : State :=
  let k := s.spire.links[l.val]
  if k.st == .off && k.enable && (s.spire.pairing l).isSome && !s.clk.gated.getLsbD (23 + l.val) then
    ((s.modLink l fun k => { k.fresh with st := .train, retrain := false }).runIsland (23 + l.val) true).spirePll l
  else s

/-- A write to ENABLE of SPIRE_LINK_CTL (link states). -/
def State.linkEnable (s : State) (l : Fin 12) (en : Bool) : State :=
  let s := s.modLink l fun k => { k with enable := en }
  if en then s.linkStart l
  else if s.linkUp l then
    let s := s.modLink l fun k => { k.fresh with st := .disabled, cause := 6, downFlag := true, downs := satInc k.downs }
    (s.evDown l 6).afterLoss l
  else s.modLink l fun k => { k.fresh with st := .off, retrain := false }

/-- RETRY written in DISABLED (link states). -/
def State.linkRetry (s : State) (l : Fin 12) : State :=
  s.modLink l fun k => if k.st == .disabled then { k.fresh with st := .train, retrain := false } else k

/-- LINK_LANE_LOCK: IDENT, with both IDENT parts sent (R308). No lanes lock while the link's PLL has no reference (R552, R553). -/
def State.laneLock (s : State) (l : Fin 12) : State :=
  let k := s.spire.links[l.val]
  if k.st != .train || k.retrain || s.clk.onRco || s.clk.pllCoast.getLsbD (24 + l.val) then s
  else
    let s := s.modLink l fun k => { k with st := .ident }
    match s.spire.image with
    | none => s
    | some i =>
      let s := s.txFlit l (mkFlit 2 1 [(4, 1, 0), (5, 16, s.dome.serial.toNat), (21, 2, i.myId), (23, 1, l.val)])
      s.txFlit l (mkFlit 2 1 [(4, 1, 1), (5, 8, i.wallId.toNat), (13, 8, i.gen.toNat), (21, 4, s.spire.term.toNat), (25, 2, s.spire.masterId)])

/-- The link is UP (link states): 64 CTRL and 512 PIX credits are granted (R302), a declared child or parent is taken up, and what
waited is sent. -/
def State.linkUpNow (s : State) (l : Fin 12) : State :=
  let k := s.spire.links[l.val]
  let s := s.modLink l fun k => { k with st := .up, credCtrl := 64, credPix := 512 }
  let s := s.raise0 { code := evLinkUp, inst := l.val, time := s.now, detail := k.nbId }
  let s := if s.spire.isChild l then { s with spire := { s.spire with newChildren := s.spire.newChildren ++ [l] } } else s
  let s := if s.spire.parent.isNone then s.takeParent else s
  s.exportsRoute

/-- The median of the last delay values (R317); of an even number, the mean of the middle two. -/
def medianNat (l : List Nat) : Nat :=
  let s := l.foldl (fun acc x => insNat x acc) []
  let n := s.length
  if n = 0 then 0 else if n % 2 = 1 then s.getD (n / 2) 0 else (s.getD (n / 2 - 1) 0 + s.getD (n / 2) 0) / 2

/-- A delay value in 1/16 ns taken (R317). -/
def State.delaySample (s : State) (l : Fin 12) (d : Nat) : State :=
  let s := s.modLink l fun k =>
    let ss := (d :: k.samples).take 8
    { k with samples := ss, delay := medianNat ss % 2 ^ 24, req := none, exchanges := k.exchanges + 1 }
  let k := s.spire.links[l.val]
  if k.st != .measure then s
  else if k.exchanges < 16 then s.sendDelayReq l
  else if k.delay ≤ (match s.spire.pairing l with | some q => q.maxDelay | none => 0) * 16 then s.linkUpNow l
  else
    let s := s.modLink l fun k => { k with st := .disabled, cause := 5, downFlag := true }
    s.evDown l 5

/-! ### Receipt -/

/-- A replay (R306), and the link lost after 8 without an advance of ACK. -/
def State.replayGo (s : State) (l : Fin 12) : State :=
  let s := s.replay l
  if 8 ≤ (s.spire.links[l.val]).stalls then s.linkLost l 2 else s

/-- The unacknowledged flits after an ACK, none where it acknowledges none of them. -/
def ackDrop (a : BitVec 12) : List (BitVec 256) → Option (List (BitVec 256))
  | [] => none
  | f :: r => if fSeq f = a then some r else ackDrop a r

/-- The ACK and NAK of a received flit (R304, R306). -/
def State.ackIn (s : State) (l : Fin 12) (f : BitVec 256) : State :=
  let s := if fAckValid f then
      (match ackDrop (fAck f) (s.spire.links[l.val]).unacked with
      | some r => (s.arrive (.ack l)).modLink l fun k => { k with unacked := r, stalls := 0, ackRx := fAck f }
      | none => s) else s
  let s := if fNak f && !(s.spire.links[l.val]).unacked.isEmpty then s.replayGo l else s
  s.pump (s.spire.links[l.val]).waiting.length l

/-- A discard on receipt: NAK goes out with the next flit, for the first discard since a flit came in order (R305). -/
def State.rxDiscard (s : State) (l : Fin 12) : State :=
  s.modLink l fun k => if k.nakSent then k else { k with nakSend := true, nakSent := true }

/-- One CREDIT returned for a flit whose buffer is free again (R302). -/
def State.giveCredit (s : State) (l : Fin 12) (cls : Nat) : State :=
  if cls = 2 then s.txFlit l (mkFlit 2 5 [(4, 2, 1), (6, 2, 0)])
  else if cls = 3 then s.txFlit l (mkFlit 2 5 [(4, 2, 0), (6, 2, 1)]) else s

/-- A flit with good CRC received: counted, its ACK taken, a sequenced one accepted in order only (R305) and its credit returned,
then `g`. A link carries IDENT, DELAY and IDLE flits alone before it is UP. -/
def State.rxFlit (s : State) (l : Fin 12) (f : BitVec 256) (g : State → State) : State :=
  let k := s.spire.links[l.val]
  let early := isSeq (fClass f) (fType f) || (fClass f == 0 && fType f == 0) || (fClass f == 2 && fType f == 5)
  if !(k.st == .up || ((k.st == .ident || k.st == .measure) && !early)) then s
  else
    let s := ((s.arrive (.flit l)).modLink l fun k => { k with rx := k.rx + 1 }).ackIn l f
    if !isSeq (fClass f) (fType f) then g s
    else if fSeq f ≠ (s.spire.links[l.val]).seqRx then s.rxDiscard l
    else
      let s := s.modLink l fun k => { k with seqRx := k.seqRx + 1, rxAny := true, nakSent := false }
      g (s.giveCredit l (fClass f))

/-- A flit with its CLASS and TYPE as a row gives them. -/
def asType (cls ty : Nat) (f : BitVec 256) : BitVec 256 := BitVec.ofNat 256 (f.toNat - fU f 0 1 % 64 + cls + 4 * ty)

/-- The Spire ID and the TERM of a master adopted (R327): the tree, the parent and the children follow, and EV_MASTER_FAILOVER is
raised once for each rate group the image declares. -/
def State.adoptMaster (s : State) (id term : Nat) : State :=
  match s.spire.image with
  | none => s
  | some i =>
    let s := { s with spire := { s.spire with
      term := w32 term, masterId := id, master := false, lastBeat := none, onBackupTree := id == i.backupId && id != i.masterId, parent := none } }
    let gs := (List.range 4).filter fun g => (i.groups[(f4 g).val]).cls != 0xFF
    let s := gs.foldl (fun s g => s.raise0 { code := evMasterFailover, inst := g, time := s.now, detail := id }) s
    s.resetChildren.takeParent

end Sys2Proof.Machine
end

