-- ==== Sys2Proof/Machine/Clocks.lean ====
section
/-!
DEFINITION. Clocks (15): sources and their failures, the frequency monitor, PLLs, island gating and explicit gate requests.
-/
namespace Sys2Proof.Machine
open Sys2Proof

/-! ### Events -/

/-- EV_CLK_FAIL with a code, to the Dome and to every Pavilion (R549). -/
def State.clkFail (s : State) (code : Nat) : State :=
  let ev : Ev := { code := evClkFail, time := s.now, detail := code }
  (({ s with clk := { s.clk with failCode := code } }).toDome ev).raiseAll ev

/-- An event to the Dome and, while armed, to Pavilion 0. -/
def State.domeAnd0 (s : State) (ev : Ev) : State := (s.toDome ev).raise0 ev

/-! ### PLLs -/

/-- Whether a PLL's reference is XIN (R550). -/
def xinPll (n : Nat) : Bool := n == 5 || (decide (8 ≤ n) && decide (n ≤ 35)) || (decide (40 ≤ n) && decide (n ≤ 47))

/-- A locked PLL loses its reference (R551): it coasts; a pixel PLL stops its output's raster (R216). -/
def State.pllLost (s : State) (n : Nat) : State :=
  if !s.clk.pllLock.getLsbD n then s
  else
    let s := { s with clk := { s.clk with pllLock := putB s.clk.pllLock n false, pllCoast := putB s.clk.pllCoast n true } }
    let s := s.domeAnd0 { code := evPllCoast, inst := n, time := s.now }
    if 8 ≤ n ∧ n ≤ 15 then s.coastOut (f8 (n - 8)) else s

/-- A coasting PLL relocks (R551), but not an XIN-referenced one once XIN has failed (R553). -/
def State.pllRelock (s : State) (n : Nat) : State :=
  if !s.clk.pllCoast.getLsbD n || (xinPll n && s.clk.onRco) then s
  else
    let s := { s with clk := { s.clk with pllLock := putB s.clk.pllLock n true, pllCoast := putB s.clk.pllCoast n false } }
    let s := if 36 ≤ n ∧ n ≤ 39 then { s with clk := { s.clk with refclkOk := putB s.clk.refclkOk (n - 36) true } } else s
    if 8 ≤ n ∧ n ≤ 15 then s.uncoastOut (f8 (n - 8)) else s

/-! ### XIN and RCO -/

/-- A Spire link whose transmitter and receiver lose lock (R552): an UP link is silent from then on and goes down under R309, one that was being
checked or measured trains again. -/
def State.linkUnlock (s : State) (l : Fin 12) : State :=
  if s.linkUp l then s.linkLost l 1
  else s.modLink l fun k => if k.st == .ident || k.st == .measure then { k.fresh with st := .train, retrain := false } else k

/-- XIN lost or judged failed (R552, R554); once until a reset. The microsecond of silence after which the links go down is part of it (DESIGN
CHOICE, log 55). -/
def State.xinFails (s : State) (code : Nat) : State :=
  if s.clk.onRco then s
  else
    let s := { s with clk := { s.clk with onRco := true } }
    let s := s.clkFail code
    let s := ((List.range 48).filter xinPll).foldl (fun s n => s.pllLost n) s
    let s := { s with dmcs := s.dmcs.map fun (d : Dmc) => { d with wq := [], rq := [] } }
    ((idx 12).foldl State.linkUnlock s).holdover

/-- XIN_STABLE (R544, R545): the monitor forms its tracked count anew. -/
def State.xinStable (s : State) : State :=
  if s.clk.xinOk || s.pwr.reset == .powerOn || s.pwr.reset == .dead then s
  else { s with clk := { s.clk with xinOk := true, monTracking := false, monSum := 0, monWindows := 0, monBad := 0 } }

/-- XIN_LOST (R544, R552). In a reset there is no sequence to run: the boot judges XIN anew (R553, R593). -/
def State.xinLost (s : State) : State :=
  if !s.clk.xinOk then s
  else
    let s := { s with clk := { s.clk with xinOk := false } }
    if s.pwr.reset == .running then s.xinFails 1 else s

/-- RCO judged faulty, or stopped while REF is on XIN (R547, R555). -/
def State.rcoFaulty (s : State) : State :=
  if s.clk.rcoFail then s
  else ({ s with clk := { s.clk with rcoFail := true, aonOnXin := true, monTracking := false } }).clkFail 3

/-- Whether a 100 MHz reference clock's cycles in a window agree with the 50 MHz XIN's within 0.6 % (R546). -/
def refNear (count ref : Nat) : Bool := decide (((ref : Int) - 2 * count).natAbs * 1000 ≤ 2 * count * 6)

/-- Whether more than half of the host reference clocks whose PCIe PLL is locked agree with XIN over a window (R546). -/
def State.refsAgree (s : State) (count : Nat) (refs : Vector Nat 4) : Bool :=
  let on := (idx 4).filter fun n => s.clk.pllLock.getLsbD (36 + n.val)
  decide (on.length < 2 * (on.filter fun n => refNear count refs[n.val]).length)

/-- MONITOR_WINDOW with `count` XIN cycles and the cycles of each host reference clock (R545, R546). The window after an off-frequency one
judges RCO or XIN. -/
def State.monitorWindow (s : State) (count : Nat) (refs : Vector Nat 4) : State :=
  if s.clk.rcoFail || !s.clk.xinOk then s
  else
    let c := s.clk
    let s := { s with clk := { c with monCount := count } }
    if c.monWindows < 64 then
      let sum := c.monSum + count
      { s with clk := { s.clk with monSum := sum, monWindows := c.monWindows + 1, monTracking := c.monWindows == 63
                                   monTrack := if c.monWindows = 63 then sum * 256 / 64 else c.monTrack } }
    else
      let diff : Int := (count * 256 : Nat) - (c.monTrack : Int)
      let off := decide (c.monTrack < diff.natAbs * 100)
      let s := { s with clk := { s.clk with monTrack := ((c.monTrack : Int) + diff / 64).toNat, monBad := b2n (off && c.monBad == 0) } }
      if c.monBad = 0 ∨ c.onRco ∨ s.pwr.reset ≠ .running then s
      else if s.refsAgree count refs then s.rcoFaulty
      else s.xinFails 2

/-- REFCLK_LOST (R548, R549): the port's PLL coasts and its link goes down. -/
def State.refclkLost (s : State) (n : Fin 4) : State :=
  if !s.clk.refclkOk.getLsbD n.val then s
  else
    let s := { s with clk := { s.clk with refclkOk := putB s.clk.refclkOk n.val false } }
    ((s.pllLost (36 + n.val)).portDown n).clkFail (0x10 + n.val)

/-- A forced clock switch (R557). -/
def State.switchForced (s : State) (i : Nat) : State :=
  ({ s with clk := { s.clk with forced := satInc s.clk.forced } }).domeAnd0 { code := evSwitchForced, inst := i, time := s.now }

/-! ### Islands -/

/-- An AUX read whose answer has not come, or an EDID read, is in progress (R565). -/
def Out.auxBusy (u : Out) : Bool :=
  u.edidBusy || (match u.auxOp with | some (.read ..) => true | some (.i2c ..) => true | _ => false)

/-- Whether a request of the port's Pavilions waits at fabric entry: a queued TLP (R563). -/
def State.tlpQueued (s : State) (n : Fin 4) : Bool :=
  s.entry.any fun q => decide (16 ≤ q.req.port.val) && decide ((q.req.port.val - 16) / 16 = n.val)

/-- Whether a host port has work (15, automatic gating). -/
def State.hostWork (s : State) (n : Fin 4) : Bool :=
  !(s.ports[n.val]).posted.isEmpty || s.tlpQueued n || (portPavs n).any fun p =>
    let v := s.pavs[p.val]
    v.cq.timer || v.eq.timer || v.sqs.toList.any (fun q => !q.fetch.isEmpty) || v.mbox.toList.any (fun x => x.busy)

/-- Whether the Gazebo has work. -/
def State.gazWork (s : State) : Bool :=
  s.gaz.scanEn || s.gaz.haps.toList.any (fun h => h.st != .idle) || s.gaz.voices.toList.any (fun v => v.phase != .idle)
    || s.pavs.toList.any fun v => v.pcm.toList.any fun q => !q.queue.isEmpty

/-- Whether an island has work, or an access in progress, that keeps its clock running (R563). -/
def State.islandWork (s : State) (i : Nat) : Bool :=
  if i ≤ 1 then true
  else if i = 2 ∨ i = 43 then !s.jobs.isEmpty || !s.entry.isEmpty || s.org.marchRun || s.keep.wiping
  else if i ≤ 6 then s.hostWork (f4 (i - 3))
  else if i ≤ 14 then (s.outs[(f8 (i - 7)).val]).enabled
  else if i ≤ 22 then (s.outs[(f8 (i - 15)).val]).enabled || (s.outs[(f8 (i - 15)).val]).auxBusy
  else if i ≤ 34 then (s.spire.links[(f12 (i - 23)).val]).st != .off
  else if i ≤ 42 then (s.dmcs[(f8 (i - 35)).val]).trained && !(s.dmcs[(f8 (i - 35)).val]).selfRef
  else s.gazWork

/-- AUTO_GATE (R563): an island without work stops. -/
def State.autoGate (s : State) (i : Nat) : State := if s.islandWork i then s else s.runIsland i false

/-! ### Explicit gates -/

/-- A gate wait ended. -/
def State.endWait (s : State) (i : Nat) : State := { s with clk := { s.clk with gateWait := putB s.clk.gateWait i false } }

/-- A gate wait of an output that the Dome holds is abandoned (R568): the output stays on. -/
def State.gateAbandon (s : State) (o : Fin 8) : State :=
  match s.outs[o.val].job with
  | none => s
  | some j =>
    if j.wait == .gate && (s.belvs[o.val]).cfg.getLsbD 0 then
      (((s.endWait (15 + o.val)).modOut o fun u => { u with job := none, enableSet := true }).secureHeld (15 + o.val)).modeEnd j stSecureHeld
    else s

/-- GATE_IDLE of an output's island (R564, R565, R568). -/
def State.gateOut (s : State) (o : Fin 8) : State :=
  match s.outs[o.val].job with
  | none => s
  | some j =>
    if j.wait != .gate then s
    else if s.belvs[o.val].cfg.getLsbD 0 then s.gateAbandon o
    else if s.outs[o.val].auxBusy then s
    else (((s.endWait (15 + o.val)).modOut o fun u => { u with job := none }).disableOut o).modeEnd j stOk

/-- GATE_IDLE of a link's island (R564, R565). -/
def State.gateLink (s : State) (l : Fin 12) : State :=
  let k := s.spire.links[l.val]
  if !s.clk.gateWait.getLsbD (23 + l.val) || k.st != .off || !k.waiting.isEmpty then s
  else
    let s := (s.endWait (23 + l.val)).runIsland (23 + l.val) false
    { s with clk := { s.clk with gated := putB s.clk.gated (23 + l.val) true } }

/-- GATE_IDLE. Only OUT and SL islands take explicit gates. -/
def State.gateIdle (s : State) (i : Nat) : State :=
  if 15 ≤ i ∧ i ≤ 22 then s.gateOut (f8 (i - 15)) else if 23 ≤ i ∧ i ≤ 34 then s.gateLink (f12 (i - 23)) else s

/-- EV_GATE_TIMEOUT with its count (R567). -/
def State.gateLate (s : State) (i : Nat) : State :=
  ({ s with clk := { s.clk with timeouts := satInc s.clk.timeouts } }).domeAnd0 { code := evGateTimeout, inst := i, time := s.now }

/-- GATE_TIMEOUT (R567): an island that is idle in the last cycle of the wait is gated (R8, R566), and a Dome-held one refuses (R568). -/
def State.gateTimeout (s0 : State) (i : Nat) : State :=
  let s := s0.gateIdle i
  if !s.clk.gateWait.getLsbD i then s
  else
    let s := s.endWait i
    if 15 ≤ i ∧ i ≤ 22 then
      let o := f8 (i - 15)
      match s.outs[o.val].job with
      | some j => ((s.modOut o fun u => { u with job := none, enableSet := true }).gateLate i).modeEnd j stGateTimeout
      | none => s
    else
      let s := { s with clk := { s.clk with
        gateReq := putB s.clk.gateReq (i - 23) false, gateErr := putB s.clk.gateErr (i - 23) true } }
      s.gateLate i

/-- A write of 1 to bit l of CLK_GATE_REQ (R564): the wait begins, unless it runs or the island is gated. -/
def State.slGate (s : State) (l : Fin 12) : State :=
  if s.clk.gateReq.getLsbD l.val then s
  else { s with clk := { s.clk with gateReq := putB s.clk.gateReq l.val true, gateWait := putB s.clk.gateWait (23 + l.val) true } }

/-- A write of 0 to bit l of CLK_GATE_REQ (R569): explicit gating, or the wait for it, ends. -/
def State.slRelease (s : State) (l : Fin 12) : State :=
  if !s.clk.gateReq.getLsbD l.val then s
  else
    let s := { s with clk := { s.clk with
      gateReq := putB s.clk.gateReq l.val false, gateWait := putB s.clk.gateWait (23 + l.val) false, gated := putB s.clk.gated (23 + l.val) false } }
    s.linkStart l

/-- GATE_IDLE (R564, R568). -/
def execGateIdle (i : Fin 45) (s : State) : Host.Outcome State Fault Refusal :=
  act (fun s => s.gateIdle i.val) s

/-- GATE_TIMEOUT (R567). -/
def execGateTimeout (i : Fin 45) (s : State) : Host.Outcome State Fault Refusal :=
  act (fun s => s.gateTimeout i.val) s

/-- XIN_STABLE (R544). -/
def execXinStable (s : State) : Host.Outcome State Fault Refusal :=
  actAon (fun s => s.xinStable) s

/-- XIN_LOST (R552). -/
def execXinLost (s : State) : Host.Outcome State Fault Refusal :=
  actAon (fun s => s.xinLost) s

/-- MONITOR_WINDOW (R545, R546). -/
def execMonitorWindow (count : Nat) (refs : Vector Nat 4) (s : State) : Host.Outcome State Fault Refusal :=
  actAon (fun s => s.monitorWindow count refs) s

/-- REFCLK_LOST (R548). -/
def execRefclkLost (port : Fin 4) (s : State) : Host.Outcome State Fault Refusal :=
  act (fun s => s.refclkLost port) s

/-- PLL_REFERENCE_LOST (R551). -/
def execPllReferenceLost (n : Fin 48) (s : State) : Host.Outcome State Fault Refusal :=
  act (fun s => s.pllLost n.val) s

/-- PLL_RELOCK (R551, R553). -/
def execPllRelock (n : Fin 48) (s : State) : Host.Outcome State Fault Refusal :=
  act (fun s => s.pllRelock n.val) s

/-- SWITCH_FORCE_TIMEOUT (R557). -/
def execSwitchForceTimeout (i : Fin 45) (s : State) : Host.Outcome State Fault Refusal :=
  act (fun s => s.switchForced i.val) s

/-- AUTO_GATE (R563). -/
def execAutoGate (i : Fin 45) (s : State) : Host.Outcome State Fault Refusal :=
  act (fun s => s.autoGate i.val) s

/-- SL_GATE_REQUEST (R564). -/
def execSlGateRequest (l : Fin 12) (s : State) : Host.Outcome State Fault Refusal :=
  act (fun s => s.hostAcc 0 fun s => s.slGate l) s

/-- SL_GATE_RELEASE (R569). -/
def execSlGateRelease (l : Fin 12) (s : State) : Host.Outcome State Fault Refusal :=
  act (fun s => s.hostAcc 0 fun s => s.slRelease l) s

end Sys2Proof.Machine
end

