-- ==== Sys2Proof/Machine/Dmcs.lean ====
section
/-!
DEFINITION. DRAM and SRAM accesses as commands, refresh, retraining and scrubbing (10, 11), and STANDBY (16).
-/
namespace Sys2Proof.Machine
open Sys2Proof

/-! ### DRAM_READ and DRAM_WRITE -/

/-- DRAM_READ (R364, R383, R384, R388, R410, R462). -/
def State.dramRead (s : State) (r : MemReq) (ecc : Ecc) : State := s.dramReq r none ecc

/-- DRAM_WRITE (R364, R382, R410, R462): a read registered in the same DMC cycle goes first (R385). -/
def State.dramWrite (s : State) (r : MemReq) (data : List Byte) (same : Option (MemReq × Ecc)) : State :=
  (match same with | some (q, e) => s.dramRead q e | none => s).dramReq r (some data) .clean

/-! ### Refresh -/

/-- POSTPONE_MAX as it acts. -/
def Dmc.limit (d : Dmc) : Nat := max 1 (min 8 d.postpone)

/-- REFRESH_TICK (R387, R390). -/
def Dmc.tick (d : Dmc) : Dmc :=
  let debt := d.debt + 8
  let d := { d with debt, ref := refStOf debt d.rtBurst }
  if d.rtBurst && decide (8 * d.limit ≤ debt) then { d.refAb 1 with preempts := satInc d.preempts } else d

/-- A REFab outside an RT burst for a retraining that has waited 1 ms (R398); none where a REFab has come meanwhile. -/
def Dmc.refabDue (d : Dmc) : Dmc :=
  if d.retrain.isNone then d else if d.rtBurst then { d with retrainDue := true } else d.refAb 1

/-- RT_BURST_END (R388): a real-time read still queued keeps the burst alive. -/
def Dmc.burstEnd (d : Dmc) : Dmc :=
  if d.rq.any fun x => isRt x.req then d
  else
    let d := { d with rtBurst := false, ref := refStOf d.debt false }
    if d.retrainDue then d.refabDue else d

/-- MR4_READ (R391 to R395). -/
def State.mr4 (s : State) (c : Fin 8) (rate : Nat) : State :=
  let d := s.dmcs[c.val]
  if !s.dmcLive c then s
  else
    let s := s.modDmc c fun d => { d with mr4 := rate, hot := mr4Hot rate, hotOver := d.hotOver || mr4Over rate, interval := if mr4Hot rate then 1953 else 3906 }
    if mr4Hot rate && !d.hot && decide (8 ≤ d.debt) then
      let n := cdiv d.debt 8
      let s := s.modDmc c fun d => { d.refAb n with bursts := satInc d.bursts }
      s.raise0 { code := evRefreshBurst, inst := c.val, time := s.now, detail := n }
    else s

/-! ### Scrubbing -/

/-- The first atom of a channel from an address on, among the next 64. -/
def atomFrom (c : Fin 8) (a hi : Nat) : Option Nat :=
  ((List.range 64).map fun k => a + 64 * k).find? fun x => decide (x < hi) && chanOf x == c

/-- The atom of a channel that is scrubbed after `cur` (R408): in the data part of the ECC regions, round and round. -/
def State.nextScrub (s : State) (c : Fin 8) (cur : Nat) : Option Nat :=
  let regs : List (Nat × Nat) := s.dmcg.eccRegion.toList.filterMap fun w =>
    if w.getLsbD 31 then let b := bits w.toNat 9 0 * 2 ^ 26; some (b, b + bits w.toNat 26 16 * 2 ^ 26 / 8 * 7) else none
  let after := regs.filterMap fun r => atomFrom c (max (cur + 64) r.1) r.2
  match after.min? with
  | some a => some a
  | none => (regs.filterMap fun r => atomFrom c r.1 r.2).min?

/-- SCRUB_READ (R403, R404, R408). -/
def State.scrub (s : State) (c : Fin 8) (ecc : Ecc) : State :=
  if s.dmcg.scrubPeriod = 0 || !s.dmcLive c then s
  else match s.nextScrub c (s.dmcs[c.val]).scrubAt with
    | none => s
    | some a =>
      let s := ((s.wakeIsland (islDmc c.val)).modDmc c fun d => { d with scrubAt := a }).meet .dram a ecc
      (s.atomRead { port := 82, addr := a, len := 64 } none).1

/-! ### SRAM_ACCESS -/

/-- The memory of an access. -/
def sramMem : SramMem → MemId
  | .orangery => .org
  | .dome => .dome
  | .keep => .keep
  | .lineBuffer _ => .pool

/-- Whether a master has a port to a memory: the Dome SRAM serves the Dome processor, and the march engine while the Dome has started it there
(R420, R446); the line-buffer pool serves the composers, and the engine likewise. -/
def State.sramReaches (s : State) (a : SramReq) : Bool :=
  match a.mem with
  | .dome => a.master == 0 || (a.master == 10 && s.org.marchRun && s.org.marchTarget == 2)
  | .lineBuffer _ => a.master == 8 || (a.master == 10 && s.org.marchRun && s.org.marchTarget == 1)
  | _ => true

/-- Whether an access is permitted; the Dome SRAM and the line-buffer pool have no regions. -/
def State.sramPermit (s : State) (a : SramReq) : Bool :=
  match a.mem with
  | .orangery => s.permit a.master.val (s.secureTag a.master.val a.off a.len) .org a.off a.len a.write.isSome
  | .keep => s.permit a.master.val (s.secureTag a.master.val (0x10000000 + a.off) a.len) .keep a.off a.len a.write.isSome
  | _ => true

/-- Whether a running wipe refuses an access to the Keep: one that touches the secure partition (R441 step 1). -/
def State.wipeHolds (s : State) (o n : Nat) : Bool := s.keep.wiping && decide (0xF00000 < o + n)

/-- The composer of an access: the owner of the line buffer; of a fetch from the Orangery, the one whose output shows the buffer the address lies in. -/
def State.sramComposer (s : State) (a : SramReq) : Option (Fin 8) :=
  match a.mem with
  | .lineBuffer c => some c
  | _ => (idx 8).find? fun o => (s.scanStack o).any fun q => match q.2.lat.buf with
    | some b => decide (b.addr ≤ a.off) && decide (a.off < b.addr + (if b.import_ then 2 else 1) * b.pitch * b.height)
    | none => false

/-- The Pavilion that makes an access: of a host port's functions, or of the COPY and CHECK jobs of FABRIC, the one that sees the address (R53,
R406). -/
def State.sramAsker (s : State) (a : SramReq) : Option (Fin 64) :=
  match devAddr (sramMem a.mem) a.off with
  | none => none
  | some x => (idx 64).find? fun p =>
      (a.master == 1 || a.master.val == masterP p) && (barOffset s.pavs[p.val].exts 0 x).isSome

/-- The error response to an access (R404, R419, R422): a composer's fetch sets FETCH_FAULT, and its frame underruns (R234). -/
def State.sramError (s : State) (a : SramReq) : State :=
  (match if a.master == 8 then s.sramComposer a else none with
    | some o => s.fetchFault o (match a.mem with | .lineBuffer _ => none | m => devAddr (sramMem m) a.off)
    | none => s).emit (.memData false [])

/-- The safe-frame slots that a write of the Keep touches are judged again (R439). -/
def State.sfTouched (s : State) (o n : Nat) : State :=
  (idx 8).foldl (fun s k => if sfBase k < o + n ∧ o < sfBase k + 0x82000 then s.sfJudge k else s) s

/-- One access to a memory (R417 to R423, R433 to R439). -/
def State.sramOne (s : State) (a : SramReq) : State :=
  let m := sramMem a.mem
  if !s.sramReaches a || decide (s.memSize m < a.off + a.len) then s
  else if m == .keep && s.wipeHolds a.off a.len then if a.write.isSome then s else s.sramError a
  else if !s.sramPermit a then
    let s := s.violation m a.off
    if a.write.isSome then s else s.sramError a
  else match a.write with
    | some l =>
      let s := s.freeze.wakeMem m a.off a.len
      if m == .keep then (s.keepPut a.off l).sfTouched a.off a.len else s.stWords m a.off l
    | none =>
      let (s, bad) := ((s.wakeMem m a.off a.len).meet m a.off a.ecc).readErrs m a.off a.len (s.sramAsker a)
      if bad then s.sramError a else s.emit (.memData true (s.rdBytes m a.off a.len))

/-- Bank and word of an Orangery offset (R412). -/
def orgBank (o : Nat) : Nat := bits o 11 8
def orgWord (o : Nat) : Nat := bits o 24 12 * 8 + bits o 7 5

/-- The bank an access goes to (11, Organisation): memory and bank, by which the accesses of one cycle are arbitrated. Only the Orangery's banks are
interleaved by a rule (R412); those of the Dome SRAM and of the pool are taken to lie one after another (DESIGN CHOICE, log 50). -/
def sramBank (a : SramReq) : MemId × Nat :=
  match a.mem with
  | .orangery => (.org, orgBank a.off)
  | .dome => (.dome, a.off / 2 ^ 19)
  | .lineBuffer _ => (.pool, a.off / 2 ^ 20)
  | .keep => (.keep, 0)

/-- Whether an access uses port 0 of its bank: in the Orangery composer fetch and capture writeback (R413), in the pool the fetch's write (R417), in
the Dome SRAM the processor (DESIGN CHOICE, log 50). -/
def onPort0 (a : SramReq) : Bool :=
  match a.mem with
  | .dome => a.master == 0
  | .lineBuffer _ => a.write.isSome
  | _ => a.master == 8 || a.master == 9

/-- The accesses of a list that use one bank. -/
def inBank (b : MemId × Nat) (l : List SramReq) : List SramReq := l.filter fun a => sramBank a == b

/-- The access that port 0 of a bank serves: fetch before capture (R413). -/
def port0Next (l : List SramReq) : Option SramReq :=
  match l.find? fun a => onPort0 a && a.master == 8 with | some a => some a | none => l.find? onPort0

/-- The access that port 1 of a bank serves: the first master in turn (R413); the march engine only where no other waits (R428). -/
def port1Next (turn : Nat) (l : List SramReq) : Option SramReq :=
  match (List.range 16).findSome? fun i => l.find? fun a => !onPort0 a && a.master != 10 && a.master.val == (turn + i) % 16 with
  | some a => some a
  | none => l.find? fun a => !onPort0 a

/-- Two accesses that the ports of a bank make in one cycle: reads first, then port 0's write, then port 1's (R417, R435). -/
def State.sramPair (s : State) (l : List SramReq) : State :=
  ((l.filter (·.write.isNone)) ++ l.filter (·.write.isSome)).foldl (fun s a => s.sramOne a) s

/-- The place of a master in the Keep's order (R436): safe-frame reads, the Dome, then every other. -/
def keepRank (a : SramReq) : Nat := if a.master == 9 then 0 else if a.master == 0 then 1 else 2

/-- The Keep's accesses of one cycle in the order they are served (R435, R436): reads first, each by rank. -/
def keepOrder (l : List SramReq) : List SramReq :=
  let ranked (l : List SramReq) : List SramReq := (List.range 3).flatMap fun k => l.filter fun a => keepRank a == k
  ranked (l.filter (·.write.isNone)) ++ ranked (l.filter (·.write.isSome))

/-- The master that port 1 of a bank serves next: kept for the Orangery alone (R413). -/
def State.bankTurn (s : State) (b : MemId × Nat) : Nat := if b.1 == MemId.org then s.org.turns[b.2 % 16]'(Nat.mod_lt _ (by decide)) else 0

/-- SRAM_ACCESS (R413, R417, R436): the accesses of one cycle, each SRAM bank serving one at each port in a cycle. `n` bounds the cycles. -/
def State.sramServe : Nat → State → List SramReq → State
  | 0, s, _ => s
  | n + 1, s, l =>
    match l with
    | [] => s
    | a :: _ =>
      let b := sramBank a
      let here := inBank b l
      if a.mem == .keep then State.sramServe n ((keepOrder here).foldl (fun s a => s.sramOne a) s) (here.foldl (fun l x => l.erase x) l)
      else
      let p0 := port0Next here
      let p1 := port1Next (s.bankTurn b) here
      let s := match p1 with
        | some x => if b.1 == MemId.org && x.master != 10 then
            { s with org := { s.org with turns := upd s.org.turns (f16 b.2) fun _ => (x.master.val + 1) % 16 } } else s
        | none => s
      let now := p0.toList ++ p1.toList
      State.sramServe n (s.sramPair now) (now.foldl (fun l x => l.erase x) l)

/-! ### STANDBY -/

/-- A DMC asleep: the last step of its entry into self-refresh (10, Self-refresh). -/
def Dmc.sleep (d : Dmc) : Dmc := { d with rtBurst := false, draining := false, fullRun := 0, ref := .selfRefresh, selfRef := true }

/-- One step of a DMC's entry into self-refresh: a queued read, a queued write, a refresh owed, or the entry itself (10). -/
def State.enterWork (s : State) (c : Fin 8) : State :=
  let d := s.dmcs[c.val]
  if d.selfRef then s
  else if d.rq.isEmpty && d.wq.isEmpty then s.modDmc c fun d => if d.debt = 0 then d.sleep else d.refAb 1
  else s.dmcIssue c

/-- STANDBY once the last DMC has entered self-refresh (R597). -/
def State.standbyReady (s : State) : State :=
  if s.pwr.entering && s.dmcs.toList.all (·.selfRef) then { s with pwr := { s.pwr with entering := false, standby := true } } else s

/-- A request for STANDBY (R597): refused while an output is enabled or a DMC is Dome-held (R470), cancelled by an access that waits already
(R411, R599); else every DMC begins its entry. -/
def State.standbyOn (s : State) : State :=
  let s0 := s
  let s := { s with pwr := { s.pwr with standbyReq := true } }
  let refuse (s : State) : State := { s with pwr := { s.pwr with reqErr := true } }
  let waits := !s.entry.isEmpty || s.ports.toList.any fun t => t.posted.any fun x => decide (0 < (s.hostDram x.2).2)
  if s.pwr.standby || s.pwr.entering then s
  else if s.outs.toList.any (fun u => u.enabled) then refuse s
  else if (s.dome.regions[0]).toList.any (fun r => r.en && r.secure) then (refuse s0).secureHeld 35
  else if waits then refuse s
  else { s with pwr := { s.pwr with entering := true } }

/-- A request for RUN (R598): it ends STANDBY, or an entry into it. -/
def State.standbyOff (s : State) : State :=
  let s := { s with pwr := { s.pwr with standbyReq := false } }
  if s.pwr.entering then
    let err := s.pwr.reqErr
    let s := s.wake
    { s with pwr := { s.pwr with reqErr := err } }
  else s.wake

/-! ### The rows -/

/-- DRAM_READ (R383). -/
def execDramRead (r : MemReq) (ecc : Ecc) (s : State) : Host.Outcome State Fault Refusal := act (fun s => s.dramRead r ecc) s

/-- DRAM_WRITE (R382). -/
def execDramWrite (r : MemReq) (data : List Byte) (same : Option (MemReq × Ecc)) (s : State) : Host.Outcome State Fault Refusal :=
  act (fun s => s.dramWrite r data same) s

/-- REFRESH_TICK (R387, R390). -/
def execRefreshTick (c : Fin 8) (s : State) : Host.Outcome State Fault Refusal :=
  act (fun s => if s.dmcLive c then s.modDmc c Dmc.tick else s) s

/-- RT_BURST_END (R388). -/
def execRtBurstEnd (c : Fin 8) (s : State) : Host.Outcome State Fault Refusal :=
  act (fun s => if s.dmcLive c then s.modDmc c Dmc.burstEnd else s) s

/-- MR4_READ (R391, R392). -/
def execMr4Read (c : Fin 8) (rate : Fin 32) (s : State) : Host.Outcome State Fault Refusal := act (fun s => s.mr4 c rate.val) s

/-- DQ_RETRAIN (R398, R399): retraining falls due; the next REFab does it. -/
def execDqRetrain (c : Fin 8) (drift : Bool) (s : State) : Host.Outcome State Fault Refusal :=
  act (fun s => if s.dmcLive c then s.modDmc c fun d => { d with retrain := some drift } else s) s

/-- RETRAIN_REFAB_DUE (R398). -/
def execRetrainRefabDue (c : Fin 8) (s : State) : Host.Outcome State Fault Refusal :=
  act (fun s => if s.dmcLive c then s.modDmc c Dmc.refabDue else s) s

/-- Whether a request for an open row waits at its channel: it is a row hit, and the row stays open (R8, R379). -/
def Dmc.rowWanted (d : Dmc) (ranks2 : Bool) (q : Nat × Nat) : Bool :=
  (d.rq.map (·.req.addr) ++ d.wq.map (·.addr)).any fun a => rowOf ranks2 a == q

/-- ROW_IDLE_CLOSE (R379). -/
def execRowIdleClose (c : Fin 8) (bank : Nat) (s : State) : Host.Outcome State Fault Refusal :=
  act (fun s => s.modDmc c fun d => { d with openRows := d.openRows.filter fun q => q.1 != bank || d.rowWanted s.dmcg.ranks2 q }) s

/-- SCRUB_READ (R408). -/
def execScrubRead (c : Fin 8) (ecc : Ecc) (s : State) : Host.Outcome State Fault Refusal := act (fun s => s.scrub c ecc) s

/-- SRAM_ACCESS (R417). -/
def execSramAccess (l : List SramReq) (s : State) : Host.Outcome State Fault Refusal := act (fun s => State.sramServe l.length s l) s

/-- STANDBY_REQUEST (R597): the manager's write of 1 to PWR_STATE_REQ. -/
def execStandbyRequest (s : State) : Host.Outcome State Fault Refusal := act (fun s => s.hostAcc 0 fun s => s.standbyOn) s

/-- RUN_REQUEST (R598): the manager's write of 0. -/
def execRunRequest (s : State) : Host.Outcome State Fault Refusal := act (fun s => s.hostAcc 0 fun s => s.standbyOff) s

end Sys2Proof.Machine
end

