-- ==== Sys2Proof/Machine/Topology.lean ====
section
/-!
DEFINITION. The declared topology image (08, R311, R312): its layout and the checks by which the Dome accepts it.
-/
namespace Sys2Proof.Machine
open Sys2Proof

/-- `n` bytes of an object at byte k, little-endian (R5). -/
def oU (l : List Byte) (k n : Nat) : Nat := ofLe ((l.drop k).take n)

/-- Whether bytes lo up to hi of an object are zero. -/
def oZero (l : List Byte) (lo hi : Nat) : Bool := ((l.drop lo).take (hi - lo)).all (· == 0)

/-- A device entry of an image. -/
structure DevEntry where
  serial : Nat
  id : Nat
  par : Nat
  bpar : Nat
  runIdx : Nat
  runCount : Nat
deriving DecidableEq, Repr

/-- A link entry of an image. -/
structure LinkEntry where
  a : Nat
  al : Nat
  b : Nat
  bl : Nat
  maxDelay : Nat
deriving DecidableEq, Repr

/-- An image's device entries. -/
def imgDevs (l : List Byte) : List DevEntry :=
  (List.range (oU l 32 2)).map fun i =>
    let k := oU l 160 4 + 32 * i
    ⟨oU l k 16, oU l (k + 16) 2, oU l (k + 18) 1, oU l (k + 19) 1, oU l (k + 20) 4, oU l (k + 24) 2⟩

/-- An image's link entries. -/
def imgLinks (l : List Byte) : List LinkEntry :=
  (List.range (oU l 36 4)).map fun i =>
    let k := oU l 164 4 + 12 * i
    ⟨oU l k 2, oU l (k + 2) 1, oU l (k + 4) 2, oU l (k + 6) 1, oU l (k + 8) 4⟩

/-- The route runs of a device: FIRST_ID, PRIMARY, ALTERNATE. -/
def imgRuns (l : List Byte) (d : DevEntry) : List (Nat × Nat × Nat) :=
  (List.range d.runCount).map fun i =>
    let w := oU l (oU l 168 4 + 4 * (d.runIdx + i)) 4
    (bits w 13 0, bits w 17 14, bits w 21 18)

/-- Whether a link code names a link or nothing (a PARENT-type field). -/
def parentCode (n : Nat) : Bool := decide (n < 12) || n == 15

/-- Whether the reserved bits of a device's route runs are zero. -/
def runsPlain (l : List Byte) (first n : Nat) : Bool :=
  (List.range n).all fun i => bits (oU l (oU l 168 4 + 4 * (first + i)) 4) 31 22 == 0

/-- Check 2 of R312: MAGIC, FORMAT, lengths, offsets, field ranges and reserved bytes. -/
def imgRange (l : List Byte) : Bool :=
  let n := l.length
  let devs := oU l 32 2
  let links := oU l 36 4
  let dOff := oU l 160 4
  let lOff := oU l 164 4
  let rOff := oU l 168 4
  let head := decide (236 ≤ n) && decide (n ≤ 4194304) && oU l 0 4 == 0x53505431 && oU l 4 2 == 1 && oZero l 6 8 && oU l 8 4 == n && oZero l 12 16
    && oZero l 34 36 && oZero l 58 64 && decide (1 ≤ devs) && decide (devs ≤ 16384) && decide (oU l 40 2 ≤ 16383) && decide (oU l 42 2 ≤ 16383)
    && (oU l 40 2 != oU l 42 2 || devs == 1) && decide (1000 ≤ oU l 52 4)
  let groups := (List.range 4).all fun g =>
    let k := 64 + 24 * g
    (decide (oU l k 1 ≤ 6) || oU l k 1 == 0xFF) && oZero l (k + 1) (k + 4) && oZero l (k + 20) (k + 24)
  let sects := decide (172 ≤ dOff) && decide (172 ≤ lOff) && decide (172 ≤ rOff) && decide (dOff + 32 * devs + 64 ≤ n)
    && decide (lOff + 12 * links + 64 ≤ n) && decide (rOff + 64 ≤ n)
  let dev (i : Nat) : Bool :=
    let k := dOff + 32 * i
    let par := oU l (k + 18) 1
    let bpar := oU l (k + 19) 1
    decide (oU l (k + 16) 2 ≤ 16383) && oZero l (k + 26) (k + 32) && parentCode (bits par 3 0) && parentCode (bits par 7 4)
      && parentCode (bits bpar 3 0) && parentCode (bits bpar 7 4) && decide (rOff + 4 * (oU l (k + 20) 4 + oU l (k + 24) 2) + 64 ≤ n)
      && runsPlain l (oU l (k + 20) 4) (oU l (k + 24) 2)
      && (i == 0 || decide (oU l (k - 16) 2 ≤ oU l (k + 16) 2))
  let link (i : Nat) : Bool :=
    let k := lOff + 12 * i
    decide (oU l k 2 ≤ 16383) && decide (oU l (k + 4) 2 ≤ 16383) && decide (oU l (k + 2) 1 ≤ 11) && decide (oU l (k + 6) 1 ≤ 11)
      && oZero l (k + 3) (k + 4) && oZero l (k + 7) (k + 8) && decide (1 ≤ oU l (k + 8) 4) && decide (oU l (k + 8) 4 ≤ 20000)
  head && groups && sects && (List.range devs).all dev && (List.range links).all link

/-- The far end of a device's link, with MAX_DELAY_NS. -/
def farEnd (ls : List LinkEntry) (id l : Nat) : Option (Nat × Nat × Nat) :=
  ls.findSome? fun e => if e.a = id ∧ e.al = l then some (e.b, e.bl, e.maxDelay) else if e.b = id ∧ e.bl = l then some (e.a, e.al, e.maxDelay) else none

/-- The path cost of R315 from a device up a tree's primary links to its root; none where the chain does not reach it. -/
def pathCost (ds : List DevEntry) (ls : List LinkEntry) (up : DevEntry → Nat) (root : Nat) : Nat → Nat → Option Nat
  | 0, _ => none
  | n + 1, id =>
    if id = root then some 0
    else match ds.find? fun d => d.id == id with
      | none => none
      | some d => match farEnd ls id (up d) with
        | none => none
        | some (far, _, delay) => (pathCost ds ls up root n far).map (· + 42 + delay)

/-- Whether a list of numbers has no repeats; lists of at most 16,384 IDs are sorted already. -/
def nodupB (l : List Nat) : Bool := match l with | [] => true | x :: r => !r.contains x && nodupB r

/-- Runs ascend by FIRST_ID from 0 and name links, this device or nothing. -/
def runsOk (rs : List (Nat × Nat × Nat)) : Bool :=
  (match rs with | (f, _, _) :: _ => f == 0 | [] => false)
    && (rs.zip (rs.drop 1)).all (fun q => decide (q.1.1 < q.2.1))
    && rs.all fun r => (decide (r.2.1 ≤ 12) || r.2.1 == 15) && (decide (r.2.2 ≤ 12) || r.2.2 == 15)

/-- Check 5 of R312. -/
def imgGraph (l : List Byte) : Bool :=
  let ds := imgDevs l
  let ls := imgLinks l
  let declared (d : DevEntry) (c : Nat) : Bool := c == 15 || (farEnd ls d.id c).isSome
  nodupB (ds.map DevEntry.id) && nodupB (ds.map DevEntry.serial) && nodupB (ls.flatMap fun e => [e.a * 16 + e.al, e.b * 16 + e.bl])
    && ds.all (fun d => declared d (bits d.par 3 0) && declared d (bits d.par 7 4) && declared d (bits d.bpar 3 0) && declared d (bits d.bpar 7 4))
    && ds.all (fun d => (pathCost ds ls (fun d => bits d.par 3 0) (oU l 40 2) (ds.length + 1) d.id).isSome)
    && ds.all (fun d => (pathCost ds ls (fun d => bits d.bpar 3 0) (oU l 42 2) (ds.length + 1) d.id).isSome)
    && ds.all fun d => runsOk (imgRuns l d)

/-- Check 6 of R312: R315, R311, R328 and R324. -/
def imgTimes (l : List Byte) : Bool :=
  let ds := imgDevs l
  let ls := imgLinks l
  let prop := oU l 44 4
  let cost (up : DevEntry → Nat) (root : Nat) : Bool :=
    ds.all fun d => match pathCost ds ls up root (ds.length + 1) d.id with | some c => decide (c ≤ prop) | none => false
  cost (fun d => bits d.par 3 0) (oU l 40 2) && cost (fun d => bits d.bpar 3 0) (oU l 42 2) && decide (2 * prop ≤ oU l 48 4)
    && (List.range 4).all fun g =>
      let k := 64 + 24 * g
      oU l k 1 == 0xFF || (decide (oU l (k + 8) 4 * 1000 < classPs (oU l k 1)) && decide (oU l (k + 12) 8 * 1000 < classPs (oU l k 1)))

/-- What the device of a serial keeps of an image (R311). -/
def imgOf (l : List Byte) (d : DevEntry) : Image :=
  let ds := imgDevs l
  let ls := imgLinks l
  let grp (g : Nat) : RateGroup := let k := 64 + 24 * g; { cls := oU l k 1, guardNs := oU l (k + 4) 4, reportNs := oU l (k + 8) 4, originNs := oU l (k + 12) 8 }
  { wallId := w64 (oU l 16 8), gen := w64 (oU l 24 8), myId := d.id, masterId := oU l 40 2, backupId := oU l 42 2
    devices := ds.map fun e => (e.id, BitVec.ofNat 128 e.serial), propNs := oU l 44 4, safeNs := oU l 48 4, marginNs := oU l 52 4
    maxHops := oU l 56 2, groups := #v[grp 0, grp 1, grp 2, grp 3]
    parents := #v[bits d.par 3 0, bits d.par 7 4, bits d.bpar 3 0, bits d.bpar 7 4]
    pairings := (List.range 12).filterMap fun k => (farEnd ls d.id k).map fun f =>
      let nb := ds.find? fun e => e.id == f.1
      { link := k, id := f.1, nbLink := f.2.1, maxDelay := f.2.2
        serial := BitVec.ofNat 128 (match nb with | some e => e.serial | none => 0)
        nbParent := match nb with | some e => bits e.par 3 0 == f.2.1 | none => false
        nbBParent := match nb with | some e => bits e.bpar 3 0 == f.2.1 | none => false }
    runs := imgRuns l d }

/-- The checks of R312 in order: 0 and the image, or the first failing code. `key` is the customer key, `rec` the accepted wall's
WALL_ID and GENERATION. -/
def imgCheck (key : List Byte) (rec : Nat × Nat) (serial : Nat) (l : List Byte) : Nat × Option Image :=
  if !signedBy key l then (1, none)
  else if !imgRange l then (2, none)
  else if oU l 16 8 = rec.1 ∧ oU l 24 8 < rec.2 then (3, none)
  else match (imgDevs l).filter fun d => d.serial == serial with
    | [d] => if !imgGraph l then (5, none) else if !imgTimes l then (6, none) else (0, some (imgOf l d))
    | _ => (4, none)

end Sys2Proof.Machine
end

