-- ==== Sys2Proof/Machine/Policy.lean ====
section
/-!
DEFINITION. The objects the Dome checks (12): firmware, the policy, safe frames; how a policy is applied (R447 to R451); writes to
the Keep.
-/
namespace Sys2Proof.Machine
open Sys2Proof

/-! ### The Keep -/

/-- Bytes of the Keep as the Dome reads them; none where the read meets an uncorrectable error (R437). -/
def State.keepBytes (s : State) (a n : Nat) : List Byte := if s.poisoned .keep a n then [] else s.rdBytes .keep a n

/-- A value of the Keep as the Dome reads it; 0 where the read fails. -/
def State.keepVal (s : State) (a n : Nat) : Nat := ofLe (s.keepBytes a n)

/-- The errors that such a read meets, corrected and counted (R437). -/
def State.keepNote (s : State) (a n : Nat) : State := (s.readErrs .keep a n none).1

/-- IN_FORCE_GEN of the system record (R438). -/
def State.inForceGen (s : State) : Nat := s.keepVal 0x100 8
/-- PENDING_GEN of the system record. -/
def State.pendingGen (s : State) : Nat := s.keepVal 0x108 8
/-- The accepted wall record: WALL_ID and GENERATION. -/
def State.wallRecord (s : State) : Nat × Nat := (s.keepVal 0x40 8, s.keepVal 0x48 8)

/-! ### The carried record -/

/-- The carried record written to the secure partition (R477). Neither its place nor the partition's ciphertext is given: it stands behind the key
block, as 32 bytes that are free (DESIGN CHOICE, log 52). -/
def State.putCarried (s : State) : State :=
  let v := Config.freeNonce s.freeCount
  let s := { s with freeCount := s.freeCount + 1 }.keepPut 0xF00040 (leBytes 32 v.toNat)
  { s with dome := { s.dome with carried := true } }

/-- The carried record erased (R477). -/
def State.eraseCarried (s : State) : State :=
  let s := s.keepPut 0xF00040 (List.replicate 32 0)
  { s with dome := { s.dome with carried := false } }

/-- Whether the carried record can be read. -/
def State.carriedOk (s : State) : Bool := s.dome.carried && !s.poisoned .keep 0xF00040 32

/-- The customer public key as bytes. -/
def State.custKey (s : State) : List Byte := leBytes 64 s.dome.custKey.toNat

/-! ### Life cycle -/

/-- Burnt bits of a word. -/
def popcount (n w : Nat) : Nat := ((List.range n).filter fun i => w.testBit i).length

/-- The life-cycle state of a fuse word (R480): 0 BLANK, 1 BUILD, 2 FIELD, 3 RETIRED. -/
def lcOf (w : Word) : Nat :=
  let n := popcount 30 w.toNat
  if w.getLsbD 31 then 3 else if n = 0 then 0 else if n % 2 = 1 then 1 else 2

/-! ### Firmware -/

/-- Length of a firmware object whose header says CODE_BYTES. -/
def fwLen (l : List Byte) : Nat := 192 + oU l 12 4

/-- R447 but for the signature: MAGIC, the key's digest, SEC_VERSION and a length that the Keep copy's 1 MiB holds (R438). -/
def State.fwFields (s : State) (l : List Byte) : Bool :=
  oU l 0 4 == 0x444D4657 && ofLe (sha256 ((l.drop 16).take 64)) == Config.romDigest.toNat && decide (popcount 32 s.dome.secVersion.toNat ≤ oU l 8 4)
    && decide (l.length ≤ 2 ^ 20) && l.length == fwLen l

/-- Whether a firmware object passes R447. -/
def State.fwOk (s : State) (l : List Byte) : Bool := signedBy ((l.drop 16).take 64) l && s.fwFields l

/-- The Keep firmware copy (R438). -/
def State.keepFw (s : State) : List Byte := s.keepBytes 0x100000 (min (fwLen (s.keepBytes 0x100000 16)) (2 ^ 20))

/-- The errors met as it is read (R437). -/
def State.noteFw (s : State) : State := s.keepNote 0x100000 (min (fwLen (s.keepBytes 0x100000 16)) (2 ^ 20))

/-- A firmware object that passed its checks loaded: its code, from byte 128 on, into the Dome SRAM (R447, R476 step 3), at offset 0 (DESIGN CHOICE,
log 52), and its version in force. -/
def State.loadFw (s : State) (l : List Byte) : State :=
  let s := s.stWords .dome 0 ((l.drop 128).take (oU l 12 4))
  { s with dome := { s.dome with fwVersion := w32 (oU l 4 4) } }

/-- SEC_VERSION fuses burnt up to a firmware's (R448). -/
def State.burnSec (s : State) (l : List Byte) : State :=
  let n := min 32 (oU l 8 4)
  if popcount 32 s.dome.secVersion.toNat < n then { s with dome := { s.dome with secVersion := w32 (2 ^ n - 1) } } else s

/-! ### The policy -/

/-- Offset of the BELV entry of an output. -/
def belvOff (o : Fin 8) : Nat := 1088 + 96 * o.val

/-- Whether a BELV entry's key fields are all zero. -/
def keyBlank (l : List Byte) (o : Fin 8) : Bool := oZero l (belvOff o + 32) (belvOff o + 92)

/-- The slot key of a BELV entry, unwrapped with the KEK (12, policy layout). -/
def State.unwrap (s : State) (l : List Byte) (o : Fin 8) : Option (BitVec 256) :=
  let k := belvOff o
  (gcmOpen (leBytes 32 s.dome.kek.toNat) ((l.drop (k + 32)).take 12) ((l.drop 16).take 24 ++ [BitVec.ofNat 8 o.val]) ((l.drop (k + 44)).take 32)
    ((l.drop (k + 76)).take 16)).map fun b => BitVec.ofNat 256 (ofLe b)

/-- The bytes of a BELV entry's secure buffers: 2 × (W × H × bytes per pixel + 1,024), rounded up to 4 KiB. -/
def belvBytes (l : List Byte) (o : Fin 8) : Nat :=
  let k := belvOff o
  cdiv (2 * (oU l (k + 8) 2 * oU l (k + 10) 2 * (if bit (oU l k 1) 1 then 1 else 4) + 1024)) 4096 * 4096

/-- Whether a BELV entry's rectangle lies within every mode of its output's rate-group class (12, policy layout; R277). A group that has no class
yet binds nothing: its output's mode, once it has one, clips the layer (DESIGN CHOICE, log 52). -/
def State.belvFits (s : State) (l : List Byte) (o : Fin 8) : Bool :=
  let k := belvOff o
  match s.rgClass s.outs[o.val].set.rg with
  | none => true
  | some c => (modesA ++ modesB).all fun m => m.cls != c ||
      (decide (oU l (k + 4) 2 + oU l (k + 8) 2 ≤ m.w) && decide (oU l (k + 6) 2 + oU l (k + 10) 2 ≤ m.h))

/-- Check 2 of POLICY_ERR for one BELV entry (R277, R280). -/
def State.belvRange (s : State) (l : List Byte) (o : Fin 8) : Bool :=
  let k := belvOff o
  let en := bit (oU l k 1) 0
  let b := oU l (k + 24) 8
  let inMem := if bit (oU l (k + 2) 1) 0 then decide (b + belvBytes l o ≤ 0x1FE0000)
    else decide (0x1000000000 ≤ b) && decide (b + belvBytes l o ≤ 0x1000000000 + s.memSize .dram)
  decide (oU l k 1 < 16) && decide (oU l (k + 1) 1 < 64) && decide (oU l (k + 2) 1 < 2) && oZero l (k + 3) (k + 4) && oZero l (k + 20) (k + 24)
    && oZero l (k + 92) (k + 96) && s.belvFits l o && decide (oU l (k + 8) 2 ≤ 3840) && decide (oU l (k + 10) 2 ≤ 2160) && b % 4096 == 0
    && (!en || (decide (oU l (k + 12) 4 < oU l (k + 16) 4) && decide (0 < oU l (k + 8) 2) && decide (0 < oU l (k + 10) 2) && inMem))

/-- Check 2 of POLICY_ERR: every field in range, reserved bytes zero. -/
def State.policyRange (s : State) (l : List Byte) : Bool :=
  let n := l.length
  let hz := oU l 46 2
  let pav (p : Nat) : Bool :=
    let k := 64 + 16 * p
    decide (oU l k 1 < 16) && decide (oU l (k + 1) 1 < 4) && oZero l (k + 2) (k + 4) && oZero l (k + 12) (k + 16) && (oU l k 1).testBit (oU l (k + 1) 1)
  let out (i : Nat) : Bool := let k := 1952 + 8 * i; (oU l k 1 == 0 || eventCodes.contains (oU l k 1)) && oZero l (k + 2) (k + 4)
  let inn (i : Nat) : Bool := let k := 2080 + 8 * i; decide (oU l (k + 4) 1 < 2) && decide (oU l (k + 6) 1 ≤ 6) && oZero l (k + 7) (k + 8)
    && (oU l (k + 4) 1 == 0 || oU l (k + 6) 1 != 0)
  decide (2272 ≤ n) && decide (n ≤ 983040) && oU l 0 4 == 0x504F4C31 && oU l 4 2 == 1 && oZero l 6 8 && oU l 8 4 == n && oZero l 12 16
    && decide (oU l 44 1 ≤ 2) && oZero l 45 46 && (hz == 0 || (decide (200 ≤ hz) && decide (hz ≤ 4000))) && oZero l 49 52
    && decide (oU l 56 1 < 2) && oZero l 57 64 && (List.range 64).all pav && (idx 8).all (s.belvRange l)
    && decide (8 ≤ oU l 1856 1) && decide (oU l 1856 1 ≤ 64) && decide (oU l 1857 1 < 4) && oZero l 1858 1864
    && (List.range 16).all out && (List.range 16).all inn && oZero l 2208 (n - 64)

/-- Whether the secure buffers of enabled slots overlap one another or an ECC top eighth (R449). -/
def State.buffersMeet (s : State) (l : List Byte) : Bool :=
  let on : List (Fin 8) := (idx 8).filter fun o => bit (oU l (belvOff o) 1) 0
  let base (o : Fin 8) : Nat := oU l (belvOff o + 24) 8
  on.any fun o => on.any (fun q => o != q && decide (base o < base q + belvBytes l q) && decide (base q < base o + belvBytes l o))
    || (inDram (base o) && (List.range (belvBytes l o / 4096)).any fun k => s.eccTop ((base o - 0x1000000000) / 4096 + k))

/-- The checks of R449 in order: 0, or the POLICY_ERR code of the first that fails. `last` is the generation accepted before. -/
def State.policyCheck (s : State) (last : Nat) (l : List Byte) : Nat :=
  if !signedBy s.custKey l then 1
  else if !s.policyRange l then 2
  else if oU l 16 8 < last then 3
  else if oU l 24 16 ≠ 0 ∧ oU l 24 16 ≠ s.dome.serial.toNat then 4
  else if !s.dome.tamperKeys && (idx 8).any (fun o => (bit (oU l (belvOff o) 1) 0 || !keyBlank l o) && (s.unwrap l o).isNone) then 5
  else if s.buffersMeet l then 6
  else 0

/-- What a policy changes as it is accepted: the Pavilion table, the SAFE tables and the halt settings (R451). -/
def State.applyTables (s : State) (l : List Byte) : State :=
  let pol (p : Fin 64) : LtnPolicy :=
    let k := 64 + 16 * p.val
    { actions := oU l k 1, defAction := oU l (k + 1) 1, max1 := w32 (oU l (k + 4) 4), max2 := w32 (oU l (k + 8) 4) }
  { s with
    ltn := Vector.ofFn pol
    dome := { s.dome with policy := { s.dome.policy with
      haltHz := oU l 46 2, haltLevel := oU l 48 1, haltWord := w32 (oU l 52 4), haltAlarm := bit (oU l 56 1) 0
      safeOut := (List.range 16).filterMap fun i => let k := 1952 + 8 * i
        if oU l k 1 = 0 then none else some { code := oU l k 1, inst := oU l (k + 1) 1, word := w32 (oU l (k + 4) 4) }
      safeIn := (List.range 16).filterMap fun i => let k := 2080 + 8 * i
        if oU l (k + 4) 1 = 0 then none else some { word := w32 (oU l k 4), mask := BitVec.ofNat 8 (oU l (k + 5) 1), action := oU l (k + 6) 1 } } } }

/-- Blocks that can be secure: the codes below 0x80 that name a block (12, block codes); window 0 is the Dome's already. -/
def blockCode (b : Nat) : Bool := decide (b ≤ 0x51) || (decide (0x60 ≤ b) && decide (b < 0x80) && b % 4 != 0)

/-- A block map cut to the blocks there are. -/
def blockMap (m : Nat) : BitVec 256 := BitVec.ofNat 256 (((List.range 0x80).filter fun b => blockCode b && m.testBit b).map fun b => 2 ^ b).sum

/-- One Belvedere slot as a policy sets it; its UPDATE_SEQ stays (R285, R451). -/
def State.belvFrom (s : State) (l : List Byte) (o : Fin 8) : Belv :=
  let k := belvOff o
  let key := if s.dome.tamperKeys || keyBlank l o then none else s.unwrap l o
  { seq := (s.belvs[o.val]).seq
    cfg := w32 (oU l k 1 % 16 + oU l (k + 1) 1 % 64 * 256), pos := w32 (oU l (k + 4) 4), size := w32 (oU l (k + 8) 4)
    limit := w32 (oU l (k + 12) 4), limit2 := w32 (oU l (k + 16) 4), bufBase := oU l (k + 24) 8, hasKey := key.isSome, key := key.getD 0 }

/-- The rest of a policy, taken at a boot (R451): Belvedere slots, proof parameters, block worlds, identity and TAMPER_RESPONSE. -/
def State.applyRest (s : State) (l : List Byte) : State :=
  let crc : Crc := { width := oU l 1856 1, refin := bit (oU l 1857 1) 0, refout := bit (oU l 1857 1) 1
                     poly := w64 (oU l 1864 8), init := w64 (oU l 1872 8), xorout := w64 (oU l 1880 8) }
  let s := { s with
    belvs := Vector.ofFn fun o => s.belvFrom l o
    outs := s.outs.map fun u => { u with pcrc := crc }
    dome := { s.dome with
      held := blockMap (oU l 1888 32) ||| ((1 : BitVec 256) <<< 0x4F)
      policyGen := w64 (oU l 16 8)
      policy := { s.dome.policy with subsys := w32 (oU l 40 4), tamperResponse := oU l 44 1, movable := putB (blockMap (oU l 1920 32)) 0x4F false } } }
  (idx 8).foldl (fun s o => s.reEval o) s

/-- The empty policy (R450). -/
def State.applyEmpty (s : State) : State :=
  { s with
    ltn := Vector.replicate 64 {}
    belvs := s.belvs.map fun b => { seq := b.seq }
    dome := { s.dome with held := (1 : BitVec 256) <<< 0x4F, policy := {}, policyGen := 0 } }

/-- The regions the Dome programs at a boot (R451, R463; log 14): the secure buffers first, then what the normal world may reach. -/
def State.bootRegions (s : State) : State :=
  let buf (m : Nat) : List Region := (idx 8).filterMap fun o =>
    let b := s.belvs[o.val]
    let w := bits b.size.toNat 15 0
    let h := bits b.size.toNat 31 16
    let n := cdiv (2 * (w * h * (if b.cfg.getLsbD 1 then 1 else 4) + 1024)) 4096
    let dram := inDram b.bufBase
    if !b.cfg.getLsbD 0 || dram != (m == 0) then none
    else
      let base := (if dram then b.bufBase - 0x1000000000 else b.bufBase) / 4096
      some { base, limit := base + n - 1, read := 0x101, write := 0x001, en := true, secure := true }
  let all (hi : Nat) : Region := { base := 0, limit := hi, read := 0x3FF, write := 0x3FF, en := true }
  let keep : List Region :=
    [{ base := 0x600, limit := 0xA0F, read := 0x201, write := 0x001, en := true, secure := true },
     { base := 0xA10, limit := 0xEFF, read := 0x011, write := 0x011, en := true }]
  let fill (l : List Region) : Vector Region 64 := Vector.ofFn fun i => l.getD i.val {}
  { s with dome := { s.dome with regions := #v[fill (buf 0 ++ [all 0xFFFFFF]), fill (buf 1 ++ [all 0x1FFF]), fill keep] } }

/-! ### Safe frames -/

/-- The safe-frame rule (12): 0 accepted, 1 a bad signature, 2 a bad field; the object names its output. -/
def State.safeFrameCheck (s : State) (l : List Byte) : Nat :=
  if !signedBy s.custKey l then 1
  else
    let img := (l.drop 64).take 520448
    let ok := l.length == 520576 && oU l 0 4 == 0x5346494E && decide (oU l 4 1 < 8) && oZero l 5 64 && oU img 0 4 == 0x5346524D && oU img 4 2 == 960
      && oU img 6 2 == 540 && oZero img 0xC 0x400 && oU img 8 4 == crcOf {} ((img.drop 0x400).take 1024 ++ (img.drop 0x800).take 518400)
    if ok then 0 else 2

/-- A safe frame written to its slot, which is judged again (R439). -/
def State.safeFramePut (s : State) (l : List Byte) : State :=
  let o := f8 (oU l 4 1)
  (s.keepPut (sfBase o) ((l.drop 64).take 520448)).sfJudge o

end Sys2Proof.Machine
end

