-- ==== Sys2Proof/Machine/Resets.lean ====
section
/-!
DEFINITION. Resets (16, "Supplies" and "Reset pins"; 19, reset domains): power-on and warm resets, rails, the thermal trip and a stopped
RCO. A reset ends with the command BOOT, with PORST_N or with the rails.
-/
namespace Sys2Proof.Machine
open Sys2Proof

/-! ### What a reset leaves -/

/-- The memories' stored bytes, the queue and what was sent stay with the device through every reset; so do the fuses and what the Keep
holds (16, "What the device keeps"). -/
def State.resetCold (s : State) : State :=
  { State.reset with
    pending := s.pending
    img := s.img
    stores := s.stores
    poison := s.poison.filter fun q => q.1 == .keep
    tx := s.tx
    freeCount := s.freeCount
    belvs := s.belvs.map fun b => { seq := b.seq }
    org := { fuseRepairs := s.org.fuseRepairs }
    dome := { State.reset.dome with
      lcFuse := s.dome.lcFuse, secVersion := s.dome.secVersion, custKey := s.dome.custKey, kek := s.dome.kek, serial := s.dome.serial
      carried := s.dome.carried }
    glb := { gpioIn := s.glb.gpioIn, sbPins := s.glb.sbPins, sbAddr := s.glb.sbAddr }
    pwr := { cause := s.pwr.cause, railGood := s.pwr.railGood } }

/-- Every island but AON reset (R579, R661): the AON registers, Spire time in holdover, the clock monitors, the sideband view and the
pins' levels stay; a monitor that a faulty RCO had stopped starts anew (R547). -/
def State.resetWarm (s : State) : State :=
  let t := s.resetCold
  let c := s.clk
  { t with
    period := s.period
    org := { t.org with preserveLog := s.org.preserveLog }
    spire := { t.spire with now := s.spire.now, frac := s.spire.frac, rate := s.spire.rate, holdover := true }
    dome := { t.dome with tamper := s.dome.tamper, tamperKeys := s.dome.tamperKeys }
    clk := { t.clk with
      xinOk := c.xinOk, monTracking := c.monTracking, monCount := c.monCount, monTrack := c.monTrack
      monSum := if c.rcoFail then 0 else c.monSum, monWindows := if c.rcoFail then 0 else c.monWindows, refclkOk := c.refclkOk }
    pwr := { s.pwr with standby := false, stage := 0, booted := false }
    glb := { s.glb with gpioOut := 0, gpioOe := 0, gpioPull := 0xFFFF } }

/-! ### Warm resets -/

/-- A warm reset from a cause of PWR_RESET_CAUSE (R578): during a power-on reset, a trip or without a clock it has no effect. -/
def State.warmReset (s : State) (cause : Nat) : State :=
  match s.pwr.reset with
  | .running | .warm =>
    let t := s.resetWarm
    { t with pwr := { t.pwr with reset := .warm, cause := BitVec.ofNat 5 (2 ^ cause), destructive := s.pwr.destructive } }
  | _ => s

/-- The warm reset that the Dome starts (R467, R482). -/
def State.domeReset (s : State) : State := s.warmReset 4

/-! ### Power-on resets and rails -/

/-- PORST_N low (R576, R577): everything but fuses and the Keep is reset, the trip and the tamper latch with it. -/
def State.porst (s : State) : State :=
  let t := s.resetCold
  { t with pwr := { t.pwr with reset := .powerOn, cause := 1 } }

/-- The state a device takes that no reset pin holds: held while a rail is bad or a trip is latched. -/
def State.released (s : State) : State :=
  { s with pwr := { s.pwr with
    reset := if s.pwr.railGood != 0x1F then .railDown else if s.glb.tripped then .tripped else .running } }

/-- PORST_N rises (R576): Spire time starts at 0, and the address pins are sampled (R610). -/
def State.porstRise (s : State) : State :=
  if s.pwr.reset == .powerOn then { s with glb := { s.glb with sbAddr := s.glb.sbPins, sbWait := true } }.released else s

/-- Words still in the Keep's write buffer as power fails are lost (R434). -/
def State.bufferLost (s : State) : State :=
  { s with keep := { s.keep with dbuf := [], buf := [] } }

/-- A rail falls below its power-good level (R575): a power-on reset, which spares the AON domain unless the rail is VDD_AON. A tamper stays
latched until PORST_N. -/
def State.railFall (s0 : State) (r : Fin 5) : State :=
  let s := s0.bufferLost
  let bad (t : State) : State := { t with pwr := { t.pwr with railGood := putB t.pwr.railGood r.val false } }
  if r = 0 then
    match s.pwr.reset with
    | .powerOn => bad s
    | _ =>
      let t := bad s.resetCold
      { t with
        dome := { t.dome with tamper := s.dome.tamper, tamperKeys := s.dome.tamperKeys }
        pwr := { t.pwr with reset := .railDown, cause := 2 } }
  else
    match s.pwr.reset with
    | .powerOn | .railDown | .dead => bad s
    | _ =>
      let t := bad s.resetWarm
      { t with pwr := { t.pwr with reset := .railDown, cause := 2, railDropped := BitVec.ofNat 5 (2 ^ r.val), destructive := false } }

/-- Every rail at its power-good level (R575). -/
def State.railsGood (s : State) : State :=
  let s := { s with pwr := { s.pwr with railGood := 0x1F } }
  if s.pwr.reset == .railDown then s.released else s

/-! ### RCO stopped -/

/-- RCO stopped (R555): the device carries on from XIN as after a faulty RCO, or, without XIN, no clock is left. -/
def State.rcoStop (s : State) : State :=
  match s.pwr.reset with
  | .powerOn | .railDown | .dead => s
  | _ =>
    if s.clk.onRco then
      let t := s.resetCold
      { t with
        dome := { t.dome with tamper := s.dome.tamper, tamperKeys := s.dome.tamperKeys }
        pwr := { t.pwr with reset := .dead } }
    else if s.pwr.reset == .running then s.rcoFaulty
    else { s with clk := { s.clk with rcoFail := true, aonOnXin := true, monTracking := false } }

/-! ### Temperature -/

/-- The WARN threshold in force. -/
def warnAt (w : Word) : Int := max 500 (min 1050 (bits w.toNat 15 0))

/-- EV_THERMAL to the Dome and, while armed, to Pavilion 0. -/
def State.raiseThermal (s : State) (tj : Int) : State :=
  s.domeAnd0 { code := evThermal, time := s.now, detail := (tj % 2 ^ 64).toNat }

/-- A sample judged against WARN (R631). -/
def State.judgeWarn (s : State) (tj : Int) : State :=
  if !s.glb.warn && decide (warnAt s.glb.warnTh ≤ tj) then ({ s with glb := { s.glb with warn := true } }).raiseThermal tj
  else if s.glb.warn && decide (tj < warnAt s.glb.warnTh - 50) then ({ s with glb := { s.glb with warn := false } }).raiseThermal tj
  else s

/-- The thermal trip (R632): every island but AON is held in reset until PORST_N or the loss of VDD_AON. -/
def State.trip (s : State) : State :=
  let t := s.resetWarm
  { t with
    glb := { t.glb with tripped := true }
    pwr := { t.pwr with reset := if s.pwr.reset == .railDown then .railDown else .tripped, destructive := false } }

/-- THERMAL_SAMPLE (R630): status and peak, then WARN while the device runs, then the trip. Nothing samples while AON is in reset. -/
def State.sampleTj (s : State) (tj : Int) : State :=
  if s.pwr.reset == .powerOn || s.pwr.reset == .dead || !s.pwr.railGood.getLsbD 0 then s
  else
    let s := { s with glb := { s.glb with tj, tjPeak := max tj s.glb.tjPeak } }
    let s := if s.pwr.reset == .running then s.judgeWarn tj else s
    if 1150 ≤ tj ∧ !s.glb.tripped then s.trip else s

/-! ### The rows -/

/-- POWER_ON_RESET (R577). -/
def execPowerOnReset (s : State) : Host.Outcome State Fault Refusal := actAon (fun s => s.porst) s

/-- PORST_RELEASE (R576). -/
def execPorstRelease (s : State) : Host.Outcome State Fault Refusal := actAon (fun s => s.porstRise) s

/-- WRST_PIN (R578). -/
def execWrstPin (s : State) : Host.Outcome State Fault Refusal := actAon (fun s => s.warmReset 2) s

/-- RAIL_DROP (R575). -/
def execRailDrop (r : Fin 5) (s : State) : Host.Outcome State Fault Refusal := actAon (fun s => s.railFall r) s

/-- RAIL_POWER_GOOD (R575). -/
def execRailPowerGood (s : State) : Host.Outcome State Fault Refusal := actAon (fun s => s.railsGood) s

/-- RCO_STOPPED (R555). -/
def execRcoStopped (s : State) : Host.Outcome State Fault Refusal := actAon (fun s => s.rcoStop) s

/-- THERMAL_SAMPLE (R630 to R632). -/
def execThermalSample (tj : Int) (s : State) : Host.Outcome State Fault Refusal := actAon (fun s => s.sampleTj tj) s

end Sys2Proof.Machine
end

