-- ==== Sys2Proof/Machine/DomeMsg.lean ====
section
/-!
DEFINITION. The mailbox commands and the plain Dome requests (12, Mailboxes, Life cycle; 11, Repair; 16, recovery).
-/
namespace Sys2Proof.Machine
open Sys2Proof

/-! ### SEND, ACK and the timeout -/

/-- A write to PAV_MBX_SEND (R452, R455). -/
def State.mbxSend (s : State) (p : Fin 64) (v : Word) : State :=
  (idx 2).foldl (fun s i =>
    let x := s.pavs[p.val].mbox[i.val]
    if !v.getLsbD i.val then s
    else if x.busy || x.full then s.modPav p fun q => { q with sendErr := true }
    else
      let s := s.modMbox p i fun x => { x with busy := true, taken := false }
      match s.dome.st with
      | .restart | .down => s.mbxReply p i (downReply x.inp)
      | _ => s) s

/-- A write to PAV_MBX_ACK (R453). -/
def State.mbxAck (s : State) (p : Fin 64) (v : Word) : State :=
  (idx 2).foldl (fun s i => if v.getLsbD i.val then s.modMbox p i fun x => { x with full := false } else s) s

/-- A reply the Dome still owes to a slot is discarded when it comes (R454). -/
def State.forgetReply (s : State) (p : Fin 64) (i : Fin 2) : State :=
  let drop (r : Option (Fin 64 × Fin 2)) : Option (Fin 64 × Fin 2) := if r = some (p, i) then none else r
  { s with
    org := { s.org with marchReply := drop s.org.marchReply }
    dome := { s.dome with ho := s.dome.ho.map fun (h : Handover) => { h with reply := drop h.reply } }
    belvs := s.belvs.map fun (b : Belv) => { b with next := b.next.map fun (n : BelvBuf) => { n with reply := drop n.reply } } }

/-- MAILBOX_TIMEOUT of a slot (R454). -/
def State.mbxTimeout (s : State) (p : Fin 64) (i : Fin 2) : State :=
  let x := s.pavs[p.val].mbox[i.val]
  if !x.busy then s
  else
    let s := { s with dome := { s.dome with mbxTimeouts := satInc s.dome.mbxTimeouts } }
    (s.forgetReply p i).mbxReply p i (timeoutReply x.inp)

/-- The request types of 12, Mailboxes. -/
def mbxTypes : List Nat := [1, 2, 3, 4, 5, 0x10, 0x11, 0x12, 0x13, 0x14, 0x15, 0x16, 0x17]

/-! ### INFO -/

/-- DOME_STATUS.STATE. -/
def domeCode : DomeSt → Nat
  | .boot => 0
  | .run => 1
  | .restart => 2
  | .down => 3

/-- The reply of INFO; the serial number (R604), for which the table of INFO has no bytes, stands in bytes 40 to 55 (log 34). -/
def State.infoFields (s : State) : List (Nat × Nat × Nat) :=
  [(8, 1, lcOf s.dome.lcFuse), (9, 1, domeCode s.dome.st), (12, 4, s.dome.fwVersion.toNat), (16, 8, s.dome.policyGen.toNat),
   (24, 8, match s.spire.image with | some i => i.gen.toNat | none => 0), (32, 1, s.keep.sfVerified.toNat),
   (33, 1, b2n s.pwr.memDegraded + 2 * b2n s.org.unrepaired), (40, 16, s.dome.serial.toNat)]

/-! ### March runs -/

/-- The Keep repair map: its entries before the one that is all zero (R438). -/
def State.repairMap (s : State) : List Nat := ((List.range 2048).map fun i => s.keepVal (0x1000 + 8 * i) 8).takeWhile (· != 0)

/-- The repair an entry of the map stands for: memory, bank, kind (1 column) and failing index (R438). -/
def repairOf (e : Nat) : Nat × Nat × Nat × Nat := (bits e 3 0, bits e 8 4, bits e 9 9, bits e 26 16)

/-- The repairs a boot applies: those of the fuses, then those of the Keep repair map (R431). -/
def State.bootRepairs (s : State) : State :=
  let s := s.keepNote 0x1000 16384
  { s with org := { s.org with applied := s.org.fuseRepairs ++ s.repairMap.map repairOf } }

/-- Spares of a kind (0 rows, 1 columns) that the repairs in effect use in a bank. -/
def State.sparesUsed (s : State) (mem bank kind : Nat) : Nat :=
  (s.org.applied.filter fun q => q.1 == mem && q.2.1 == bank && q.2.2.1 == kind).length

/-- Spares of a bank: 4 rows and 2 columns in the Orangery, 2 rows and 1 column elsewhere (11, Repair). -/
def spares (mem kind : Nat) : Nat := if mem = 0 then (if kind = 0 then 4 else 2) else if kind = 0 then 2 else 1

/-- The repairs a run's failing bits call for: memory, bank, kind and index (R430). -/
def repairNeeds (fails : List MarchFail) : List (Nat × Nat × Nat × Nat) :=
  (fails.map fun f =>
    let rows := ((fails.filter fun g => g.mem == f.mem && g.bank == f.bank && g.bit == f.bit).map fun g => g.row).eraseDups
    if 2 ≤ rows.length then (f.mem.val, f.bank.val, 1, f.bit.val) else (f.mem.val, f.bank.val, 0, f.row.val)).eraseDups

/-- One repair: an entry of the repair map, then the repair takes effect (R430, R438), or UNREPAIRED with its bank where no spare of the kind is left (R432). -/
def State.repair (s : State) (q : Nat × Nat × Nat × Nat) : State :=
  let (mem, bank, kind, i) := q
  let used := s.sparesUsed mem bank kind
  let n := s.repairMap.length
  if used < spares mem kind ∧ n < 2048 then
    let s := s.keepPut (0x1000 + 8 * n) (leBytes 8 (mem + bank * 2 ^ 4 + kind * 2 ^ 9 + i * 2 ^ 16 + used * 2 ^ 28 + 2 ^ 63))
    { s with org := { s.org with applied := s.org.applied ++ [q] } }
  else { s with org := { s.org with unrepaired := true, bank } }

/-- What a march run found (R430, R432; ORG_MARCH_STATUS). -/
def State.marchFound (s : State) (fails : List MarchFail) : State :=
  let s := { s with org := { s.org with marchDone := true, marchRun := false, faults := min 255 fails.length } }
  (repairNeeds fails).foldl (fun s q => s.repair q) s

/-- A run begun. -/
def State.marchBegin (s : State) (target : Nat) (preserve : Bool) (base limit : Nat) : State :=
  { s with org := { s.org with marchTarget := target, marchPreserve := preserve, marchBase := base, marchLimit := limit
                               marchRun := true, marchErr := false, runBase := base, runLimit := limit } }

/-- The Dome's write to ORG_MARCH_CTL (R426 to R429): a START while a run is in progress is ignored; a destructive START outside
watermark mode, or a preserving one of another memory than the Orangery, is refused. -/
def State.marchCtl (s : State) (v : Word) : State :=
  let t := bits v.toNat 1 0
  let pres := v.getLsbD 4
  if s.org.marchRun then s
  else
    let s := { s with org := { s.org with marchTarget := t, marchPreserve := pres } }
    if !v.getLsbD 31 then s
    else if (if pres then t == 1 || t == 2 else !s.dome.wmMode) then { s with org := { s.org with marchErr := true } }
    else s.marchBegin t pres s.org.marchBase s.org.marchLimit

/-- Whether the Dome processor runs, from its ROM or its firmware. -/
def State.domeRuns (s : State) : Bool := s.dome.st == .run || s.dome.st == .boot

/-- The memory of a march target; 3 acts as 0. -/
def marchMem (t : Nat) : Nat := if t = 1 then 1 else if t = 2 then 2 else 0

/-- The 4 KiB blocks that a row of 32 words of a bank lies in: an Orangery row spans four (R412); the banks of the other memories lie one after another
(DESIGN CHOICE, log 50). -/
def rowBlocks (mem bank row : Nat) : Nat × Nat :=
  match mem with
  | 0 => (4 * row, 4 * row + 3)
  | 1 => (256 * bank + row / 4, 256 * bank + row / 4)
  | _ => (128 * bank + row / 16, 128 * bank + row / 16)

/-- Whether a failing bit lies in a run's range. -/
def failInRange (f : MarchFail) (base limit : Nat) : Bool :=
  let b := rowBlocks f.mem.val f.bank.val f.row.val
  decide (base ≤ b.2) && decide (b.1 ≤ limit)

/-- MARCH_RUN_DONE: a destructive run leaves its range zero (R427); the Dome replies to the request that asked for it. -/
def State.marchRunDone (s : State) (fails : List MarchFail) : State :=
  if !s.org.marchRun then s
  else
    let o := s.org
    let s := s.marchFound (fails.filter fun f => f.mem.val == marchMem o.marchTarget && failInRange f o.runBase o.runLimit)
    let lo := o.runBase * 4096
    let hi := (o.runLimit + 1) * 4096
    let s := if o.marchPreserve then s
      else match marchMem o.marchTarget with
        | 0 => s.freeze.zero .org lo hi
        | 2 => s.zero .dome lo hi
        | _ => s.zero .pool lo hi
    match o.marchReply with
    | none => s
    | some (p, i) =>
      ({ s with org := { s.org with marchReply := none } }).answer p i (s.pavs[p.val].mbox[i.val]).inp 0
        [(8, 1, s.org.faults), (9, 1, b2n s.org.unrepaired)]

/-- MARCH_REQUEST (R426 to R429, R467). -/
def State.marchRequest (s : State) (p : Fin 64) (i : Fin 2) (m : BitVec 2048) : State :=
  let t := bits (mU m 1 1) 1 0
  if bit (mU m 1 1) 4 then
    if lcOf s.dome.lcFuse = 1 ∧ (s.outs.toList.all fun u => !u.enabled) then
      let s := s.answer p i m 0 []
      { s with pwr := { s.pwr with destructive := true } }.domeReset
    else s.answer p i m 7 []
  else if t = 1 ∨ t = 2 ∨ 0x1FFF < mU m 8 2 ∨ 0x1FFF < mU m 10 2 then s.answer p i m 5 []
  else if s.org.marchRun then s.answer p i m 6 []
  else
    let s := (s.marchBegin t true (mU m 8 2) (mU m 10 2)).modMbox p i fun x => { x with taken := true }
    { s with org := { s.org with marchReply := some (p, i) } }

/-! ### INSTALL -/

/-- The object an INSTALL names: the manager's BAR2 bytes as the Dome reads them (R461, R591). -/
def State.installObj (s : State) (p : Fin 64) (m : BitVec 2048) : State × Option (List Byte) :=
  match s.xlate p (mU m 8 8) (mU m 16 4) with
  | none => (s, none)
  | some a => s.memRead 0 true 81 none a (mU m 16 4)

/-- INSTALL of an object: BAD_FIELD where it cannot be read, else `f` gives the state and the status, and `fin` follows an accepted
one's reply (R461). -/
def State.install (s : State) (p : Fin 64) (i : Fin 2) (m : BitVec 2048) (f : State → List Byte → State × Nat) (fin : State → State) : State :=
  s.managerOnly p i m fun s =>
    let (s, obj) := s.installObj p m
    match obj with
    | none => s.answer p i m 5 []
    | some l =>
      let (s, st) := f s l
      let s := s.answer p i m st []
      if st = 0 then fin s else s

/-- A firmware object (R447, R448). -/
def State.takeFirmware (s : State) (l : List Byte) : State × Nat :=
  if !signedBy ((l.drop 16).take 64) l then (s, 8)
  else if !s.fwFields l then (s, 5)
  else ((s.burnSec l).keepPut 0x100000 l, 0)

/-- A policy object (R449, R451, R477). -/
def State.takePolicy (s : State) (l : List Byte) : State × Nat :=
  let s := s.keepNote 0x100 16
  let c := s.policyCheck (if s.pendingGen = 0 then s.inForceGen else s.pendingGen) l
  let s := { s with dome := { s.dome with policyErr := c } }
  if c ≠ 0 then (s, if c = 1 then 8 else 5)
  else
    let s := if s.pendingGen = 0 then s.putCarried else s
    (((s.applyTables l).keepPut 0x10000 l).keepPut 0x108 ((l.drop 16).take 8), 0)

/-- A topology image (R312): taken into use at the next warm reset. -/
def State.takeTopology (s : State) (l : List Byte) : State × Nat :=
  let (c, _) := imgCheck s.custKey s.wallRecord s.dome.serial.toNat l
  if c ≠ 0 then ({ s with spire := { s.spire with imageErr := c } }, if c = 1 then 8 else 5)
  else ((s.keepPut 0x200000 l).keepPut 0x40 ((l.drop 16).take 16), 0)

/-- A safe frame (R439, R461). -/
def State.takeSafeFrame (s : State) (l : List Byte) : State × Nat :=
  match s.safeFrameCheck l with
  | 0 => (s.safeFramePut l, 0)
  | 1 => (s, 8)
  | _ => (s, 5)

/-- INSTALL of KIND 0, and the reply to a KIND that is not listed; in recovery an accepted one ends with a warm reset (R590). -/
def State.installFw (s : State) (p : Fin 64) (i : Fin 2) (m : BitVec 2048) : State :=
  if 3 < mU m 1 1 then s.managerOnly p i m fun s => s.answer p i m 5 []
  else s.install p i m State.takeFirmware fun t => if s.inRecovery then t.domeReset else t

/-! ### CHALLENGE and LIFECYCLE -/

/-- CHALLENGE (R481): a new nonce, which the spec does not state (log 6). -/
def State.challengeDo (s : State) (p : Fin 64) (i : Fin 2) (m : BitVec 2048) : State :=
  s.managerOnly p i m fun s =>
    let n := Config.freeNonce s.freeCount
    let s := { s with freeCount := s.freeCount + 1, dome := { s.dome with nonce := some n } }
    s.answer p i m 0 [(8, 32, n.toNat)]

/-- The next unburnt bit of the life-cycle word (R480). -/
def lcNext (w : Word) : Word := w ||| (1 <<< popcount 30 w.toNat)

/-- The key and KEK fuses and bit 31 burnt (R480). -/
def State.retire (s : State) : State :=
  { s with dome := { s.dome with lcFuse := s.dome.lcFuse ||| 0x80000000, custKey := BitVec.allOnes 512, kek := BitVec.allOnes 256 } }

/-- What a LIFECYCLE request does to the fuses, or the status that refuses it (R480, R481). -/
def State.lcMove (s : State) (m : BitVec 2048) : Sum Nat State :=
  let lc := lcOf s.dome.lcFuse
  let n := popcount 30 s.dome.lcFuse.toNat
  let target := bits (mU m 1 1) 1 0
  let burn (s : State) : State := { s with dome := { s.dome with lcFuse := lcNext s.dome.lcFuse } }
  let signed (f : State → State) : Sum Nat State :=
    if s.dome.nonce ≠ some (BitVec.ofNat 256 (mU m 8 32)) then .inl 11
    else if !signedBy s.custKey (mBytes m 0 160 ++ leBytes 16 s.dome.serial.toNat ++ mBytes m 160 64) then .inl 8
    else .inr (f s)
  if lc = 0 ∧ target = 1 then
    .inr (burn { s with dome := { s.dome with custKey := BitVec.ofNat 512 (mU m 40 64), kek := BitVec.ofNat 256 (mU m 104 32) } })
  else if lc = 1 ∧ target = 2 then signed burn
  else if lc = 2 ∧ target = 1 ∧ n ≤ 28 then signed burn
  else if lc = 2 ∧ target = 3 then signed State.retire
  else .inl 11

/-- LIFECYCLE (R480 to R482): the reply, the wipe and a warm reset. `stuck` are bits of the life-cycle word that do not burn; where the word
does not read back as it should, REFUSED ends the sequence. -/
def State.lifecycleDo (s : State) (p : Fin 64) (i : Fin 2) (m : BitVec 2048) (stuck : Word) : State :=
  s.managerOnly p i m fun s =>
    let r := s.lcMove m
    match r with
    | .inl st => ({ s with dome := { s.dome with nonce := none } }).answer p i m st []
    | .inr t =>
      let got := s.dome.lcFuse ||| (t.dome.lcFuse &&& ~~~stuck)
      let u := { t with dome := { t.dome with nonce := none, lcFuse := got } }
      if got = t.dome.lcFuse then ((u.answer p i m 0 []).wipe).domeReset else u.answer p i m 11 []

/-! ### The rows -/

/-- MBX_SEND (R452, R455). -/
def execMbxSend (p : Fin 64) (v : Word) (s : State) : Host.Outcome State Fault Refusal :=
  act (fun s => s.hostAcc p fun s => s.mbxSend p v) s

/-- MBX_ACK (R453). -/
def execMbxAck (p : Fin 64) (v : Word) (s : State) : Host.Outcome State Fault Refusal :=
  act (fun s => s.hostAcc p fun s => s.mbxAck p v) s

/-- MAILBOX_TIMEOUT (R454). -/
def execMailboxTimeout (p : Fin 64) (slot : Fin 2) (s : State) : Host.Outcome State Fault Refusal :=
  act (fun s => s.mbxTimeout p slot) s

/-- MBX_BAD_TYPE (R461, STATUS 9): an unlisted TYPE. -/
def execMbxBadType (p : Fin 64) (slot : Fin 2) (s : State) : Host.Outcome State Fault Refusal :=
  act (fun s => s.mbxTake p slot (fun m => !mbxTypes.contains (mU m 0 1)) fun s m => s.answer p slot m 9 []) s

/-- INFO (12, Mailboxes). -/
def execInfo (p : Fin 64) (slot : Fin 2) (s : State) : Host.Outcome State Fault Refusal :=
  act (fun s => s.mbxTake p slot (isType 1) fun s m => s.answer p slot m 0 s.infoFields) s

/-- MARCH_REQUEST (R467). -/
def execMarchRequest (p : Fin 64) (slot : Fin 2) (s : State) : Host.Outcome State Fault Refusal :=
  act (fun s => s.mbxTake p slot (isType 2) fun s m => s.managerOnly p slot m fun s => s.marchRequest p slot m) s

/-- MARCH_START (R426, R427): the Dome's write to ORG_MARCH_CTL. -/
def execMarchStart (v : Word) (s : State) : Host.Outcome State Fault Refusal :=
  act (fun s => if s.domeRuns then s.marchCtl v else s) s

/-- MARCH_RUN_DONE (R430, R432). -/
def execMarchRunDone (fails : List MarchFail) (s : State) : Host.Outcome State Fault Refusal :=
  act (fun s => s.marchRunDone fails) s

/-- INSTALL_FIRMWARE (R447, R448, R461, R590). -/
def execInstallFirmware (p : Fin 64) (slot : Fin 2) (s : State) : Host.Outcome State Fault Refusal :=
  act (fun s => s.mbxTake p slot (fun m => isType 3 m && (mU m 1 1 == 0 || decide (3 < mU m 1 1))) fun s m => s.installFw p slot m) s

/-- INSTALL_POLICY (R449, R461, R477). -/
def execInstallPolicy (p : Fin 64) (slot : Fin 2) (s : State) : Host.Outcome State Fault Refusal :=
  act (fun s => s.mbxTake p slot (fun m => isType 3 m && mU m 1 1 == 1) fun s m => s.install p slot m State.takePolicy id) s

/-- INSTALL_TOPOLOGY (R312, R461). -/
def execInstallTopology (p : Fin 64) (slot : Fin 2) (s : State) : Host.Outcome State Fault Refusal :=
  act (fun s => s.mbxTake p slot (fun m => isType 3 m && mU m 1 1 == 2) fun s m => s.install p slot m State.takeTopology id) s

/-- INSTALL_SAFE_FRAME (R439, R461). -/
def execInstallSafeFrame (p : Fin 64) (slot : Fin 2) (s : State) : Host.Outcome State Fault Refusal :=
  act (fun s => s.mbxTake p slot (fun m => isType 3 m && mU m 1 1 == 3) fun s m => s.install p slot m State.takeSafeFrame id) s

/-- CHALLENGE (R481). -/
def execChallenge (p : Fin 64) (slot : Fin 2) (s : State) : Host.Outcome State Fault Refusal :=
  act (fun s => s.mbxTake p slot (isType 4) fun s m => s.challengeDo p slot m) s

/-- LIFECYCLE (R480 to R482). -/
def execLifecycle (p : Fin 64) (slot : Fin 2) (stuck : Word) (s : State) : Host.Outcome State Fault Refusal :=
  act (fun s => s.mbxTake p slot (isType 5) fun s m => s.lifecycleDo p slot m stuck) s

end Sys2Proof.Machine
end

