-- ==== Sys2Proof/Machine/DomeSafe.lean ====
section
/-!
DEFINITION. The safety requests (07, The update path; 12), hand-overs of blocks, the Dome's watchdog with its restart and halt, and
tamper.
-/
namespace Sys2Proof.Machine
open Sys2Proof

/-! ### Belvedere messages -/

/-- Step 4 of R281: SOURCE_TIME neither later than Spire time nor before the slot's current timestamp. -/
def State.belvTimeOk (s : State) (b : Belv) (t : Nat) : Bool :=
  decide (t ≤ s.now.toNat) && (match b.cur with | some c => decide (c.time.toNat ≤ t) | none => true)

/-- The half that the latched buffer does not use. -/
def Belv.spare (b : Belv) : Nat := match b.cur with | some c => 1 - c.half | none => 0

/-- BELV_UPDATE (R281 to R283, R285): the staged content is copied into the inactive secure buffer as the Dome's own copy. -/
def State.belvUpdate (s : State) (p : Fin 64) (i : Fin 2) (m : BitVec 2048) : State :=
  let o := f8 (mU m 1 1)
  let b := s.belvs[o.val]
  let c := s.safetyCheck p m
  if c ≠ 0 then s.safetyReply p i m c 0
  else if !s.belvTimeOk b (mU m 16 8) then s.safetyReply p i m 3 0
  else if b.next.isSome then s.safetyReply p i m 6 0
  else match s.staging p b m with
    | none => s.safetyReply p i m 5 0
    | some (a, pal) =>
      let (s, content) := s.belvContent b a (mU m 32 4) pal
      let data := content.getD []
      let digest := sha256 data
      if content.isNone || digest != mBytes m 36 32 then s.safetyReply p i m 4 0
      else
        let s := s.memWrite 0 true 81 (b.bufBase + b.spare * b.halfBytes) data
        let s := s.acceptSeq m
        let n : BelvBuf := { half := b.spare, time := w64 (mU m 16 8), digest := BitVec.ofNat 256 (ofLe digest), expected := 0, reply := some (p, i) }
        let s := s.modBelv o fun b => { b with next := some n }
        s.modMbox p i fun x => { x with taken := true }

/-- BELV_UPDATE_READY: the Dome has computed the expected proof value of the copy (R282). -/
def State.belvReady (s : State) (o : Fin 8) : State :=
  let b := s.belvs[o.val]
  match b.next with
  | none => s
  | some n =>
    if n.ready || s.dome.st != .run then s
    else
      let (s, v) := s.expectedNow o (b.bufBase + n.half * b.halfBytes)
      s.modBelv o fun b => { b with next := some { n with ready := true, expected := v } }

/-- A latched Belvedere buffer with a new timestamp (R264, R284). -/
def BelvBuf.retime (k : BelvBuf) (now : Nat) (t : DWord) : BelvBuf :=
  if k.time = t then k else { k with time := t, was := wasBefore k.was now k.time }

/-- BELV_REAFFIRM (R281, R284). -/
def State.belvReaffirm (s : State) (p : Fin 64) (i : Fin 2) (m : BitVec 2048) : State :=
  let o := f8 (mU m 1 1)
  let b := s.belvs[o.val]
  let c := s.safetyCheck p m
  if c ≠ 0 then s.safetyReply p i m c 0
  else if !s.belvTimeOk b (mU m 16 8) then s.safetyReply p i m 3 0
  else match b.cur with
    | none => s.safetyReply p i m 4 0
    | some k =>
      if k.digest.toNat ≠ mU m 36 32 then s.safetyReply p i m 4 0
      else
        let s := (s.acceptSeq m).modBelv o fun b => { b with cur := some (k.retime s.now.toNat (w64 (mU m 16 8))) }
        s.safetyReply p i m 0 0

/-- BELV_RESUME (R281, R294): cause 2 ends, with FORCE_LOW where the proof fault set it, and the run starts anew. -/
def State.belvResume (s : State) (p : Fin 64) (i : Fin 2) (m : BitVec 2048) : State :=
  s.safetyDo p i m fun s =>
    let o := f8 (mU m 1 1)
    let s := s.modBelv o fun b => { b with run := 0, proofFault := false }
    let s := if s.outs[o.val].forceByProof then s.setForceLow o false else s
    (s.modOut o fun u => { u with cause2 := false }, 0)

/-! ### OUTPUT_CMD, SAFE_SEND, HELD_CONSOLE -/

/-- Whether an OUTPUT_CMD has bit k, or none. -/
def cmdHas (k : Nat) (m : BitVec 2048) : Bool := isType 0x13 m && (bit (mU m 16 1) k || mU m 16 1 % 16 == 0)

/-- What the bits of an OUTPUT_CMD do to one output (R457). -/
def State.outputBits (s : State) (o : Fin 8) (v : Nat) : State :=
  let s := if bit v 0 then s.setCause4 o true else s
  let s := if bit v 1 then s.setCause4 o false else s
  let s := if bit v 2 then s.setForceLow o true else s
  if bit v 3 then s.setForceLow o false else s

/-- OUTPUT_CMD (R456, R457, R459). -/
def State.outputCmd (s : State) (p : Fin 64) (i : Fin 2) (m : BitVec 2048) : State :=
  let v := mU m 16 1
  if !s.dome.tamperKeys && ((bit v 0 && bit v 1) || (bit v 2 && bit v 3)) then s.safetyReply p i m 5 0
  else s.safetyDo p i m fun s =>
    let mask := mU m 17 1
    let outs : List (Fin 8) := if mask = 0 then [f8 (mU m 1 1)] else (idx 8).filter fun o => bit mask o.val
    (outs.foldl (fun s o => s.outputBits o v) s, 0)

/-- SAFE_SEND (R458, R647): the ALARM waits its turn. -/
def State.safeSend (s : State) (p : Fin 64) (i : Fin 2) (m : BitVec 2048) : State :=
  s.safetyDo p i m fun s =>
    if 64 ≤ s.dome.alarms.length then (s, 6)
    else ({ s with dome := { s.dome with alarms := s.dome.alarms ++ [(w32 (mU m 16 4), none)] } }, 0)

/-- The CONSOLE operation of a HELD_CONSOLE: bytes 16 to 71 are bytes 8 to 63 of its descriptor. -/
def consoleDesc (p : Fin 64) (m : BitVec 2048) : Desc :=
  { pav := p, sq := 0, flags := 0, seq := 0, handle := 0, payload := BitVec.ofNat 448 (mU m 16 56) }

/-- HELD_CONSOLE (R460). -/
def State.heldConsole (s : State) (p : Fin 64) (i : Fin 2) (m : BitVec 2048) : State :=
  s.safetyDo p i m fun s =>
    let d := consoleDesc p m
    if (reservedByte 0x0B d).isSome || (firstBad (s.consoleChecks p d true)).isSome then (s, 5) else (s.consoleDo p .dome d, 0)

/-! ### Hand-over -/

/-- The CVU channel, haptic channel, control, voice, audio output or proof window of a block code (12, block codes). -/
inductive Block where
  | cvu (c : Fin 16)
  | hap (h : Fin 16)
  | ctl (c : Fin 32)
  | voice (v : Fin 16)
  | aud (a : Nat)
  | proof (o : Fin 8) (w : Fin 4)
deriving DecidableEq, Repr

/-- The block of a code that may be movable. -/
def blockOf (b : Nat) : Block :=
  if b < 0x10 then .cvu (f16 b) else if b < 0x20 then .hap (f16 (b - 0x10)) else if b < 0x40 then .ctl (f32 (b - 0x20))
  else if b < 0x50 then .voice (f16 (b - 0x40)) else if b < 0x60 then .aud (b - 0x50) else .proof (f8 ((b - 0x60) / 4)) (f4 b)

/-- Voices that sound on an audio output, voice 15 apart (R540). -/
def State.voicesOn (s : State) (a : Nat) : List (Fin 16) :=
  (idx 16).filter fun v => v.val != 15 && (s.gaz.voices[v.val]).phase != .idle && (s.gaz.voices[v.val]).aud == a

/-- Whether a PCM queue holds a buffer for an audio output. -/
def Pav.pcmOn (v : Pav) (a : Nat) : Bool := v.pcm.toList.any fun q => q.queue.any fun b => b.aud == a

/-- Whether work of the losing world still runs on a block (R472). -/
def State.blockBusy (s : State) : Block → Bool
  | .cvu c => s.jobs.any fun j => match j.chan with | some (x, _) => x == c | none => false
  | .hap h => (s.gaz.haps[h.val]).st != .idle
  | .voice v => (s.gaz.voices[v.val]).phase != .idle
  | .aud a => !(s.voicesOn a).isEmpty || s.pavs.toList.any fun v => v.pcmOn a
  | .ctl _ | .proof _ _ => false

/-- The Pavilions with work or a binding on a block (R473). -/
def State.blockPavs (s : State) : Block → List (Fin 64)
  | .cvu c => (s.jobs.filter fun j => match j.chan with | some (x, _) => x == c | none => false).map fun j => j.pav
  | .hap h => (match (s.gaz.haps[h.val]).src with | .pav p => if (s.gaz.haps[h.val]).st == .idle then [] else [p] | _ => [])
      ++ s.gaz.controls.toList.filterMap fun c => match c.reflex with | some r => if r.chan = h.val then some r.pav else none | none => none
  | .ctl c => match (s.gaz.controls[c.val]).reflex with | some r => [r.pav] | none => []
  | .voice v => if (s.gaz.voices[v.val]).phase = .idle then [] else [(s.gaz.voices[v.val]).pav]
  | .aud a => ((s.voicesOn a).map fun v => (s.gaz.voices[v.val]).pav) ++ (idx 64).filter fun p => s.pavs[p.val].pcmOn a
  | .proof _ _ => []

/-- Work that still runs 50 ms after the acceptance is abandoned (R472, R499). -/
def State.blockAbandon (s : State) : Block → State
  | .cvu c => (s.jobs.filter fun j => match j.chan with | some (x, _) => x == c | none => false).foldl (fun s j => s.endJob j stSecureHeld 0) s
  | .hap h => s.hapStop h false
  | .voice v => s.modVoice v fun x => { x with phase := .idle }
  | .aud a => (s.voicesOn a).foldl (fun s v => s.modVoice v fun x => { x with phase := .idle }) s
  | .ctl _ | .proof _ _ => s

/-- SCRUB (R473, R500, R541): the block's registers at their reset values and its internal state cleared. -/
def State.blockScrub (s : State) : Block → State
  | .cvu c => { s.modCvu c (fun _ => {}) with caps := s.caps.filter fun x => !(decide (0xA00100 + 0x40 * c.val ≤ x.2.1) && decide (x.2.1 < 0xA00140 + 0x40 * c.val)) }
  | .hap h => { (s.hapPast h).modHap h fun _ => {} with gaz := { (s.modHap h fun _ => {}).gaz with
      controls := s.gaz.controls.map fun c => match c.reflex with
        | some r => if r.chan = h.val then { c with reflex := none } else c
        | none => c } }
  | .ctl c => s.modCtl c fun _ => { capture := true }
  | .voice v => s.modVoice v fun _ => {}
  | .aud a =>
    let s := (s.voicesOn a).foldl (fun s v => s.modVoice v fun x => { x with phase := .idle }) s
    { s with
      pavs := s.pavs.map fun v => { v with pcm := v.pcm.map fun q => { q with
        queue := q.queue.filter fun b => b.aud != a
        pos := match q.queue with | b :: _ => if b.aud = a then 0 else q.pos | [] => 0 } }
      gaz := { s.gaz with slotGain := s.gaz.slotGain.mapIdx fun i g => if i / 8 = a then 255 else g } }
  | .proof o w => s.modOut o fun u => { u with proof := upd u.proof w fun _ => {} }

/-- SCRUB, the flip with EV_HANDOVER, and the reply (R473). -/
def State.handoverEnd (s : State) (h : Handover) : State :=
  let s := s.blockScrub (blockOf h.block)
  let s := { s with dome := { s.dome with ho := s.dome.ho.erase h, held := putB s.dome.held h.block h.toSecure } }
  let ev : Ev := { code := evHandover, inst := h.block, time := s.now, detail := b2n h.toSecure }
  let s := s.raise ev (((0 :: h.pavs).eraseDups).map fun p => (p, ev))
  match h.reply with
  | none => s
  | some (p, i) => s.safetyReply p i (s.pavs[p.val].mbox[i.val]).inp 0 0

/-- BLOCK_TAKE and BLOCK_RELEASE (R471, R472). -/
def State.blockMove (s : State) (p : Fin 64) (i : Fin 2) (m : BitVec 2048) (take : Bool) : State :=
  let b := mU m 16 1
  let c := s.safetyCheck p m
  if c ≠ 0 then s.safetyReply p i m c 0
  else if !s.dome.policy.movable.getLsbD b then s.safetyReply p i m 7 0
  else if s.dome.ho.any fun h => h.block == b then s.safetyReply p i m 6 0
  else if s.isHeld b == take then (s.acceptSeq m).safetyReply p i m 0 0
  else
    let s := s.acceptSeq m
    let h : Handover := { block := b, toSecure := take, pavs := s.blockPavs (blockOf b), reply := some (p, i) }
    let s := { s with dome := { s.dome with ho := s.dome.ho ++ [h], hoBlock := b, hoToSecure := take } }
    let s := s.modMbox p i fun x => { x with taken := true }
    match blockOf b with
    | .hap c => s.hapStop c true
    | _ => s

/-- HANDOVER_QUIESCE_DONE: the losing world's work has ended (R471, R472). -/
def State.quiesceDone (s : State) (b : Nat) : State :=
  match s.dome.ho.find? fun h => h.block == b with
  | none => s
  | some h => if s.blockBusy (blockOf b) then s else s.handoverEnd h

/-- HANDOVER_QUIESCE_TIMEOUT: 50 ms have passed (R472). -/
def State.quiesceTimeout (s : State) (b : Nat) : State :=
  match s.dome.ho.find? fun h => h.block == b with
  | none => s
  | some h => (s.blockAbandon (blockOf b)).handoverEnd h

/-! ### Watchdog, restart and halt -/

/-- Every request the Dome has not replied to is answered DOME_DOWN (R455). -/
def State.answerDown (s : State) : State :=
  (idx 64).foldl (fun s p => (idx 2).foldl (fun s i =>
    let x := s.pavs[p.val].mbox[i.val]
    if x.busy then s.mbxReply p i (downReply x.inp) else s) s) s

/-- What the Dome had in hand is lost with its memory (R455, R476 steps 1 and 2): replies owed, the nonce, ALARMs that wait, comparisons
and updates that are not ready. -/
def State.domeForget (s : State) : State :=
  let s := s.answerDown
  { s with
    org := { s.org with marchReply := none }
    dome := { s.dome with nonce := none, alarms := [], ho := s.dome.ho.map fun (h : Handover) => { h with reply := none } }
    belvs := s.belvs.map fun (b : Belv) =>
      { b with
        awaits := [], run := 0
        next := (b.next.filter fun n => n.ready).map fun (n : BelvBuf) => { n with reply := none } } }

/-- R478, R479: the Dome is halted; what the secure world holds is idle, the halt tone sounds and the halt ALARM goes out. -/
def State.domeHalt (s : State) : State :=
  let s := s.domeForget
  let s := { s with dome := { s.dome with st := .down, haltTone := true } }
  let s := (idx 16).foldl (fun s h => if s.isHeld (0x10 + h.val) then s.hapStop h false else s) s
  let s := { s with gaz := { s.gaz with voices := s.gaz.voices.mapIdx fun v (x : Voice) => if s.isHeld (0x40 + v) then { x with phase := .idle } else x } }
  let s := s.raiseAll { code := evDomeDown, time := s.now, detail := 3 }
  if s.dome.policy.haltAlarm then { s with dome := { s.dome with haltSend := true } }.alarmsGo else s

/-- The Keep's copy of the policy. -/
def State.keepPolicy (s : State) : List Byte := s.keepBytes 0x10000 (min (s.keepVal 0x10008 4) 983040)

/-- The check of the policy that a restart reloads (R449, R476 step 4), 0 where it passes. Under the empty policy (R450) none is reloaded while none
has been installed. -/
def State.restartCode (s : State) : Nat := if s.pwr.policyEmpty && s.pendingGen == 0 then 0 else s.policyCheck 0 s.keepPolicy

/-- Whether the generation of that policy is one that a restart accepts; the one installed since the boot needs the carried record (R477). -/
def State.restartGen (s : State) : Bool :=
  let g := oU s.keepPolicy 16 8
  (s.pwr.policyEmpty && s.pendingGen == 0) || g == s.inForceGen || (s.pendingGen != 0 && g == s.pendingGen && s.carriedOk)

/-- Whether the Keep holds the firmware and the policy a restart needs (R476 steps 3 and 4, R477). -/
def State.restartOk (s : State) : Bool := s.fwOk s.keepFw && s.restartCode == 0 && s.restartGen

/-- What a restart reads of the Keep, its errors counted (R437). -/
def State.restartReads (s : State) : State :=
  ((s.noteFw.keepNote 0x100 16).keepNote 0x10008 4).keepNote 0x10000 (min (s.keepVal 0x10008 4) 983040)

/-- Steps 3 and 4 of a restart (R448, R449, R476): the firmware loaded and its SEC_VERSION burnt where it passes, and POLICY_ERR written where the
policy fails. -/
def State.restartLoad (s : State) : State :=
  if !s.fwOk s.keepFw then s
  else
    let s := (s.burnSec s.keepFw).loadFw s.keepFw
    if s.restartCode = 0 then s else { s with dome := { s.dome with policyErr := s.restartCode } }

/-- When a restart begins: at the failure, or after the last step of a wipe that runs (R441, R443). -/
def State.restartFrom (s : State) : DWord := if s.keep.wiping then s.keep.wipeFrom + 5100000 else s.now

/-- One Dome failure and what follows (R476, R478): steps 1 to 4 of the restart at once, step 5 at its bound (log 24); a restart that fails
a check is a failure again, `n` bounds their number. -/
def State.domeFail : Nat → State → State
  | 0, s => s
  | n + 1, s =>
    let times := s.now :: s.recentFails s.dome.failTimes
    let s := { s with dome := { s.dome with failTimes := times } }
    if 3 ≤ times.length then s.domeHalt
    else
      let s := s.domeForget
      let s := { s with dome := { s.dome with restarts := satInc s.dome.restarts } }
      let s := (s.zero .dome 0 0x200000).restartReads
      let ok := s.restartOk
      let s := s.restartLoad
      if ok then { s with dome := { s.dome with st := .restart, restartEnd := s.restartFrom + 10000000 } }
      else s.domeFail n

/-- DOME_WATCHDOG_EXPIRY (R475, R476): a failure while a restart runs begins it again. A kick in the cycle of the expiry counts as in
time (R8). -/
def State.watchdog (s : State) : State :=
  if s.arrived.contains .kick then s
  else if s.dome.st == .restart then s.domeFail 3
  else if s.dome.st != .run then s else (s.upTo ((s.dome.lastKick.toNat + 50000000) * 1000)).domeFail 3

/-! ### Tamper -/

/-- TAMPER (R441, R483): in a reset the policy's response is that of the empty policy, and no event can be raised. -/
def State.tamperDo (s : State) : State :=
  if s.pwr.reset == .powerOn || s.pwr.reset == .dead || !s.pwr.railGood.getLsbD 0 then s
  else
    let r := s.dome.policy.tamperResponse
    let s := { s with
      dome := { s.dome with tamper := true, tamperKeys := true }
      belvs := s.belvs.map fun (b : Belv) => { b with hasKey := false, key := 0 } }
    let s := if s.pwr.reset == .running then s.raiseAll { code := evTamper, time := s.now } else s
    let s := s.wipeBegin
    let s := if 1 ≤ r then (idx 8).foldl (fun s o => s.setForceLow o true) s else s
    if r = 2 then s.retire else s

/-! ### The rows -/

/-- BELV_UPDATE (R281, R282). -/
def execBelvUpdate (p : Fin 64) (slot : Fin 2) (s : State) : Host.Outcome State Fault Refusal :=
  act (fun s => s.mbxTake p slot (isType 0x10) fun s m => s.belvUpdate p slot m) s

/-- BELV_UPDATE_READY (R282). -/
def execBelvUpdateReady (o : Fin 8) (s : State) : Host.Outcome State Fault Refusal :=
  act (fun s => s.belvReady o) s

/-- BELV_REAFFIRM (R281, R284). -/
def execBelvReaffirm (p : Fin 64) (slot : Fin 2) (s : State) : Host.Outcome State Fault Refusal :=
  act (fun s => s.mbxTake p slot (isType 0x11) fun s m => s.belvReaffirm p slot m) s

/-- BELV_RESUME (R294). -/
def execBelvResume (p : Fin 64) (slot : Fin 2) (s : State) : Host.Outcome State Fault Refusal :=
  act (fun s => s.mbxTake p slot (isType 0x12) fun s m => s.belvResume p slot m) s

/-- SAFE_SET (R457): an OUTPUT_CMD with that bit, or with none. -/
def execSafeSet (p : Fin 64) (slot : Fin 2) (s : State) : Host.Outcome State Fault Refusal :=
  act (fun s => s.mbxTake p slot (cmdHas 0) fun s m => s.outputCmd p slot m) s

/-- SAFE_RELEASE (R457). -/
def execSafeRelease (p : Fin 64) (slot : Fin 2) (s : State) : Host.Outcome State Fault Refusal :=
  act (fun s => s.mbxTake p slot (cmdHas 1) fun s m => s.outputCmd p slot m) s

/-- FORCE_LOW_SET (R243, R457). -/
def execForceLowSet (p : Fin 64) (slot : Fin 2) (s : State) : Host.Outcome State Fault Refusal :=
  act (fun s => s.mbxTake p slot (cmdHas 2) fun s m => s.outputCmd p slot m) s

/-- FORCE_LOW_CLEAR (R243, R457). -/
def execForceLowClear (p : Fin 64) (slot : Fin 2) (s : State) : Host.Outcome State Fault Refusal :=
  act (fun s => s.mbxTake p slot (cmdHas 3) fun s m => s.outputCmd p slot m) s

/-- SAFE_SEND (R458). -/
def execSafeSend (p : Fin 64) (slot : Fin 2) (s : State) : Host.Outcome State Fault Refusal :=
  act (fun s => s.mbxTake p slot (isType 0x14) fun s m => s.safeSend p slot m) s

/-- BLOCK_TAKE (R471). -/
def execBlockTake (p : Fin 64) (slot : Fin 2) (s : State) : Host.Outcome State Fault Refusal :=
  act (fun s => s.mbxTake p slot (isType 0x15) fun s m => s.blockMove p slot m true) s

/-- BLOCK_RELEASE (R471). -/
def execBlockRelease (p : Fin 64) (slot : Fin 2) (s : State) : Host.Outcome State Fault Refusal :=
  act (fun s => s.mbxTake p slot (isType 0x16) fun s m => s.blockMove p slot m false) s

/-- HANDOVER_QUIESCE_DONE (R471, R473). -/
def execHandoverQuiesceDone (b : BitVec 8) (s : State) : Host.Outcome State Fault Refusal :=
  act (fun s => s.quiesceDone b.toNat) s

/-- HANDOVER_QUIESCE_TIMEOUT (R472, R473). -/
def execHandoverQuiesceTimeout (b : BitVec 8) (s : State) : Host.Outcome State Fault Refusal :=
  act (fun s => s.quiesceTimeout b.toNat) s

/-- HELD_CONSOLE (R460). -/
def execHeldConsole (p : Fin 64) (slot : Fin 2) (s : State) : Host.Outcome State Fault Refusal :=
  act (fun s => s.mbxTake p slot (isType 0x17) fun s m => s.heldConsole p slot m) s

/-- DOME_WATCHDOG_EXPIRY (R475 to R479). -/
def execDomeWatchdogExpiry (s : State) : Host.Outcome State Fault Refusal :=
  act (fun s => s.watchdog) s

/-- WDT_KICK (R475): the Dome's write to DOME_WDT_KICK, whatever its value. -/
def execWdtKick (_v : Word) (s : State) : Host.Outcome State Fault Refusal :=
  act (fun s => if s.domeRuns then { s with dome := { s.dome with lastKick := s.now } }.arrive .kick else s) s

/-- WM_MODE_EXIT (R466): the Dome writes 0 to WM_MODE. -/
def execWmModeExit (s : State) : Host.Outcome State Fault Refusal :=
  act (fun s => if s.domeRuns then { s with dome := { s.dome with wmMode := false } } else s) s

/-- TAMPER (R483). -/
def execTamper (s : State) : Host.Outcome State Fault Refusal := actAon (fun s => s.tamperDo) s

end Sys2Proof.Machine
end

