-- ==== Sys2Proof/Machine/Gazebo.lean ====
section
/-!
DEFINITION. The Gazebo's own happenings (14): scans of the capacitive controls, the ladder, haptic half-cycles, trigger pins, sample
frames of the Belfry.
-/
namespace Sys2Proof.Machine
open Sys2Proof

/-! ### Controls -/

/-- TYPE, N, DEB of a CTL_CFG value (R504, R506); other DEB values act as 2. -/
def ctlType (w : Word) : Nat := bits w.toNat 1 0
/-- N. -/
def ctlN (w : Word) : Nat := bits w.toNat 12 8
/-- DEB. -/
def ctlDeb (w : Word) : Nat := if 1 ≤ bits w.toNat 27 24 ∧ bits w.toNat 27 24 ≤ 4 then bits w.toNat 27 24 else 2

/-- What an element register names: a SELF pin, or a node's ROW and COLUMN pins (R502). -/
def elemKey (w : Word) : Nat × Option Nat := (bits w.toNat 6 0, if bit w.toNat 15 then some (bits w.toNat 14 8) else none)

/-- Whether an element's pins hold the roles it needs (R504). -/
def elemRoles (roles : Vector Nat 128) (w : Word) : Bool :=
  let role (p : Nat) : Nat := roles[(Fin.ofNat 128 p).val]
  match elemKey w with
  | (p, none) => role p == 1
  | (r, some c) => role r == 2 && role c == 3

/-- CFG_ERR of a control (R504). -/
def Control.cfgBad (c : Control) (roles : Vector Nat 128) : Bool :=
  let n := ctlN c.cfg
  let keys := (c.elems.toList.take n).map fun e => elemKey e.cfg
  match ctlType c.cfg with
  | 0 => false
  | t => !(match t with | 1 => n == 1 | 2 => decide (2 ≤ n) && decide (n ≤ 16) | _ => decide (3 ≤ n) && decide (n ≤ 16))
      || keys.eraseDups.length != keys.length || (c.elems.toList.take n).any fun e => !elemRoles roles e.cfg

/-- A control as a scan starts: its settings take effect, a capture owed is made by this scan, as it is at the first scan after the control
was enabled (R504, R510); a control that is not measured is released. `idle` keeps a secure control idle while the Dome is halted (R479). -/
def Control.scanStart (c : Control) (roles : Vector Nat 128) (idle : Bool) : Control :=
  let err := c.cfgBad roles
  let on := ctlType c.cfg != 0 && !err && !idle
  { c with
    liveCfg := c.cfg, liveTh := c.th, liveBase := c.base, cfgErr := err
    elems := c.elems.map fun e => { e with live := e.cfg }
    measured := on
    capNow := on && (c.capture || !c.measured)
    capture := !on && c.capture
    touched := on && c.touched
    pendingN := if on then c.pendingN else 0 }

/-- The ROW pins that the measured controls use (R503). -/
def Gaz.rows (g : Gaz) : List Nat :=
  (g.controls.toList.flatMap fun c => if c.measured then
    (c.elems.toList.take (ctlN c.liveCfg)).filterMap fun e => (match elemKey e.live with | (r, some _) => some r | _ => none) else []).eraseDups

/-- RATE_HZ of a level, and the interval of its scans in microseconds. -/
def Gaz.rate (g : Gaz) (k : Nat) : Nat := bits (g.ladder[(f4 k).val]).toNat 7 0
/-- The interval. -/
def Gaz.intervalUs (g : Gaz) : Nat := 1000000 / max 1 (g.rate g.level)

/-- CAPACITIVE_SCAN (R503, R504): a scan starts, at the earliest when the interval of its level has passed since the start of the one before; the
settings written since the last one take effect. The first scan has none before it: its interval is the level's (DESIGN CHOICE, log 54). -/
def State.scanBegin (s : State) : State :=
  if !s.gaz.scanEn || s.gaz.scanning then s
  else
    let s := match s.gaz.scanAt with | some t => s.upTo ((t + s.gaz.intervalUs * 1000) * 1000) | none => s
    let g := { s.gaz with
      scanning := true
      scanAt := some s.now.toNat
      gapUs := match s.gaz.scanAt with | some t => (s.now.toNat - t) / 1000 | none => s.gaz.intervalUs
      controls := s.gaz.controls.mapIdx fun i (c : Control) => c.scanStart s.gaz.csRole (s.dome.st == .down && s.isHeld (0x20 + i)) }
    { s with gaz := g }

/-- A capture of a control's baseline (R510): provisional, released, without an event. -/
def Control.captured (c : Control) : Control :=
  { c with
    elems := c.elems.map fun e => { e with base := e.raw * 65536 }
    touched := false, provisional := true, pendingN := 0, negN := 0, touchUs := 0, provUs := 0, capNow := false }

/-- The signals of a control's elements (R505). -/
def Control.signals (c : Control) : List Int := (c.elems.toList.take (ctlN c.liveCfg)).map fun e => (e.raw : Int) - ((e.base / 65536 : Nat) : Int)

/-- The largest signal of a list. -/
def peakOf : List Int → Int
  | [] => 0
  | x :: rest => rest.foldl max x

/-- POSITION of a slider or wheel from its signals (R507); none where the formula divides by zero or its limits cross, so that the spec
states no value. -/
def positionOf (ty : Nat) (sg : List Int) : Option Nat :=
  let n := sg.length
  let p := peakOf sg
  let m := sg.findIdx (· == p)
  let at_ (k : Nat) : Int := max 0 (sg.getD k 0)
  let l := if ty = 3 then at_ ((m + n - 1) % n) else if m = 0 then 0 else at_ (m - 1)
  let r := if ty = 3 then at_ ((m + 1) % n) else at_ (m + 1)
  let sum := l + p + r
  let num := (m : Int) * sum + (r - l)
  if ty = 1 then some 0
  else if ty = 3 then
    if sum = 0 then none else some ((((1024 * (num + n * sum) * 2 + sum * n).tdiv (2 * sum * n)) % 1024).toNat)
  else
    let num := max 0 (min num (((n : Int) - 1) * sum))
    if sum ≤ 0 then none else some ((1023 * num * 2 + sum * (n - 1)) / (2 * sum * (n - 1))).toNat

/-- The distance of two positions, the short way round on a wheel (R508). -/
def posGap (ty a b : Nat) : Nat := let d := (a - b) + (b - a); if ty = 3 then min d (1024 - d) else d

/-- The factor of the follower for a scan interval (R511). -/
def followK (us tau : Nat) : Nat := us * 65536 / (tau * 1000000) % 2 ^ 32

/-- TAU_S of a CTL_BASE value. -/
def tauS (w : Word) : Nat := max 1 (min 60 (bits w.toNat 5 0))

/-- One element's baseline moved by the follower (R511). -/
def Elem.follow (e : Elem) (k : Nat) : Elem :=
  let err : Int := (e.raw : Int) * 65536 - e.base
  { e with base := (((e.base : Int) + err * k / 65536) % 2 ^ 32).toNat }

/-- EV_TOUCH or EV_STUCK_TOUCH of a control (R508, R509): of a secure control to the Dome only. -/
def State.touchEvent (s : State) (c : Fin 32) (code detail : Nat) : State :=
  let ev : Ev := { code, inst := c.val, time := s.now, detail }
  if s.isHeld (0x20 + c.val) then (s.raise ev []).toDome ev
  else
    let owner := fp (bits (s.gaz.controls[c.val]).liveCfg.toNat 21 16)
    s.raise ev ((if owner = 0 then [0] else [0, owner]).map fun p => (p, ev))

/-- EV_TOUCH with the control's POSITION, which becomes the last reported one. -/
def State.touchReport (s : State) (c : Fin 32) (down : Bool) : State :=
  let pos := (s.gaz.controls[c.val]).pos
  (s.touchEvent c evTouch (b2n down + pos * 2 ^ 16)).modCtl c fun x => { x with posSent := pos }

/-- A control's reflex fires (R529): on a channel that the other world holds, or that is being handed over, it is ignored and counted (R472). -/
def State.reflexFire (s : State) (c : Fin 32) : State :=
  match (s.gaz.controls[c.val]).reflex with
  | none => s
  | some r =>
    let h := f16 r.chan
    if s.keptOff r.dome (0x10 + h.val) then s.modHap h fun x => { x with ignored := satInc x.ignored }
    else s.hapTrigger h (if r.dome then .dome else .pav r.pav) r.effect r.prio 100 true

/-- POSITION computed at a scan in which the control is touched (R507); where no value is stated it is free (log 6). -/
def State.setPosition (s : State) (c : Fin 32) (sg : List Int) : State :=
  match positionOf (ctlType (s.gaz.controls[c.val]).liveCfg) sg with
  | some v => s.modCtl c fun x => { x with pos := v }
  | none =>
    let (v, s) := s.free
    s.modCtl c fun x => { x with pos := v.toNat % 1024 }

/-- The end of a scan for a control that is not touched: a touch (R506, R508, R529), a recapture (R512), the follower (R511) and the
confirmation of its baseline (R513). -/
def State.scanFree (s : State) (c : Fin 32) (us : Nat) (sg : List Int) : State :=
  let x := s.gaz.controls[c.val]
  let deb := ctlDeb x.liveCfg
  if (bits x.liveTh.toNat 11 0 : Int) ≤ peakOf sg then
    if deb ≤ x.pendingN + 1 then
      let s := s.modCtl c fun x => { x with touched := true, pendingN := 0, negN := 0, touchUs := 0, provUs := 0 }
      (((s.arrive .touch).setPosition c sg).touchReport c true).reflexFire c
    else s.modCtl c fun x => { x with pendingN := x.pendingN + 1, negN := 0 }
  else
    let neg := sg.any fun v => decide (v ≤ -(bits x.liveBase.toNat 19 8 : Int))
    if neg && (x.provisional || decide (deb ≤ x.negN + 1)) then s.modCtl c fun x => { x.captured with recaptures := satInc x.recaptures }
    else
      let tau := tauS x.liveBase
      s.modCtl c fun x =>
        { x with
          elems := x.elems.map fun e => e.follow (followK us tau)
          pendingN := 0
          negN := if neg then x.negN + 1 else 0
          provUs := x.provUs + us
          provisional := x.provisional && decide (x.provUs + us < tau * 1000000) }

/-- The end of a scan for a touched control: its release (R506), else its position and moves (R507, R508) and the stuck limit (R514, R515). -/
def State.scanTouched (s : State) (c : Fin 32) (us : Nat) (sg : List Int) : State :=
  let x := s.gaz.controls[c.val]
  let th := bits x.liveTh.toNat 11 0
  let hyst : Int := if bits x.liveTh.toNat 23 12 < th then bits x.liveTh.toNat 23 12 else (th : Int) - 1
  let below := decide (peakOf sg < (th : Int) - hyst)
  let us := x.touchUs + us
  if below && decide (ctlDeb x.liveCfg ≤ x.pendingN + 1) then
    ((s.arrive .touch).modCtl c fun x => { x with touched := false, pendingN := 0, touchUs := 0 }).touchReport c false
  else
    let s := s.modCtl c fun x => { x with pendingN := if below then x.pendingN + 1 else 0, touchUs := us }
    let s := s.setPosition c sg
    let y := s.gaz.controls[c.val]
    let step := bits x.liveTh.toNat 31 24
    let s := if step ≠ 0 && decide (step ≤ posGap (ctlType x.liveCfg) y.pos y.posSent) then s.touchReport c true else s
    let limit := bits x.liveBase.toNat 31 20
    if limit ≠ 0 && decide (limit * 1000000 ≤ us) then
      (((s.arrive .touch).touchEvent c evStuckTouch (us / 1000)).modCtl c fun x => { x.captured with stuck := true }).touchReport c false
    else s

/-- The counts a scan measured, by element, put into a control; a node reports 65,535 minus its count (R502). -/
def Control.putRaw (x : Control) (raw : Nat → Nat) : Control :=
  if !x.measured then x
  else
    { x with elems := x.elems.mapIdx fun i (e : Elem) =>
        if i < ctlN x.liveCfg then { e with raw := if bit e.live.toNat 15 then 65535 - min 65535 (raw i) else min 65535 (raw i) }
        else e }

/-- The end of a scan for one control, its counts in place. -/
def State.scanControl (s : State) (us : Nat) (c : Fin 32) : State :=
  let x := s.gaz.controls[c.val]
  if !x.measured then s
  else if x.capNow then s.modCtl c fun x => x.captured
  else if x.touched then s.scanTouched c us x.signals
  else s.scanFree c us x.signals

/-- Whether a scan found P ≥ TOUCH_TH on a measured control (R517). -/
def Gaz.found (g : Gaz) : Bool :=
  g.controls.toList.any fun c => c.measured && !c.capNow && decide ((bits c.liveTh.toNat 11 0 : Int) ≤ peakOf c.signals)

/-- How long a scan takes, in microseconds (R503). -/
def Gaz.scanTime (g : Gaz) : Nat := 100 + 50 * g.rows.length

/-- SCAN_COMPLETE (R505 to R517), when the scan has taken its time: the counts of control c's elements start at entry 16 × c of `raw`. A touch or a
release of an earlier scan no longer counts as one of this cycle. -/
def State.scanEnd (s : State) (raw : List Nat) : State :=
  if !s.gaz.scanning then s
  else
    let s := match s.gaz.scanAt with | some t => s.upTo ((t + s.gaz.scanTime * 1000) * 1000) | none => s
    let us := s.gaz.gapUs
    let s := { s with arrived := s.arrived.filter fun a => a != Awaited.touch }
    let g := { s.gaz with controls := s.gaz.controls.mapIdx fun c (x : Control) => x.putRaw fun e => raw.getD (16 * c + e) 0 }
    let level := if g.found then 0 else g.level
    let s := { s with gaz := { g with scanning := false, scanUs := g.scanTime, level } }
    (idx 32).foldl (fun s c => s.scanControl us c) s

/-- LADDER_STEP (R516): the idle time of the next level has passed; a touched control keeps the level, and so does a touch or a release in the
scan in which the step falls due (R8). -/
def State.ladderDown (s : State) : State :=
  let g := s.gaz
  if !g.scanEn || decide (3 ≤ g.level) || s.arrived.contains .touch || g.controls.toList.any (fun c => c.touched) then s
  else { s with gaz := { g with level := g.level + 1 } }

/-- RECAPTURE (R510): written by the normal world it lands only for a control that it holds (R468). -/
def State.recaptureSet (s : State) (c : Fin 32) : State :=
  if s.isHeld (0x20 + c.val) then s else s.modCtl c fun x => { x with capture := true }

/-! ### Haptic drive -/

/-- The half-cycle length a back-EMF crossing gives, in whole microseconds whose frequency lies within F_MIN to F_MAX (R519). -/
def clampHalf (cfg : Word) (us : Nat) : Nat :=
  max (cdiv 500000 (max 1 (bits cfg.toNat 28 20))) (min (500000 / max 1 (bits cfg.toNat 18 10)) us)

/-- Whether a half-cycle's back-EMF crest ends a brake (R522): a threshold above the 3,600 mV that HAPn_SENSE spans is never reached (R624). -/
def belowTh (b : Bemf) (th : Nat) : Bool := decide (th ≤ 3600) && decide (b.mv < th)

/-- HAPTIC_HALF_CYCLE (R519 to R522): the frequency follows the crossing, the effect advances by one half-cycle. -/
def State.halfCycle (s : State) (h : Fin 16) (b : Bemf) : State :=
  if (s.gaz.haps[h.val]).st == .idle then s
  else
    let s := (s.hapPast h).modHap h fun c => match b.halfUs with
      | some u => { c with halfUs := clampHalf c.cfg u, nom := false, neg := !c.neg }
      | none => { c with noBemf := true, nom := true, neg := !c.neg }
    let c := s.gaz.haps[h.val]
    let word (k : Nat) : Nat := effectWord c.effect (k + 1)
    match c.st with
    | .idle => s
    | .overdrive =>
      (s.modHap h fun c => if odHalves c c.effect ≤ c.halves + 1 then { c with st := .drive, seg := 0, halves := 0 }
        else { c with halves := c.halves + 1 }).hapDrive h
    | .drive =>
      if c.halves + 1 < 2 * max 1 (bits (word c.seg) 15 8) then (s.modHap h fun c => { c with halves := c.halves + 1 }).hapDrive h
      else if !bit (word c.seg) 31 && decide (c.seg < 7) then (s.modHap h fun c => { c with seg := c.seg + 1, halves := 0 }).hapDrive h
      else if bit (effectWord c.effect 0) 8 then (s.modHap h fun c => { c with st := .brake, brakes := 0 }).hapDrive h
      else (s.hapIdle h 0).hapDrive h
    | .brake =>
      if 8 ≤ c.brakes + 1 || (!c.noBemf && belowTh b (bits c.drive.toNat 27 16)) then (s.hapIdle h (if c.stopped then 3 else 0)).hapDrive h
      else (s.modHap h fun c => { c with brakes := c.brakes + 1 }).hapDrive h

/-- EFFECT of a trigger: 0 and values above 128 act as 1 (R528). -/
def trigEffect (w : Word) : Nat := if bits w.toNat 15 8 = 0 ∨ 128 < bits w.toNat 15 8 then 1 else bits w.toNat 15 8

/-- TRIG_EDGE (R528): an edge that has held for 1 µs. -/
def State.trigIn (s : State) (t : Fin 8) (falling : Bool) : State :=
  let w := s.gaz.trig[t.val]
  if !bit w.toNat 0 || bit w.toNat 1 != falling then s
  else
    (idx 16).foldl (fun s h =>
      if !bit w.toNat (16 + h.val) then s
      else if s.heldFromNormal (0x10 + h.val) then s.modHap h fun c => { c with ignored := satInc c.ignored }
      else s.hapTrigger h .trig (trigEffect w) (bits w.toNat 4 2) 100 false) s

/-! ### Belfry -/

/-- The phase increment of a voice at its next sample (R532): exact for a fixed frequency; a moving one follows f0 × (f1 / f0)^(t / T). -/
def voiceInc (v : Voice) : Nat :=
  if v.f1 = 0 ∨ v.f0 = 0 ∨ v.durMs = 0 then (roundDiv ((v.f0 : Int) * 2 ^ 32) 48000).toNat
  else
    let t := min v.n (v.durMs * 48)
    let x := lnNat v.f0 + (lnNat v.f1 - lnNat v.f0) * t / (v.durMs * 48 : Nat)
    (roundDiv (expFix x * 2 ^ 32) (48000 * 2 ^ 320)).toNat

/-- The 24-bit sine of a phase (R532). -/
def sine24 (acc : Nat) : Int := roundDiv (8388607 * sinFix (2 * piFix * acc / 2 ^ 32)) (2 ^ 320)

/-- The envelope of a voice at its next sample, as a fraction (R533). -/
def envAt (v : Voice) : Nat × Nat :=
  if v.phase = .release then (v.relNum * (v.release * 48 - v.rel), v.relDen * (v.release * 48)) else envNow v

/-- One sample of a voice, and the voice after it (R532, R533). -/
def Voice.sample (v : Voice) : Int × Voice :=
  if v.phase = .idle then (0, v)
  else
    let acc := (v.acc + voiceInc v) % 2 ^ 32
    let wave : Int := if v.wave = 1 then (if 2 ^ 31 ≤ acc then -8388607 else 8388607) else sine24 acc
    let e := envAt v
    let out := roundDiv (wave * v.level * e.1) (255 * max 1 e.2)
    let n := v.n + 1
    let rel := if v.phase = .release then v.rel + 1 else v.rel
    let phase : VoPhase :=
      if v.phase = .release then (if v.release * 48 ≤ rel then .idle else .release)
      else if v.attack * 48 ≤ n then .sustain else .attack
    (out, { v with acc, n, rel, phase })

/-- The halt tone (R479): voice 15 starts at each fifth second, and is released a second later. -/
def State.haltSound (s : State) : State :=
  let n := s.gaz.haltN
  let p := s.dome.policy
  if !s.dome.haltTone || p.haltHz = 0 then s
  else
    let s := { s with gaz := { s.gaz with haltN := (n + 1) % 240000 } }
    if n = 0 then s.voiceStart 15 0 0 p.haltHz 0 1000 p.haltLevel (bits s.gaz.v15Route.toNat 0 0) (bits s.gaz.v15Route.toNat 3 1)
    else if n = 48000 then s.voiceRelease 15
    else s

/-- Buffers of a stream that have been played leave its queue: DONE counts them, an emptied queue counts an underrun (R538). -/
def Pcm.retire : Nat → Pcm → Pcm
  | 0, q => q
  | n + 1, q => match q.queue with
    | [] => q
    | b :: rest =>
      if b.bytes ≤ q.pos then
        Pcm.retire n { q with queue := rest, pos := 0, done := q.done + 1, underrun := if rest.isEmpty then satInc q.underrun else q.underrun }
      else q

/-- One sample of a stream: its output, slot and value (R536 to R538), read through regulator port 82 as master 2, as a secure access for an
output that the secure world holds (R463), which is idle while the Dome is halted (R479). -/
def State.pcmSample (s : State) (p : Fin 64) (i : Fin 8) : State × Option (Nat × Nat × Int) :=
  let q := Pcm.retire 16 (s.pavs[p.val].pcm[i.val])
  match q.queue with
  | [] => (s.modPav p fun v => { v with pcm := upd v.pcm i fun _ => q }, none)
  | b :: _ =>
    if s.isHeld (0x50 + b.aud) && s.dome.st == .down then (s, none)
    else
    let (s, r) := s.memRead 2 (s.isHeld (0x50 + b.aud)) (f83 82) (some p) (b.addr + q.pos) 4
    let x := sext 24 (ofLe (r.getD []))
    (s.modPav p fun v => { v with pcm := upd v.pcm i fun _ => Pcm.retire 16 { q with pos := q.pos + 4 } }, some (b.aud, b.slot, x))

/-- The samples of all streams that play. -/
def State.pcmAll (s : State) : State × List (Nat × Nat × Int) :=
  (idx 64).foldl (fun x p =>
    if x.1.pavs[p.val].pcm.toList.all (fun q => q.queue.isEmpty) then x
    else (idx 8).foldl (fun x i => let (s, r) := x.1.pcmSample p i; (s, x.2 ++ r.toList)) x) (s, [])

/-- One slot's sample before it is limited (R539). -/
def mixSlot (g : Gaz) (vs : List (Nat × Nat × Nat × Int)) (streams : List (Nat × Nat × Int)) (v15 : Option Int) (a k : Nat) : Int :=
  let n := ((vs.filter fun v => v.1 != 15 && v.2.1 == a && v.2.2.1 == k).map fun v => v.2.2.2).sum
    + ((streams.filter fun x => x.1 == a && x.2.1 == k).map fun x => x.2.2).sum
  let m := (n * (g.slotGain[(f16 (8 * a + k)).val] : Nat)).tdiv 255
  match v15 with
  | some x => (m * g.duck).tdiv 256 + x
  | none => m

/-- A sample limited to 24 bits (R539). -/
def clip24 (m : Int) : Int := max (-8388607) (min 8388607 m)

/-- SD of a TDM frame in its 256 BCLKs, from the BCLK before slot 0 on (R531): each slot of 32 BCLKs carries its sample's 24 bits, the most
significant first, from one BCLK after the slot's boundary on; its other 8 bits are 0. -/
def tdmSd (samples : List Int) : List Bool :=
  (false :: samples.flatMap fun x => false :: (List.range 24).map (fun k => bit (x % 2 ^ 24).toNat (23 - k)) ++ List.replicate 7 false).take 256

/-- A sample frame of an output as it leaves: FSYNC is high for the one BCLK before slot 0 (R531). -/
def State.tdm (s : State) (a : Nat) (samples : List Int) : State :=
  s.emit (.audio a (true :: List.replicate 255 false) (tdmSd samples))

/-- One sample frame mixed and sent: the voices and streams of both outputs (14, Belfry), k being its number. -/
def State.mixFrame (s : State) (k : Nat) : State :=
  let sounding := (idx 16).filter fun v => (s.gaz.voices[v.val]).phase != .idle
  let outs := sounding.map fun v =>
    let x := s.gaz.voices[v.val]
    (v.val, x.aud, x.slot, x.sample.1)
  let v15 := (outs.find? fun v => v.1 == 15).map fun v => v.2.2.2
  let (s, streams) := s.pcmAll
  let g := s.gaz
  let route := g.v15Route.toNat
  let mix (a j : Nat) : Int := mixSlot g outs streams (if bits route 0 0 = a ∧ bits route 3 1 = j then v15 else none) a j
  let m0 := (List.range 8).map (mix 0)
  let m1 := (List.range 8).map (mix 1)
  let clips := ((m0 ++ m1).filter fun m => m != clip24 m).length
  let s := { s with gaz := { g with sample := k + 1, clip := satAdd g.clip clips, voices := g.voices.map fun (v : Voice) => v.sample.2 } }
  (s.tdm 0 (m0.map clip24)).tdm 1 (m1.map clip24)

/-- SAMPLE_FRAME (R530 to R539): the next sample frame that starts at or after Spire time is mixed and sent. -/
def State.frame48 (s : State) : State :=
  let k := max s.gaz.sample (cdiv (s.now.toNat * 48) 1000000)
  (s.upTo (k * 1000000 / 48 * 1000)).haltSound.mixFrame k

/-! ### The commands -/

/-- CAPACITIVE_SCAN (R503). -/
def execCapacitiveScan (s : State) : Host.Outcome State Fault Refusal := act (fun s => s.scanBegin) s

/-- SCAN_COMPLETE (R506). -/
def execScanComplete (raw : List Nat) (s : State) : Host.Outcome State Fault Refusal := act (fun s => s.scanEnd raw) s

/-- LADDER_STEP (R516). -/
def execLadderStep (s : State) : Host.Outcome State Fault Refusal := act (fun s => s.ladderDown) s

/-- HAPTIC_HALF_CYCLE (R519). -/
def execHapticHalfCycle (h : Fin 16) (b : Bemf) (s : State) : Host.Outcome State Fault Refusal := act (fun s => s.halfCycle h b) s

/-- TRIG_EDGE (R528). -/
def execTrigEdge (t : Fin 8) (falling : Bool) (s : State) : Host.Outcome State Fault Refusal := act (fun s => s.trigIn t falling) s

/-- SAMPLE_FRAME (R530). -/
def execSampleFrame (s : State) : Host.Outcome State Fault Refusal := act (fun s => s.frame48) s

/-- VOICE_DURATION_END (R533). -/
def execVoiceDurationEnd (v : Fin 16) (s : State) : Host.Outcome State Fault Refusal := act (fun s => s.voiceRelease v) s

/-- RECAPTURE (R510): the manager writes GAZ_CTL_CFG.RECAPTURE. -/
def execRecapture (c : Fin 32) (s : State) : Host.Outcome State Fault Refusal :=
  act (fun s => s.hostAcc 0 fun s => (s.wakeIsland islGazebo).recaptureSet c) s

end Sys2Proof.Machine
end

