-- ==== Sys2Proof/Machine/Startup.lean ====
section
/-!
DEFINITION. The boot flow (16): one command runs it from the end of a reset to the joining of the wall.
-/
namespace Sys2Proof.Machine
open Sys2Proof

/-! ### The boot flash -/

/-- `n` bytes of the flash (R583). -/
def flashBytes (e : BootEnv) (a n : Nat) : List Byte := (List.range n).map fun i => (e.flash.lookup (a + i)).getD 0

/-- Whether the flash holds a directory (R583). -/
def flashDir (e : BootEnv) : Bool :=
  oU (flashBytes e 0 4) 0 4 == 0x48464C31 && oU (flashBytes e 4 2) 0 2 == 1 && oZero (flashBytes e 104 40) 0 40

/-- The object of a directory entry, none where it is absent; no object is longer than 4 MiB. -/
def flashObj (e : BootEnv) (k : Nat) : Option (List Byte) :=
  let off := oU (flashBytes e (16 + 8 * k) 4) 0 4
  let len := oU (flashBytes e (20 + 8 * k) 4) 0 4
  if !flashDir e || len == 0 || decide (2 ^ 22 < len) then none else some (flashBytes e off len)

/-- A read of the flash: 1-1-4 until the directory's QUAD_IO flag says 1-4-4 (R582). -/
def flashRead (quad : Bool) (a n : Nat) : Tx :=
  if quad then .flash 0xEC (BitVec.ofNat 32 a) 6 (some 0) n else .flash 0x6C (BitVec.ofNat 32 a) 8 none n

/-- The ROM reads the directory, then the object of an entry where it is there. -/
def State.flashGet (s : State) (e : BootEnv) (k : Nat) : State × Option (List Byte) :=
  let s := s.emit (flashRead false 0 144)
  match flashObj e k with
  | none => (s, none)
  | some l => (s.emit (flashRead (bit (oU (flashBytes e 8 1) 0 1) 0) (oU (flashBytes e (16 + 8 * k) 4) 0 4) l.length), some l)

/-! ### Clearing and testing -/

/-- The valid entries of the event log: index, TIME (R639). -/
def State.logValid (s : State) : List (Nat × Nat) :=
  (List.range 4096).filterMap fun i =>
    let l := s.rdBytes .org (logAddr i) 32
    if oU l 0 1 ≠ 0 ∧ oU l 5 1 = crcOf crc8 (l.take 5 ++ l.drop 6) then some (i, oU l 8 8) else none

/-- The event log after a reset that kept it (R644). -/
def State.logRebuild (s : State) : State :=
  let v := s.logValid
  match v with
  | [] => { s with evt := {} }
  | _ =>
    let last := v.foldl (fun (b : Nat × Nat) q => if b.2 ≤ q.2 then q else b) (0, 0)
    let head := last.1 + 1
    let reach := (v.map fun q => (head + 4095 - q.1) % 4096 + 1).foldl max 0
    { s with evt := { head := BitVec.ofNat 16 head, tail := BitVec.ofNat 16 head - BitVec.ofNat 16 reach, count := BitVec.ofNat 48 v.length } }

/-- Steps 1, 3 and 4: what is cleared, the repairs applied (R431), the march test (R424, R425, R587, R588) and the event log (R644). -/
def State.bootMemory (s : State) (warm : Bool) (fails : List MarchFail) : State :=
  let keepLog := warm && s.org.preserveLog && !s.pwr.destructive
  let s := ((s.zero .org 0 (if keepLog then 0x1FE0000 else 0x2000000)).zero .dome 0 0x200000).zero .pool 0 (24 * 2 ^ 20)
  let s := s.bootRepairs.marchFound fails
  let s := { s with
    org := { s.org with clearDone := true, logKept := keepLog }
    pwr := { s.pwr with memDegraded := s.org.unrepaired, destructive := false } }
  if keepLog then s.logRebuild else { s with evt := {} }

/-- A wipe left unfinished by a power loss completes (R442). -/
def State.finishWipe (s : State) : State := if s.keepVal 0 8 = 1 then (s.keepNote 0 8).wipeRest else s

/-! ### Clocks -/

/-- Step 2: REF on XIN and PLLs 0 to 5 locked, or, where XIN does not become stable, REF on RCO and no DRAM (R584, R593). The host PLLs follow
their own reference clocks. Where XIN becomes stable here, the monitor forms its tracked count anew (R545). -/
def State.bootClocks (s : State) (e : BootEnv) : State :=
  let xin := e.xinStable && !s.clk.onRco
  let sys : BitVec 48 := if xin then 0x3F else 0x1F
  let s := { s with clk := { s.clk with
    xinOk := xin, onRco := !xin, failCode := if xin then 0 else 1, refclkOk := e.refclk
    pllLock := sys ||| ((e.refclk.setWidth 48) <<< 36)
    monSum := if s.clk.xinOk then s.clk.monSum else 0, monWindows := if s.clk.xinOk then s.clk.monWindows else 0
    monTracking := s.clk.xinOk && s.clk.monTracking } }
  if xin then s else { s with pwr := { s.pwr with xinFail := true, dramFail := true }, spire := { s.spire with holdover := true } }

/-! ### Firmware and configuration -/

/-- Step 5: the firmware, from the Keep or from the flash (R589); false where neither passes (R590). -/
def State.bootFirmware (s : State) (e : BootEnv) : State × Bool :=
  let run (s : State) : State := s.loadFw s.keepFw
  let s := s.noteFw
  if s.fwOk s.keepFw then (run (s.burnSec s.keepFw), true)
  else match s.flashGet e 0 with
    | (s, none) => (s, false)
    | (s, some l) => if s.fwOk l then
        let s := (s.burnSec l).keepPut 0x100000 l
        (run { s with pwr := { s.pwr with fwSource := true } }, true)
      else (s, false)

/-- The Keep's copy of an object whose length is at byte 8. -/
def State.keepObj (s : State) (base cap : Nat) : List Byte := s.keepBytes base (min (s.keepVal (base + 8) 4) cap)

/-- The errors met as the Keep's copy of an object is read (R437). -/
def State.noteObj (s : State) (base cap : Nat) : State := (s.keepNote (base + 8) 4).keepNote base (min (s.keepVal (base + 8) 4) cap)

/-- A policy taken at a boot: the records of R477 and everything it sets (R451). -/
def State.bootTakePolicy (s : State) (l : List Byte) : State :=
  let s := (s.applyTables l).applyRest l
  let s := ((s.keepPut 0x100 ((l.drop 16).take 8)).keepPut 0x108 (List.replicate 8 0)).eraseCarried
  { s with dome := { s.dome with carried := false, policyErr := 0 } }

/-- The policy of a boot (R450, R592): the Keep's, the flash's, or the empty one. -/
def State.bootPolicy (s : State) (e : BootEnv) : State :=
  let s := (s.keepNote 0x100 16).noteObj 0x10000 983040
  let last := if s.pendingGen = 0 then s.inForceGen else s.pendingGen
  let l := s.keepObj 0x10000 983040
  let c := s.policyCheck last l
  let none' (s : State) (c : Nat) : State :=
    let s := ((s.applyEmpty).keepPut 0x108 (List.replicate 8 0)).eraseCarried
    { s with dome := { s.dome with carried := false, policyErr := c }, pwr := { s.pwr with policyEmpty := true } }
  if c = 0 then s.bootTakePolicy l
  else match s.flashGet e 1 with
    | (s, none) => none' s c
    | (s, some f) => match s.policyCheck last f with
      | 0 => (s.keepPut 0x10000 f).bootTakePolicy f
      | c => none' s c

/-- An accepted image in use (R312, R325): the master it names is this device or another. -/
def State.bootImage (s : State) (i : Image) : State :=
  let m := i.masterId == i.myId
  { s with spire := { s.spire with
    image := some i, imageErr := 0, masterId := i.masterId, master := m, inWall := m, synced := m, holdover := s.spire.holdover && !m } }

/-- The topology image of a boot (R312, R313, R592). -/
def State.bootTopology (s : State) (e : BootEnv) : State :=
  let check (l : List Byte) : Nat × Option Image := imgCheck s.custKey s.wallRecord s.dome.serial.toNat l
  let alone (s : State) (c : Nat) : State :=
    { s with spire := { s.spire with imageErr := c, holdover := false }, pwr := { s.pwr with standAlone := true } }
  let s := (s.keepNote 0x40 16).noteObj 0x200000 4194304
  match check (s.keepObj 0x200000 4194304) with
  | (_, some i) => s.bootImage i
  | (c, none) => match s.flashGet e 2 with
    | (s, none) => alone s c
    | (s, some f) => match check f with
      | (_, some i) => ((s.keepPut 0x200000 f).keepPut 0x40 ((f.drop 16).take 16)).bootImage i
      | (c, none) => alone s c

/-- The safe-frame slots of a boot (R439, R592). -/
def State.bootSafeFrames (s : State) (e : BootEnv) : State :=
  (idx 8).foldl (fun s o =>
    let s := s.sfJudge o
    if s.keep.sfVerified.getLsbD o.val then s
    else match s.flashGet e (3 + o.val) with
      | (s, none) => s
      | (s, some l) => if s.safeFrameCheck l = 0 ∧ oU l 4 1 = o.val then s.safeFramePut l else s) s

/-! ### DRAM -/

/-- Whether the Dome's ECC regions are well formed (R400). -/
def eccOk (gib : Nat) (l : List Nat) : Bool :=
  let on := l.filter fun w => bit w 31
  let b (w : Nat) : Nat := bits w 9 0
  let z (w : Nat) : Nat := bits w 26 16
  on.all (fun w => decide (1 ≤ z w) && decide (b w + z w ≤ gib * 16))
    && (List.range on.length).all fun i => (List.range i).all fun j =>
      decide (b (on.getD i 0) + z (on.getD i 0) ≤ b (on.getD j 0)) || decide (b (on.getD j 0) + z (on.getD j 0) ≤ b (on.getD i 0))

/-- Whether a channel's dies are within R372 and as DMC0's are (R373). -/
def dieOk (e : BootEnv) (d : DieEnv) : Bool :=
  let z := e.dies[0]
  (d.gb == 8 || d.gb == 16) && d.width == 16 && d.gb == z.gb && d.ranks2 == z.ranks2

/-- The step that fails in attempt `k` at training a channel, in the order of the training row of R374: command bus, WCK2CK, the configuration,
then the data paths (R373, R396); 0 where none does. -/
def attemptFail (e : BootEnv) (d : DieEnv) (k : Nat) : Nat :=
  let c := ((d.attempts[k]?).getD 0).val
  if c = 1 ∨ c = 2 then c else if dieOk e d then c else 3

/-- Up to three attempts (R396): the code of the last where all fail, else 0, and the attempts used. -/
def trainDie (e : BootEnv) (d : DieEnv) : Nat × Nat :=
  match (List.range 3).find? fun k => attemptFail e d k == 0 with
  | some k => (0, k + 1)
  | none => (attemptFail e d 2, 3)

/-- The DRAM's configuration as DMC0 detects it, where the boot trains DRAM and it is within R372 (R373), and the ECC regions the Dome defines,
which the spec does not state (R400; log 16). -/
def State.bootDramCfg (s : State) (e : BootEnv) : State :=
  if s.pwr.dramFail || !dieOk e e.dies[0] then s
  else
    let s := { s with dmcg := { s.dmcg with density := e.dies[0].gb == 16, ranks2 := e.dies[0].ranks2, valid := true } }
    let l := (List.range 8).map fun k => (Config.eccRegion k).toNat
    let ok := eccOk (dramGib s.dmcg) l
    { s with dmcg := { s.dmcg with eccRegion := Vector.ofFn fun k => if ok then w32 (l.getD k.val 0) else 0 } }

/-- Steps 7 and 8: training, for which the DRAM PHYs' PLLs lock to XIN (R550), and the clear (R396, R397, R409, R594). -/
def State.bootDram (s : State) (e : BootEnv) : State :=
  if s.pwr.dramFail then s
  else
    let r : Vector (Nat × Nat) 8 := e.dies.map fun d => trainDie e d
    let s := { s with dmcs := s.dmcs.mapIdx fun k (d : Dmc) =>
      let q := r.toList.getD k (0, 1)
      { d with trained := q.1 == 0, trainFail := q.1, attempts := q.2 } }
    let s := { s with clk := { s.clk with pllLock := s.clk.pllLock ||| (0xFF <<< 40) } }
    if r.toList.any fun q => q.1 != 0 then { s with pwr := { s.pwr with dramFail := true } }
    else
      let s := s.zero .dram 0 (s.memSize .dram)
      { s with dmcg := { s.dmcg with clearDone := true } }

/-! ### Hosts and Spire -/

/-- Step 10: the host ports are enabled and the physical functions are ready (R42, R584); in recovery HP0's alone (R590). -/
def State.bootHosts (s : State) (n : Nat) : State :=
  let s := (List.range n).foldl (fun s k => s.modPort (f4 k) fun t => { t with enabled := true }) s
  (List.range n).foldl (fun s k => s.modPav (fp (16 * k)) fun v => { v with present := true, ready := true }) s

/-- The Dome in service from now on. -/
def State.domeRun (s : State) : State := { s with dome := { s.dome with st := .run, lastKick := s.now } }

/-- R590, R591: recovery. -/
def State.recovery (s : State) : State :=
  let s := (s.bootHosts 1).modPav 0 fun v => { v with exts := [⟨0, 0x1FE0000⟩] }
  { s with
    dome := { s.dome with watermark := s.dome.watermark.set 1 0 }
    pwr := { s.pwr with stage := 15, booted := true } }

/-- Steps 11 and 12: the declared links train, and the device joins the wall; a stand-alone device has no wall to join. -/
def State.bootSpire (s : State) : State :=
  let s := if s.pwr.xinFail then s else (idx 12).foldl (fun s l => s.linkStart l) s
  let s := s.tryJoin
  if s.standAlone then
    let (v, s) := s.free
    { s with pwr := { s.pwr with stage := 11, bootUs := w32 (v.toNat % 2 ^ 32) } }
  else { s with pwr := { s.pwr with stage := 10 } }

/-- Step 9: the Dome's regions, DMC_LOCK and the end of watermark mode (R400, R466). -/
def State.bootService (s : State) : State :=
  let s := s.bootRegions
  { s with dmcg := { s.dmcg with lock := true }, dome := { s.dome with wmMode := false } }

/-- The flags of PWR_BOOT_STATUS as a boot starts; XIN_FAIL stays where XIN has already timed out (R593). -/
def State.bootFlags (s : State) : State :=
  { s with glb := { s.glb with sbWait := false }, pwr := { s.pwr with
    reset := .running, fwSource := false, policyEmpty := false, standAlone := false, memDegraded := false
    xinFail := s.clk.onRco, dramFail := s.clk.onRco } }

/-- BOOT (R584 to R596): from the end of a warm reset, or after a power-on reset has ended. -/
def State.boot (s : State) (e : BootEnv) : State :=
  let warm := s.pwr.reset == .warm
  if s.pwr.booted || !(warm || s.pwr.reset == .running) then s
  else
    let s := (s.bootFlags.finishWipe.bootClocks e).bootMemory warm e.march
    match s.bootFirmware e with
    | (s, false) => let s := s.recovery
                    if s.pwr.xinFail then s.clkFail 1 else s
    | (s, true) =>
      let s := (((s.bootDramCfg e).bootTopology e).bootPolicy e).bootSafeFrames e
      let s := ((s.bootDram e).bootService.bootHosts 4).domeRun
      let s := { s with pwr := { s.pwr with booted := true } }
      let s := if s.pwr.xinFail then s.clkFail 1 else s
      s.bootSpire

/-- BOOT_XIN_TIMEOUT (R552, R593): XIN is not stable 50 ms after the end of the reset; one that is stable by then is in time (R8). -/
def State.bootXinTimeout (s : State) : State :=
  if s.pwr.booted || s.clk.xinOk || !(s.pwr.reset == .warm || s.pwr.reset == .running) then s
  else { s with
    clk := { s.clk with xinOk := false, onRco := true, failCode := 1 }
    spire := { s.spire with holdover := true }
    pwr := { s.pwr with xinFail := true, dramFail := true } }

/-- A host link trains (R585, R609), on its reference clock, to which its PLL has locked (R550). -/
def State.pcieUp (s : State) (n : Fin 4) (speed : Fin 5) (width : Fin 4) : State :=
  let s := s.modPort n fun t => { t with linkUp := true, speed := speed.val + 1, width := 2 ^ width.val }
  { s with clk := { s.clk with
    refclkOk := putB s.clk.refclkOk n.val true, pllLock := putB s.clk.pllLock (36 + n.val) true, pllCoast := putB s.clk.pllCoast (36 + n.val) false } }

/-! ### The rows -/

/-- BOOT (R584). -/
def execBoot (e : BootEnv) (s : State) : Host.Outcome State Fault Refusal := actAon (fun s => s.boot e) s

/-- BOOT_XIN_TIMEOUT (R593). -/
def execBootXinTimeout (s : State) : Host.Outcome State Fault Refusal := actAon (fun s => s.bootXinTimeout) s

/-- PCIE_LINK_UP (R585). -/
def execPcieLinkUp (port : PortLink) (s : State) : Host.Outcome State Fault Refusal :=
  actHost (fun s => s.pcieUp port.port port.speed port.width) s

end Sys2Proof.Machine
end

