-- ==== Sys2Proof/Machine/RegRead.lean ====
section
/-!
DEFINITION. The registers as a read shows them (19, register index; the register tables of each chapter): for each block the registers
of one word, and the registers of two words by the offset of their low word (R13). Reserved bits and offsets read 0 (R16, R656).
-/
namespace Sys2Proof.Machine
open Sys2Proof

/-- A block of registers repeated every `stride` bytes from `base`: the instance and the offset within it. -/
def inBlk (o base stride n : Nat) : Option (Nat × Nat) :=
  if base ≤ o ∧ o < base + stride * n then some ((o - base) / stride, (o - base) % stride) else none

/-- Eight bits of a map as a word's field: bit k where `f k`. -/
def mapBits (n : Nat) (f : Nat → Bool) : Nat := ((List.range n).filter f).foldl (fun v k => v + 2 ^ k) 0

/-- A signed value as `n` bits of two's complement. -/
def twos (n : Nat) (v : Int) : Nat := (v % 2 ^ n).toNat

/-! ### GLB, CLK, PWR -/

/-- GLB (17, 19). -/
def State.glbRd (s : State) (o : Nat) : Nat :=
  match o with
  | 0x0000 => 0x01B08256
  | 0x0010 => bits s.dome.serial.toNat 31 0
  | 0x0014 => bits s.dome.serial.toNat 63 32
  | 0x0018 => bits s.dome.serial.toNat 95 64
  | 0x001C => bits s.dome.serial.toNat 127 96
  | 0x0100 => twos 16 s.glb.tj + b2n s.glb.warn * 2 ^ 16 + b2n s.glb.tripped * 2 ^ 17
  | 0x0104 => s.glb.warnTh.toNat
  | 0x0108 => twos 16 s.glb.tjPeak
  | 0x0200 => s.glb.gpioIn.toNat
  | 0x0204 => s.glb.gpioOut.toNat
  | 0x0208 => s.glb.gpioOe.toNat
  | 0x020C => s.glb.gpioPull.toNat
  | _ => 0

/-- ISLAND_RUN: the clocks that run, and those that work starts (R563). -/
def State.islandRun (s : State) : Nat := mapBits 45 fun i => s.clk.run.getLsbD i || s.islandWork i

/-- CLK (15). -/
def State.clkRd (s : State) (o : Nat) : Nat :=
  let c := s.clk
  match o with
  | 0x0000 => b2n c.xinOk + b2n c.onRco * 2 + b2n c.rcoFail * 4 + b2n c.monTracking * 8 + bits c.failCode 4 0 * 2 ^ 8 + c.refclkOk.toNat * 2 ^ 16
  | 0x0004 => b2n c.xinMode + c.ampTh % 4 * 2 ^ 4 + b2n c.xinLock * 2 ^ 31
  | 0x0008 => c.monCount
  | 0x000C => c.monTrack
  | 0x0028 => c.gateReq.toNat
  | 0x002C => bits c.gated.toNat 34 23 + bits c.gated.toNat 22 15 * 2 ^ 16
  | 0x0030 => c.hyst + c.gateErr.toNat * 2 ^ 16
  | 0x0034 => c.forced.toNat
  | 0x0038 => c.timeouts.toNat
  | _ => 0

/-- CLK, registers of two words. -/
def State.clkWide (s : State) (o : Nat) : Option Nat :=
  match o with
  | 0x0010 => some s.clk.pllLock.toNat
  | 0x0018 => some s.clk.pllCoast.toNat
  | 0x0020 => some s.islandRun
  | _ => none

/-- PWR (16). -/
def State.pwrRd (s : State) (o : Nat) : Nat :=
  let p := s.pwr
  match o with
  | 0x0000 => b2n p.standby
  | 0x0004 => b2n p.standbyReq + b2n p.reqErr * 2 ^ 8
  | 0x0008 => p.railGood.toNat + p.railDropped.toNat * 2 ^ 8
  | 0x000C => p.cause.toNat
  | 0x0014 => bits p.stage 3 0 + b2n p.fwSource * 2 ^ 8 + b2n p.policyEmpty * 2 ^ 9 + b2n p.standAlone * 2 ^ 10 + b2n p.xinFail * 2 ^ 11
      + b2n p.dramFail * 2 ^ 12 + b2n p.memDegraded * 2 ^ 13
  | 0x0018 => p.bootUs.toNat
  | _ => 0

/-! ### COMP, OUT -/

/-- The latched layers that an output's composer draws, Belvedere apart (R117). -/
def State.drawn (s : State) (o : Fin 8) : List Placed :=
  (idx 256).filterMap fun i => match s.slots[i.val].cur with
    | none => none
    | some l => match (s.pavs[l.pav.val].views[(f8 l.layer.view).val]).cur with
      | some m => if m.out = o ∧ (place l m).shown then some (place l m) else none
      | none => none

/-- Members on an output in a group that waits (CMT_STATUS). -/
def State.cmtCount (s : State) (o : Fin 8) (held : Bool) : Nat :=
  ((s.groups.filter fun g => !held || g.st == .held).flatMap fun g =>
    g.members.filter fun m => m.out == o && !g.latchedOuts.contains m.out).length

/-- COMP (04, 05). COMP_LINE_BUDGET reads 0 while the output is not enabled, whatever mode it had (DESIGN CHOICE, log 56). -/
def State.compRd (s : State) (n : Fin 8) (o : Nat) : Nat :=
  let c := s.comps[n.val]
  let u := s.outs[n.val]
  let belv := (s.belvLatched n).toList
  match o with
  | 0x0000 => b2n (u.enabled && u.scanning && !u.safe) + bits ((s.drawn n).length + belv.length) 6 0 * 2 + b2n c.fetchFault * 2 ^ 8
  | 0x0004 => bits c.bg.toNat 29 0
  | 0x0008 => if u.enabled then u.mode.linePs / 1250 else 0
  | 0x000C => bits c.costAdm 15 0 + bits c.costLine 15 0 * 2 ^ 16
  | 0x0010 => c.costPeak
  | 0x0014 => c.fetchRate
  | 0x0018 => bits (((s.drawn n) ++ belv).map fun q => q.lat.layer.granules).sum 9 0 + bits c.granAdm 9 0 * 2 ^ 16
  | 0x001C => c.rejLbuf.toNat
  | 0x0020 => c.rejCost.toNat
  | 0x0030 => c.coefAddr.toNat
  | 0x0034 =>
    let a := c.coefAddr.toNat
    twos 32 ((coefs (bits a 3 0) (bits a 11 6) (bits a 5 4)).getD (bits a 14 12) 0)
  | 0x0040 => bits (s.cmtCount n false) 15 0 + bits (s.cmtCount n true) 15 0 * 2 ^ 16
  | 0x004C => c.late.toNat
  | 0x0050 => c.expired.toNat
  | 0x0054 => c.holdFrames.toNat
  | _ => 0

/-- COMP, registers of two words. -/
def State.compWide (s : State) (n : Fin 8) (o : Nat) : Option Nat :=
  match o with
  | 0x0024 => some (s.comps[n.val]).fetchBytes.toNat
  | 0x0044 => some (s.comps[n.val]).latchFrame.toNat
  | _ => none

/-- Whether the Dome holds a proof window: window 0 always, the others by their block code. -/
def State.proofHeld (s : State) (n : Fin 8) (w : Nat) : Bool := w == 0 || s.isHeld (0x60 + 4 * n.val + w)

/-- The corners of a proof window: those of window 0 follow the Belvedere layer while it is enabled (R285). -/
def State.proofXy (s : State) (n : Fin 8) (w : Fin 4) : Word × Word :=
  let p := s.outs[n.val].proof[w.val]
  let b := s.belvs[n.val]
  if w = 0 ∧ b.cfg.getLsbD 0 then
    (b.pos, w32 ((bits b.pos.toNat 15 0 + bits b.size.toNat 15 0) % 65536 + (bits b.pos.toNat 31 16 + bits b.size.toNat 31 16) % 65536 * 2 ^ 16))
  else (p.xy0, p.xy1)

/-- EN of a proof window; window 0 runs while the Belvedere slot is enabled (07, Pixel proof), and reads so. -/
def State.proofEn (s : State) (n : Fin 8) (w : Fin 4) : Bool :=
  (s.outs[n.val].proof[w.val]).en || (w == 0 && (s.belvs[n.val]).cfg.getLsbD 0)

/-- ERR of a proof window: enabled with a rectangle that is empty or not within the mode (R290). -/
def State.proofErr (s : State) (n : Fin 8) (w : Fin 4) : Bool :=
  let q := s.proofXy n w
  let r : Rect := ⟨bits q.1.toNat 15 0, bits q.1.toNat 31 16, bits q.2.toNat 15 0, bits q.2.toNat 31 16⟩
  let m := s.outs[n.val].mode
  s.proofEn n w && (r.empty || decide (m.w < r.x1) || decide (m.h < r.y1))

/-- OUT (06, 07). -/
def State.outRd (s : State) (n : Fin 8) (o : Nat) : Nat :=
  let u := s.outs[n.val]
  match inBlk o 0x0100 0x20 4 with
  | some (w, k) =>
    match k with
    | 0x00 => b2n (s.proofEn n (f4 w)) + b2n (s.proofHeld n w) * 2 + b2n (s.proofErr n (f4 w)) * 4
    | 0x04 => (s.proofXy n (f4 w)).1.toNat
    | 0x08 => (s.proofXy n (f4 w)).2.toNat
    | _ => 0
  | none =>
  match inBlk o 0x0080 4 32 with
  | some (k, 0) => (u.edid[(f32 k).val]).toNat
  | _ =>
  match o with
  | 0x0000 => b2n u.enabled + b2n u.scanning * 2 + b2n u.safe * 4 + b2n u.coast * 8 + b2n u.hpd * 16 + min u.abortRun 255 * 2 ^ 8
  | 0x0004 => bits u.set.mode 5 0 + u.set.rg.val * 2 ^ 6 + bits u.set.lanes 2 0 * 2 ^ 8 + bits u.set.rate 2 0 * 2 ^ 12 + bits u.set.ssc 3 0 * 2 ^ 16
      + b2n u.set.dither * 2 ^ 20 + b2n u.enableSet * 2 ^ 21 + bits u.set.policy 1 0 * 2 ^ 22
  | 0x0008 => bits u.set.commitOffset 15 0 + bits u.set.abortLimit 7 0 * 2 ^ 16
  | 0x000C => bits u.recover.toNat 15 0
  | 0x0010 => bits (s.lineNow n) 15 0 + b2n u.vblank * 2 ^ 16
  | 0x001C => u.frameCount.toNat
  | 0x0020 => twos 32 u.gridErr
  | 0x0024 => u.lineMatch.toNat
  | 0x0028 => u.underruns.toNat
  | 0x002C => u.rephases.toNat
  | 0x0030 => b2n u.trained + bits u.lanesActive 2 0 * 2 + bits u.rateActive 3 0 * 2 ^ 4
      + b2n (u.lanesActive != 0 && decide (4 ≤ u.rateActive)) * 2 ^ 8 + b2n u.sscActive * 2 ^ 9
      + bits u.failStage 2 0 * 2 ^ 12 + b2n u.fail * 2 ^ 15 + u.irqs.toNat * 2 ^ 16
  | 0x0034 => bits u.trainRetry.toNat 15 0
  | 0x0038 => b2n u.pvalid + b2n u.forceLow * 2
  | 0x003C => bits u.caps.length 2 0 + u.capIncomplete.toNat * 2 ^ 8
  | 0x0040 => u.edidBlock.toNat
  | 0x0044 => b2n u.edidBusy + b2n u.edidDone * 2 + bits u.edidErr 1 0 * 4
  | 0x0180 => u.pcrc.width + b2n u.pcrc.refin * 2 ^ 8 + b2n u.pcrc.refout * 2 ^ 9
  | _ => 0

/-- OUT, registers of two words. -/
def State.outWide (s : State) (n : Fin 8) (o : Nat) : Option Nat :=
  let u := s.outs[n.val]
  match inBlk o 0x0100 0x20 4 with
  | some (w, 0x0C) => some (u.proof[(f4 w).val]).res.toNat
  | some (w, 0x14) => some (u.proof[(f4 w).val]).frame.toNat
  | _ =>
  match o with
  | 0x0014 => some u.frame.toNat
  | 0x0184 => some u.pcrc.poly.toNat
  | 0x018C => some u.pcrc.init.toNat
  | 0x0194 => some u.pcrc.xorout.toNat
  | _ => none

/-! ### LTN, SPIRE -/

/-- A map of the slots as eight words. -/
def State.slotMap (s : State) (k : Nat) (f : Slot → Bool) : Nat := mapBits 32 fun b => f s.slots[(f256 (32 * k + b)).val]

/-- The Belvedere registers of an output (07). -/
def State.belvRd (s : State) (n : Fin 8) (k : Nat) : Nat :=
  let b := s.belvs[n.val]
  let t := s.slots[(f256 (248 + n.val)).val]
  match k with
  | 0x00 => b.cfg.toNat
  | 0x04 => b.pos.toNat
  | 0x08 => b.size.toNat
  | 0x0C => b.limit.toNat
  | 0x10 => b.limit2.toNat
  | 0x14 => b2n b.cur.isSome + b2n t.stale * 2 + b2n t.over2 * 4 + b2n s.outs[n.val].cause2 * 8 + b2n b.next.isSome * 16 + bits b.run 1 0 * 2 ^ 8
  | 0x18 => b.mismatch.toNat
  | 0x1C => b.faults.toNat
  | _ => 0

/-- LTN (07). -/
def State.ltnRd (s : State) (o : Nat) : Nat :=
  match inBlk o 0x0600 0x20 8 with
  | some (n, k) => s.belvRd (f8 n) k
  | none =>
  match inBlk o 0x0100 0x10 64 with
  | some (p, 0x0) => bits (s.ltn[(fp p).val]).actions 3 0 + bits (s.ltn[(fp p).val]).defAction 1 0 * 2 ^ 4
  | some (p, 0x4) => (s.ltn[(fp p).val]).max1.toNat
  | some (p, 0x8) => (s.ltn[(fp p).val]).max2.toNat
  | some _ => 0
  | none =>
  match inBlk o 0x0010 4 8 with
  | some (n, _) => (s.outs[(f8 n).val]).hatch.toNat
  | none =>
  match inBlk o 0x0500 4 24 with
  | some (k, _) => if k < 8 then s.slotMap k Slot.stale else if k < 16 then s.slotMap (k - 8) Slot.over2 else s.slotMap (k - 16) Slot.lost
  | none => if o = 0x0560 then s.ageSel else if o = 0x056C then s.staleCount.toNat else 0

/-- LTN_AGE. -/
def State.ltnWide (s : State) (o : Nat) : Option Nat := if o = 0x0564 then some (s.slots[(f256 s.ageSel).val]).age.toNat else none

/-- STATE of a link (08). -/
def linkCode : LinkSt → Nat
  | .off => 0 | .train => 1 | .ident => 2 | .measure => 3 | .up => 4 | .disabled => 6

/-- A link's registers (08). -/
def linkRd (k : Link) (o : Nat) : Nat :=
  match o with
  | 0x00 => b2n k.enable
  | 0x04 => linkCode k.st + bits k.cause 3 0 * 2 ^ 4 + b2n k.downFlag * 2 ^ 8
  | 0x08 => bits k.nbId 13 0 + bits k.nbLink 3 0 * 2 ^ 16
  | 0x0C => bits k.delay 23 0
  | 0x10 => k.crcErr.toNat
  | 0x14 => k.replays.toNat
  | 0x28 => k.downs.toNat
  | _ => 0

/-- SPIRE (08). -/
def State.spireRd (s : State) (o : Nat) : Nat :=
  let t := s.spire
  match inBlk o 0x0100 0x40 12 with
  | some (l, k) => linkRd (t.links[(f12 l).val]) k
  | none =>
  match inBlk o 0x0060 0x10 4 with
  | some (g, 0x0) => (t.flips[(f4 g).val]).toNat
  | some (g, 0x4) => (t.holds[(f4 g).val]).toNat
  | some (g, 0x8) => (t.nodec[(f4 g).val]).toNat
  | some _ => 0
  | none =>
  match inBlk o 0x0030 4 4 with
  | some (g, _) => bits (t.leads[(f4 g).val]) 7 0 + bits (s.leadMin (f4 g)) 7 0 * 2 ^ 8
  | none =>
  match o with
  | 0x0000 => bits t.myId 13 0 + b2n t.image.isSome * 2 ^ 16 + bits t.imageErr 2 0 * 2 ^ 17 + b2n t.master * 2 ^ 20 + b2n (t.inWall || t.master) * 2 ^ 21
      + b2n t.holdover * 2 ^ 22
  | 0x0004 => bits t.masterId 13 0
  | 0x0008 => t.term.toNat
  | 0x001C => twos 32 t.offset
  | 0x0020 => t.steps.toNat
  | 0x0024 => b2n t.tiEn + b2n t.tiLock * 2 + b2n t.tiLost * 4
  | 0x0028 => t.tiRej.toNat
  | 0x002C => (match t.image with | some i => bits i.gen.toNat 31 0 | none => 0)
  | 0x0040 => t.unreach.toNat
  | 0x0044 => t.hopDrop.toNat
  | 0x0048 => t.safeLate.toNat
  | 0x004C => t.importRej.toNat
  | 0x0050 => bits t.absentSel 8 0
  | 0x0054 => if t.master then mapBits 32 fun b => t.absent.contains (32 * t.absentSel + b) else 0
  | _ => 0

/-- SPIRE, registers of two words. -/
def State.spireWide (s : State) (o : Nat) : Option Nat :=
  match inBlk o 0x0100 0x40 12 with
  | some (l, 0x18) => some (s.spire.links[(f12 l).val]).tx.toNat
  | some (l, 0x20) => some (s.spire.links[(f12 l).val]).rx.toNat
  | some _ => none
  | none => if o = 0x000C then some s.spire.now.toNat else none

/-! ### DMC, ORG, KEEP -/

/-- REF_STATE (10). -/
def refCode : RefSt → Nat
  | .settled => 0 | .owing => 1 | .postponed => 2 | .preempt => 3 | .batch => 4 | .selfRefresh => 5

/-- A DMC's registers (10). -/
def dmcRd (d : Dmc) (o : Nat) : Nat :=
  match o with
  | 0x0000 => b2n d.trained + bits d.trainFail 2 0 * 2 + refCode d.ref * 2 ^ 4 + b2n d.rtBurst * 2 ^ 7 + min d.wq.length 64 * 2 ^ 16
      + min d.rq.length 64 * 2 ^ 24
  | 0x0004 => bits d.postpone 3 0 + b2n d.pbEn * 2 ^ 4 + bits d.burstGap 7 0 * 2 ^ 8
  | 0x0008 => bits d.debt 6 0 + bits d.interval 15 0 * 2 ^ 16
  | 0x000C => bits d.mr4 4 0 + b2n d.hot * 2 ^ 8 + b2n d.hotOver * 2 ^ 9
  | 0x0010 => bits d.pageForce 1 0 + bits d.idleClose 11 0 * 2 ^ 4
  | 0x0014 => d.preempts.toNat
  | 0x0018 => d.bursts.toNat
  | 0x001C => d.partialWait.toNat
  | 0x0040 => d.ce.toNat
  | 0x0044 => d.ue.toNat
  | 0x0050 => b2n d.drift + bits d.attempts 1 0 * 2 + d.driftCount.toNat * 2 ^ 16
  | _ => 0

/-- A DMC's registers of two words. -/
def dmcWide (d : Dmc) (o : Nat) : Option Nat :=
  match o with
  | 0x0020 => some d.fwd.toNat
  | 0x0028 => some d.refreshes.toNat
  | 0x0030 => some d.rdBytes.toNat
  | 0x0038 => some d.wrBytes.toNat
  | 0x0048 => some (d.eccAddr % 2 ^ 36 + b2n d.eccUe * 2 ^ 63)
  | _ => none

/-- DMC global (10). -/
def dmcgRd (g : DmcGlobal) (o : Nat) : Nat :=
  match inBlk o 0x0100 4 8 with
  | some (k, _) => (g.eccRegion[(f8 k).val]).toNat
  | none =>
  match o with
  | 0x0000 => b2n g.density + b2n g.ranks2 * 2 + (if g.valid then dramGib g else 0) * 2 ^ 8 + b2n g.valid * 2 ^ 16
  | 0x0004 => b2n g.lock
  | 0x0008 => bits g.scrubPeriod 15 0 + b2n (g.scrubPeriod != 0) * 2 ^ 31
  | 0x000C => b2n g.clearDone + b2n g.clearRun * 2
  | _ => 0

/-- ORG (11). -/
def State.orgRd (s : State) (o : Nat) : Nat :=
  let g := s.org
  match o with
  | 0x0000 => b2n g.clearDone + b2n g.logKept * 2
  | 0x0004 => b2n g.preserveLog
  | 0x0008 => g.ce.toNat
  | 0x000C => g.ue.toNat
  | 0x0018 => g.regionViol.toNat
  | 0x0020 => bits g.marchTarget 1 0 + b2n g.marchPreserve * 2 ^ 4
  | 0x0024 => bits g.marchBase 12 0
  | 0x0028 => bits g.marchLimit 12 0
  | 0x002C => b2n g.marchRun + b2n g.marchDone * 2 + b2n g.marchErr * 4 + b2n g.unrepaired * 8 + bits g.faults 7 0 * 2 ^ 8 + bits g.bank 4 0 * 2 ^ 16
  | 0x0030 => bits s.lbufFree 10 0
  | _ => 0

/-- ORG_ECC_ADDR. -/
def State.orgWide (s : State) (o : Nat) : Option Nat :=
  if o = 0x0010 then some (s.org.eccOff % 2 ^ 25 + bits s.org.eccInst 7 0 * 2 ^ 32 + b2n s.org.eccUe * 2 ^ 63) else none

/-- KEEP (11). Aperture writes are done in the command that makes them, so BUSY reads 0 (log 9). -/
def State.keepRd (s : State) (o : Nat) : Nat :=
  let k := s.keep
  match o with
  | 0x0000 => b2n (!k.buf.isEmpty) + b2n k.wiping * 2 + b2n k.wipeDone * 4 + k.sfVerified.toNat * 2 ^ 8
  | 0x0004 => bits k.aperture 7 0
  | 0x0008 => k.ce.toNat
  | 0x000C => k.ue.toNat
  | _ => 0

/-- KEEP_WRITES. -/
def State.keepWide (s : State) (o : Nat) : Option Nat := if o = 0x0010 then some s.keep.writes.toNat else none

/-! ### CVU, GAZ, BELFRY -/

/-- A check-value channel's registers (13). -/
def State.cvuRd (s : State) (c : Fin 16) (k : Nat) : Nat :=
  let v := s.cvus[c.val]
  match k with
  | 0x00 => v.crc.width + b2n v.crc.refin * 2 ^ 8 + b2n v.crc.refout * 2 ^ 9
  | 0x1C => min ((s.jobs.filter fun j => match j.chan with | some (x, _) => x == c | none => false).length
      + (v.domeJobs.toList.filter id).length) 127 + b2n (s.isHeld c.val) * 2 ^ 8
  | 0x30 => v.failCount.toNat
  | _ => 0

/-- Registers of two words; the results of a secure channel read 0 in the normal world (R500). -/
def State.cvuWide (s : State) (secure : Bool) (c : Fin 16) (k : Nat) : Option Nat :=
  let v := s.cvus[c.val]
  let hide (x : DWord) : Nat := if s.isHeld c.val && !secure then 0 else x.toNat
  match k with
  | 0x04 => some v.crc.poly.toNat
  | 0x0C => some v.crc.init.toNat
  | 0x14 => some v.crc.xorout.toNat
  | 0x20 => some (hide v.lastRes)
  | 0x28 => some (hide v.lastRx)
  | 0x34 => some v.bytes.toNat
  | _ => none

/-- A control's registers (14). -/
def ctlRd (c : Control) (k : Nat) : Nat :=
  match inBlk k 0x40 4 16 with
  | some (e, _) => (c.elems[(f16 e).val]).cfg.toNat
  | none =>
  match k with
  | 0x00 => c.cfg.toNat
  | 0x04 => c.th.toNat
  | 0x08 => c.base.toNat
  | 0x0C => b2n c.touched + b2n c.provisional * 2 + b2n c.cfgErr * 4 + b2n c.stuck * 8 + bits c.pos 9 0 * 2 ^ 16
  | 0x10 => c.recaptures.toNat
  | _ => 0

/-- STATE of a haptic channel (14). -/
def hapCode : HapSt → Nat
  | .idle => 0 | .overdrive => 1 | .drive => 2 | .brake => 3

/-- A haptic channel's registers (14). -/
def hapRd (h : Hap) (k : Nat) : Nat :=
  match k with
  | 0x00 => h.cfg.toNat
  | 0x04 => h.drive.toNat
  | 0x08 => hapCode h.st + bits h.effect 7 0 * 2 ^ 8 + bits h.prio 2 0 * 2 ^ 16 + b2n h.noBemf * 2 ^ 19 + bits h.lastEnd 1 0 * 2 ^ 20
  | 0x0C => h.ignored.toNat
  | 0x10 => if h.halfUs = 0 then 0 else bits (500000 / h.halfUs) 8 0
  | _ => 0

/-- GAZ_REFLEX of a control. -/
def reflexRd (c : Control) : Nat :=
  match c.reflex with
  | none => 0
  | some r => 1 + bits r.chan 3 0 * 2 + bits r.effect 7 0 * 2 ^ 8 + bits r.prio 2 0 * 2 ^ 16 + r.pav.val * 2 ^ 24

/-- PHASE of a voice (14). -/
def phaseCode : VoPhase → Nat
  | .idle => 0 | .attack => 1 | .sustain => 2 | .release => 3

/-- GAZ and BELFRY (14). -/
def State.gazRd (s : State) (o : Nat) : Nat :=
  let g := s.gaz
  match inBlk o 0x0400 0x80 32 with
  | some (c, k) => ctlRd (g.controls[(f32 c).val]) k
  | none =>
  match inBlk o 0x2000 0x20 16 with
  | some (h, k) => hapRd (g.haps[(f16 h).val]) k
  | none =>
  match inBlk o 0x0100 4 128 with
  | some (i, _) => g.csRole[(Fin.ofNat 128 i).val]
  | none =>
  match inBlk o 0x2400 4 8 with
  | some (t, _) => (g.trig[(f8 t).val]).toNat
  | none =>
  match inBlk o 0x2500 4 32 with
  | some (c, _) => reflexRd (g.controls[(f32 c).val])
  | none =>
  match inBlk o 0x0010 4 4 with
  | some (k, _) => (g.ladder[(f4 k).val]).toNat
  | none =>
  match inBlk o 0x8100 0x10 16 with
  | some (v, 0x0) => (g.voices[(f16 v).val]).env.toNat
  | some (v, 0x4) => phaseCode (g.voices[(f16 v).val]).phase + (g.voices[(f16 v).val]).pav.val * 2 ^ 8
  | some _ => 0
  | none =>
  match inBlk o 0x8200 0x20 2 with
  | some (a, k) => g.slotGain[(f16 (8 * a + k / 4)).val]
  | none =>
  match o with
  | 0x0000 => bits g.level 1 0 + bits g.scanUs 15 0 * 2 ^ 16
  | 0x0004 => b2n g.scanEn
  | 0x1400 => g.diagSel.toNat
  | 0x1404 =>
    let e := (g.controls[(f32 (bits g.diagSel.toNat 4 0)).val]).elems[(f16 (bits g.diagSel.toNat 11 8)).val]
    bits e.raw 15 0 + bits e.base 31 16 * 2 ^ 16
  | 0x2600 => g.effectAddr.toNat
  | 0x2604 => effectWord (bits g.effectAddr.toNat 7 0) (bits g.effectAddr.toNat 11 8)
  | 0x8000 => mapBits 16 fun v => (g.voices[(f16 v).val]).phase != .idle
  | 0x8004 => bits g.duck 7 0
  | 0x8300 => g.v15Route.toNat
  | 0x8304 => g.clip.toNat
  | _ => 0

/-! ### BUDGET, EVT, DOME -/

/-- The port configuration as it reads (09). -/
def portCfgRd (q : Nat) (b : BPort) : Nat := if q < 8 ∨ q = 81 then b.cfg.toNat / 2 * 2 else b.cfg.toNat

/-- BUDGET (09). -/
def State.budRd (s : State) (o : Nat) : Nat :=
  match inBlk o 0x0100 0x10 83 with
  | some (q, 0x0) => (s.bports[(f83 q).val]).grant
  | some (q, 0x4) => portCfgRd q (s.bports[(f83 q).val])
  | some (q, 0x8) => (s.bports[(f83 q).val]).wait.toNat
  | some _ => 0
  | none =>
  match inBlk o 0x0800 4 12 with
  | some (l, _) => (s.spire.links[(f12 l).val]).share.toNat
  | none =>
  match o with
  | 0x0000 => mapBits 8 fun n => !s.ceilingsHold (f8 n) (s.viewsOn (f8 n)) s.shareOf (s.bports[(f83 n).val]).grant
  | 0x0004 => (s.bports.toList.map BPort.grant).sum
  | _ => 0

/-- DEFER_MAP. -/
def State.budWide (s : State) (o : Nat) : Option Nat :=
  if o = 0x0008 then some (mapBits 64 fun p => quotaUp s.pavs[(fp p).val] 0) else none

/-- EVT (18). -/
def State.evtRd (s : State) (o : Nat) : Nat :=
  match o with
  | 0x0000 => s.evt.head.toNat
  | 0x0004 => s.evt.tail.toNat + b2n s.evt.dbRange * 2 ^ 16
  | 0x0008 => s.evt.lost.toNat
  | _ => 0

/-- EVT_LOG_COUNT. -/
def State.evtWide (s : State) (o : Nat) : Option Nat := if o = 0x000C then some s.evt.count.toNat else none

/-- STATE of the Dome (12). -/
def domeStCode : DomeSt → Nat
  | .boot => 0 | .run => 1 | .restart => 2 | .down => 3

/-- LC of DOME_STATUS: 0 BLANK, 1 BUILD, 2 FIELD, 3 RETIRED (R480). -/
def State.lcCode (s : State) : Nat := lcOf s.dome.lcFuse

/-- DOME_STATUS (12). -/
def State.domeStatus (s : State) : Nat :=
  let d := s.dome
  domeStCode d.st + b2n d.wmMode * 4 + s.lcCode * 16 + b2n d.tamper * 64 + bits d.policyErr 2 0 * 2 ^ 8 + min 3 (s.recentFails s.dome.failTimes).length * 2 ^ 16

/-- A region's registers (12). -/
def rgnRd (r : Region) (k : Nat) : Nat :=
  match k with
  | 0x0 => bits r.base 23 0
  | 0x4 => bits r.limit 23 0
  | 0x8 => r.read.toNat + r.write.toNat * 2 ^ 16
  | 0xC => b2n r.en + b2n r.secure * 2
  | _ => 0

/-- A memory's number as an index. -/
def f3 (n : Nat) : Fin 3 := Fin.ofNat 3 n

/-- The Dome window (12, 19). -/
def State.domeRd (s : State) (o : Nat) : Nat :=
  let d := s.dome
  match inBlk o 0x1000 0x10 192 with
  | some (r, k) => rgnRd ((d.regions[(f3 (r / 64)).val])[(fp r).val]) k
  | none =>
  match inBlk o 0x0040 4 8 with
  | some (k, _) => bits d.held.toNat (32 * k + 31) (32 * k)
  | none =>
  match inBlk o 0x0020 4 3 with
  | some (m, _) => bits (d.watermark[(f3 m).val]) 24 0
  | none =>
  match o with
  | 0x0000 => s.domeStatus
  | 0x0004 => d.fwVersion.toNat
  | 0x0010 => d.lcFuse.toNat
  | 0x0014 => d.secVersion.toNat
  | 0x0018 => d.restarts.toNat
  | 0x0030 => b2n d.wmMode
  | 0x0060 => bits d.hoBlock 7 0 + (if d.ho.isEmpty then 0 else 1) * 2 ^ 8 + b2n d.hoToSecure * 2 ^ 16
  | 0x0078 => d.mbxTimeouts.toNat
  | _ => 0

/-- The Dome window, registers of two words. -/
def State.domeWide (s : State) (o : Nat) : Option Nat :=
  match o with
  | 0x0008 => some s.dome.policyGen.toNat
  | 0x0070 => some (mapBits 64 fun p => s.pavs[(fp p).val].mbox.toList.any fun x => x.busy)
  | _ => none

/-! ### The Pavilion page -/

/-- A viewport's block (02). -/
def State.viewRd (s : State) (p : Fin 64) (v : Fin 8) (k : Nat) : Nat :=
  match s.pavs[p.val].views[v.val].cur with
  | none => 0
  | some m =>
    let u := s.outs[m.out.val]
    match k with
    | 0x00 => 1 + b2n (s.viewLive m) * 2 + u.set.rg.val * 4
    | 0x04 => bits m.rect.w 15 0 + bits m.rect.h 15 0 * 2 ^ 16
    | 0x08 => (classPs u.mode.cls + 500) / 1000
    | 0x0C => u.mode.linePs
    | 0x10 => bits (s.comps[m.out.val]).latchFrame.toNat 31 0
    | _ => 0

/-- ENABLE of a submission ring as it reads (R671). -/
def Sq.enableBit (q : Sq) : Bool := match q.st with | .disabled => false | .running | .stopped => true | .draining => q.keep

/-- STATE of a submission ring (02). -/
def sqCode : SqSt → Nat
  | .disabled => 0 | .running => 1 | .stopped => 2 | .draining => 3

/-- A submission ring's block (02). -/
def sqRd (q : Sq) (k : Nat) : Nat :=
  match k with
  | 0x00 => bits q.base.toNat 31 0
  | 0x04 => bits q.base.toNat 63 32
  | 0x08 => b2n q.enableBit + bits q.size 4 0 * 2 ^ 4 + bits q.weight 2 0 * 2 ^ 12
  | 0x0C => q.head.toNat
  | 0x10 => sqCode q.st + bits q.err 3 0 * 2 ^ 4 + b2n q.errFlag * 2 ^ 8
  | _ => 0

/-- The completion ring's block (02). -/
def cqRd (c : Cq) (k : Nat) : Nat :=
  match k with
  | 0x00 => bits c.base.toNat 31 0
  | 0x04 => bits c.base.toNat 63 32
  | 0x10 => bits c.shadow.toNat 31 0
  | 0x14 => bits c.shadow.toNat 63 32
  | 0x08 => b2n c.enable + bits c.size 4 0 * 2 ^ 4 + bits c.vector 4 0 * 2 ^ 16 + b2n c.cfgErr * 2 ^ 31
  | 0x0C => c.tail.toNat + b2n c.dbRange * 2 ^ 16
  | 0x18 => c.mod.toNat
  | _ => 0

/-- The event ring's block (02). -/
def eqRd (e : Evq) (k : Nat) : Nat :=
  match k with
  | 0x00 => bits e.base.toNat 31 0
  | 0x04 => bits e.base.toNat 63 32
  | 0x10 => bits e.shadow.toNat 31 0
  | 0x14 => bits e.shadow.toNat 63 32
  | 0x08 => b2n e.enable + bits e.size 4 0 * 2 ^ 4 + b2n e.cfgErr * 2 ^ 31
  | 0x0C => e.tail.toNat + b2n e.dbRange * 2 ^ 16
  | 0x18 => e.mod.toNat
  | 0x1C => e.lost.toNat
  | _ => 0

/-- The MSI-X table and PBA (02, R86). -/
def msixRd (v : Pav) (o : Nat) : Nat :=
  if o = 0x3800 then mapBits 32 fun k => (v.msix[(f32 k).val]).pend
  else
    match inBlk o 0x3000 16 32 with
    | some (k, 0x0) => bits (v.msix[(f32 k).val]).addr.toNat 31 0
    | some (k, 0x4) => bits (v.msix[(f32 k).val]).addr.toNat 63 32
    | some (k, 0x8) => (v.msix[(f32 k).val]).data.toNat
    | some (k, 0xC) => b2n (v.msix[(f32 k).val]).masked
    | _ => 0

/-- The mailbox (12). -/
def mboxRd (v : Pav) (o : Nat) : Nat :=
  let x (i : Nat) : MboxSlot := v.mbox[(Fin.ofNat 2 i).val]
  match inBlk o 0x4000 0x100 4 with
  | some (k, b) => bits (if k < 2 then (x k).inp else (x k).out).toNat (8 * (b / 4 * 4) + 31) (8 * (b / 4 * 4))
  | none =>
  match o with
  | 0x4404 => b2n (x 0).busy + b2n (x 1).busy * 2 + b2n (x 0).full * 4 + b2n (x 1).full * 8 + b2n v.sendErr * 16
  | 0x440C => v.mboxCfg.toNat
  | _ => 0

/-- The budget status (09). -/
def State.pavBudRd (s : State) (p : Fin 64) (o : Nat) : Nat :=
  let v := s.pavs[p.val]
  match inBlk o 0x5050 4 4 with
  | some (k, _) => (v.overrun[(f4 k).val]).toNat
  | none =>
  match inBlk o 0x50C0 4 8 with
  | some (i, _) =>
    (match v.views[(f8 i).val].cur with
    | none => 0
    | some m =>
      let u := s.viewUse m.out (s.viewsOn m.out) [] p (f8 i)
      min u.cost 65535 + min u.layers 127 * 2 ^ 16 + min (cdiv u.granules 2) 511 * 2 ^ 23)
  | none =>
  match o with
  | 0x5000 => mapBits 4 (fun k => quotaUp v (f4 k)) + b2n (quotaUp v 0) * 2 ^ 4
  | 0x5060 => min v.evHold.length 64
  | 0x50E0 => (s.bports[(portP p).val]).grant
  | 0x50E4 => v.dramWait.toNat
  | _ => 0

/-- The handles bound for a Pavilion (R48). -/
def State.handles (s : State) (p : Fin 64) : List Nat :=
  s.slots.toList.filterMap fun t => match t.lease with | .held q h => if q = p then some h else none | _ => none

/-- The line-buffer granules leased to a Pavilion's handles. -/
def State.granulesOf (s : State) (p : Fin 64) : Nat :=
  (s.slots.toList.map fun t => match t.lease with | .held q _ => if q = p then t.granules else 0 | _ => 0).sum

/-- The Pavilion page (02, 05, 09, 12, 14; R659). -/
def State.pageRd (s : State) (p : Fin 64) (o : Nat) : Nat :=
  let v := s.pavs[p.val]
  if 0x5000 ≤ o ∧ o < 0x6000 then s.pavBudRd p o
  else if 0x4000 ≤ o ∧ o < 0x5000 then mboxRd v o
  else if 0x3000 ≤ o ∧ o < 0x4000 then msixRd v o
  else
  match inBlk o 0x1000 0x40 8 with
  | some (n, k) => sqRd (v.sqs[(f8 n).val]) k
  | none =>
  match inBlk o 0x0100 0x20 8 with
  | some (n, k) => s.viewRd p (f8 n) k
  | none =>
  match inBlk o 0x0200 4 8 with
  | some (n, _) => min (v.pcm[(f8 n).val]).queue.length 16 + (v.pcm[(f8 n).val]).done.toNat * 2 ^ 16
  | none =>
  match inBlk o 0x0220 4 8 with
  | some (n, _) => (v.pcm[(f8 n).val]).underrun.toNat
  | none =>
  match inBlk o 0x0030 4 8 with
  | some (k, _) => mapBits 32 fun b => (s.handles p).contains (32 * k + b)
  | none =>
  match inBlk o 0x1200 0x40 2 with
  | some (0, k) => cqRd v.cq k
  | some (_, k) => eqRd v.eq k
  | none =>
  match o with
  | 0x0000 => p.val + b2n (p == 0) * 2 ^ 8
  | 0x0004 => 0x00B08256
  | 0x0008 => b2n v.ready + b2n (s.dome.st == .down) * 2 + b2n s.wallOk * 4
  | 0x0010 => bits s.dome.serial.toNat 31 0
  | 0x0014 => bits s.dome.serial.toNat 63 32
  | 0x0018 => bits s.dome.serial.toNat 95 64
  | 0x001C => bits s.dome.serial.toNat 127 96
  | 0x0020 => (s.handles p).length + bits (s.granulesOf p) 10 0 * 2 ^ 16 + bits (v.exts.length - 1) 3 0 * 2 ^ 28
  | 0x002C => v.bar2Miss.toNat
  | 0x0060 => v.fenceDiscard.toNat
  | 0x1280 => v.eq.vecMap0.toNat
  | 0x1284 => v.eq.vecMap1.toNat
  | 0x1290 => v.errVector.toNat
  | 0x1294 => v.fetchTo.toNat
  | 0x1298 => b2n v.nmiPending + bits v.nmiCode 7 0 * 2 ^ 8
  | _ => 0

/-- The Pavilion page, registers of two words. -/
def State.pageWide (s : State) (p : Fin 64) (o : Nat) : Option Nat :=
  let v := s.pavs[p.val]
  match inBlk o 0x0800 8 256 with
  | some (c, 0) => some (v.fences[(f256 c).val]).toNat
  | some _ => none
  | none =>
  match inBlk o 0x5010 0x10 4 with
  | some (k, 0x0) => some (v.limits[(f4 k).val]).toNat
  | some (k, 0x8) => some (v.used[(f4 k).val])
  | some _ => none
  | none =>
  match inBlk o 0x5080 8 8 with
  | some (i, 0) => some (v.views[(f8 i).val]).share.toNat
  | some _ => none
  | none =>
  match o with
  | 0x0024 => some (extTotal v.exts)
  | 0x0050 => if p = 0 then some s.flrDone.toNat else none
  | 0x0058 => if p = 0 then some (s.zeroQ.map Ext.len).sum else none
  | 0x5008 => some s.period
  | _ => none

/-! ### All blocks -/

/-- A block's register of one word at an offset of the manager's BAR0 (R655). -/
def State.manRd (s : State) (off : Nat) : Nat :=
  let o := off % 0x100000
  match off / 0x100000 with
  | 0x0 => s.glbRd o
  | 0x1 => s.clkRd o
  | 0x2 => s.pwrRd o
  | 0x4 => if o < 0x80000 then s.compRd (f8 (o / 0x10000)) (o % 0x10000) else 0
  | 0x5 => if o < 0x80000 then s.outRd (f8 (o / 0x10000)) (o % 0x10000) else 0
  | 0x6 => s.ltnRd o
  | 0x7 => s.spireRd o
  | 0x8 => if o < 0x80000 then dmcRd (s.dmcs[(f8 (o / 0x10000)).val]) (o % 0x10000) else if o < 0x90000 then dmcgRd s.dmcg (o - 0x80000) else 0
  | 0x9 => if o < 0x40000 then s.orgRd o else if o < 0x80000 then s.keepRd (o - 0x40000) else 0
  | 0xA => (match inBlk o 0x0100 0x40 16 with | some (c, k) => s.cvuRd (f16 c) k | none => 0)
  | 0xB => s.gazRd o
  | 0xC => s.budRd o
  | 0xD => s.evtRd o
  | 0xE => s.domeRd o
  | _ => 0

/-- A block's register of two words, by the offset of its low word. -/
def State.manWide (s : State) (secure : Bool) (off : Nat) : Option Nat :=
  let o := off % 0x100000
  match off / 0x100000 with
  | 0x1 => s.clkWide o
  | 0x4 => if o < 0x80000 then s.compWide (f8 (o / 0x10000)) (o % 0x10000) else none
  | 0x5 => if o < 0x80000 then s.outWide (f8 (o / 0x10000)) (o % 0x10000) else none
  | 0x6 => s.ltnWide o
  | 0x7 => s.spireWide o
  | 0x8 => if o < 0x80000 then dmcWide (s.dmcs[(f8 (o / 0x10000)).val]) (o % 0x10000) else none
  | 0x9 => if o < 0x40000 then s.orgWide o else if o < 0x80000 then s.keepWide (o - 0x40000) else none
  | 0xA => (match inBlk o 0x0100 0x40 16 with | some (c, k) => s.cvuWide secure (f16 c) k | none => none)
  | 0xC => s.budWide o
  | 0xD => s.evtWide o
  | 0xE => s.domeWide o
  | _ => none

/-! ### Registers of several words (R13, R14) -/

/-- A map of the slots as one value. -/
def State.slotBits (s : State) (f : Slot → Bool) : Nat := mapBits 256 fun i => f s.slots[(f256 i).val]

/-- The base and the shadow address of a completion or event ring, by offset in its block. -/
def ringWide (base shadow : DWord) (k : Nat) : Option Nat :=
  if k = 0x00 then some base.toNat else if k = 0x10 then some shadow.toNat else none

/-- A register of several words of the Pavilion page, by the offset of its low word: its words and its value. The address words of the MSI-X
table are two registers, as PCI Express has them (log 26). -/
def State.pageMulti (s : State) (p : Fin 64) (o : Nat) : Option (Nat × Nat) :=
  let v := s.pavs[p.val]
  if o = 0x0030 then some (8, mapBits 256 fun h => (s.handles p).contains h)
  else match inBlk o 0x1000 0x40 8 with
  | some (n, k) => if k = 0x00 then some (2, (v.sqs[(f8 n).val]).base.toNat) else none
  | none =>
    match inBlk o 0x1200 0x40 2 with
    | some (0, k) => (ringWide v.cq.base v.cq.shadow k).map fun x => (2, x)
    | some (_, k) => (ringWide v.eq.base v.eq.shadow k).map fun x => (2, x)
    | none => (s.pageWide p o).map fun x => (2, x)

/-- A register of several words of the manager's blocks, by the offset of its low word. -/
def State.manMulti (s : State) (secure : Bool) (off : Nat) : Option (Nat × Nat) :=
  match off with
  | 0x600500 => some (8, s.slotBits Slot.stale)
  | 0x600520 => some (8, s.slotBits Slot.over2)
  | 0x600540 => some (8, s.slotBits Slot.lost)
  | 0xE00040 => some (8, s.dome.held.toNat)
  | _ => (s.manWide secure off).map fun x => (2, x)

end Sys2Proof.Machine
end

