-- ==== Sys2Proof/Machine/RegWrite.lean ====
section
/-!
DEFINITION. What a read clears and what a write to each register does (00, R15 to R19; 19, R662, R663): the manager's blocks and the
Pavilion page. `secure` says that the Dome processor makes the write.
-/
namespace Sys2Proof.Machine
open Sys2Proof

/-! ### RC fields -/

/-- The RC fields of a register of the manager's blocks cleared. -/
def State.manClear (s : State) (off : Nat) : State :=
  let o := off % 0x100000
  let n := f8 (o / 0x10000)
  let k := o % 0x10000
  match off / 0x100000 with
  | 0x0 => if o = 0x0108 then { s with glb := { s.glb with tjPeak := 0 } } else s
  | 0x1 => (match o with
      | 0x34 => { s with clk := { s.clk with forced := 0 } }
      | 0x38 => { s with clk := { s.clk with timeouts := 0 } }
      | _ => s)
  | 0x4 => if o < 0x80000 then s.modComp n fun c => (match k with
      | 0x10 => { c with costPeak := 0 }
      | 0x1C => { c with rejLbuf := 0 }
      | 0x20 => { c with rejCost := 0 }
      | 0x4C => { c with late := 0 }
      | 0x50 => { c with expired := 0 }
      | 0x54 => { c with holdFrames := 0 }
      | _ => c) else s
  | 0x5 => if o < 0x80000 then s.modOut n fun u => (match k with
      | 0x28 => { u with underruns := 0 }
      | 0x2C => { u with rephases := 0 }
      | 0x30 => { u with irqs := 0 }
      | 0x3C => { u with capIncomplete := 0 }
      | _ => u) else s
  | 0x6 =>
    (match inBlk o 0x0600 0x20 8 with
    | some (b, 0x18) => s.modBelv (f8 b) fun b => { b with mismatch := 0 }
    | some (b, 0x1C) => s.modBelv (f8 b) fun b => { b with faults := 0 }
    | some _ => s
    | none => if o = 0x056C then { s with staleCount := 0 } else s)
  | 0x7 =>
    let t := s.spire
    (match inBlk o 0x0100 0x40 12 with
    | some (l, 0x10) => s.modLink (f12 l) fun x => { x with crcErr := 0 }
    | some (l, 0x14) => s.modLink (f12 l) fun x => { x with replays := 0 }
    | some (l, 0x28) => s.modLink (f12 l) fun x => { x with downs := 0 }
    | some _ => s
    | none =>
      match inBlk o 0x0060 0x10 4 with
      | some (g, 0x0) => { s with spire := { t with flips := upd t.flips (f4 g) fun _ => 0 } }
      | some (g, 0x4) => { s with spire := { t with holds := upd t.holds (f4 g) fun _ => 0 } }
      | some (g, 0x8) => { s with spire := { t with nodec := upd t.nodec (f4 g) fun _ => 0 } }
      | some _ => s
      | none =>
        match o with
        | 0x20 => { s with spire := { t with steps := 0 } }
        | 0x28 => { s with spire := { t with tiRej := 0 } }
        | 0x40 => { s with spire := { t with unreach := 0 } }
        | 0x44 => { s with spire := { t with hopDrop := 0 } }
        | 0x48 => { s with spire := { t with safeLate := 0 } }
        | 0x4C => { s with spire := { t with importRej := 0 } }
        | _ => s)
  | 0x8 => if o < 0x80000 then s.modDmc n fun d => (match k with
      | 0x14 => { d with preempts := 0 }
      | 0x18 => { d with bursts := 0 }
      | 0x1C => { d with partialWait := 0 }
      | 0x40 => { d with ce := 0 }
      | 0x44 => { d with ue := 0 }
      | _ => d) else s
  | 0x9 => (match o with
      | 0x08 => { s with org := { s.org with ce := 0 } }
      | 0x0C => { s with org := { s.org with ue := 0 } }
      | 0x18 => { s with org := { s.org with regionViol := 0 } }
      | 0x40008 => { s with keep := { s.keep with ce := 0 } }
      | 0x4000C => { s with keep := { s.keep with ue := 0 } }
      | _ => s)
  | 0xA => (match inBlk o 0x0100 0x40 16 with | some (c, 0x30) => s.modCvu (f16 c) fun v => { v with failCount := 0 } | _ => s)
  | 0xB =>
    (match inBlk o 0x0400 0x80 32 with
    | some (c, 0x10) => s.modCtl (f32 c) fun x => { x with recaptures := 0 }
    | some _ => s
    | none =>
      match inBlk o 0x2000 0x20 16 with
      | some (h, 0x0C) => s.modHap (f16 h) fun x => { x with ignored := 0 }
      | some _ => s
      | none => if o = 0x8304 then { s with gaz := { s.gaz with clip := 0 } } else s)
  | 0xC => (match inBlk o 0x0100 0x10 83 with | some (q, 0x8) => s.modBport (f83 q) fun b => { b with wait := 0 } | _ => s)
  | 0xD => if o = 0x08 then { s with evt := { s.evt with lost := 0 } } else s
  | 0xE => (match o with
      | 0x18 => { s with dome := { s.dome with restarts := 0 } }
      | 0x78 => { s with dome := { s.dome with mbxTimeouts := 0 } }
      | _ => s)
  | _ => s

/-- The RC fields of a register of a Pavilion's page cleared. -/
def State.pageClear (s : State) (p : Fin 64) (o : Nat) : State :=
  match inBlk o 0x0220 4 8 with
  | some (n, _) => s.modPav p fun v => { v with pcm := upd v.pcm (f8 n) fun q => { q with underrun := 0 } }
  | none =>
  match o with
  | 0x002C => s.modPav p fun v => { v with bar2Miss := 0 }
  | 0x0060 => s.modPav p fun v => { v with fenceDiscard := 0 }
  | 0x125C => s.modEq p fun e => { e with lost := 0 }
  | 0x50E4 => s.modPav p fun v => { v with dramWait := 0 }
  | _ => s

/-! ### Writes to GLB, CLK, PWR -/

/-- Whether bit k of a written word is 1. -/
def wb (v : Word) (k : Nat) : Bool := v.getLsbD k

/-- A word with its reserved bits cleared (R16). -/
def keepBits (v mask : Word) : Word := v &&& mask

/-- GLB (17). -/
def State.glbWr (s : State) (o : Nat) (v : Word) : State :=
  match o with
  | 0x0104 => { s with glb := { s.glb with warnTh := keepBits v 0xFFFF } }
  | 0x0204 => { s with glb := { s.glb with gpioOut := v.setWidth 16 } }
  | 0x0208 => { s with glb := { s.glb with gpioOe := v.setWidth 16 } }
  | 0x020C => { s with glb := { s.glb with gpioPull := v.setWidth 16 } }
  | _ => s

/-- CLK_XIN_CFG (R19, R662). -/
def Clk.xinCfg (c : Clk) (v : Word) : Clk :=
  { c with
    xinMode := if c.xinLock then c.xinMode else wb v 0
    ampTh := if c.xinLock then c.ampTh else bits v.toNat 5 4
    xinLock := c.xinLock || wb v 31 }

/-- CLK (15). -/
def State.clkWr (s : State) (o : Nat) (v : Word) : State :=
  match o with
  | 0x0004 => { s with clk := s.clk.xinCfg v }
  | 0x0028 => (idx 12).foldl (fun s l => if wb v l.val then s.slGate l else s.slRelease l) s
  | 0x0030 => { s with clk := { s.clk with hyst := bits v.toNat 7 0, gateErr := s.clk.gateErr &&& ~~~(BitVec.ofNat 12 (bits v.toNat 27 16)) } }
  | _ => s

/-- PWR (16). -/
def State.pwrWr (s : State) (o : Nat) (v : Word) : State :=
  match o with
  | 0x0004 =>
    let s := if wb v 8 then { s with pwr := { s.pwr with reqErr := false } } else s
    if wb v 0 then s.standbyOn else s.standbyOff
  | 0x0010 => if bits v.toNat 15 0 = 0xA55A then s.warmReset 3 else s
  | _ => s

/-! ### Writes to COMP, OUT, LTN, SPIRE -/

/-- COMP_COEF_ADDR: a TAPS outside 2 to 8 reads back as 2. -/
def coefAddrOf (v : Word) : Word :=
  let w := keepBits v 0x7FFF
  if 2 ≤ bits w.toNat 3 0 ∧ bits w.toNat 3 0 ≤ 8 then w else keepBits w 0x7FF0 ||| 2

/-- COMP (04). -/
def State.compWr (s : State) (n : Fin 8) (o : Nat) (v : Word) : State :=
  match o with
  | 0x0000 => if wb v 8 then s.modComp n fun c => { c with fetchFault := false } else s
  | 0x0004 => s.modComp n fun c => { c with bg := keepBits v 0x3FFFFFFF }
  | 0x0030 => s.modComp n fun c => { c with coefAddr := coefAddrOf v }
  | _ => s

/-- A half of a 64-bit value replaced. -/
def setLo (x : DWord) (v : Word) : DWord := w64 (bits x.toNat 63 32 * 2 ^ 32 + v.toNat)
/-- The high half replaced. -/
def setHi (x : DWord) (v : Word) : DWord := w64 (v.toNat * 2 ^ 32 + bits x.toNat 31 0)

/-- A parameter set's CFG word; a WIDTH outside 8 to 64 discards the write (R288, R487). -/
def Crc.setCfg (c : Crc) (v : Word) : Crc :=
  let w := bits v.toNat 6 0
  if 8 ≤ w ∧ w ≤ 64 then { c with width := w, refin := wb v 8, refout := wb v 9 } else c

/-- The proof parameters (R288, RWS). -/
def Crc.proofWr (c : Crc) (o : Nat) (v : Word) : Crc :=
  match o with
  | 0x0180 => c.setCfg v
  | 0x0184 => { c with poly := setLo c.poly v }
  | 0x0188 => { c with poly := setHi c.poly v }
  | 0x018C => { c with init := setLo c.init v }
  | 0x0190 => { c with init := setHi c.init v }
  | 0x0194 => { c with xorout := setLo c.xorout v }
  | 0x0198 => { c with xorout := setHi c.xorout v }
  | _ => c

/-- RESUME (R238): a return is asked for while RECOVER_FRAMES is 0 and the safe frame is shown for cause 1. -/
def State.resumeAsk (s : State) (n : Fin 8) : State :=
  s.modOut n fun u => { u with resumeReq := u.resumeReq || (bits u.recover.toNat 15 0 == 0 && u.cause1) }

/-- OUT (06, 07). A proof window takes the writes of the world that holds it (R468). -/
def State.outWr (s : State) (secure : Bool) (n : Fin 8) (o : Nat) (v : Word) : State :=
  match inBlk o 0x0100 0x20 4 with
  | some (w, k) =>
    if s.proofHeld n w != secure then s
    else s.modOut n fun u => { u with proof := upd u.proof (f4 w) fun p => (match k with
      | 0x00 => { p with en := wb v 0 }
      | 0x04 => { p with xy0 := v }
      | 0x08 => { p with xy1 := v }
      | _ => p) }
  | none =>
  if 0x0180 ≤ o ∧ o ≤ 0x0198 then (if secure then s.modOut n fun u => { u with pcrc := u.pcrc.proofWr o v } else s)
  else
  match o with
  | 0x000C =>
    let s := s.modOut n fun u => { u with recover := keepBits v 0xFFFF }
    if wb v 31 then s.resumeAsk n else s
  | 0x0024 => s.modOut n fun u => { u with lineMatch := keepBits v 0x8000FFFF }
  | 0x0030 => if wb v 15 then s.modOut n fun u => { u with fail := false } else s
  | 0x0034 => s.modOut n fun u => { u with trainRetry := keepBits v 0xFFFF }
  | 0x0038 => if secure then s.setForceLow n (wb v 1) else s
  | 0x0040 => if wb v 31 then s.edidStart n (v.setWidth 8) else s.modOut n fun u => { u with edidBlock := v.setWidth 8 }
  | 0x0044 => if wb v 1 then s.modOut n fun u => { u with edidDone := false } else s
  | _ => s

/-- A Belvedere register, written by the Dome (07). A second limit of 0 never stands beside ENABLE (R280): the write that would put it there
is discarded in that part. -/
def Belv.wr (b : Belv) (k : Nat) (v : Word) : Belv :=
  match k with
  | 0x00 => { b with cfg := keepBits (if b.limit2 = 0 then putB v 0 false else v) 0x3F0F }
  | 0x04 => { b with pos := v }
  | 0x08 => { b with size := v }
  | 0x0C => { b with limit := v }
  | 0x10 => if v = 0 ∧ b.cfg.getLsbD 0 then b else { b with limit2 := v }
  | _ => b

/-- A DEFAULT_ACTION as it is kept: BLANK where ACTIONS does not permit it (R270). -/
def permitted (actions d : Nat) : Nat := if actions.testBit d then d else 3

/-- LTN (07); all but AGE_SEL is written by the Dome. A Belvedere layer changed is counted anew (R157, R278). -/
def State.ltnWr (s : State) (secure : Bool) (o : Nat) (v : Word) : State :=
  if o = 0x0560 then { s with ageSel := bits v.toNat 7 0 }
  else if !secure then s
  else
  match inBlk o 0x0600 0x20 8 with
  | some (n, k) =>
    let on := !(s.belvs[(f8 n).val]).cfg.getLsbD 0
    let s := s.modBelv (f8 n) fun b => b.wr k v
    -- a layer enabled anew counts as moving from current at its first check (R267)
    let s := if on && (s.belvs[(f8 n).val]).cfg.getLsbD 0 then s.modSlot (f256 (248 + (f8 n).val)) fun t => { t with checked := false } else s
    (s.gateAbandon (f8 n)).reEval (f8 n)
  | none =>
  match inBlk o 0x0100 0x10 64 with
  | some (p, k) => { s with ltn := upd s.ltn (fp p) fun t => (match k with
      | 0x0 => { t with actions := bits v.toNat 3 0, defAction := permitted (bits v.toNat 3 0) (bits v.toNat 5 4) }
      | 0x4 => { t with max1 := v }
      | 0x8 => { t with max2 := v }
      | _ => t) }
  | none =>
  match inBlk o 0x0010 4 8 with
  | some (n, _) => s.freeze.modOut (f8 n) fun u => { u with hatch := keepBits v 0x3FFFFFFF }
  | none => s

/-- SPIRE_TIMEIN_CTL: the first edge after EN is set steps the counter (R322). -/
def Spire.timeInCtl (t : Spire) (v : Word) : Spire :=
  { t with
    tiEn := wb v 0
    tiFirst := if wb v 0 && !t.tiEn then true else t.tiFirst
    tiLock := t.tiLock && wb v 0
    tiLost := t.tiLost && !wb v 2 }

/-- SPIRE (08). -/
def State.spireWr (s : State) (o : Nat) (v : Word) : State :=
  match inBlk o 0x0100 0x40 12 with
  | some (l, 0x00) =>
    let s := if wb v 0 != (s.spire.links[(f12 l).val]).enable then s.linkEnable (f12 l) (wb v 0) else s
    if wb v 1 then s.linkRetry (f12 l) else s
  | some (l, 0x04) => if wb v 8 then s.modLink (f12 l) fun k => { k with downFlag := false } else s
  | some _ => s
  | none =>
  match o with
  | 0x0014 => s.timeSetLo v
  | 0x0018 => if s.timeMaster then { s with spire := { s.spire with timeHi := v } } else s
  | 0x0024 => { s with spire := s.spire.timeInCtl v }
  | 0x0050 => { s with spire := { s.spire with absentSel := bits v.toNat 8 0 } }
  | _ => s

/-! ### Writes to DMC, ORG, KEEP, CVU -/

/-- A DMC's registers (10); POSTPONE_MAX and PB_EN are locked (R662). -/
def Dmc.wr (d : Dmc) (lock : Bool) (o : Nat) (v : Word) : Dmc :=
  match o with
  | 0x0004 =>
    { d with
      postpone := if lock then d.postpone else bits v.toNat 3 0
      pbEn := if lock then d.pbEn else wb v 4
      burstGap := bits v.toNat 15 8 }
  | 0x000C => if wb v 9 then { d with hotOver := false } else d
  | 0x0010 => { d with pageForce := bits v.toNat 1 0, idleClose := bits v.toNat 15 4 }
  | 0x0050 => if wb v 0 then { d with drift := false } else d
  | _ => d

/-- DMC global (10): LOCK is set by the Dome (R662). -/
def DmcGlobal.wr (g : DmcGlobal) (secure : Bool) (o : Nat) (v : Word) : DmcGlobal :=
  match inBlk o 0x0100 4 8 with
  | some (k, _) => if g.lock then g else { g with eccRegion := upd g.eccRegion (f8 k) fun _ => keepBits v 0x87FF03FF }
  | none =>
  match o with
  | 0x0004 => { g with lock := g.lock || (secure && wb v 0) }
  | 0x0008 => { g with scrubPeriod := bits v.toNat 15 0 }
  | _ => g

/-- ORG (11); BOOT_CFG and the march registers are the Dome's. -/
def State.orgWr (s : State) (secure : Bool) (o : Nat) (v : Word) : State :=
  if o = 0x002C then (if wb v 1 then { s with org := { s.org with marchDone := false } } else s)
  else if !secure then s
  else
  match o with
  | 0x0004 => { s with org := { s.org with preserveLog := wb v 0 } }
  | 0x0020 => s.marchCtl v
  | 0x0024 => { s with org := { s.org with marchBase := bits v.toNat 12 0 } }
  | 0x0028 => { s with org := { s.org with marchLimit := bits v.toNat 12 0 } }
  | _ => s

/-- KEEP (11). -/
def State.keepWr (s : State) (o : Nat) (v : Word) : State :=
  match o with
  | 0x0000 => if wb v 2 then { s with keep := { s.keep with wipeDone := false } } else s
  | 0x0004 => { s with keep := { s.keep with aperture := bits v.toNat 7 0 } }
  | _ => s

/-- A channel's parameters (13): the high word waits for the low one, which applies both (R168's way). -/
def Cvu.wr (c : Cvu) (k : Nat) (v : Word) : Cvu :=
  let both (hi : Word) : DWord := w64 (hi.toNat * 2 ^ 32 + v.toNat)
  match k with
  | 0x00 => { c with crc := c.crc.setCfg v }
  | 0x04 => { c with crc := { c.crc with poly := both c.polyHi } }
  | 0x08 => { c with polyHi := v }
  | 0x0C => { c with crc := { c.crc with init := both c.initHi } }
  | 0x10 => { c with initHi := v }
  | 0x14 => { c with crc := { c.crc with xorout := both c.xorHi } }
  | 0x18 => { c with xorHi := v }
  | _ => c

/-- CVU (13): the registers of a channel take the writes of the world that holds it (R468, R486). -/
def State.cvuWr (s : State) (secure : Bool) (o : Nat) (v : Word) : State :=
  match inBlk o 0x0100 0x40 16 with
  | some (c, k) => if s.isHeld c != secure then s else s.modCvu (f16 c) fun x => x.wr k v
  | none => s

/-! ### Writes to GAZ and BELFRY -/

/-- Whether a ladder keeps its rules (R516): rates within 1 to 200 that never rise with the level, idle times that always do. -/
def ladderOk (l : Vector Word 4) : Bool :=
  let r (k : Nat) : Nat := bits (l[(f4 k).val]).toNat 7 0
  let a (k : Nat) : Nat := bits (l[(f4 k).val]).toNat 31 8
  (List.range 4).all (fun k => decide (1 ≤ r k) && decide (r k ≤ 200))
    && decide (r 1 ≤ r 0) && decide (r 2 ≤ r 1) && decide (r 3 ≤ r 2) && decide (a 1 < a 2) && decide (a 2 < a 3)

/-- GAZ_SCAN_CTL: scanning set on captures every control at its next scan (R510). -/
def Gaz.scanCtl (g : Gaz) (en : Bool) : Gaz :=
  if !en then { g with scanEn := false, scanning := false }
  else if g.scanEn then g
  else { g with scanEn := true, controls := g.controls.map fun (c : Control) => { c with capture := true } }

/-- A control's registers (14): a control reconfigured is captured at its next scan (R510). -/
def Control.wr (c : Control) (k : Nat) (v : Word) : Control :=
  match inBlk k 0x40 4 16 with
  | some (e, _) => { c with elems := upd c.elems (f16 e) fun x => { x with cfg := keepBits v 0xFFFF }, capture := true }
  | none =>
  match k with
  | 0x00 => { c with cfg := keepBits v 0x0F3F1F03, capture := true }
  | 0x04 => { c with th := v, capture := true }
  | 0x08 => { c with base := keepBits v 0xFFFFFF3F, capture := true }
  | 0x0C => if wb v 3 then { c with stuck := false } else c
  | _ => c

/-- Whether GAZ_HAP_CFG holds 120 ≤ F_MIN ≤ F_NOM ≤ F_MAX ≤ 300. -/
def hapCfgOk (v : Word) : Bool :=
  decide (120 ≤ bits v.toNat 18 10) && decide (bits v.toNat 18 10 ≤ bits v.toNat 8 0) && decide (bits v.toNat 8 0 ≤ bits v.toNat 28 20)
    && decide (bits v.toNat 28 20 ≤ 300)

/-- A haptic channel's registers (14). -/
def Hap.wr (h : Hap) (k : Nat) (v : Word) : Hap :=
  match k with
  | 0x00 => if hapCfgOk v then { h with cfg := keepBits v 0x1FF7FDFF } else h
  | 0x04 => { h with drive := keepBits v 0x0FFF3F7F }
  | 0x08 => if wb v 19 then { h with noBemf := false } else h
  | _ => h

/-- Whether a pin may take a ROLE (R501). -/
def roleOk (i r : Nat) : Bool := if i < 64 then r != 3 else r != 2

/-- GAZ and BELFRY (14): the registers of a block take the writes of the world that holds it (R468). -/
def State.gazWr (s : State) (secure : Bool) (o : Nat) (v : Word) : State :=
  let g := s.gaz
  let lands (b : Nat) : Bool := s.isHeld b == secure
  match inBlk o 0x0400 0x80 32 with
  | some (c, k) => if lands (0x20 + c) then s.modCtl (f32 c) fun x => x.wr k v else s
  | none =>
  match inBlk o 0x2000 0x20 16 with
  | some (h, k) => if lands (0x10 + h) then s.modHap (f16 h) fun x => x.wr k v else s
  | none =>
  match inBlk o 0x0100 4 128 with
  | some (i, _) =>
    if roleOk i (bits v.toNat 1 0) then { s with gaz := { g with csRole := upd g.csRole (Fin.ofNat 128 i) fun _ => bits v.toNat 1 0 } } else s
  | none =>
  match inBlk o 0x2400 4 8 with
  | some (t, _) => { s with gaz := { g with trig := upd g.trig (f8 t) fun _ => keepBits v 0xFFFFFF1F } }
  | none =>
  match inBlk o 0x0010 4 4 with
  | some (k, _) =>
    let l := upd g.ladder (f4 k) fun _ => v
    if ladderOk l then { s with gaz := { g with ladder := l } } else s
  | none =>
  match inBlk o 0x8100 0x10 16 with
  | some (x, 0x0) => if lands (0x40 + x) then s.modVoice (f16 x) fun q => { q with env := keepBits v 0x03FF03FF } else s
  | some _ => s
  | none =>
  match inBlk o 0x8200 0x20 2 with
  | some (a, k) =>
    if lands (0x50 + a) then { s with gaz := { g with slotGain := upd g.slotGain (f16 (8 * a + k / 4)) fun _ => bits v.toNat 7 0 } } else s
  | none =>
  match o with
  | 0x0004 => { s with gaz := g.scanCtl (wb v 0) }
  | 0x1400 => { s with gaz := { g with diagSel := keepBits v 0x0F1F } }
  | 0x2600 => { s with gaz := { g with effectAddr := keepBits v 0x0FFF } }
  | 0x8004 => if secure then { s with gaz := { g with duck := bits v.toNat 7 0 } } else s
  | 0x8300 => if secure then { s with gaz := { g with v15Route := keepBits v 0xF } } else s
  | _ => s

/-! ### Writes to BUDGET, EVT, DOME -/

/-- BUD_PORT_CFG: BORROW is not written on ports 0 to 7 and 81; a smaller depth cuts the bucket (R364). -/
def BPort.wr (b : BPort) (q : Nat) (v : Word) : BPort :=
  let c := keepBits v (if q < 8 ∨ q = 81 then 0xF00 else 0xF01)
  let d : BPort := { b with cfg := c }
  { d with bucket := min b.bucket (d.depth * b.grant * 1000000) }

/-- BUDGET (09). -/
def State.budWr (s : State) (o : Nat) (v : Word) : State :=
  match inBlk o 0x0100 0x10 83 with
  | some (q, 0x4) => s.modBport (f83 q) fun b => b.wr q v
  | some _ => s
  | none =>
  match inBlk o 0x0800 4 12 with
  | some (l, _) => s.modLink (f12 l) fun k => { k with share := keepBits v 0x07FF07FF }
  | none => s

/-- EVT_LOG_TAIL (R641). -/
def Evt.setTail (e : Evt) (v : Word) : Evt :=
  let e := if wb v 16 then { e with dbRange := false } else e
  let t : BitVec 16 := v.setWidth 16
  if gap e.tail t ≤ gap e.tail e.head then { e with tail := t } else { e with dbRange := true }

/-- A region register written by the Dome (R464). -/
def Region.wr (r : Region) (k : Nat) (v : Word) : Region :=
  match k with
  | 0x0 => { r with base := bits v.toNat 23 0 }
  | 0x4 => { r with limit := bits v.toNat 23 0 }
  | 0x8 => { r with read := v.setWidth 16, write := BitVec.ofNat 16 (bits v.toNat 31 16) }
  | 0xC => { r with en := wb v 0, secure := wb v 1 }
  | _ => r

/-- The Dome window, written by the Dome (12): watermark mode is only left (R466), and the region registers accept no writes while the Dome restarts
or is halted (R464). -/
def State.domeWr (s : State) (o : Nat) (v : Word) : State :=
  let d := s.dome
  match inBlk o 0x1000 0x10 192 with
  | some (r, k) =>
    if d.st == .restart || d.st == .down then s
    else { s with dome := { d with regions := upd d.regions (f3 (r / 64)) fun (m : Vector Region 64) => upd m (fp r) fun x => x.wr k v } }
  | none =>
  match inBlk o 0x0020 4 3 with
  | some (m, _) => { s with dome := { d with watermark := upd d.watermark (f3 m) fun _ => bits v.toNat 24 0 } }
  | none =>
  match o with
  | 0x001C => { s with dome := { d with lastKick := s.now } }.arrive .kick
  | 0x0030 => if wb v 0 then s else { s with dome := { d with wmMode := false } }
  | _ => s

/-- A write to a register of the manager's blocks (R655, R663). -/
def State.manWr (s : State) (secure : Bool) (off : Nat) (v : Word) : State :=
  let o := off % 0x100000
  let n := f8 (o / 0x10000)
  let k := o % 0x10000
  match off / 0x100000 with
  | 0x0 => s.glbWr o v
  | 0x1 => s.clkWr o v
  | 0x2 => s.pwrWr o v
  | 0x4 => if o < 0x80000 then s.compWr n k v else s
  | 0x5 => if o < 0x80000 then s.outWr secure n k v else s
  | 0x6 => s.ltnWr secure o v
  | 0x7 => s.spireWr o v
  | 0x8 => if o < 0x80000 then s.modDmc n fun d => d.wr s.dmcg.lock k v
    else if o < 0x90000 then { s with dmcg := s.dmcg.wr secure (o - 0x80000) v } else s
  | 0x9 => if o < 0x40000 then s.orgWr secure o v else if o < 0x80000 then s.keepWr (o - 0x40000) v else s
  | 0xA => s.cvuWr secure o v
  | 0xB => s.gazWr secure o v
  | 0xC => s.budWr o v
  | 0xD => if o = 0x0004 then { s with evt := s.evt.setTail v } else s
  | 0xE => if secure then s.domeWr o v else s
  | _ => s

/-! ### Writes to the Pavilion page -/

/-- PAV_FENCE_LO_c (R168 to R170): the staged high word and the low word go to the cell, behind the BAR2 writes that the host port received
before. -/
def State.fenceLo (s : State) (p : Fin 64) (c : Fin 256) (v : Word) : State :=
  s.postOp (.fence p c (w64 ((s.pavs[p.val].fenceHi[c.val]).toNat * 2 ^ 32 + v.toNat)))

/-- PAV_FENCE_HI_c (R168). -/
def State.fenceHi (s : State) (p : Fin 64) (c : Fin 256) (v : Word) : State :=
  s.modPav p fun q => { q with fenceHi := upd q.fenceHi c fun _ => v }

/-- A submission ring's block (R62). -/
def State.sqWr (s : State) (p : Fin 64) (q : Fin 8) (k : Nat) (v : Word) : State :=
  let idle := (s.pavs[p.val].sqs[q.val]).st == .disabled
  match k with
  | 0x00 => if idle then s.modSq p q fun r => { r with base := setLo r.base v } else s
  | 0x04 => if idle then s.modSq p q fun r => { r with base := setHi r.base v } else s
  | 0x08 => s.sqCtl p q v
  | 0x0C => if idle then s.modSq p q fun r => { r with head := v.setWidth 16 } else s
  | 0x10 => if wb v 8 then s.modSq p q fun r => { r with errFlag := false } else s
  | _ => s

/-- The completion ring's block (R62, R63). -/
def State.cqWr (s : State) (p : Fin 64) (k : Nat) (v : Word) : State :=
  let idle := !s.pavs[p.val].cq.enable
  match k with
  | 0x00 => if idle then s.modCq p fun c => { c with base := setLo c.base v } else s
  | 0x04 => if idle then s.modCq p fun c => { c with base := setHi c.base v } else s
  | 0x08 => s.cqCtl p v
  | 0x0C => if wb v 16 then s.modCq p fun c => { c with dbRange := false } else s
  | 0x10 => s.modCq p fun c => { c with shadow := setLo c.shadow v }
  | 0x14 => s.modCq p fun c => { c with shadow := setHi c.shadow v }
  | 0x18 => s.modCq p fun c => { c with mod := keepBits v 0xFFFF00FF }
  | _ => s

/-- The event ring's block (R62, R63). A COUNT written at or below the number of records unsignalled signals with the next record or at the timer, not
at the write (DESIGN CHOICE, log 48). -/
def State.eqWr (s : State) (p : Fin 64) (k : Nat) (v : Word) : State :=
  let idle := !s.pavs[p.val].eq.enable
  match k with
  | 0x00 => if idle then s.modEq p fun e => { e with base := setLo e.base v } else s
  | 0x04 => if idle then s.modEq p fun e => { e with base := setHi e.base v } else s
  | 0x08 => s.eqCtl p v
  | 0x0C => if wb v 16 then s.modEq p fun e => { e with dbRange := false } else s
  | 0x10 => s.modEq p fun e => { e with shadow := setLo e.shadow v }
  | 0x14 => s.modEq p fun e => { e with shadow := setHi e.shadow v }
  | 0x18 => s.modEq p fun e => { e with mod := keepBits v 0xFFFF00FF }
  | _ => s

/-- An MSI-X table entry. -/
def State.msixWr (s : State) (p : Fin 64) (n : Fin 32) (k : Nat) (v : Word) : State :=
  let set (f : Msix → Msix) : State := s.modPav p fun q => { q with msix := upd q.msix n f }
  match k with
  | 0x0 => set fun m => { m with addr := setLo m.addr v }
  | 0x4 => set fun m => { m with addr := setHi m.addr v }
  | 0x8 => set fun m => { m with data := v }
  | _ => s.msixMask p n (wb v 0)

/-- One word of a request slot; discarded while IN_BUSY (12). -/
def MboxSlot.putIn (x : MboxSlot) (k : Nat) (v : Word) : MboxSlot :=
  if x.busy then x
  else { x with inp := BitVec.ofNat 2048 (x.inp.toNat - bits x.inp.toNat (32 * k + 31) (32 * k) * 2 ^ (32 * k) + v.toNat * 2 ^ (32 * k)) }

/-- A write to a register of a Pavilion's page (R659). -/
def State.pageWr (s : State) (p : Fin 64) (o : Nat) (v : Word) : State :=
  match inBlk o 0x0800 8 256 with
  | some (c, 0) => s.fenceLo p (f256 c) v
  | some (c, _) => s.fenceHi p (f256 c) v
  | none =>
  match inBlk o 0x1000 0x40 8 with
  | some (n, k) => s.sqWr p (f8 n) k v
  | none =>
  match inBlk o 0x1200 0x40 2 with
  | some (0, k) => s.cqWr p k v
  | some (_, k) => s.eqWr p k v
  | none =>
  match inBlk o 0x2000 4 8 with
  | some (n, _) => s.sqDoorbell p (f8 n) (v.setWidth 16)
  | none =>
  match inBlk o 0x3000 16 32 with
  | some (n, k) => s.msixWr p (f32 n) k v
  | none =>
  match inBlk o 0x4000 0x100 2 with
  | some (i, b) => s.modMbox p (Fin.ofNat 2 i) fun x => x.putIn (b / 4) v
  | none =>
  match o with
  | 0x0050 => if p = 0 then { s with flrDone := s.flrDone &&& ~~~(w64 v.toNat) } else s
  | 0x0054 => if p = 0 then { s with flrDone := s.flrDone &&& ~~~(w64 (v.toNat * 2 ^ 32)) } else s
  | 0x1280 => s.modEq p fun e => { e with vecMap0 := keepBits v 0x1F1F1F1F }
  | 0x1284 => s.modEq p fun e => { e with vecMap1 := keepBits v 0x1F1F1F1F }
  | 0x1290 => s.modPav p fun q => { q with errVector := keepBits v 0x1F }
  | 0x1294 => s.modPav p fun q => { q with fetchTo := keepBits v 0xFFFF }
  | 0x1298 => if wb v 0 then s.modPav p fun q => { q with nmiPending := false } else s
  | 0x2020 => s.cqDoorbell p (v.setWidth 16)
  | 0x2024 => s.eqDoorbell p (v.setWidth 16)
  | 0x4400 => s.mbxSend p v
  | 0x4404 => if wb v 4 then s.modPav p fun q => { q with sendErr := false } else s
  | 0x4408 => s.mbxAck p v
  | 0x440C => s.modPav p fun q => { q with mboxCfg := keepBits v 0x03FF001F }
  | _ => s

end Sys2Proof.Machine
end

