-- ==== Sys2Proof/Machine/Registers.lean ====
section
/-!
DEFINITION. Register accesses (00, R13 to R19; 19): who reaches which register, captured high words, the Keep aperture and the log window,
and the commands that write one register.
-/
namespace Sys2Proof.Machine
open Sys2Proof

/-! ### Where an access goes -/

/-- The target of an offset of a BAR0: a Pavilion's page, or the manager's blocks (none), and the offset there (R655, R659). -/
def regTarget (p : Fin 64) (off : Nat) : Option (Option (Fin 64) × Nat) :=
  if p = 0 then
    (if 0xF00000 ≤ off ∧ off < 0xF10000 then some (some 0, off - 0xF00000) else if off < 0x1000000 then some (none, off) else none)
  else if off < 0x10000 then some (some p, off) else none

/-- The island that holds a register, where one that gates does (R560). -/
def islandOf : Option (Fin 64) → Nat → Nat
  | some p, _ => 3 + (portOf p).val
  | none, off =>
    let o := off % 0x100000
    match off / 0x100000 with
    | 0x4 => 7 + o / 0x10000 % 8
    | 0x5 => 15 + o / 0x10000 % 8
    | 0x7 => if 0x100 ≤ o ∧ o < 0x400 then 23 + (o - 0x100) / 0x40 else 0
    | 0x8 => if o < 0x80000 then 35 + o / 0x10000 else 2
    | 0x9 => 43
    | 0xA | 0xC | 0xD => 2
    | 0xB => 44
    | _ => 0

/-- An access wakes the island it reaches (R27, R657). -/
def State.wakeFor (s : State) (t : Option (Fin 64)) (off : Nat) : State := s.wakeIsland (islandOf t off)

/-! ### Reads -/

/-- The register of several words whose low word is at an offset: its words and its value (R13). -/
def State.wideAt (s : State) (secure : Bool) (t : Option (Fin 64)) (off : Nat) : Option (Nat × Nat) :=
  match t with | none => s.manMulti secure off | some p => s.pageMulti p off

/-- The key of a target among the captured words: the secure world's reads of the device blocks capture apart from the normal world's, which never
see what they captured (R500). -/
def capKey (secure : Bool) : Option (Fin 64) → Nat
  | none => if secure then 65 else 64
  | some p => p.val

/-- Where an offset is a higher word of a register of several words: the number of the word, and the register's value. -/
def State.highAt (s : State) (secure : Bool) (t : Option (Fin 64)) (off : Nat) : Option (Nat × Nat) :=
  (List.range 7).findSome? fun k =>
    if off < 4 * (k + 1) then none
    else match s.wideAt secure t (off - 4 * (k + 1)) with
      | some (n, v) => if k + 1 < n then some (k + 1, v) else none
      | none => none

/-- What a read of a low word has captured for a higher word, if any. -/
def State.captured (s : State) (secure : Bool) (t : Option (Fin 64)) (off : Nat) : Option Word :=
  (s.caps.find? fun c => c.1 == capKey secure t && c.2.1 == off).map fun c => c.2.2

/-- The word a read at an aligned offset returns: of a higher word, what the last read of its low word captured (R14). A higher word whose low
word has never been read returns its current value (DESIGN CHOICE, log 26). -/
def State.wordAt (s : State) (secure : Bool) (t : Option (Fin 64)) (off : Nat) : Nat :=
  match s.wideAt secure t off with
  | some (_, v) => bits v 31 0
  | none =>
    match s.highAt secure t off with
    | some (k, v) => (match s.captured secure t off with | some w => w.toNat | none => bits v (32 * k + 31) (32 * k))
    | none => match t with | none => s.manRd off | some p => s.pageRd p off

/-- The higher words of a register of `n` words captured (R14). -/
def State.captureWords (s : State) (secure : Bool) (t : Option (Fin 64)) (off n v : Nat) : State :=
  { s with caps := ((List.range (n - 1)).map fun k => (capKey secure t, off + 4 * (k + 1), w32 (bits v (32 * k + 63) (32 * k + 32))))
      ++ s.caps.filter fun c => !(c.1 == capKey secure t && decide (off < c.2.1) && decide (c.2.1 < off + 4 * n)) }

/-- What a full read of a word does: a low word captures the higher words (R14), an RC field is cleared (R17). -/
def State.readDone (s : State) (secure : Bool) (t : Option (Fin 64)) (off : Nat) : State :=
  match s.wideAt secure t off with
  | some (n, v) => s.captureWords secure t off n v
  | none => match t with | none => s.manClear off | some p => s.pageClear p off

/-- The words that a read of `size` bytes touches, each with whether it is read whole. -/
def touched (off size : Nat) : List (Nat × Bool) :=
  if size = 0 then []
  else (List.range ((off + size - 1) / 4 - off / 4 + 1)).map fun k =>
    let w := (off / 4 + k) * 4
    (w, decide (off ≤ w) && decide (w + 4 ≤ off + size))

/-- Bytes read from registers: a word read in part returns its bytes and clears nothing (R18). -/
def State.readRegs (s : State) (secure : Bool) (t : Option (Fin 64)) (off size : Nat) : State × List Byte :=
  let r := (touched off size).foldl (fun (x : State × List Byte) w =>
    let v := x.1.wordAt secure t w.1
    (if w.2 then x.1.readDone secure t w.1 else x.1, x.2 ++ leBytes 4 v)) (s, [])
  (r.1, (r.2.drop (off % 4)).take size)

/-- Whether an offset of the manager's BAR0 lies in the Keep aperture or in the log window (R658). -/
def inAperture (off : Nat) : Bool := decide (0x980000 ≤ off) && decide (off < 0x990000)
/-- The log window. -/
def inLogWindow (off : Nat) : Bool := decide (0xD10000 ≤ off) && decide (off < 0xD30000)

/-- Whether the aperture selects the customer area (R444). -/
def State.apertureOk (s : State) : Bool := decide (0xA1 ≤ s.keep.aperture) && decide (s.keep.aperture ≤ 0xEF)

/-- The Keep offset of an aperture offset. -/
def State.apertureAt (s : State) (off : Nat) : Nat := s.keep.aperture * 65536 + off % 65536

/-- A read of the Keep aperture, as master 4 (R444). -/
def State.readAperture (s : State) (off size : Nat) : State × Option (List Byte) :=
  let a := s.apertureAt off
  if s.apertureOk then s.memRead 4 false (f83 16) none (0x10000000 + a) size else (s.violation .keep a, none)

/-- A read of the log window: an entry that meets an uncorrectable error reads as ones (R639), and the error is noted (R422). -/
def State.readLogWindow (s : State) (a n : Nat) : State × Option (List Byte) :=
  let s := (s.wakeIsland islFabric).wakeMem .org a n
  let (s, bad) := s.readErrs .org (a / 32 * 32) 32 none
  (s,
    some ((List.range n).map fun i => if bad then 0xFF else s.rdByte .org (a + i)))

/-- A read at a target: bytes, or an error. -/
def State.readAt (s : State) (secure : Bool) (t : Option (Fin 64)) (off size : Nat) : State × Option (List Byte) :=
  if t.isNone && inAperture off then s.readAperture off size
  else if t.isNone && inLogWindow off then s.readLogWindow (0x1FE0000 + (off - 0xD10000)) size
  else
    let (s, l) := (s.wakeFor t off).readRegs secure t off size
    (s, some l)

/-- The bits of bytes, the lowest first. -/
def bitsOf (l : List Byte) : List Bool := l.flatMap fun b => (List.range 8).map fun k => b.getLsbD k

/-- The answer to a read of the given sender. -/
def State.answerRead (s : State) (src : Src) (p : Fin 64) (r : Option (List Byte)) : State :=
  match r with
  | none => s.emit (.memData false [])
  | some l => match src with
    | .host => s.emit (.readData p l)
    | .dome => s.emit (.regData (w32 (ofLe l)))
    | .jtag => s.emit (.jtag (bitsOf l))

/-- Whether JTAG offers register and memory access in this life-cycle state (R600). -/
def State.jtagMem (s : State) : Bool := s.lcCode != 2

/-- An access made by a sender who may make it: a host's under the rules of its function, the Dome's while its processor runs, JTAG's where
the life cycle offers it. -/
def State.fromSrc (s : State) (src : Src) (p : Fin 64) (f : State → State) : State :=
  match src with
  | .host => s.hostAcc p f
  | .dome => if s.domeRuns then f s else s
  | .jtag => if s.jtagMem then f s else s

/-- A register read of `size` bytes. -/
def State.regRead (s : State) (src : Src) (p : Fin 64) (off size : Nat) : State :=
  s.fromSrc src p fun s => match regTarget p off with
    | none => s
    | some (t, o) =>
      let (s, r) := s.readAt (src == .dome) t o size
      s.answerRead src p r

/-! ### Writes -/

/-- A write through the Keep aperture (R444, R445): it is posted to the write buffer, where reads see it (R435), or it is discarded. Into a
full buffer it comes once the write that goes next is made. -/
def State.apertureWrite (s : State) (off : Nat) (v : Word) : State :=
  let a := s.apertureAt off
  if !s.apertureOk || !s.permit 4 false .keep a 4 true then s.violation .keep a
  else
    let s := s.freeze
    let s := if 16 ≤ s.keep.used then s.keepDrain else s
    { s with keep := { s.keep with buf := s.keep.buf ++ [(a, leBytes 4 v.toNat)] } }

/-- A register write of `size` bytes: any other than an aligned word is discarded (R15). -/
def State.regWrite (s : State) (src : Src) (p : Fin 64) (off size : Nat) (v : Word) : State :=
  s.fromSrc src p fun s => match regTarget p off with
    | none => s
    | some (t, o) =>
      if size != 4 || o % 4 != 0 then s
      else
        match t with
        | some q => (s.wakeFor t o).pageWr q o v
        | none =>
          if inAperture o then s.apertureWrite o v
          else (s.wakeFor t o).manWr (src == .dome) o v

/-! ### The commands -/

/-- REGISTER_WRITE (R17). -/
def execRegisterWrite (src : Src) (p : Fin 64) (off size : Nat) (v : Word) (s : State) : Host.Outcome State Fault Refusal :=
  act (fun s => s.regWrite src p off size v) s

/-- READ_CLEAR (R17, R18): a read of `size` bytes; it clears an RC field it reads whole. -/
def execReadClear (src : Src) (p : Fin 64) (off size : Nat) (s : State) : Host.Outcome State Fault Refusal :=
  act (fun s => s.regRead src p off size) s

/-- MULTIWORD_LOW_READ (R14): a read of one word; a low word captures its high word. -/
def execMultiwordLowRead (src : Src) (p : Fin 64) (off : Nat) (s : State) : Host.Outcome State Fault Refusal :=
  act (fun s => s.regRead src p (off / 4 * 4) 4) s

/-- FENCE_LO_WRITE (R168, R169). -/
def execFenceLoWrite (p : Fin 64) (c : Fin 256) (v : Word) (s : State) : Host.Outcome State Fault Refusal :=
  act (fun s => s.hostAcc p fun s => s.fenceLo p c v) s

/-- FENCE_HI_WRITE (R168). -/
def execFenceHiWrite (p : Fin 64) (c : Fin 256) (v : Word) (s : State) : Host.Outcome State Fault Refusal :=
  act (fun s => s.hostAcc p fun s => s.fenceHi p c v) s

/-- TIME_SET_HI (R321). -/
def execTimeSetHi (v : Word) (s : State) : Host.Outcome State Fault Refusal :=
  act (fun s => s.hostAcc 0 fun s => s.spireWr 0x0018 v) s

/-- TIME_SET_LO (R321). -/
def execTimeSetLo (v : Word) (s : State) : Host.Outcome State Fault Refusal :=
  act (fun s => s.hostAcc 0 fun s => s.timeSetLo v) s

/-- WARM_RESET_KEY (R578). -/
def execWarmResetKey (v : Word) (s : State) : Host.Outcome State Fault Refusal :=
  act (fun s => s.hostAcc 0 fun s => s.pwrWr 0x0010 v) s

/-- RESUME (R238). -/
def execResume (o : Fin 8) (s : State) : Host.Outcome State Fault Refusal :=
  act (fun s => s.hostAcc 0 fun s => (s.wakeIsland (islOut o.val)).resumeAsk o) s

/-- EDID_START (R229). -/
def execEdidStart (o : Fin 8) (block : BitVec 8) (s : State) : Host.Outcome State Fault Refusal :=
  act (fun s => s.hostAcc 0 fun s => s.edidStart o block) s

/-- LINK_ENABLE_WRITE (08, link states). -/
def execLinkEnableWrite (l : Fin 12) (en : Bool) (s : State) : Host.Outcome State Fault Refusal :=
  act (fun s => s.hostAcc 0 fun s =>
    let s := s.wakeIsland (islLink l.val)
    if en != (s.spire.links[l.val]).enable then s.linkEnable l en else s) s

/-- LINK_RETRY (08, link states). -/
def execLinkRetry (l : Fin 12) (s : State) : Host.Outcome State Fault Refusal :=
  act (fun s => s.hostAcc 0 fun s => (s.wakeIsland (islLink l.val)).linkRetry l) s

/-- LOG_TAIL_WRITE (R641). -/
def execLogTailWrite (v : Word) (s : State) : Host.Outcome State Fault Refusal :=
  act (fun s => s.hostAcc 0 fun s => { s.wakeIsland islFabric with evt := s.evt.setTail v }) s

/-- KEEP_APERTURE_WRITE (R445): an aligned word at an offset of the aperture. -/
def execKeepApertureWrite (off : Nat) (v : Word) (s : State) : Host.Outcome State Fault Refusal :=
  act (fun s => s.hostAcc 0 fun s => if off % 4 = 0 ∧ off < 65536 then (s.wakeIsland islOrg).apertureWrite off v else s) s

end Sys2Proof.Machine
end

