-- ==== Sys2Proof/Machine/Debug.lean ====
section
/-!
DEFINITION. The sideband I2C view (19, R664 to R667) and JTAG (16, R600 to R603).
-/
namespace Sys2Proof.Machine
open Sys2Proof

/-! ### Sideband -/

/-- The target's address: 0b10110 and the sampled SB_ADDR1 and SB_ADDR0 (R610). -/
def State.sbAddress (s : State) : BitVec 7 := (0b10110 : BitVec 5) ++ s.glb.sbAddr

/-- Whether the target answers at an address (R610, R664): AON and the pads are powered (R632), AON is out of its reset and has a clock,
and PORST_N has been high for 1 ms. -/
def State.sbAnswers (s : State) (a : BitVec 7) : Bool :=
  a == s.sbAddress && s.pwr.reset != .powerOn && s.pwr.reset != .dead && s.pwr.railGood.getLsbD 0 && s.pwr.railGood.getLsbD 4
    && !(s.glb.sbWait && decide (s.now.toNat < 1000000))

/-- IN_RESET of SB_STATUS. -/
def State.inReset (s : State) : Bool := s.pwr.reset != .running

/-- SB_STATUS, with the WALL_OK pin's level given (19). -/
def State.sbStatus (s : State) (wall : Bool) : Nat :=
  (if s.inReset then 0 else bits s.pwr.stage 3 0) + b2n wall * 2 ^ 4 + b2n s.glb.tripped * 2 ^ 5 + b2n s.inReset * 2 ^ 6
    + b2n s.dome.tamper * 2 ^ 7 + (if s.inReset then 0 else domeStCode s.dome.st) * 2 ^ 8

/-- A row of the view that reads 0 in a reset (R667). -/
def State.notLive (s : State) (v : Nat) : Nat := if s.inReset then 0 else v

/-- The register of the view at a pointer, with the levels of the WALL_OK and PVALID pins given (R667). -/
def State.sbWord (s : State) (wall : Bool) (pv : Nat) (a : Nat) : Nat :=
  match a with
  | 0x00 => s.glbRd 0x0000
  | 0x04 => s.sbStatus wall
  | 0x10 => s.glbRd 0x0010
  | 0x14 => s.glbRd 0x0014
  | 0x18 => s.glbRd 0x0018
  | 0x1C => s.glbRd 0x001C
  | 0x20 => s.glbRd 0x0100
  | 0x24 => s.glbRd 0x0108
  | 0x28 => s.pwrRd 0x0008
  | 0x2C => s.pwrRd 0x000C
  | 0x30 => s.pwrRd 0x0014
  | 0x34 => s.pwrRd 0x0018
  | 0x38 => s.notLive (s.clkRd 0x0000)
  | 0x3C => s.notLive (s.spireRd 0x0000)
  | 0x40 => bits s.now.toNat 31 0
  | 0x44 => s.glb.sbTimeHi.toNat
  | 0x48 => s.notLive s.domeStatus
  | 0x4C => s.notLive s.evt.lost.toNat
  | 0x50 => pv
  | _ => 0

/-- The levels of the WALL_OK and PVALID pins: EXTEST drives them from the boundary register (R603), whose order the spec does not give, so
that they are free (log 6, log 12). -/
def State.statusPins (s : State) : Bool × Nat × State :=
  if s.glb.jtagIr = 3 then
    let (v, s) := s.free
    (v.getLsbD 8, bits v.toNat 7 0, s)
  else (s.wallOk, s.pvalidPins, s)

/-- A byte read (R665, R666): nothing is cleared; byte 0 of SB_SPIRE_TIME_LO captures the high word. -/
def State.sbReadByte (s : State) (a : BitVec 7) : State :=
  if !s.sbAnswers a then s
  else
    let (wall, pv, s) := s.statusPins
    let a := s.glb.sbPtr.toNat
    let s := if a = 0x40 then { s with glb := { s.glb with sbTimeHi := w32 (bits s.now.toNat 63 32) } } else s
    let b := BitVec.ofNat 8 (s.sbWord wall pv (a / 4 * 4) >>> (8 * (a % 4)))
    ({ s with glb := { s.glb with sbPtr := s.glb.sbPtr + 1 } }).emit (.sideband b)

/-! ### JTAG -/

/-- What JTAG instruction is in effect: 0 BYPASS, 1 IDCODE, 2 SAMPLE/PRELOAD, 3 EXTEST, 4 register and memory access, 5 Dome debug. -/
def State.jtagNow (s : State) (ir : Nat) : State := { s with glb := { s.glb with jtagIr := ir } }

/-- BYPASS: its one-bit register captures 0 (R600; IEEE 1149.1, log 12). -/
def State.jtagPass (s : State) : State := (s.jtagNow 0).emit (.jtag [false])

/-- Whether EXTEST is offered (R600). -/
def State.jtagExt (s : State) : Bool := s.lcCode != 2

/-- `n` free bits. -/
def State.freeBits : Nat → State → List Bool × State
  | 0, s => ([], s)
  | n + 1, s =>
    let (v, s) := s.free
    let (l, s) := s.freeBits n
    (v.getLsbD 0 :: l, s)

/-- SAMPLE/PRELOAD: the pins' levels are shifted out while the boundary register is loaded. -/
def State.jtagSample (s : State) (load : List Bool) : State :=
  let (l, s) := (s.jtagNow 2).freeBits load.length
  ({ s with glb := { s.glb with boundary := load } }).emit (.jtag l)

/-- Whether a register answers in a reset too: the PWR block and the thermal registers (19, reset domains). -/
def aonReg (off : Nat) : Bool := off / 0x100000 == 2 || (decide (0x100 ≤ off) && decide (off ≤ 0x108))

/-- Whether a device address lies in the Keep outside the customer area (R601). -/
def State.keepSecure (s : State) (a n : Nat) : Bool :=
  match s.locate a with
  | some (.keep, o) => decide (o < 0xA10000) || decide (0xF00000 < o + n)
  | _ => false

/-- Whether a running wipe refuses an access: one that touches the secure partition (R441 step 1). -/
def State.wipeRefuses (s : State) (a n : Nat) : Bool :=
  s.keep.wiping && (match s.locate a with
    | some (.keep, o) => decide (0xF00000 < o + n)
    | _ => false)

/-- The safe-frame slots that a write at a device address touches are judged again (R439). -/
def State.sfTouchedDev (s : State) (a n : Nat) : State :=
  match s.locate a with
  | some (.keep, o) => s.sfTouched o n
  | _ => s

/-- A memory read by JTAG with a master's rights. -/
def State.jtagRead (s : State) (master : Nat) (a n : Nat) : State :=
  let (s, r) := s.memRead master (master == 0) (f83 (if master = 0 then 81 else 16)) none a n
  s.answerRead .jtag 0 r

/-- A register or memory access of JTAG as master 4 (R601). The Dome SRAM and the key fuses do not answer. -/
def State.jtagPlain (s : State) (a : JtagAccess) : State :=
  match a with
  | .readReg off => if s.inReset && !aonReg off then s.answerRead .jtag 0 none else s.regRead .jtag 0 (off / 4 * 4) 4
  | .writeReg off v => if s.inReset && !aonReg off then s else s.regWrite .jtag 0 off 4 v
  | .readMem x n =>
    if s.inReset then s.answerRead .jtag 0 none
    else if s.keepSecure x n then (s.violation .keep (x - 0x10000000)).answerRead .jtag 0 none
    else s.jtagRead 4 x n
  | .writeMem x l =>
    if s.inReset then s
    else if s.keepSecure x l.length then s.violation .keep (x - 0x10000000)
    else s.memWrite 4 false (f83 16) x l
  | .readDome .. | .readFuses => s.answerRead .jtag 0 none
  | .writeDome .. => s

/-- Dome debug in BLANK (R600, R601): accesses with the Dome's rights, its SRAM and the key fuses. -/
def State.jtagDome (s : State) (a : JtagAccess) : State :=
  if s.inReset then s.answerRead .jtag 0 none
  else
    match a with
    | .readReg off => (match regTarget 0 (off / 4 * 4) with
      | none => s
      | some (t, o) => let (s, r) := s.readAt true t o 4; s.answerRead .jtag 0 r)
    | .writeReg off v => (match regTarget 0 off with
      | some (none, o) => if off % 4 = 0 then (s.wakeFor none o).manWr true o v else s
      | some (some q, o) => if off % 4 = 0 then (s.wakeFor (some q) o).pageWr q o v else s
      | none => s)
    | .readMem x n => if s.wipeRefuses x n then s.answerRead .jtag 0 none else s.jtagRead 0 x n
    | .writeMem x l => if s.wipeRefuses x l.length then s else (s.memWrite 0 true (f83 81) x l).sfTouchedDev x l.length
    | .readDome off n =>
      let (s, bad) := s.readErrs .dome (off % 2 ^ 21) n none
      s.answerRead .jtag 0 (if bad then none else some (s.rdBytes .dome (off % 2 ^ 21) n))
    | .writeDome off l => if off + l.length ≤ 2 ^ 21 then s.stWords .dome off l else s
    | .readFuses => s.answerRead .jtag 0 (some (leBytes 64 s.dome.custKey.toNat ++ leBytes 32 s.dome.kek.toNat))

/-! ### The commands -/

/-- SB_POINTER_WRITE (R665). -/
def execSbPointerWrite (a : BitVec 7) (v : Byte) (s : State) : Host.Outcome State Fault Refusal :=
  actAon (fun s => if s.sbAnswers a then { s with glb := { s.glb with sbPtr := v } } else s) s

/-- SB_READ (R665 to R667). -/
def execSbRead (a : BitVec 7) (s : State) : Host.Outcome State Fault Refusal := actAon (fun s => s.sbReadByte a) s

/-- JTAG_BYPASS (R600). -/
def execJtagBypass (s : State) : Host.Outcome State Fault Refusal := actAon (fun s => s.jtagPass) s

/-- JTAG_IDCODE (R602). -/
def execJtagIdcode (s : State) : Host.Outcome State Fault Refusal :=
  actAon (fun s => (s.jtagNow 1).emit (.jtag (bitsOf (leBytes 4 0xB8256D6B)))) s

/-- JTAG_SAMPLE_PRELOAD (R600). -/
def execJtagSamplePreload (load : List Bool) (s : State) : Host.Outcome State Fault Refusal := actAon (fun s => s.jtagSample load) s

/-- JTAG_EXTEST (R603): every pin follows the boundary register. -/
def execJtagExtest (s : State) : Host.Outcome State Fault Refusal :=
  actAon (fun s => if s.jtagExt then (s.jtagNow 3).emit (.jtag s.glb.boundary) else s.jtagPass) s

/-- JTAG_MEM_ACCESS (R601). -/
def execJtagMemAccess (a : JtagAccess) (s : State) : Host.Outcome State Fault Refusal :=
  actAon (fun s => if s.jtagMem then (s.jtagNow 4).jtagPlain a else s.jtagPass) s

/-- JTAG_DOME_DEBUG (R600). -/
def execJtagDomeDebug (a : JtagAccess) (s : State) : Host.Outcome State Fault Refusal :=
  actAon (fun s => if s.lcCode = 0 then (s.jtagNow 5).jtagDome a else s.jtagPass) s

end Sys2Proof.Machine
end

