-- ==== Sys2Proof/Machine/Descriptors.lean ====
section
/-!
DEFINITION. The descriptor rows of the table (03): each submits its descriptor with the row's opcode, and the rows of one
SUBOP or of one value of a flag with that SUBOP or flag. What a descriptor does is in Begin.lean and the files it names.
-/
namespace Sys2Proof.Machine
open Sys2Proof

/-- NOP (R111). -/
def execNop (d : Desc) (s : State) : Host.Outcome State Fault Refusal := act (fun s => s.join 0x01 d) s

/-- LAYER_SET (R119). -/
def execLayerSet (d : Desc) (s : State) : Host.Outcome State Fault Refusal := act (fun s => s.join 0x02 d) s

/-- BUF_ATTACH (R94). -/
def execBufAttach (d : Desc) (s : State) : Host.Outcome State Fault Refusal := act (fun s => s.join 0x03 d) s

/-- REAFFIRM (R95). -/
def execReaffirm (d : Desc) (s : State) : Host.Outcome State Fault Refusal := act (fun s => s.join 0x04 d) s

/-- COMMIT (R171). -/
def execCommit (d : Desc) (s : State) : Host.Outcome State Fault Refusal := act (fun s => s.join 0x05 d) s

/-- FENCE_SIGNAL (R167). -/
def execFenceSignal (d : Desc) (s : State) : Host.Outcome State Fault Refusal := act (fun s => s.join 0x06 d) s

/-- WRITEBACK (R249). -/
def execWriteback (d : Desc) (s : State) : Host.Outcome State Fault Refusal := act (fun s => s.join 0x07 (setFlag d 0 false)) s

/-- WRITEBACK with STOP (R253). -/
def execWritebackStop (d : Desc) (s : State) : Host.Outcome State Fault Refusal := act (fun s => s.join 0x07 (setFlag d 0 true)) s

/-- COPY (R489). -/
def execCopy (d : Desc) (s : State) : Host.Outcome State Fault Refusal := act (fun s => s.join 0x08 d) s

/-- CHECK (R488). -/
def execCheck (d : Desc) (s : State) : Host.Outcome State Fault Refusal := act (fun s => s.join 0x09 d) s

/-- EVENT_ARM (R78). -/
def execEventArm (d : Desc) (s : State) : Host.Outcome State Fault Refusal := act (fun s => s.join 0x0A d) s

/-- CONSOLE HAPTIC_PLAY (R524). -/
def execHapticPlay (d : Desc) (s : State) : Host.Outcome State Fault Refusal := act (fun s => s.join 0x0B (setByte d 8 0)) s

/-- CONSOLE HAPTIC_STOP (R523). -/
def execHapticStop (d : Desc) (s : State) : Host.Outcome State Fault Refusal := act (fun s => s.join 0x0B (setByte d 8 1)) s

/-- CONSOLE VOICE_START (R534). -/
def execVoiceStart (d : Desc) (s : State) : Host.Outcome State Fault Refusal := act (fun s => s.join 0x0B (setByte d 8 2)) s

/-- CONSOLE VOICE_STOP (R534). -/
def execVoiceStop (d : Desc) (s : State) : Host.Outcome State Fault Refusal := act (fun s => s.join 0x0B (setByte d 8 3)) s

/-- CONSOLE PCM_QUEUE (R536). -/
def execPcmQueue (d : Desc) (s : State) : Host.Outcome State Fault Refusal := act (fun s => s.join 0x0B (setByte d 8 4)) s

/-- CONSOLE REFLEX_BIND (R529). -/
def execReflexBind (d : Desc) (s : State) : Host.Outcome State Fault Refusal := act (fun s => s.join 0x0B (setByte d 8 5)) s

/-- CONSOLE REFLEX_UNBIND (R529). -/
def execReflexUnbind (d : Desc) (s : State) : Host.Outcome State Fault Refusal := act (fun s => s.join 0x0B (setByte d 8 6)) s

/-- TIMESTAMP (R111). -/
def execTimestamp (d : Desc) (s : State) : Host.Outcome State Fault Refusal := act (fun s => s.join 0x0C d) s

/-- EXPORT (R338). -/
def execExport (d : Desc) (s : State) : Host.Outcome State Fault Refusal := act (fun s => s.join 0x0D (setFlag d 0 false)) s

/-- EXPORT with STOP (R97). -/
def execExportStop (d : Desc) (s : State) : Host.Outcome State Fault Refusal := act (fun s => s.join 0x0D (setFlag d 0 true)) s

/-- VIEWPORT_QUERY (R111). -/
def execViewportQuery (d : Desc) (s : State) : Host.Outcome State Fault Refusal := act (fun s => s.join 0x0E d) s

/-- VIEWPORT_MAP (R51). -/
def execViewportMap (d : Desc) (s : State) : Host.Outcome State Fault Refusal := act (fun s => s.join 0x20 (setFlag d 0 false)) s

/-- VIEWPORT_MAP with UNMAP (R51). -/
def execViewportUnmap (d : Desc) (s : State) : Host.Outcome State Fault Refusal := act (fun s => s.join 0x20 (setFlag d 0 true)) s

/-- LEASE_SLOTS GRANT_SLOT (R98). -/
def execGrantSlot (d : Desc) (s : State) : Host.Outcome State Fault Refusal := act (fun s => s.join 0x21 (setByte d 8 0)) s

/-- LEASE_SLOTS RELEASE_SLOT (R151). -/
def execReleaseSlot (d : Desc) (s : State) : Host.Outcome State Fault Refusal := act (fun s => s.join 0x21 (setByte d 8 1)) s

/-- LEASE_SLOTS GRANT_GRANULES (R147). -/
def execGrantGranules (d : Desc) (s : State) : Host.Outcome State Fault Refusal := act (fun s => s.join 0x21 (setByte d 8 2)) s

/-- LEASE_SLOTS RELEASE_GRANULES (R150). -/
def execReleaseGranules (d : Desc) (s : State) : Host.Outcome State Fault Refusal := act (fun s => s.join 0x21 (setByte d 8 3)) s

/-- LEASE_SLOTS ADD_EXTENT (R89). -/
def execAddExtent (d : Desc) (s : State) : Host.Outcome State Fault Refusal := act (fun s => s.join 0x21 (setByte d 8 4)) s

/-- LEASE_SLOTS RELEASE_EXTENT (R90). -/
def execReleaseExtent (d : Desc) (s : State) : Host.Outcome State Fault Refusal := act (fun s => s.join 0x21 (setByte d 8 5)) s

/-- BUDGET_SET (R353). -/
def execBudgetSet (d : Desc) (s : State) : Host.Outcome State Fault Refusal := act (fun s => s.join 0x22 d) s

/-- OUTPUT_MODE with ENABLE = 1 (R254). -/
def execOutputMode (d : Desc) (s : State) : Host.Outcome State Fault Refusal := act (fun s => s.join 0x23 (setFlag d 0 true)) s

/-- OUTPUT_MODE with ENABLE = 0 (R564). -/
def execOutputDisable (d : Desc) (s : State) : Host.Outcome State Fault Refusal := act (fun s => s.join 0x23 (setFlag d 0 false)) s

/-- WALL_COMMIT_CFG PARAMS (R329). -/
def execWallParams (d : Desc) (s : State) : Host.Outcome State Fault Refusal := act (fun s => s.join 0x24 (setByte d 8 0)) s

/-- WALL_COMMIT_CFG GROUP_DEFINE (R189). -/
def execGroupDefine (d : Desc) (s : State) : Host.Outcome State Fault Refusal := act (fun s => s.join 0x24 (setByte d 8 1)) s

/-- WALL_COMMIT_CFG GROUP_DELETE (R191). -/
def execGroupDelete (d : Desc) (s : State) : Host.Outcome State Fault Refusal := act (fun s => s.join 0x24 (setByte d 8 2)) s

/-- A descriptor with a reserved opcode (R93): the opcode the row gives. -/
def execReservedOpcode (op : BitVec 8) (d : Desc) (s : State) : Host.Outcome State Fault Refusal := act (fun s => s.join op d) s

/-- A descriptor whose SUBOP its layout does not list (R668). -/
def execUnlistedSubop (op : BitVec 8) (d : Desc) (s : State) : Host.Outcome State Fault Refusal := act (fun s => s.join op d) s

/-- COPY_FENCE_TIMEOUT (R96): a COPY whose fence is still unsatisfied ends with ST_FENCE_TIMEOUT. -/
def execCopyFenceTimeout (p : Fin 64) (sq : Fin 8) (seq : BitVec 16) (s : State) : Host.Outcome State Fault Refusal :=
  act (fun s => s.copyTimeout p sq seq) s

/-- COPY_TRANSFER_END (R348, R490 to R493). -/
def execCopyTransferEnd (p : Fin 64) (sq : Fin 8) (seq : BitVec 16) (hostData : List Byte) (readError : Bool) (s : State) :
    Host.Outcome State Fault Refusal :=
  act (fun s => s.jobEnd 0x08 p sq seq hostData readError) s

/-- CHECK_JOB_END (R348, R491 to R493). -/
def execCheckJobEnd (p : Fin 64) (sq : Fin 8) (seq : BitVec 16) (readError : Bool) (s : State) : Host.Outcome State Fault Refusal :=
  act (fun s => s.jobEnd 0x09 p sq seq [] readError) s

/-- EXTENT_ZERO_BLOCK (R90). -/
def execExtentZeroBlock (s : State) : Host.Outcome State Fault Refusal := act State.zeroBlock s

end Sys2Proof.Machine
end

