-- ==== Sys2Proof/Machine/Scan.lean ====
section
/-!
DEFINITION. The meanings of the scan-out commands (06, 07): frames, lines, captures, hot plug, link training, freshness and proof.
-/
namespace Sys2Proof.Machine
open Sys2Proof

/-- OUTPUT_MODE_COMPLETE (R254, R673). -/
def execOutputModeComplete (o : Fin 8) (s : State) : Host.Outcome State Fault Refusal :=
  act (fun s => s.modeComplete o) s

/-- FRAME_START (R214, R215). -/
def execFrameStart (o : Fin 8) (f : Nat) (err : Int) (s : State) : Host.Outcome State Fault Refusal :=
  act (fun s => s.frameStart o f err) s

/-- LINE_MATCH (R246). -/
def execLineMatch (o : Fin 8) (line : Nat) (s : State) : Host.Outcome State Fault Refusal :=
  act (fun s => s.lineMatchDo o line) s

/-- FRESHNESS_CHECK (R260 to R276). -/
def execFreshnessCheck (o : Fin 8) (f : Nat) (slot : Fin 256) (s : State) : Host.Outcome State Fault Refusal :=
  act (fun s => s.freshness o f slot) s

/-- COMMIT_CUTOFF (R174, R197). -/
def execCommitCutoff (o : Fin 8) (f : Nat) (s : State) : Host.Outcome State Fault Refusal :=
  act (fun s => s.cutOffDo o f) s

/-- LATCH (R174, R283, R341). -/
def execLatch (o : Fin 8) (f : Nat) (s : State) : Host.Outcome State Fault Refusal :=
  act (fun s => s.latchDo o f) s

/-- FRAME_END (R201, R244). -/
def execFrameEnd (o : Fin 8) (f : Nat) (s : State) : Host.Outcome State Fault Refusal :=
  act (fun s => s.frameEnd o f) s

/-- UNDERRUN (R234). -/
def execUnderrun (o : Fin 8) (line : Nat) (s : State) : Host.Outcome State Fault Refusal :=
  act (fun s => s.underrunDo o line) s

/-- CAPTURE_REQUEST_DROP (R367). -/
def execCaptureRequestDrop (o : Fin 8) (p : Fin 64) (v : Fin 8) (line : Nat) (s : State) : Host.Outcome State Fault Refusal :=
  act (fun s => s.captureDrop o p v line) s

/-- SAFE_FRAME_LINE_READ (R440). -/
def execSafeFrameLineRead (o : Fin 8) (line : Nat) (s : State) : Host.Outcome State Fault Refusal :=
  act (fun s => s.safeLine o line) s

/-- HPD_IRQ (R226, R227). -/
def execHpdIrq (o : Fin 8) (status : Option (BitVec 64)) (s : State) : Host.Outcome State Fault Refusal :=
  act (fun s => s.hpdIrq o status) s

/-- HPD_UNPLUG (R226, R228). -/
def execHpdUnplug (o : Fin 8) (s : State) : Host.Outcome State Fault Refusal :=
  act (fun s => s.hpdUnplug o) s

/-- HPD_PLUG (R221, R226). -/
def execHpdPlug (o : Fin 8) (s : State) : Host.Outcome State Fault Refusal :=
  act (fun s => s.hpdPlug o) s

/-- AUX_TIMEOUT (R224). -/
def execAuxTimeout (o : Fin 8) (x : AuxMissed) (s : State) : Host.Outcome State Fault Refusal :=
  act (fun s => s.auxTimeout o x.acc x.why x.run) s

/-- LINK_TRAINING_COMPLETE (R222, R225). -/
def execLinkTrainingComplete (o : Fin 8) (r : TrainRun) (s : State) : Host.Outcome State Fault Refusal :=
  act (fun s => s.trainEnd o r) s

/-- TRAIN_RETRY_TIMER (R225). -/
def execTrainRetryTimer (o : Fin 8) (s : State) : Host.Outcome State Fault Refusal :=
  act (fun s => s.trainRetry o) s

/-- EDID_READ_DONE (R229). -/
def execEdidReadDone (o : Fin 8) (result : EdidResult) (s : State) : Host.Outcome State Fault Refusal :=
  act (fun s => s.edidEnd o result) s

/-- PROOF_COMPARE (R291 to R293). -/
def execProofCompare (o : Fin 8) (s : State) : Host.Outcome State Fault Refusal :=
  act (fun s => s.proofCompare o) s

end Sys2Proof.Machine
end

