-- ==== Sys2Proof/Machine/SpireRx.lean ====
section
/-!
DEFINITION. What each Spire flit does on receipt, and the Spire unit's timers (08).
-/
namespace Sys2Proof.Machine
open Sys2Proof

/-- A flit received as a row names it, then the exports moved on. -/
def State.rx (s : State) (l : Fin 12) (cls ty : Nat) (f : BitVec 256) (g : BitVec 256 → State → State) : State :=
  let f := asType cls ty f
  (s.rxFlit l f (g f)).exportsGo

/-! ### Time -/

/-- A signed value saturated to 32 bits. -/
def satI32 (x : Int) : Int := max (-(2 ^ 31)) (min (2 ^ 31 - 1) x)

/-- SYNC from the active parent, arrived at Spire time `arr` in 2^-24 ns (R318): the offset is slewed away, or stepped when it is more
than 1 µs. -/
def State.syncIn (s : State) (l : Fin 12) (arr : Nat) (f : BitVec 256) : State :=
  if s.spire.master || s.spire.parent != some l then s
  else
    let s := (s.upToFine arr).arrive (.flit l)
    let tx : Nat := fU f 4 8 * 2 ^ 24 + fU f 12 1 * 2 ^ 16 + (s.spire.links[l.val]).delay * 2 ^ 20
    let o : Int := (tx : Int) - arr
    let s := { (s.arrive .sync) with spire := { s.spire with offset := satI32 (o / 2 ^ 24), holdover := false, synced := true } }
    let s := if o.natAbs ≤ 1000 * 2 ^ 24 then
        { s with spire := { s.spire with slew := o, rate := max (-slewMax) (min slewMax o), settled := true } }
      else ({ s with spire := { s.spire with stepped := true, settled := s.spire.settled && s.spire.stepped } }).stepTime ((s.fine : Int) + o).toNat
    s.tryJoin

/-- DELAY_REQ answered (R317): it arrives and its reply leaves at this instant. -/
def State.delayReqIn (s : State) (l : Fin 12) (f : BitVec 256) : State :=
  let ns := s.now.toNat
  let fr := s.spire.frac / 2 ^ 16
  s.txFlit l (mkFlit 0 2 [(4, 4, fU f 4 4), (8, 8, ns), (16, 1, fr), (17, 8, ns), (25, 1, fr)])

/-- DELAY_RESP (R317): a delay value for the request outstanding. -/
def State.delayRespIn (s : State) (l : Fin 12) (f : BitVec 256) : State :=
  match (s.spire.links[l.val]).req with
  | none => s
  | some (id, t1) =>
    if fU f 4 4 ≠ id.toNat then s
    else
      let t2 : Nat := fU f 8 8 * 2 ^ 24 + fU f 16 1 * 2 ^ 16
      let t3 : Nat := fU f 17 8 * 2 ^ 24 + fU f 25 1 * 2 ^ 16
      let d : Int := (((s.fine : Int) - t1) - ((t3 : Int) - t2)) / 2
      s.delaySample l (d / 2 ^ 20).toNat

/-! ### Votes -/

/-- REPORT of a child (R331); the first for a frame stands. -/
def State.reportIn (s : State) (l : Fin 12) (f : BitVec 256) : State :=
  let g := f4 (bits (fU f 4 1) 1 0)
  let v : Vote := (s.vote g (fU f 5 8)).getD { g, frame := fU f 5 8 }
  if v.children.any fun c => c.1 == l.val then s
  else
    let v := { v with children := v.children ++ [(l.val, bit (fU f 4 1) 7, bits (fU f 13 2) 13 0, fU f 15 2)] }
    (s.putVote v).voteGo v

/-- REPORT_POINT of frame f (R195, R331): children taken up since the last one count from now, and the device forms its report. A
stand-alone device reports at its cut-offs instead (R313). -/
def State.reportPoint (s : State) (g : Fin 4) (f : Nat) : State :=
  if s.standAlone || (match s.spire.reported[g.val] with | some r => decide (f ≤ r) | none => false) then s
  else
    let s := s.upTo (s.reportPs g f)
    let s := { s with spire := { s.spire with
      reported := upd s.spire.reported g fun _ => some f
      children := s.spire.children ++ s.spire.newChildren.filter (fun l => !s.spire.children.contains l), newChildren := [] } }
    let gs := s.groups.filter fun x => x.wall && x.rg == g && x.st != .latchWait && x.target == f
    let (s, ok) := s.reportGroups gs f
    let v : Vote := (s.vote g f).getD { g, frame := f }
    let v := { v with own := some ok, ownFirst := s.spire.myId }
    (s.putVote v).voteGo v

/-- VOTE_UP_DEADLINE of frame f (R332). -/
def State.upDeadline (s : State) (g : Fin 4) (f : Nat) : State :=
  match s.spire.image with
  | none => s
  | some i =>
    if !s.spire.master || (s.decision g f).isSome || (match s.spire.reported[g.val] with | some r => decide (r < f) | none => true) then s
    else
      let s := s.upTo (s.reportPs g f + (i.propNs + i.marginNs / 2) * 1000)
      let have_ : List Nat := match s.vote g f with | some v => v.children.map fun c => c.1 | none => []
      let missing := (s.spire.children.filter fun l => !have_.contains l.val).map fun l => (s.spire.links[l.val]).nbId
      match missing.min? with
      | some x => s.decideVote g f false (0x10000 + x)
      | none => s

/-- DECIDE (R333): the first for (g, F) is kept and flooded on. -/
def State.decideIn (s : State) (l : Fin 12) (f : BitVec 256) : State :=
  let g := f4 (bits (fU f 4 1) 1 0)
  if (s.decision g (fU f 5 8)).isSome then s
  else (s.keepDecision g (fU f 5 8) (bit (fU f 4 1) 7) (fU f 13 8)).flood (some l) f

/-- ADOPT (R327): the sender is a child from the next report point. -/
def State.adoptIn (s : State) (l : Fin 12) : State :=
  if s.spire.children.contains l || s.spire.newChildren.contains l then s
  else { s with spire := { s.spire with newChildren := s.spire.newChildren ++ [l] } }

/-! ### Masters -/

/-- A MASTER flit (R300). -/
def masterFlit (id term beat : Nat) : BitVec 256 := mkFlit 0 7 [(4, 2, id), (6, 4, term), (10, 4, beat)]

/-- Whether a beat is newer than the last one of the same master and term. -/
def newBeat (last : Option (Nat × Word × Word)) (id : Nat) (term beat : Word) : Bool :=
  match last with
  | none => true
  | some (i, t, b) => i != id || t != term || (b != beat && decide ((beat - b).toNat < 2 ^ 31))

/-- MASTER (R325, R327): a higher TERM is adopted; a heartbeat of the current term keeps the device in the wall; the first of each
beat is flooded on. -/
def State.masterIn (s : State) (l : Fin 12) (f : BitVec 256) : State :=
  let id := bits (fU f 4 2) 13 0
  let term := w32 (fU f 6 4)
  let beat := w32 (fU f 10 4)
  let s := if s.spire.term.toNat < term.toNat then s.adoptMaster id term.toNat else s
  if s.spire.term != term || s.spire.masterId != id || s.spire.master then s
  else
    let s := ({ (s.arrive .beat) with spire := { s.spire with inWall := true } }).tryJoin
    if newBeat s.spire.lastBeat id term beat then
      ({ s with spire := { s.spire with lastBeat := some (id, term, beat) } }).flood (some l) f
    else s

/-- The master's heartbeat (R325). -/
def State.beatOut (s : State) : State :=
  if !s.spire.master || s.standAlone then s
  else
    let s := { s with spire := { s.spire with beat := s.spire.beat + 1 } }
    s.flood none (masterFlit s.spire.myId s.spire.term.toNat s.spire.beat.toNat)

/-- Whether a frame's cut-off has not passed on this device: on its outputs of the rate group, or where it has none, before the
frame's grid instant. -/
def State.cutAhead (s : State) (g : Fin 4) (f : Nat) : Bool :=
  let os := (idx 8).filter fun o => s.outs[o.val].enabled && s.outs[o.val].set.rg == g
  if os.isEmpty then decide (s.now.toNat * 1000 < s.gridPs g f) else os.any fun o => decide ((s.comps[o.val]).lastCut < f)

/-- The backup takes over (R326, R334). -/
def State.takeOver (s : State) : State :=
  let old := s.spire.masterId
  let s := { s with spire := { s.spire with
    master := true, masterId := s.spire.myId, term := s.spire.term + 1, onBackupTree := true, parent := none, inWall := true, holdover := false
    joined := true, joinTime := s.now, msgSeq := 0, lastBeat := none, beat := 0 } }
  let s := s.resetChildren
  (idx 4).foldl (fun s g =>
    match s.spire.reported[g.val] with
    | none => s
    | some r => ((List.range (s.spire.leads[g.val] + 2)).map fun k => r + k - (s.spire.leads[g.val] + 1)).foldl (fun s f =>
        if s.cutAhead g f then s.decideVote g f false (0x20000 + old) else s) s) s

/-- MASTER_HEARTBEAT_TIMEOUT (R325, R326); a MASTER received at this instant is in time (R310). -/
def State.heartbeatLost (s : State) : State :=
  match s.spire.image with
  | none => s
  | some i =>
    if s.spire.master || s.arrived.contains .beat then s
    else
      let s := s.leaveWall
      if i.myId == i.backupId then s.takeOver else s

/-! ### Alarms -/

/-- ALARM (R335, R336). -/
def State.alarmIn (s : State) (l : Fin 12) (f : BitVec 256) : State :=
  let org := fU f 4 2
  let sq := w32 (fU f 6 4)
  let word := w32 (fU f 10 4)
  let time := w64 (fU f 14 8)
  let joinT := w64 (fU f 22 8)
  let ok := match s.spire.alarmsSeen.lookup org with
    | some (j, q) => decide (j.toNat < joinT.toNat) || (j == joinT && decide (q.toNat < sq.toNat))
    | none => true
  if org = s.spire.myId || !ok then s
  else
    let seen : List (Nat × DWord × Word) := s.spire.alarmsSeen.filter fun q => q.1 != org
    let s := { s with spire := { s.spire with alarmsSeen := seen ++ [(org, joinT, sq)] } }
    let s := s.flood (some l) f
    let budget := match s.spire.image with | some i => i.safeNs | none => 0
    let s := if time.toNat + budget < s.now.toNat then { s with spire := { s.spire with safeLate := satInc s.spire.safeLate } } else s
    let s := s.safeMsg l.val word time
    if s.dome.st == .run then s.applySafeIn word else s

/-! ### Neighbours -/

/-- Both IDENT parts checked against the declared pairing (R308); a higher TERM of part 1 is adopted (R327). -/
def State.identCheck (s : State) (l : Fin 12) (a b : BitVec 256) : State :=
  match s.spire.pairing l, s.spire.image with
  | some q, some i =>
    if fU a 5 16 = q.serial.toNat ∧ fU a 21 2 = q.id ∧ fU a 23 1 = q.nbLink ∧ fU b 5 8 = i.wallId.toNat ∧ fU b 13 8 = i.gen.toNat then
      let s := s.modLink l fun k => { k with st := .measure, nbId := q.id, nbLink := q.nbLink, exchanges := 0, samples := [] }
      let s := s.sendDelayReq l
      if s.spire.term.toNat < fU b 21 4 then (s.adoptMaster (bits (fU b 25 2) 13 0) (fU b 21 4)).leaveWall else s
    else
      (s.modLink l fun k => { k with st := .disabled, cause := 3, downFlag := true }).raise0
        { code := evTopoMismatch, inst := l.val, time := s.now, detail := fU a 5 8 }
  | _, _ => s

/-- IDENT: each part is kept, and both are checked together. -/
def State.identIn (s : State) (l : Fin 12) (f : BitVec 256) : State :=
  if (s.spire.links[l.val]).st != .ident then s
  else
    let s := s.modLink l fun k => if bit (fU f 4 1) 0 then { k with identB := some f } else { k with identA := some f }
    match (s.spire.links[l.val]).identA, (s.spire.links[l.val]).identB with
    | some a, some b => s.identCheck l a b
    | _, _ => s

/-! ### Routed flits -/

/-- A flit with its HOPS_LEFT given a value. -/
def withHops (f : BitVec 256) (h : Nat) : BitVec 256 := BitVec.ofNat 256 (f.toNat - fU f 6 2 * 2 ^ 48 + h * 2 ^ 48)

/-- A routed flit, with the DATA flits that follow it, delivered, forwarded or dropped (R314). -/
def State.routeFlit (s : State) (f : BitVec 256) (body : List (BitVec 256)) (g : State → State) : State :=
  let r := s.route (fU f 4 2)
  if r = 12 then g s
  else if r < 12 then
    if fU f 6 2 ≤ 1 then { s with spire := { s.spire with hopDrop := satInc s.spire.hopDrop } }
    else body.foldl (fun s d => s.sendSeq (f12 r) d) (s.sendSeq (f12 r) (withHops f (fU f 6 2 - 1)))
  else { s with spire := { s.spire with unreach := satInc s.spire.unreach } }

/-- PRESENCE at the master (R337). -/
def State.presenceIn (s : State) (f : BitVec 256) : State :=
  if !s.spire.master then s
  else
    let id := fU f 8 2
    { (s.arrive (.presence id)) with spire := { s.spire with absent := s.spire.absent.filter (· != id), present := if s.spire.present.contains id then s.spire.present else s.spire.present ++ [id] } }

/-- PRESENCE_TIMEOUT of a device of the image (R337), unless its PRESENCE has come at this instant (R310). -/
def State.presenceLost (s : State) (id : Nat) : State :=
  match s.spire.image with
  | none => s
  | some i =>
    if !s.spire.master || !(i.devices.any fun d => d.1 == id) || s.spire.absent.contains id || id == i.myId
        || s.arrived.contains (.presence id) then s
    else { s with spire := { s.spire with absent := s.spire.absent ++ [id], present := s.spire.present.filter (· != id) } }

/-- PRESENCE sent to the master by a device in the wall (R337). -/
def State.presenceOut (s : State) : State :=
  if !s.spire.inWall || s.spire.master then s
  else s.sendRouted s.spire.masterId (mkFlit 2 2 [(4, 2, s.spire.masterId), (6, 2, s.spire.hops), (8, 2, s.spire.myId)])

/-! ### Streams -/

/-- The import streams that a flit of (SRC, EXPORT_ID) belongs to, each noted as heard (R342) and changed. -/
def State.eachImport (s : State) (f : BitVec 256) (g : State → Import → State) : State :=
  let mine : List Import := s.spire.imports.filter fun i => i.srcId == fU f 8 2 && i.expId == fU f 10 2
  mine.foldl (fun s i => g (s.arrive (.stream i.attId)) { i with last := s.now.toNat }) s

/-- A flit of a packet for this device that is not yet whole: its import streams are heard (R342). -/
def State.noteStream (s : State) (h : BitVec 256) : State :=
  if s.route (fU h 4 2) = 12 then s.eachImport h fun s i => { s with spire := { s.spire with
    imports := s.spire.imports.map fun (x : Import) => if x.attId = i.attId then i else x } } else s

/-- An import stream replaced. -/
def State.putImport (s : State) (i : Import) : State :=
  { s with spire := { s.spire with imports := s.spire.imports.map fun (x : Import) => if x.attId = i.attId then i else x } }

/-- The slot an import's buffer is staged, pending or latched for: where a reset has left it latched on an orphaned slot (R88), that one. -/
def State.importSlot (s : State) (i : Import) : Option (Fin 256) :=
  let has (a : Option Attach) : Bool := a.map Attach.id == some i.attId
  match (idx 256).find? fun k => has (match s.slots[k.val].cur with | some c => c.buf | none => none) with
  | some k => some k
  | none => s.slotOf i.pav i.handle

/-- Bytes per pixel of the handle's committed format (R339): of its newest pending commit, else of its latched layer, else of the
staged one; 0 where none has been given. -/
def State.committedBpp (s : State) (i : Import) : Nat :=
  match s.importSlot i with
  | none => 0
  | some k =>
    match newestCap k (s.groups.flatMap fun g => g.members.filter fun m => !g.latchedOuts.contains m.out), s.slots[k.val].cur, s.slots[k.val].staged with
    | some (_, c), _, _ => fmtBpp c.layer.fmt
    | none, some c, _ => fmtBpp c.layer.fmt
    | none, none, some l => fmtBpp l.fmt
    | none, none, none => 0

/-- The half a transfer is written to: the one that is not latched (R340), and, before a latch, not the one last completed. -/
def Import.half (i : Import) : Nat :=
  match i.live, i.ready with
  | some (h, _), _ => 1 - h
  | none, some (h, _, _) => 1 - h
  | none, none => 0

/-- XFER_BEGIN at the importer (R339, R340): the transfer opens; one that is still open is abandoned. It resumes a lost stream (R342). A complete
transfer not yet latched is overwritten only by one that is written (R341). -/
def State.xferBeginIn (s : State) (f : BitVec 256) : State :=
  s.eachImport f fun s i =>
    let bpp := fU f 20 1
    let bad := decide (fU f 16 2 ≠ i.width) || decide (fU f 18 2 ≠ i.height) || bpp == 0 || bpp != s.committedBpp i
    s.putImport { i with lost := false, curSeq := some (w32 (fU f 12 4)), curBad := bad, curBpp := bpp, curTime := w64 (fU f 21 8), got := 0
                         crc := crcStart {}, ready := if i.live.isSome && !bad then none else i.ready }

/-- Bytes of a transfer written from byte k on: lines of `w` bytes at a pitch (R338, R340), as master 3 on port 80, where they wait for tokens
(R364). -/
def State.xferStore : Nat → State → Nat → Nat → Nat → Nat → List Byte → State
  | 0, s, _, _, _, _, _ => s
  | n + 1, s, base, pitch, w, k, l =>
    match l with
    | [] => s
    | _ =>
      let m := min (w - k % w) l.length
      State.xferStore n (s.dramReq { port := 80, addr := base + k / w * pitch + k % w - 0x1000000000, len := m } (some (l.take m)) .clean) base pitch w (k + m) (l.drop m)

/-- A whole packet at the importer (R301, R339): its DATA bytes continue the transfer, or spoil it. -/
def State.packetIn (s : State) (f : BitVec 256) (body : List (BitVec 256)) : State :=
  s.eachImport f fun s i =>
    if i.curSeq ≠ some (w32 (fU f 12 4)) then s.putImport i
    else
      let w := i.width * i.curBpp
      let total := w * i.height
      let data := (body.flatMap fun d => leBytes 26 (fU d 4 26)).take (total - i.got)
      if i.curBad ∨ fU f 16 4 ≠ i.got ∨ total ≤ i.got then s.putImport { i with curBad := true }
      else
        let s := State.xferStore data.length s (i.addr + i.half * (i.pitch * i.height)) i.pitch w i.got data
        s.putImport { i with got := i.got + data.length, crc := data.foldl (crcByte {}) i.crc }

/-- XFER_END at the importer (R339, R341): the transfer is complete, or discarded, counted and answered with NAK. -/
def State.xferEndIn (s : State) (f : BitVec 256) : State :=
  s.eachImport f fun s i =>
    let ok := i.curSeq == some (w32 (fU f 12 4)) && !i.curBad && i.got == i.width * i.curBpp * i.height && fU f 16 4 == crcFinish {} i.crc
    if ok then s.putImport { i with lost := false, curSeq := none, ready := some (i.half, i.curTime, w32 (fU f 12 4)) }
    else
      let s := s.putImport { i with curSeq := none }
      let s := { s with spire := { s.spire with importRej := satInc s.spire.importRej } }
      s.sendRouted i.srcId (s.spire.streamFlit i.srcId i.expId 1 (fU f 12 4) 0)

/-- STREAM ALIVE at the importer (R338, R342). -/
def State.aliveIn (s : State) (f : BitVec 256) : State := s.eachImport f fun s i => s.putImport i

/-- STREAM NAK at the exporter: a new transfer of the latched buffer (R338). -/
def State.nakIn (s : State) (f : BitVec 256) : State :=
  (List.range s.spire.exports.length).foldl (fun s k =>
    match s.spire.exports[k]? with
    | some e => if e.expId = fU f 10 2 ∧ e.dest = fU f 8 2 then s.startXfer k else s
    | none => s) s

/-- STREAM TS_UPDATE at the importer: the latched transfer's timestamp raised, never lowered (R341). -/
def State.tsUpdateIn (s : State) (f : BitVec 256) : State :=
  s.eachImport f fun s i =>
    let s := s.putImport i
    match i.live with
    | some (_, q) =>
      let old : DWord := match s.slots.toList.findSome? (fun t => match t.cur with
        | some c => (match c.buf with | some a => if a.id = i.attId then some a.time else none | none => none) | none => none) with
        | some t => t | none => 0
      if q = w32 (fU f 13 4) ∧ old.toNat < fU f 17 8 then s.raiseTime i.attId (w64 (fU f 17 8)) else s
    | none => s

/-- DATA_HEAD: a packet begins. -/
def State.dataHeadIn (s : State) (l : Fin 12) (f : BitVec 256) : State := (s.modLink l fun k => { k with head := some (f, []) }).noteStream f

/-- DATA: a packet's next flit; a whole packet is delivered or forwarded behind its DATA_HEAD (R301, R314). -/
def State.dataIn (s : State) (l : Fin 12) (f : BitVec 256) : State :=
  match (s.spire.links[l.val]).head with
  | none => s
  | some (h, body) =>
    let body := f :: body
    if body.length < fU h 20 2 then (s.modLink l fun k => { k with head := some (h, body) }).noteStream h
    else (s.modLink l fun k => { k with head := none }).routeFlit h body.reverse fun s => s.packetIn h body.reverse

/-- The import streams whose buffers a slot has latched, pending or staged. -/
def State.slotImports (s : State) (k : Fin 256) : List Import :=
  let bufs : List (Option Attach) := [s.slots[k.val].att, (match s.slots[k.val].cur with | some c => c.buf | none => none)]
    ++ s.groups.flatMap fun g => g.members.flatMap fun m => (m.caps.filter fun c => c.1 == k).map fun c => c.2.buf
  s.spire.imports.filter fun i => bufs.any fun b => b.map Attach.id == some i.attId

/-- The import stream of a slot that has been silent the longest among those not yet lost, at this instant included (R310); of several the first. -/
def State.silentImport (s : State) (k : Fin 256) : Option Import :=
  ((s.slotImports k).filter fun i => !i.lost && !s.arrived.contains (.stream i.attId)).foldl
    (fun best i => match best with | none => some i | some b => if i.last < b.last then some i else best) none

/-- IMPORT_LOST_TIMEOUT (R342): the timeout is that of the slot's stream silent the longest (DESIGN CHOICE, log 27). -/
def State.importLost (s : State) (k : Fin 256) : State :=
  match s.silentImport k with
  | none => s
  | some i =>
    let ev : Ev := { code := evImportLost, handle := i.handle, time := s.now, detail := i.srcId }
    (s.putImport { i with lost := true }).raise ev [(i.pav, ev)]

/-! ### Timers -/

/-- SYNC sent on each UP link to the children (R316). -/
def State.syncOut (s : State) : State :=
  if s.standAlone then s
  else
    (s.spire.children ++ s.spire.newChildren).foldl (fun s l =>
      if s.linkUp l then
        s.txFlit l (mkFlit 0 0 [(4, 8, s.now.toNat), (12, 1, s.spire.frac / 2 ^ 16), (13, 4, s.spire.term.toNat), (17, 2, s.spire.masterId)])
      else s) s

/-- STREAM ALIVE sent for every running export whose destination can be reached (R338, R343). -/
def State.aliveOut (s : State) : State :=
  s.spire.exports.foldl (fun s e =>
    if e.flows s then s.sendRouted e.dest (s.spire.streamFlit e.dest e.expId 0 e.xferSeq.toNat 0) else s) s

/-- Whether a flit's CRC is right (R299). -/
def crcGood (f : BitVec 256) : Bool := flitCrc f == fU f 30 2

/-- A flit that arrives with a bad CRC, or a sequenced one out of order (R305). -/
def State.badFlit (s : State) (l : Fin 12) (f : BitVec 256) : State :=
  let k := s.spire.links[l.val]
  if !(k.st == .up || k.st == .ident || k.st == .measure) then s
  else if crcGood f && isSeq (fClass f) (fType f) && fSeq f != k.seqRx then (s.rxFlit l f id).exportsGo
  else (s.modLink l fun k => { k with crcErr := satInc k.crcErr }).rxDiscard l

/-- A flit of an unlisted class and type: discarded and counted once its CRC has been checked (R300). -/
def State.unlistedFlit (s : State) (l : Fin 12) : State :=
  let k := s.spire.links[l.val]
  if k.st == .up || k.st == .ident || k.st == .measure then (s.arrive (.flit l)).modLink l fun k => { k with crcErr := satInc k.crcErr } else s

/-- CREDIT: credits returned (R302); what waited goes on. -/
def State.creditIn (s : State) (l : Fin 12) (f : BitVec 256) : State :=
  let s := s.modLink l fun k => { k with credCtrl := k.credCtrl + fU f 4 2, credPix := k.credPix + fU f 6 2 }
  s.pump (s.spire.links[l.val]).waiting.length l

/-- A STREAM flit with its KIND as a row gives it. -/
def asKind (k : Nat) (f : BitVec 256) : BitVec 256 := BitVec.ofNat 256 (f.toNat - fU f 12 1 * 2 ^ 96 + k * 2 ^ 96)

/-- REPLAY_TIMEOUT (R306); an ACK that advanced at this instant is in time (R310). -/
def State.replayDue (s : State) (l : Fin 12) : State :=
  if s.linkUp l && !s.arrived.contains (.ack l) && !(s.spire.links[l.val]).unacked.isEmpty then s.replayGo l else s

end Sys2Proof.Machine
end

