-- ==== Sys2Proof/Machine/SpireRows.lean ====
section
/-!
DEFINITION. The meanings of the Spire commands: flits received, timers and link training (08).
-/
namespace Sys2Proof.Machine
open Sys2Proof

/-- SYNC (R318). -/
def execSync (l : Fin 12) (flit : BitVec 256) (arr : Nat) (s : State) : Host.Outcome State Fault Refusal :=
  act (fun s => s.rx l 0 0 flit fun f s => s.syncIn l arr f) s

/-- DELAY_REQ (R317). -/
def execDelayReq (l : Fin 12) (flit : BitVec 256) (s : State) : Host.Outcome State Fault Refusal :=
  act (fun s => s.rx l 0 1 flit fun f s => s.delayReqIn l f) s

/-- DELAY_RESP (R317). -/
def execDelayResp (l : Fin 12) (flit : BitVec 256) (s : State) : Host.Outcome State Fault Refusal :=
  act (fun s => s.rx l 0 2 flit fun f s => s.delayRespIn l f) s

/-- REPORT (R331). -/
def execReport (l : Fin 12) (flit : BitVec 256) (s : State) : Host.Outcome State Fault Refusal :=
  act (fun s => s.rx l 0 4 flit fun f s => s.reportIn l f) s

/-- DECIDE (R333). -/
def execDecide (l : Fin 12) (flit : BitVec 256) (s : State) : Host.Outcome State Fault Refusal :=
  act (fun s => s.rx l 0 5 flit fun f s => s.decideIn l f) s

/-- ADOPT (R327). -/
def execAdopt (l : Fin 12) (flit : BitVec 256) (s : State) : Host.Outcome State Fault Refusal :=
  act (fun s => s.rx l 0 6 flit fun _ s => s.adoptIn l) s

/-- MASTER (R325, R327). -/
def execMaster (l : Fin 12) (flit : BitVec 256) (s : State) : Host.Outcome State Fault Refusal :=
  act (fun s => s.rx l 0 7 flit fun f s => s.masterIn l f) s

/-- ALARM (R335, R336). -/
def execAlarm (l : Fin 12) (flit : BitVec 256) (s : State) : Host.Outcome State Fault Refusal :=
  act (fun s => s.rx l 1 0 flit fun f s => s.alarmIn l f) s

/-- IDLE (R309). -/
def execIdle (l : Fin 12) (flit : BitVec 256) (s : State) : Host.Outcome State Fault Refusal :=
  act (fun s => s.rx l 2 0 flit fun _ s => s) s

/-- IDENT (R308). -/
def execIdent (l : Fin 12) (flit : BitVec 256) (s : State) : Host.Outcome State Fault Refusal :=
  act (fun s => s.rx l 2 1 flit fun f s => s.identIn l f) s

/-- PRESENCE (R314, R337). -/
def execPresence (l : Fin 12) (flit : BitVec 256) (s : State) : Host.Outcome State Fault Refusal :=
  act (fun s => s.rx l 2 2 flit fun f s => s.routeFlit f [] fun s => s.presenceIn f) s

/-- STREAM of KIND ALIVE (R314, R338). -/
def execStreamAlive (l : Fin 12) (flit : BitVec 256) (s : State) : Host.Outcome State Fault Refusal :=
  act (fun s => s.rx l 2 3 (asKind 0 flit) fun f s => s.routeFlit f [] fun s => s.aliveIn f) s

/-- STREAM of KIND NAK (R314, R338). -/
def execStreamNak (l : Fin 12) (flit : BitVec 256) (s : State) : Host.Outcome State Fault Refusal :=
  act (fun s => s.rx l 2 3 (asKind 1 flit) fun f s => s.routeFlit f [] fun s => s.nakIn f) s

/-- STREAM of KIND TS_UPDATE (R314, R341). -/
def execStreamTsUpdate (l : Fin 12) (flit : BitVec 256) (s : State) : Host.Outcome State Fault Refusal :=
  act (fun s => s.rx l 2 3 (asKind 2 flit) fun f s => s.routeFlit f [] fun s => s.tsUpdateIn f) s

/-- CREDIT (R302). -/
def execCredit (l : Fin 12) (flit : BitVec 256) (s : State) : Host.Outcome State Fault Refusal :=
  act (fun s => s.rx l 2 5 flit fun f s => s.creditIn l f) s

/-- XFER_BEGIN (R314, R339). -/
def execXferBegin (l : Fin 12) (flit : BitVec 256) (s : State) : Host.Outcome State Fault Refusal :=
  act (fun s => s.rx l 3 0 flit fun f s => s.routeFlit f [] fun s => s.xferBeginIn f) s

/-- DATA_HEAD (R301). -/
def execDataHead (l : Fin 12) (flit : BitVec 256) (s : State) : Host.Outcome State Fault Refusal :=
  act (fun s => s.rx l 3 1 flit fun f s => s.dataHeadIn l f) s

/-- DATA (R301, R314). -/
def execData (l : Fin 12) (flit : BitVec 256) (s : State) : Host.Outcome State Fault Refusal :=
  act (fun s => s.rx l 3 2 flit fun f s => s.dataIn l f) s

/-- XFER_END (R314, R339). -/
def execXferEnd (l : Fin 12) (flit : BitVec 256) (s : State) : Host.Outcome State Fault Refusal :=
  act (fun s => s.rx l 3 3 flit fun f s => s.routeFlit f [] fun s => s.xferEndIn f) s

/-- FLIT_CRC_ERROR (R305). -/
def execFlitCrcError (l : Fin 12) (flit : BitVec 256) (s : State) : Host.Outcome State Fault Refusal :=
  act (fun s => s.badFlit l flit) s

/-- FLIT_UNLISTED (R300). -/
def execFlitUnlisted (l : Fin 12) (_flit : BitVec 256) (s : State) : Host.Outcome State Fault Refusal :=
  act (fun s => s.unlistedFlit l) s

/-- REPLAY_TIMEOUT (R306). -/
def execReplayTimeout (l : Fin 12) (s : State) : Host.Outcome State Fault Refusal :=
  act (fun s => s.replayDue l) s

/-- LINK_SILENCE_TIMEOUT (R309). -/
def execLinkSilenceTimeout (l : Fin 12) (s : State) : Host.Outcome State Fault Refusal :=
  act (fun s => s.silence l) s

/-- LINK_LANE_LOCK (R297). -/
def execLinkLaneLock (l : Fin 12) (s : State) : Host.Outcome State Fault Refusal :=
  act (fun s => s.laneLock l) s

/-- LINK_TRAIN_TIMEOUT: no lock within 2 ms, TRAIN is retried 10 ms later (link states). -/
def execLinkTrainTimeout (l : Fin 12) (s : State) : Host.Outcome State Fault Refusal :=
  act (fun s => s.modLink l fun k => if k.st == .train then { k with retrain := true } else k) s

/-- LINK_TRAIN_RETRY_DELAY: the 10 ms have passed (link states). -/
def execLinkTrainRetryDelay (l : Fin 12) (s : State) : Host.Outcome State Fault Refusal :=
  act (fun s => s.modLink l fun k => if k.st == .train then { k with retrain := false } else k) s

/-- VOTE_UP_DEADLINE (R332). -/
def execVoteUpDeadline (g : Fin 4) (f : Nat) (s : State) : Host.Outcome State Fault Refusal :=
  act (fun s => s.upDeadline g f) s

/-- REPORT_POINT (R195, R331). -/
def execReportPoint (g : Fin 4) (f : Nat) (s : State) : Host.Outcome State Fault Refusal :=
  act (fun s => s.reportPoint g f) s

/-- SYNC_TIMER (R316). -/
def execSyncTimer (s : State) : Host.Outcome State Fault Refusal :=
  act (fun s => s.syncOut) s

/-- DELAY_REQ_TIMER (R317). -/
def execDelayReqTimer (s : State) : Host.Outcome State Fault Refusal :=
  act (fun s => match s.spire.parent with | some l => s.sendDelayReq l | none => s) s

/-- MASTER_BEAT_TIMER (R325). -/
def execMasterBeatTimer (s : State) : Host.Outcome State Fault Refusal :=
  act (fun s => s.beatOut) s

/-- MASTER_HEARTBEAT_TIMEOUT (R325, R326). -/
def execMasterHeartbeatTimeout (s : State) : Host.Outcome State Fault Refusal :=
  act (fun s => s.heartbeatLost) s

/-- HOLDOVER_TIMEOUT (R319). -/
def execHoldoverTimeout (s : State) : Host.Outcome State Fault Refusal :=
  act (fun s => s.holdover) s

/-- PRESENCE_TIMER (R337). -/
def execPresenceTimer (s : State) : Host.Outcome State Fault Refusal :=
  act (fun s => s.presenceOut) s

/-- PRESENCE_TIMEOUT (R337). -/
def execPresenceTimeout (id : BitVec 14) (s : State) : Host.Outcome State Fault Refusal :=
  act (fun s => s.presenceLost id.toNat) s

/-- STREAM_ALIVE_TIMER (R338). -/
def execStreamAliveTimer (s : State) : Host.Outcome State Fault Refusal :=
  act (fun s => s.aliveOut) s

/-- IMPORT_LOST_TIMEOUT (R342). -/
def execImportLostTimeout (slot : Fin 256) (s : State) : Host.Outcome State Fault Refusal :=
  act (fun s => s.importLost slot) s

/-- TIME_IN_EDGE (R322). -/
def execTimeInEdge (t : Nat) (s : State) : Host.Outcome State Fault Refusal :=
  act (fun s => s.timeIn t) s

/-- TIME_IN_LOSS_TIMEOUT (R322). -/
def execTimeInLossTimeout (s : State) : Host.Outcome State Fault Refusal :=
  act (fun s => s.timeInLoss) s

/-- BUDGET_PERIOD_START (R344). -/
def execBudgetPeriodStart (k : Nat) (s : State) : Host.Outcome State Fault Refusal :=
  act (fun s => s.periodStart k) s

end Sys2Proof.Machine
end

