-- ==== Sys2Proof/Machine/Dispatch.lean ====
section
/-!
DEFINITION. The dispatch: every command of the table to its meaning.
-/
namespace Sys2Proof.Machine

/-- The effect of one command on everything but the queue. -/
def exec (i : Instr) (s : State) : Host.Outcome State Fault Refusal :=
  match i with
  | .nop d => Sys2Proof.Machine.execNop d s
  | .reservedOpcode op d => Sys2Proof.Machine.execReservedOpcode op d s
  | .layerSet d => Sys2Proof.Machine.execLayerSet d s
  | .bufAttach d => Sys2Proof.Machine.execBufAttach d s
  | .reaffirm d => Sys2Proof.Machine.execReaffirm d s
  | .commit d => Sys2Proof.Machine.execCommit d s
  | .fenceSignal d => Sys2Proof.Machine.execFenceSignal d s
  | .writeback d => Sys2Proof.Machine.execWriteback d s
  | .writebackStop d => Sys2Proof.Machine.execWritebackStop d s
  | .copy d => Sys2Proof.Machine.execCopy d s
  | .copyFenceTimeout p sq seq => Sys2Proof.Machine.execCopyFenceTimeout p sq seq s
  | .copyTransferEnd p sq seq hostData readError => Sys2Proof.Machine.execCopyTransferEnd p sq seq hostData readError s
  | .check d => Sys2Proof.Machine.execCheck d s
  | .checkJobEnd p sq seq readError => Sys2Proof.Machine.execCheckJobEnd p sq seq readError s
  | .eventArm d => Sys2Proof.Machine.execEventArm d s
  | .hapticPlay d => Sys2Proof.Machine.execHapticPlay d s
  | .hapticStop d => Sys2Proof.Machine.execHapticStop d s
  | .voiceStart d => Sys2Proof.Machine.execVoiceStart d s
  | .voiceStop d => Sys2Proof.Machine.execVoiceStop d s
  | .pcmQueue d => Sys2Proof.Machine.execPcmQueue d s
  | .reflexBind d => Sys2Proof.Machine.execReflexBind d s
  | .reflexUnbind d => Sys2Proof.Machine.execReflexUnbind d s
  | .timestamp d => Sys2Proof.Machine.execTimestamp d s
  | .export_ d => Sys2Proof.Machine.execExport d s
  | .exportStop d => Sys2Proof.Machine.execExportStop d s
  | .viewportQuery d => Sys2Proof.Machine.execViewportQuery d s
  | .viewportMap d => Sys2Proof.Machine.execViewportMap d s
  | .viewportUnmap d => Sys2Proof.Machine.execViewportUnmap d s
  | .grantSlot d => Sys2Proof.Machine.execGrantSlot d s
  | .releaseSlot d => Sys2Proof.Machine.execReleaseSlot d s
  | .grantGranules d => Sys2Proof.Machine.execGrantGranules d s
  | .releaseGranules d => Sys2Proof.Machine.execReleaseGranules d s
  | .addExtent d => Sys2Proof.Machine.execAddExtent d s
  | .releaseExtent d => Sys2Proof.Machine.execReleaseExtent d s
  | .extentZeroBlock => Sys2Proof.Machine.execExtentZeroBlock s
  | .budgetSet d => Sys2Proof.Machine.execBudgetSet d s
  | .outputMode d => Sys2Proof.Machine.execOutputMode d s
  | .outputModeComplete o => Sys2Proof.Machine.execOutputModeComplete o s
  | .outputDisable d => Sys2Proof.Machine.execOutputDisable d s
  | .gateIdle isl => Sys2Proof.Machine.execGateIdle isl s
  | .gateTimeout isl => Sys2Proof.Machine.execGateTimeout isl s
  | .wallParams d => Sys2Proof.Machine.execWallParams d s
  | .groupDefine d => Sys2Proof.Machine.execGroupDefine d s
  | .groupDelete d => Sys2Proof.Machine.execGroupDelete d s
  | .descriptorFetch p q n => Sys2Proof.Machine.execDescriptorFetch p q n s
  | .fetchDataArrival p q tag entries => Sys2Proof.Machine.execFetchDataArrival p q tag entries s
  | .fetchTimeout p q => Sys2Proof.Machine.execFetchTimeout p q s
  | .fetchError p q => Sys2Proof.Machine.execFetchError p q s
  | .sqDoorbell p q tail => Sys2Proof.Machine.execSqDoorbell p q tail s
  | .cqDoorbell p head => Sys2Proof.Machine.execCqDoorbell p head s
  | .eqDoorbell p head => Sys2Proof.Machine.execEqDoorbell p head s
  | .sqEnable p q v => Sys2Proof.Machine.execSqEnable p q v s
  | .sqDisable p q v => Sys2Proof.Machine.execSqDisable p q v s
  | .sqDrainDone p q => Sys2Proof.Machine.execSqDrainDone p q s
  | .cqEnableWrite p v => Sys2Proof.Machine.execCqEnableWrite p v s
  | .eqEnableWrite p v => Sys2Proof.Machine.execEqEnableWrite p v s
  | .moderationTimeout p eq => Sys2Proof.Machine.execModerationTimeout p eq s
  | .msixUnmask p vec => Sys2Proof.Machine.execMsixUnmask p vec s
  | .configRequest p c => Sys2Proof.Machine.execConfigRequest p c s
  | .flr p => Sys2Proof.Machine.execFlr p s
  | .d3hotToD0 p => Sys2Proof.Machine.execD3hotToD0 p s
  | .vfEnableClear port => Sys2Proof.Machine.execVfEnableClear port s
  | .vfEnableSet port numVfs => Sys2Proof.Machine.execVfEnableSet port numVfs s
  | .hotReset port => Sys2Proof.Machine.execHotReset port s
  | .pcieLinkDown port => Sys2Proof.Machine.execPcieLinkDown port s
  | .hpPerst port => Sys2Proof.Machine.execHpPerst port s
  | .bar2Write p off data => Sys2Proof.Machine.execBar2Write p off data s
  | .bar2Read p off len => Sys2Proof.Machine.execBar2Read p off len s
  | .registerWrite src p off size v => Sys2Proof.Machine.execRegisterWrite src p off size v s
  | .readClear src p off size => Sys2Proof.Machine.execReadClear src p off size s
  | .multiwordLowRead src p off => Sys2Proof.Machine.execMultiwordLowRead src p off s
  | .fenceLoWrite p c v => Sys2Proof.Machine.execFenceLoWrite p c v s
  | .fenceHiWrite p c v => Sys2Proof.Machine.execFenceHiWrite p c v s
  | .mbxSend p v => Sys2Proof.Machine.execMbxSend p v s
  | .mbxAck p v => Sys2Proof.Machine.execMbxAck p v s
  | .mailboxTimeout p slot => Sys2Proof.Machine.execMailboxTimeout p slot s
  | .timeSetHi v => Sys2Proof.Machine.execTimeSetHi v s
  | .timeSetLo v => Sys2Proof.Machine.execTimeSetLo v s
  | .warmResetKey v => Sys2Proof.Machine.execWarmResetKey v s
  | .standbyRequest => Sys2Proof.Machine.execStandbyRequest s
  | .runRequest => Sys2Proof.Machine.execRunRequest s
  | .resume o => Sys2Proof.Machine.execResume o s
  | .edidStart o block => Sys2Proof.Machine.execEdidStart o block s
  | .edidReadDone o result => Sys2Proof.Machine.execEdidReadDone o result s
  | .linkEnableWrite l en => Sys2Proof.Machine.execLinkEnableWrite l en s
  | .linkRetry l => Sys2Proof.Machine.execLinkRetry l s
  | .slGateRequest l => Sys2Proof.Machine.execSlGateRequest l s
  | .slGateRelease l => Sys2Proof.Machine.execSlGateRelease l s
  | .marchStart v => Sys2Proof.Machine.execMarchStart v s
  | .marchRunDone fails => Sys2Proof.Machine.execMarchRunDone fails s
  | .recapture c => Sys2Proof.Machine.execRecapture c s
  | .wdtKick v => Sys2Proof.Machine.execWdtKick v s
  | .wmModeExit => Sys2Proof.Machine.execWmModeExit s
  | .logTailWrite v => Sys2Proof.Machine.execLogTailWrite v s
  | .keepApertureWrite off v => Sys2Proof.Machine.execKeepApertureWrite off v s
  | .sbPointerWrite a v => Sys2Proof.Machine.execSbPointerWrite a v s
  | .sbRead a => Sys2Proof.Machine.execSbRead a s
  | .jtagBypass => Sys2Proof.Machine.execJtagBypass s
  | .jtagIdcode => Sys2Proof.Machine.execJtagIdcode s
  | .jtagSamplePreload load => Sys2Proof.Machine.execJtagSamplePreload load s
  | .jtagExtest => Sys2Proof.Machine.execJtagExtest s
  | .jtagMemAccess a => Sys2Proof.Machine.execJtagMemAccess a s
  | .jtagDomeDebug a => Sys2Proof.Machine.execJtagDomeDebug a s
  | .info p slot => Sys2Proof.Machine.execInfo p slot s
  | .marchRequest p slot => Sys2Proof.Machine.execMarchRequest p slot s
  | .installFirmware p slot => Sys2Proof.Machine.execInstallFirmware p slot s
  | .installPolicy p slot => Sys2Proof.Machine.execInstallPolicy p slot s
  | .installTopology p slot => Sys2Proof.Machine.execInstallTopology p slot s
  | .installSafeFrame p slot => Sys2Proof.Machine.execInstallSafeFrame p slot s
  | .challenge p slot => Sys2Proof.Machine.execChallenge p slot s
  | .lifecycle p slot stuck => Sys2Proof.Machine.execLifecycle p slot stuck s
  | .belvUpdate p slot => Sys2Proof.Machine.execBelvUpdate p slot s
  | .belvUpdateReady o => Sys2Proof.Machine.execBelvUpdateReady o s
  | .belvReaffirm p slot => Sys2Proof.Machine.execBelvReaffirm p slot s
  | .belvResume p slot => Sys2Proof.Machine.execBelvResume p slot s
  | .safeSet p slot => Sys2Proof.Machine.execSafeSet p slot s
  | .safeRelease p slot => Sys2Proof.Machine.execSafeRelease p slot s
  | .forceLowSet p slot => Sys2Proof.Machine.execForceLowSet p slot s
  | .forceLowClear p slot => Sys2Proof.Machine.execForceLowClear p slot s
  | .safeSend p slot => Sys2Proof.Machine.execSafeSend p slot s
  | .blockTake p slot => Sys2Proof.Machine.execBlockTake p slot s
  | .blockRelease p slot => Sys2Proof.Machine.execBlockRelease p slot s
  | .handoverQuiesceDone b => Sys2Proof.Machine.execHandoverQuiesceDone b s
  | .handoverQuiesceTimeout b => Sys2Proof.Machine.execHandoverQuiesceTimeout b s
  | .heldConsole p slot => Sys2Proof.Machine.execHeldConsole p slot s
  | .mbxBadType p slot => Sys2Proof.Machine.execMbxBadType p slot s
  | .domeWatchdogExpiry => Sys2Proof.Machine.execDomeWatchdogExpiry s
  | .tamper => Sys2Proof.Machine.execTamper s
  | .proofCompare o => Sys2Proof.Machine.execProofCompare o s
  | .frameStart o f err => Sys2Proof.Machine.execFrameStart o f err s
  | .lineMatch o line => Sys2Proof.Machine.execLineMatch o line s
  | .freshnessCheck o f slot => Sys2Proof.Machine.execFreshnessCheck o f slot s
  | .commitCutoff o f => Sys2Proof.Machine.execCommitCutoff o f s
  | .latch o f => Sys2Proof.Machine.execLatch o f s
  | .frameEnd o f => Sys2Proof.Machine.execFrameEnd o f s
  | .reportPoint g f => Sys2Proof.Machine.execReportPoint g f s
  | .underrun o line => Sys2Proof.Machine.execUnderrun o line s
  | .captureRequestDrop o p v line => Sys2Proof.Machine.execCaptureRequestDrop o p v line s
  | .safeFrameLineRead o line => Sys2Proof.Machine.execSafeFrameLineRead o line s
  | .hpdIrq o status => Sys2Proof.Machine.execHpdIrq o status s
  | .hpdUnplug o => Sys2Proof.Machine.execHpdUnplug o s
  | .hpdPlug o => Sys2Proof.Machine.execHpdPlug o s
  | .auxTimeout o x => Sys2Proof.Machine.execAuxTimeout o x s
  | .linkTrainingComplete o r => Sys2Proof.Machine.execLinkTrainingComplete o r s
  | .trainRetryTimer o => Sys2Proof.Machine.execTrainRetryTimer o s
  | .sync l flit arr => Sys2Proof.Machine.execSync l flit arr s
  | .delayReq l flit => Sys2Proof.Machine.execDelayReq l flit s
  | .delayResp l flit => Sys2Proof.Machine.execDelayResp l flit s
  | .report l flit => Sys2Proof.Machine.execReport l flit s
  | .voteUpDeadline g f => Sys2Proof.Machine.execVoteUpDeadline g f s
  | .decide l flit => Sys2Proof.Machine.execDecide l flit s
  | .adopt l flit => Sys2Proof.Machine.execAdopt l flit s
  | .master l flit => Sys2Proof.Machine.execMaster l flit s
  | .alarm l flit => Sys2Proof.Machine.execAlarm l flit s
  | .idle l flit => Sys2Proof.Machine.execIdle l flit s
  | .ident l flit => Sys2Proof.Machine.execIdent l flit s
  | .presence l flit => Sys2Proof.Machine.execPresence l flit s
  | .streamAlive l flit => Sys2Proof.Machine.execStreamAlive l flit s
  | .streamNak l flit => Sys2Proof.Machine.execStreamNak l flit s
  | .streamTsUpdate l flit => Sys2Proof.Machine.execStreamTsUpdate l flit s
  | .credit l flit => Sys2Proof.Machine.execCredit l flit s
  | .xferBegin l flit => Sys2Proof.Machine.execXferBegin l flit s
  | .dataHead l flit => Sys2Proof.Machine.execDataHead l flit s
  | .data l flit => Sys2Proof.Machine.execData l flit s
  | .xferEnd l flit => Sys2Proof.Machine.execXferEnd l flit s
  | .flitCrcError l flit => Sys2Proof.Machine.execFlitCrcError l flit s
  | .flitUnlisted l flit => Sys2Proof.Machine.execFlitUnlisted l flit s
  | .replayTimeout l => Sys2Proof.Machine.execReplayTimeout l s
  | .linkSilenceTimeout l => Sys2Proof.Machine.execLinkSilenceTimeout l s
  | .linkLaneLock l => Sys2Proof.Machine.execLinkLaneLock l s
  | .linkTrainTimeout l => Sys2Proof.Machine.execLinkTrainTimeout l s
  | .syncTimer => Sys2Proof.Machine.execSyncTimer s
  | .delayReqTimer => Sys2Proof.Machine.execDelayReqTimer s
  | .masterBeatTimer => Sys2Proof.Machine.execMasterBeatTimer s
  | .masterHeartbeatTimeout => Sys2Proof.Machine.execMasterHeartbeatTimeout s
  | .holdoverTimeout => Sys2Proof.Machine.execHoldoverTimeout s
  | .presenceTimer => Sys2Proof.Machine.execPresenceTimer s
  | .presenceTimeout id => Sys2Proof.Machine.execPresenceTimeout id s
  | .streamAliveTimer => Sys2Proof.Machine.execStreamAliveTimer s
  | .importLostTimeout slot => Sys2Proof.Machine.execImportLostTimeout slot s
  | .timeInEdge t => Sys2Proof.Machine.execTimeInEdge t s
  | .timeInLossTimeout => Sys2Proof.Machine.execTimeInLossTimeout s
  | .budgetPeriodStart k => Sys2Proof.Machine.execBudgetPeriodStart k s
  | .dramRead r ecc => Sys2Proof.Machine.execDramRead r ecc s
  | .dramWrite r data same => Sys2Proof.Machine.execDramWrite r data same s
  | .refreshTick c => Sys2Proof.Machine.execRefreshTick c s
  | .rtBurstEnd c => Sys2Proof.Machine.execRtBurstEnd c s
  | .mr4Read c rate => Sys2Proof.Machine.execMr4Read c rate s
  | .dqRetrain c drift => Sys2Proof.Machine.execDqRetrain c drift s
  | .rowIdleClose c bank => Sys2Proof.Machine.execRowIdleClose c bank s
  | .scrubRead c ecc => Sys2Proof.Machine.execScrubRead c ecc s
  | .sramAccess l => Sys2Proof.Machine.execSramAccess l s
  | .xinStable => Sys2Proof.Machine.execXinStable s
  | .xinLost => Sys2Proof.Machine.execXinLost s
  | .monitorWindow count refs => Sys2Proof.Machine.execMonitorWindow count refs s
  | .refclkLost port => Sys2Proof.Machine.execRefclkLost port s
  | .pllReferenceLost n => Sys2Proof.Machine.execPllReferenceLost n s
  | .pllRelock n => Sys2Proof.Machine.execPllRelock n s
  | .rcoStopped => Sys2Proof.Machine.execRcoStopped s
  | .switchForceTimeout isl => Sys2Proof.Machine.execSwitchForceTimeout isl s
  | .autoGate isl => Sys2Proof.Machine.execAutoGate isl s
  | .powerOnReset => Sys2Proof.Machine.execPowerOnReset s
  | .porstRelease => Sys2Proof.Machine.execPorstRelease s
  | .wrstPin => Sys2Proof.Machine.execWrstPin s
  | .railDrop r => Sys2Proof.Machine.execRailDrop r s
  | .railPowerGood => Sys2Proof.Machine.execRailPowerGood s
  | .boot e => Sys2Proof.Machine.execBoot e s
  | .bootXinTimeout => Sys2Proof.Machine.execBootXinTimeout s
  | .thermalSample tj => Sys2Proof.Machine.execThermalSample tj s
  | .capacitiveScan => Sys2Proof.Machine.execCapacitiveScan s
  | .scanComplete raw => Sys2Proof.Machine.execScanComplete raw s
  | .ladderStep => Sys2Proof.Machine.execLadderStep s
  | .hapticHalfCycle h b => Sys2Proof.Machine.execHapticHalfCycle h b s
  | .trigEdge t falling => Sys2Proof.Machine.execTrigEdge t falling s
  | .sampleFrame => Sys2Proof.Machine.execSampleFrame s
  | .voiceDurationEnd v => Sys2Proof.Machine.execVoiceDurationEnd v s
  | .unlistedSubop op d => Sys2Proof.Machine.execUnlistedSubop op d s
  | .pcieLinkUp port => Sys2Proof.Machine.execPcieLinkUp port s
  | .linkTrainRetryDelay l => Sys2Proof.Machine.execLinkTrainRetryDelay l s
  | .retrainRefabDue c => Sys2Proof.Machine.execRetrainRefabDue c s

end Sys2Proof.Machine
end

