-- ==== Sys2Proof/Machine/Tick.lean ====
section
/-!
DEFINITION. What one AON cycle does when no command waits (log 3): Spire time, the regulators, the DMCs' own work, BAR2 writes that wait, idle links.
-/
namespace Sys2Proof.Machine
open Sys2Proof

/-- One AON cycle of the Spire time counter (R36, R318, R319, R554), which lasts 10 ns, or 20 ns with AON on XIN (`n` = 2, R547): with the slew
still owed; at the rate of the last correction in holdover; 20 × C_T / 65,536 ns from RCO. -/
def Spire.cycle (t : Spire) (onRco : Bool) (n track : Nat) : Spire :=
  let most : Int := n * slewMax
  let d : Int := if onRco then 0 else if t.holdover then n * t.rate else max (-most) (min most t.slew)
  let base : Nat := if onRco then 20 * track else n * 10 * 2 ^ 24
  let f : Nat := ((t.frac : Int) + base + d).toNat
  { t with
    now := t.now + w64 (f / 2 ^ 24), frac := f % 2 ^ 24
    slew := if onRco || t.holdover then t.slew else t.slew - d }

/-- C_T in 1/256 count: as the monitor tracks it (R545); where it has formed none yet, the count is free (log 55). -/
def Clk.track (c : Clk) : Nat := if c.monTrack = 0 then Config.rcoTrack.toNat else c.monTrack

/-- The Spire time counter runs while AON has a clock and is out of its reset (R321, R579). -/
def State.timeCycle (s : State) : State :=
  if s.pwr.reset == .powerOn || s.pwr.reset == .dead || !s.pwr.railGood.getLsbD 0 then s
  else { s with spire := s.spire.cycle s.clk.onRco (if s.clk.aonOnXin && !s.clk.onRco then 2 else 1) s.clk.track }

/-- One piece of work of a DMC: a step of its entry into self-refresh, a refresh due at once (R389), else a request (R380). -/
def State.dmcWork (s : State) (c : Fin 8) : State :=
  if s.pwr.entering then s.enterWork c
  else if !s.dmcLive c then s
  else s.dmcStep c

/-- One AON cycle, and one of the Keep controller; a link that carries flits sends one IDLE flit in it where nothing else goes (R309, log 3). -/
def State.tick (s : State) : State :=
  let t := s.timeCycle.keepWork
  if t.pwr.reset != .running then t
  else
    let t := { t.refill (t.now.toNat - s.now.toNat) with arrived := [] }.periodGo
    let t := ((idx 8).foldl (fun s c => s.dmcWork c) t).standbyReady.exportsGo
    (idx 12).foldl State.linkIdle t

/-- The step on an empty queue. -/
def idle (s : State) : Host.Outcome State Fault Refusal := actAon (fun s => s.tick) s

end Sys2Proof.Machine
end

