-- ==== Sys2Proof/Safety.lean ====
section
/-!
DEFINITION. What the statements mean by a good state, and the conditions under which a command is followed by nothing but its own effect.
-/
namespace Sys2Proof.Machine
open Sys2Proof

/-- The invariant of the machine: every memory is in canonical form, and no store of a finished command is left over. -/
def State.Inv (s : State) : Prop := s.img.wf = true ∧ s.stores = []

/-- Every COPY and CHECK that runs waits for the end of its transfer alone: its fence is behind it and its bytes are still to come. -/
def State.jobsIdle (s : State) : Bool := s.jobs.all fun j => !j.waiting && j.fin.isNone

/-- Nothing waits to follow a command's effect: no wipe (R441) and no restart of the Dome runs, no ALARM of the Dome waits and no policy
entry makes one from an event (R458), nothing waits for the regulators' tokens (R366, R368), no descriptor waits to begin, no transfer that has
ended still moves its bytes, no composer met an error in the frame it scans (R234), and the boot is not at the stage that ends with
WALL_OK (R586). -/
def State.calm (s : State) : Bool :=
  !s.keep.wiping && s.dome.st != .restart && !s.dome.haltSend && s.dome.alarms.isEmpty && s.dome.policy.safeOut.isEmpty && s.entry.isEmpty
    && (s.ports.toList.all fun t => t.posted.isEmpty) && s.quiet && s.jobsIdle && (s.comps.toList.all fun c => c.faults.isEmpty)
    && s.pwr.stage != 10

/-- The device runs and nothing waits to follow a command's effect. -/
def State.Steady (s : State) : Prop := s.pwr.reset = .running ∧ s.calm = true

/-- A state that a finished command left, in which the device runs and nothing waits. -/
def State.Good (s : State) : Prop := s.Inv ∧ s.Steady

/-- The commands that act while the device is held in reset: pins, rails, the AON clock and temperature sensors, JTAG, the sideband, the boot. -/
def aonCommand : Instr → Bool
  | .powerOnReset | .porstRelease | .wrstPin | .railDrop _ | .railPowerGood | .rcoStopped | .thermalSample _ | .tamper | .xinStable | .xinLost
  | .monitorWindow _ _ | .boot _ | .bootXinTimeout | .sbPointerWrite _ _ | .sbRead _ | .jtagBypass | .jtagIdcode | .jtagSamplePreload _
  | .jtagExtest | .jtagMemAccess _ | .jtagDomeDebug _ => true
  | _ => false

/-- The commands of a PCIe port that act while a warm reset lasts (R585): configuration requests and resets of functions, VF Enable, the link. -/
def portCommand : Instr → Bool
  | .configRequest _ _ | .flr _ | .d3hotToD0 _ | .vfEnableSet _ _ | .vfEnableClear _ | .pcieLinkUp _ => true
  | _ => false

/-- The HOST island of Pavilion `p`'s port has its clock; where it is gated, a request first wakes it (R27) and nothing else changes. -/
def State.HostRuns (s : State) (p : Fin 64) : Prop := s.clk.run.getLsbD (islHost (portOf p).val) = true

/-- A memory request of a host reaches the registers and the BAR2 window of Pavilion `p` (R44, R45, R88): its port is enabled and linked, the
Pavilion is present, ready and in D0, and Memory Space Enable is set; the HOST island runs. -/
def State.HostTo (s : State) (p : Fin 64) : Prop :=
  s.reach p = true ∧ (s.pavs[p.val]).present = true ∧ (s.pavs[p.val]).ready = true ∧ (s.pavs[p.val]).mse = true ∧ (s.pavs[p.val]).fn.d3 = false
    ∧ s.HostRuns p

/-- A configuration request reaches Pavilion `p` and is answered (R42, R45, R88); the HOST island runs. -/
def State.ConfigTo (s : State) (p : Fin 64) : Prop :=
  s.reach p = true ∧ (s.pavs[p.val]).present = true ∧ (s.pavs[p.val]).ready = true ∧ s.HostRuns p

/-- A descriptor as it begins: counted among its ring's live descriptors, its Pavilion's turn taken (R370) and one execution charged (R346). -/
def State.started (s : State) (d : Desc) : State := (s.modSq d.pav d.sq fun q => { q with live := q.live + 1 }).takeTurn d.pav

/-- A descriptor of opcode `op` that arrives begins at once: its Pavilion is present and out of reset, has quota left (R347), no BARRIER
holds the descriptor and no job holds its channel's context (R495). -/
def State.BeginsAtOnce (s : State) (op : BitVec 8) (d : Desc) : Prop :=
  s.Good ∧ (s.pavs[d.pav.val]).present = true ∧ (s.pavs[d.pav.val]).ready = true ∧ quotaUp s.pavs[d.pav.val] 0 = false
    ∧ (d.flags.getLsbD 7 = false ∨ ((s.pavs[d.pav.val]).sqs[d.sq.val]).live = 0) ∧ s.contextHolds { op, d } = false

/-- A descriptor begins at once and passes steps 1 to 4 of R99. -/
def State.Accepts (s : State) (op : BitVec 8) (d : Desc) : Prop :=
  s.BeginsAtOnce op d ∧ (s.started d).commonChecks op.toNat d = none

/-- The state a boot reaches once its memories are clear and tested, where it looks for the firmware (R584, steps 1 to 4). -/
def State.cleared (s : State) (e : BootEnv) : State := (s.bootFlags.finishWipe.bootClocks e).bootMemory (s.pwr.reset == .warm) e.march

/-- A mailbox slot holds a request the Dome has yet to take, and the Dome runs (R452, R453). -/
def State.Asked (s : State) (p : Fin 64) (i : Fin 2) (m : BitVec 2048) : Prop :=
  ((s.pavs[p.val]).mbox[i.val]).busy = true ∧ ((s.pavs[p.val]).mbox[i.val]).taken = false ∧ ((s.pavs[p.val]).mbox[i.val]).inp = m ∧ s.dome.st = .run
    ∧ s.inRecovery = false

/-- A flit heard on a link: counted, its ACK and NAK taken (R304, R306). -/
def State.heard (s : State) (l : Fin 12) (f : BitVec 256) : State := ((s.arrive (.flit l)).modLink l fun k => { k with rx := k.rx + 1 }).ackIn l f

/-- A sequenced flit of a class accepted in order: the next SEQ is expected, and its credit is returned (R302, R305). -/
def State.inOrder (s : State) (l : Fin 12) (cls : Nat) : State :=
  (s.modLink l fun k => { k with seqRx := k.seqRx + 1, rxAny := true, nakSent := false }).giveCredit l cls

/-- The state in which a descriptor that begins at once leaves the machine: counted and charged, its effect, its stores in memory. -/
def State.doing (s : State) (d : Desc) (f : State → State) : State := s.run fun s => f (s.started d)

/-- A descriptor that completes with ST_OK and a RESULT (R76, R111). -/
def State.ok (s : State) (op : BitVec 8) (d : Desc) (result : Nat) : State :=
  s.completeOk d.pav d.sq d.seq op false false false result

/-- A descriptor refused with a status and the byte of the field that failed (R100, R101). -/
def State.bad (s : State) (op : BitVec 8) (d : Desc) (status field : Nat) : State :=
  s.complete d.pav d.sq d.seq op status false false false field 0

end Sys2Proof.Machine
end

