-- ==== Sys2Proof/Certificates/Slice0/Obligations.lean ====
section
/-!
DEFINITION. The statements for the provers. A value or a behaviour that the model chose where the spec leaves it open is named in NOTES.md,
"Assumptions"; where a statement rests on one, its docstring says so.
-/
open Sys2Proof Sys2Proof.Machine

/-- One step runs the command at the front of the queue on the state with the rest of the queue. The queue and the idle cycle are the model's
choice (log 1, log 3). -/
def Obligations.StepRunsFrontCommand : Prop :=
  ∀ (s : State) (c : Instr) (rest : List Instr), (s.pending = c :: rest → step s = exec c { s with pending := rest }) ∧ (s.pending = [] → step s = idle s)

/-- Every step, a command's or an idle one, keeps every memory in canonical form and leaves no store behind. The canonical form of the
memories is the model's (log 7). -/
def Obligations.StepKeepsInvariant : Prop := ∀ s t : State, s.Inv → step s = .next t → t.Inv

/-- The state after reset satisfies the invariant and nothing waits in it. The values after reset that the spec gives: Spire time 0 (R321),
watermark mode with the Dome running its ROM (R465), the ports and functions not yet enabled (R42), every output off, every Spire link
off, the share register's reset value, and voice 15 held by the Dome. That the machine starts with the pins released and voice 15 held is
the model's reading (log 4, log 5). -/
def Obligations.ResetState : Prop :=
  (State.reset.Good ∧ State.reset.pending = [])
  ∧ (let s := State.reset
    s.pwr.reset = .running ∧ s.spire.now = 0 ∧ s.spire.frac = 0 ∧ s.dome.wmMode = true ∧ s.dome.st = .boot ∧ s.pwr.booted = false
      ∧ (∀ n : Fin 4, (s.ports[n.val]).enabled = false) ∧ (∀ p : Fin 64, (s.pavs[p.val]).ready = false ∧ (s.pavs[p.val]).exts = [] ∧ ((s.pavs[p.val]).sqs[0]).st = .disabled)
      ∧ (∀ o : Fin 8, (s.outs[o.val]).enabled = false ∧ (s.outs[o.val]).pvalid = false) ∧ (∀ l : Fin 12, (s.spire.links[l.val]).st = .off ∧ (s.spire.links[l.val]).share = 0x04000080)
      ∧ (∀ k : Fin 256, (s.slots[k.val]).cur = none) ∧ s.groups = [] ∧ s.evt.head = 0 ∧ s.evt.tail = 0 ∧ s.isHeld 0x4F = true ∧ s.isHeld 0x00 = false)

/-- Every command answers a next state from every state; it leaves the queue as it finds it, and what it did to the memories is exactly the
list of its stores. While the device is held in reset, every command outside the AON domain leaves the state as it is, but for those of a PCIe
port while a warm reset lasts (R585). That a command sent to a device in reset has no effect is the model's reading (log 32). -/
def Obligations.EveryCommandAnswers : Prop :=
  (∀ (c : Instr) (s : State), ∃ (t : State) (l : List Store),
      exec c s = .next t ∧ t.pending = s.pending ∧ t.stores = [] ∧ t.img = s.img.applyAll l)
  ∧ (∀ (c : Instr) (s : State), s.Inv → s.pwr.reset ≠ .running → aonCommand c = false → (s.pwr.reset = .warm → portCommand c = false) →
      exec c s = .next s)

/-- SQ_DOORBELL: a tail at most N entries past HEAD is taken, in any state of the ring; any other is discarded, and ERR, ERR_FLAG and the
error interrupt report it. Nothing else changes. -/
def Obligations.SqDoorbellTakesTail : Prop :=
  ∀ (s : State) (p : Fin 64) (q : Fin 8) (tail : BitVec 16), s.Good → s.HostTo p →
    exec (.sqDoorbell p q tail) s =
      if gap ((s.pavs[p.val]).sqs[q.val]).head tail ≤ 2 ^ ((s.pavs[p.val]).sqs[q.val]).size then .next (s.modSq p q fun r => { r with tail := tail })
      else .next ((s.modSq p q fun r => { r with err := 4, errFlag := true }).msi p (bits (s.pavs[p.val]).errVector.toNat 4 0))

/-- SQ_ENABLE, SQ_DISABLE and SQ_DRAIN_DONE: the states of a submission ring. -/
def Obligations.SubmissionRingStates : Prop :=
  ∀ (s : State) (p : Fin 64) (q : Fin 8) (v : Word), s.Good →
    -- a write of ENABLE = 1 to a DISABLED ring with a good size and base takes SIZE and WEIGHT and starts it
    (s.HostTo p → ((s.pavs[p.val]).sqs[q.val]).st = .disabled → ringOk (bits v.toNat 8 4) ((s.pavs[p.val]).sqs[q.val]).base 64 = true →
      exec (.sqEnable p q v) s = .next (s.modSq p q fun r => { r with size := bits v.toNat 8 4, weight := bits v.toNat 14 12, st := .running }))
    -- with a bad one it reports BAD_CONFIG and stays DISABLED
    ∧ (s.HostTo p → ((s.pavs[p.val]).sqs[q.val]).st = .disabled → ringOk (bits v.toNat 8 4) ((s.pavs[p.val]).sqs[q.val]).base 64 = false →
      exec (.sqEnable p q v) s = .next ((s.modSq p q fun r =>
        { r with size := bits v.toNat 8 4, weight := bits v.toNat 14 12, err := 1, errFlag := true }).msi p (bits (s.pavs[p.val]).errVector.toNat 4 0)))
    -- a DRAINING ring keeps a write of ENABLE = 1
    ∧ (s.HostTo p → ((s.pavs[p.val]).sqs[q.val]).st = .draining →
      exec (.sqEnable p q v) s = .next (s.modSq p q fun r => { r with keep := true }))
    -- ENABLE = 0 makes a RUNNING or STOPPED ring drain
    ∧ (s.HostTo p → ((s.pavs[p.val]).sqs[q.val]).st = .running ∨ ((s.pavs[p.val]).sqs[q.val]).st = .stopped →
      exec (.sqDisable p q v) s = .next (s.modSq p q fun r => { r with st := .draining, keep := false }))
    -- drained, with no enable kept, it is DISABLED
    ∧ (((s.pavs[p.val]).sqs[q.val]).st = .draining → ((s.pavs[p.val]).sqs[q.val]).fetch = [] → ((s.pavs[p.val]).sqs[q.val]).live = 0 →
      ((s.pavs[p.val]).sqs[q.val]).keep = false →
      exec (.sqDrainDone p q) s = .next (s.modSq p q fun r => { r with st := .disabled }))
    -- with one kept, and a good size and base, it runs again
    ∧ (((s.pavs[p.val]).sqs[q.val]).st = .draining → ((s.pavs[p.val]).sqs[q.val]).fetch = [] → ((s.pavs[p.val]).sqs[q.val]).live = 0 →
      ((s.pavs[p.val]).sqs[q.val]).keep = true → ringOk ((s.pavs[p.val]).sqs[q.val]).size ((s.pavs[p.val]).sqs[q.val]).base 64 = true →
      exec (.sqDrainDone p q) s = .next (s.modSq p q fun r => { r with st := .running, keep := false }))

/-- CQ_ENABLE_WRITE, EQ_ENABLE_WRITE, CQ_DOORBELL and EQ_DOORBELL on rings that hold no record back and owe no EV_LOG_LOST. -/
def Obligations.CompletionAndEventRings : Prop :=
  ∀ (s : State) (p : Fin 64), s.Good → s.HostTo p → (s.pavs[p.val]).cq.held = [] → (s.pavs[p.val]).eq.owed = false →
    -- a disabled ring takes SIZE (and the completion ring VECTOR) and is enabled if its size and base are good
    (∀ v : Word, v.getLsbD 0 = true → (s.pavs[p.val]).cq.enable = false →
      exec (.cqEnableWrite p v) s =
        if ringOk (bits v.toNat 8 4) (s.pavs[p.val]).cq.base 16 then
          .next (s.modCq p fun c => { c with vector := bits v.toNat 20 16, size := bits v.toNat 8 4, enable := true, cfgErr := false })
        else .next ((s.modCq p fun c => { c with vector := bits v.toNat 20 16, size := bits v.toNat 8 4, cfgErr := true }).msi p
          (bits (s.pavs[p.val]).errVector.toNat 4 0)))
    ∧ (∀ v : Word, v.getLsbD 0 = true → (s.pavs[p.val]).eq.enable = false →
      exec (.eqEnableWrite p v) s =
        if ringOk (bits v.toNat 8 4) (s.pavs[p.val]).eq.base 32 then
          .next (s.modEq p fun e => { e with size := bits v.toNat 8 4, enable := true, cfgErr := false })
        else .next ((s.modEq p fun e => { e with size := bits v.toNat 8 4, cfgErr := true }).msi p (bits (s.pavs[p.val]).errVector.toNat 4 0)))
    -- a head from the previous head up to the tail is taken, any other sets DB_RANGE
    ∧ (∀ head : BitVec 16, exec (.cqDoorbell p head) s =
        if gap (s.pavs[p.val]).cq.head head ≤ gap (s.pavs[p.val]).cq.head (s.pavs[p.val]).cq.tail then .next (s.modCq p fun c => { c with head := head })
        else .next (s.modCq p fun c => { c with dbRange := true }))
    ∧ (∀ head : BitVec 16, exec (.eqDoorbell p head) s =
        if gap (s.pavs[p.val]).eq.head head ≤ gap (s.pavs[p.val]).eq.head (s.pavs[p.val]).eq.tail then .next (s.modEq p fun e => { e with head := head })
        else .next (s.modEq p fun e => { e with dbRange := true }))

/-- DESCRIPTOR_FETCH, FETCH_TIMEOUT and FETCH_ERROR. A ring whose turn it is asks for the entries it may fetch, in a request with a tag of its own
(R65, R66). Descriptors that arrive: a request's data are taken in ring order, HEAD moves past them, and a descriptor that may begin at once does;
data of a later request wait for the earlier one's; data of no outstanding request are discarded (R73). Several requests may be
outstanding (log 25). -/
def Obligations.FetchedDescriptors : Prop :=
  (∀ (s : State) (p : Fin 64) (q : Fin 8), s.Good →
      let r := (s.pavs[p.val]).sqs[q.val]
      -- a fetch asks for the entries the ring may fetch, those that do not pass the ring's end in one request
      (∀ n : Nat, 0 < fetchable s.pavs[p.val] q n → s.inRecovery = false → s.fetcher (portOf p) = some (p, q) →
        (r.head.toNat + r.asked) % 2 ^ r.size + fetchable s.pavs[p.val] q n ≤ 2 ^ r.size →
        exec (.descriptorFetch p q n) s = .next (((s.modPort (portOf p) fun t => { t with fetchTurn := (p.val % 16 * 8 + q.val + 1) % 128 }).modSq p q
          fun x => { x with fetch := x.fetch ++ [{ tag := x.nextTag, left := fetchable s.pavs[p.val] q n }], nextTag := x.nextTag + 1 }).emit
          (.fetchReq p q r.nextTag (r.base.toNat + (r.head.toNat + r.asked) % 2 ^ r.size * 64) (fetchable s.pavs[p.val] q n))))
      -- a ring whose turn it is not, or with nothing to fetch, asks for nothing
      ∧ (∀ n : Nat, fetchable s.pavs[p.val] q n = 0 ∨ s.fetcher (portOf p) ≠ some (p, q) → exec (.descriptorFetch p q n) s = .next s)
      -- the fetch timer ends every request outstanding: a RUNNING ring stops
      ∧ (r.fetch ≠ [] → r.st = .running →
        exec (.fetchTimeout p q) s = .next ((s.modSq p q fun x => { x with fetch := [], st := .stopped, err := 2, errFlag := true }).msi p
          (bits (s.pavs[p.val]).errVector.toNat 4 0)))
      -- an error does so too, and is logged through AER; a DRAINING ring stays DRAINING
      ∧ (∀ e : FetchErr, r.fetch ≠ [] → r.st = .running →
        exec (.fetchError p ⟨q, e⟩) s = .next (((s.modSq p q fun x => { x with fetch := [], st := .stopped, err := 3, errFlag := true }).msi p
          (bits (s.pavs[p.val]).errVector.toNat 4 0)).logAer p e))
      ∧ (∀ e : FetchErr, r.fetch ≠ [] → r.st = .draining →
        exec (.fetchError p ⟨q, e⟩) s = .next (((s.modSq p q fun x => { x with fetch := [], err := 3, errFlag := true }).msi p
          (bits (s.pavs[p.val]).errVector.toNat 4 0)).logAer p e))
      -- the AER status word of the function then shows the error
      ∧ (∀ e : FetchErr, s.ConfigTo p → r.fetch ≠ [] → ∃ t, exec (.fetchError p ⟨q, e⟩) s = .next t
        ∧ (t.pavs[p.val]).fn.aer.ue.getLsbD (aerBit e) = true))
  ∧ (∀ (s : State) (p : Fin 64) (q : Fin 8), s.Good →
      let r := (s.pavs[p.val]).sqs[q.val]
      (∀ (f : FetchReq) (rest : List FetchReq) (e : BitVec 512), r.fetch = f :: rest → f.got = [] →
        -- an entry of the oldest request, which owes more
        (1 < f.left →
          let u := s.modSq p q fun x => { x with head := x.head + 1, fetch := { f with left := f.left - 1 } :: rest }
          u.BeginsAtOnce (entryOp e) (entryDesc p q e) →
          exec (.fetchDataArrival p q f.tag [e]) s
            = .next (u.run fun u => (u.modSq p q fun x => { x with live := x.live + 1 }).begin1 { op := entryOp e, d := entryDesc p q e }))
        -- the last entry that the ring owes
        ∧ (f.left = 1 → rest = [] →
          let u := s.modSq p q fun x => { x with head := x.head + 1, fetch := [] }
          u.BeginsAtOnce (entryOp e) (entryDesc p q e) →
          exec (.fetchDataArrival p q f.tag [e]) s
            = .next (u.run fun u => (u.modSq p q fun x => { x with live := x.live + 1 }).begin1 { op := entryOp e, d := entryDesc p q e }))
        -- an entry of a later request waits
        ∧ (∀ g : FetchReq, rest = [g] → 0 < f.left → f.tag ≠ g.tag → 0 < g.left →
          exec (.fetchDataArrival p q g.tag [e]) s
            = .next (s.modSq p q fun x => { x with fetch := [f, { g with left := g.left - 1, got := g.got ++ [e] }] })))
      ∧ (∀ tag : Nat, (r.fetch.any fun f => f.tag == tag) = false → ∀ es, exec (.fetchDataArrival p q tag es) s = .next s)
      ∧ (∀ e : BitVec 512, (entryOp e).toNat = bits e.toNat 7 0 ∧ (entryDesc p q e).flags.toNat = bits e.toNat 15 8 ∧ (entryDesc p q e).seq.toNat = bits e.toNat 31 16
        ∧ (entryDesc p q e).handle.toNat = bits e.toNat 63 32))

/-- MSIX_UNMASK and MODERATION_TIMEOUT. MSIX_UNMASK sends the message that the vector's PBA bit keeps. MODERATION_TIMEOUT with a record
unsignalled sends the ring's interrupt and both counts return to zero: of the completion ring one message, of the event ring one on each vector of a
group with an unsignalled record (R84). A message on a masked vector is kept in its PBA bit (R86). -/
def Obligations.Interrupts : Prop :=
  (∀ (s : State) (p : Fin 64), s.Good →
      -- a vector unmasked sends the message its PBA bit keeps
      (∀ vec : Fin 32, s.HostTo p → ((s.pavs[p.val]).msix[vec.val]).pend = true → (s.pavs[p.val]).bme = true →
        exec (.msixUnmask p vec) s = .next ((s.modPav p fun v => { v with msix := upd v.msix vec fun m => { m with masked := false, pend := false } }).emit
          (.msix p vec.val ((s.pavs[p.val]).msix[vec.val]).addr ((s.pavs[p.val]).msix[vec.val]).data)))
      -- with no message pending it only unmasks
      ∧ (∀ vec : Fin 32, s.HostTo p → ((s.pavs[p.val]).msix[vec.val]).pend = false →
        exec (.msixUnmask p vec) s = .next (s.modPav p fun v => { v with msix := upd v.msix vec fun m => { m with masked := false } }))
      -- the moderation timer of the completion ring sends its interrupt and starts both counts again
      ∧ (0 < (s.pavs[p.val]).cq.unsig → (s.pavs[p.val]).cq.timer = true → bits (s.pavs[p.val]).cq.mod.toNat 31 16 ≠ 0 →
        exec (.moderationTimeout p false) s
          = .next ((s.msi p (s.pavs[p.val]).cq.vector).modCq p fun c => { c with unsig := 0, timer := false }))
      -- that of the event ring sends one message on each vector that a group with an unsignalled record has; a timer with nothing
      -- unsignalled, or whose TIME_US is 0, does nothing
      ∧ (0 < (s.pavs[p.val]).eq.unsig → (s.pavs[p.val]).eq.timer = true → bits (s.pavs[p.val]).eq.mod.toNat 31 16 ≠ 0 →
        exec (.moderationTimeout p true) s
          = .next ((((((List.range 8).filter fun g => (s.pavs[p.val]).eq.unsigGroups.getLsbD g).map (eqVec (s.pavs[p.val]).eq)).eraseDups.foldl
            (fun u v => u.msi p v) s)).modEq p fun e => { e with unsig := 0, unsigGroups := 0, timer := false }))
      ∧ ((s.pavs[p.val]).cq.unsig = 0 ∨ bits (s.pavs[p.val]).cq.mod.toNat 31 16 = 0 → exec (.moderationTimeout p false) s = .next s)
      ∧ ((s.pavs[p.val]).eq.unsig = 0 ∨ bits (s.pavs[p.val]).eq.mod.toNat 31 16 = 0 → exec (.moderationTimeout p true) s = .next s))
  ∧ (∀ (s : State) (p : Fin 64) (vec : Fin 32), s.msi p vec.val =
        if ((s.pavs[p.val]).msix[vec.val]).masked || !s.msixOn p then s.modPav p fun v => { v with msix := upd v.msix vec fun m => { m with pend := true } }
        else s.emit (.msix p vec.val ((s.pavs[p.val]).msix[vec.val]).addr ((s.pavs[p.val]).msix[vec.val]).data))

/-- FENCE_HI_WRITE only stages a high word; FENCE_LO_WRITE applies the value of the staged high word and the written low word, unless it is
below the cell's value: then it is discarded and counted. Either way the staged high word becomes the cell's current one. Nothing else
changes, but the number by which the port orders its posted operations. -/
def Obligations.FenceRegisterWrites : Prop :=
  ∀ (s : State) (p : Fin 64) (c : Fin 256) (v : Word), s.Good → s.HostTo p →
    exec (.fenceHiWrite p c v) s = .next (s.modPav p fun q => { q with fenceHi := upd q.fenceHi c fun _ => v })
    ∧ (((s.pavs[p.val]).fences[c.val]).toNat ≤ ((s.pavs[p.val]).fenceHi[c.val]).toNat * 2 ^ 32 + v.toNat →
      exec (.fenceLoWrite p c v) s = .next ((s.modPort (portOf p) fun t => { t with opNo := t.opNo + 1 }).modPav p fun q =>
        { q with fences := upd q.fences c fun _ => ((s.pavs[p.val]).fenceHi[c.val]) ++ v
                 fenceHi := upd q.fenceHi c fun _ => ((s.pavs[p.val]).fenceHi[c.val]) }))
    ∧ (((s.pavs[p.val]).fenceHi[c.val]).toNat * 2 ^ 32 + v.toNat < ((s.pavs[p.val]).fences[c.val]).toNat →
      exec (.fenceLoWrite p c v) s = .next ((s.modPort (portOf p) fun t => { t with opNo := t.opNo + 1 }).modPav p fun q =>
        { q with fenceDiscard := satInc q.fenceDiscard
                 fenceHi := upd q.fenceHi c fun _ => ((q.fences[c.val]).extractLsb' 32 32) }))

/-- TIME_SET_HI keeps a high word and TIME_SET_LO steps the wall's time, on a device that is its master or stands alone: whatever its outputs
do, Spire time becomes the 64-bit value, the slew ends and the step is counted. On any other device both are
discarded. TIME_IN (R322): on the master, while enabled, the first edge steps the counter to the nearest whole second and sets LOCK, an
edge more than 500 µs off is counted and ignored, and any other edge slews towards the whole second; 1.5 s without one clears LOCK and
sets LOST. On any other device it is ignored. A stand-alone device takes TIME_IN as a master does (log 27). -/
def Obligations.SpireTimeWritesAndTimeIn : Prop :=
  (∀ (s : State) (v : Word), s.Good → s.HostTo 0 →
      (s.spire.master = true ∨ s.standAlone = true → exec (.timeSetHi v) s = .next { s with spire := { s.spire with timeHi := v } })
      ∧ (s.spire.master = false → s.standAlone = false → exec (.timeSetHi v) s = .next s ∧ exec (.timeSetLo v) s = .next s)
      ∧ (s.spire.master = true ∨ s.standAlone = true → ∃ t, exec (.timeSetLo v) s = .next t
          ∧ t.spire.now = s.spire.timeHi ++ v ∧ t.spire.frac = 0 ∧ t.spire.slew = 0 ∧ t.spire.steps = satInc s.spire.steps))
  ∧ (∀ (s : State) (t : Nat), s.Good →
      let near : Nat := (t + 500000000) / 1000000000 * 1000000000
      (s.spire.tiEn = true → s.timeMaster = true →
        (s.spire.tiFirst = true → ∃ u, exec (.timeInEdge t) s = .next u ∧ u.fine = near * 2 ^ 24 % 2 ^ 88 ∧ u.spire.tiFirst = false ∧ u.spire.tiLock = true
          ∧ u.spire.steps = satInc s.spire.steps)
        ∧ (s.spire.tiFirst = false → 500000 < ((t : Int) - near).natAbs → ∃ u, exec (.timeInEdge t) s = .next u ∧ u.spire.tiRej = satInc s.spire.tiRej
          ∧ u.spire.slew = s.spire.slew ∧ u.spire.tiLock = s.spire.tiLock)
        ∧ (s.spire.tiFirst = false → ((t : Int) - near).natAbs ≤ 500000 → ∃ u, exec (.timeInEdge t) s = .next u ∧ u.spire.slew = ((near : Int) - t) * 2 ^ 24
          ∧ u.spire.tiLock = true ∧ u.spire.steps = s.spire.steps)
        -- an edge registered in the cycle of the timeout counts as in time (R8)
        ∧ (s.arrived.contains .timeIn = false → exec .timeInLossTimeout s = .next { s with spire := { s.spire with tiLock := false, tiLost := true } })
        ∧ (s.arrived.contains .timeIn = true → exec .timeInLossTimeout s = .next s))
      ∧ (s.spire.tiEn = false ∨ s.timeMaster = false → exec (.timeInEdge t) s = .next s ∧ exec .timeInLossTimeout s = .next s))

/-- The writes of one register of the manager's: RESUME, START of an output's EDID block, TAIL of the log, RETRY of a link, and ENABLE of a
link that was off. Each wakes the island of its unit where that is gated (R27). A START while BUSY still takes BLOCK (log 26). -/
def Obligations.ManagerRegisterWrites : Prop :=
  ∀ (s : State), s.Good → s.HostTo 0 →
    -- RESUME while a safe frame is shown for cause 1 and RECOVER_FRAMES = 0
    (∀ o : Fin 8, bits (s.outs[o.val]).recover.toNat 15 0 = 0 → (s.outs[o.val]).cause1 = true →
      exec (.resume o) s = .next ((s.wakeIsland (islOut o.val)).modOut o fun u => { u with resumeReq := true }))
    -- with another RECOVER_FRAMES, or without cause 1, it has no effect
    ∧ (∀ o : Fin 8, bits (s.outs[o.val]).recover.toNat 15 0 ≠ 0 ∨ (s.outs[o.val]).cause1 = false →
      exec (.resume o) s = .next (s.wakeIsland (islOut o.val)))
    -- START reads EDID block BLOCK: segment BLOCK / 2, offset (BLOCK mod 2) × 128
    ∧ (∀ (o : Fin 8) (b : BitVec 8), (s.outs[o.val]).edidBusy = false →
      exec (.edidStart o b) s = .next (((s.wakeIsland (islOut o.val)).modOut o fun u =>
        { u with edidBlock := b, edidBusy := true, auxRetries := 0, auxLast := some (.i2c (b.toNat / 2) (b.toNat % 2 * 128)) }).emit
        (.i2cAux o (b.toNat / 2) (b.toNat % 2 * 128))))
    -- while BUSY it starts nothing
    ∧ (∀ (o : Fin 8) (b : BitVec 8), (s.outs[o.val]).edidBusy = true →
      exec (.edidStart o b) s = .next ((s.wakeIsland (islOut o.val)).modOut o fun u => { u with edidBlock := b }))
    -- TAIL of the log: forward from the current TAIL up to HEAD
    ∧ (∀ v : Word, gap s.evt.tail (v.setWidth 16) ≤ gap s.evt.tail s.evt.head → v.getLsbD 16 = false →
      exec (.logTailWrite v) s = .next { s.wakeIsland islFabric with evt := { s.evt with tail := v.setWidth 16 } })
    ∧ (∀ v : Word, gap s.evt.tail s.evt.head < gap s.evt.tail (v.setWidth 16) →
      exec (.logTailWrite v) s = .next { s.wakeIsland islFabric with evt := { s.evt with dbRange := true } })
    -- RETRY makes a DISABLED link train, and no other
    ∧ (∀ l : Fin 12, (s.spire.links[l.val]).st = .disabled →
      exec (.linkRetry l) s = .next ((s.wakeIsland (islLink l.val)).modLink l fun k => { k.fresh with st := .train, retrain := false }))
    ∧ (∀ l : Fin 12, (s.spire.links[l.val]).st ≠ .disabled → exec (.linkRetry l) s = .next (s.wakeIsland (islLink l.val)))
    -- ENABLE: a link that is off, paired and not gated trains; one that is training goes off
    ∧ (∀ l : Fin 12, (s.spire.links[l.val]).enable = false → (s.spire.links[l.val]).st = .off → (s.spire.pairing l).isSome = true →
      s.clk.gated.getLsbD (23 + l.val) = false → ∃ t, exec (.linkEnableWrite l true) s = .next t
        ∧ (t.spire.links[l.val]).st = .train ∧ (t.spire.links[l.val]).enable = true ∧ t.clk.run.getLsbD (23 + l.val) = true)
    ∧ (∀ l : Fin 12, (s.spire.links[l.val]).enable = true → (s.spire.links[l.val]).st = .train → s.linkUp l = false →
      ∃ t, exec (.linkEnableWrite l false) s = .next t ∧ (t.spire.links[l.val]).st = .off ∧ (t.spire.links[l.val]).enable = false)

/-- REGISTER_WRITE of another size or alignment than an aligned word is discarded. Aligned, it writes the register:
PAV_ERR_VECTOR keeps bits 4:0. READ_CLEAR of PAV_BAR2_MISS returns the count and clears it; a narrower read returns its byte and clears
nothing. MULTIWORD_LOW_READ of SPIRE_TIME captures the high word in the same cycle; the read of the high word that follows returns it
whatever the time is then. A request to a gated HOST island wakes it (R27). What a narrow access does is the model's reading (log 26). -/
def Obligations.RegisterWordsAndReads : Prop :=
  (∀ (s : State) (p : Fin 64), s.Good → s.HostTo p →
      (∀ (off size : Nat) (v : Word), size ≠ 4 ∨ off % 4 ≠ 0 → exec (.registerWrite .host p off size v) s = .next s)
      ∧ (∀ v : Word,
        exec (.registerWrite .host p (if p = 0 then 0xF01290 else 0x1290) 4 v) s = .next (s.modPav p fun q => { q with errVector := v &&& 0x1F#32 })))
  -- a request to a gated HOST island wakes it first
  ∧ (∀ (s : State) (p : Fin 64) (c : Fin 256) (v : Word), s.Good → s.reach p = true → (s.pavs[p.val]).present = true → (s.pavs[p.val]).ready = true →
      (s.pavs[p.val]).mse = true → (s.pavs[p.val]).fn.d3 = false → s.clk.run.getLsbD (islHost (portOf p).val) = false →
      exec (.fenceHiWrite p c v) s = .next ((s.runIsland (islHost (portOf p).val) true).modPav p fun q => { q with fenceHi := upd q.fenceHi c fun _ => v }))
  -- a request to a function that is absent, in reset, in D3hot or without Memory Space Enable is answered with Unsupported Request
  ∧ (∀ (s : State) (p : Fin 64) (off size : Nat), s.Good → s.reach p = true → (s.pavs[p.val]).present = false ∨ (s.pavs[p.val]).ready = false
      ∨ (s.pavs[p.val]).mse = false ∨ (s.pavs[p.val]).fn.d3 = true → exec (.readClear .host p off size) s = .next (s.emit (.ur p)))
  ∧ (∀ (s : State) (p : Fin 64), s.Good → s.HostTo p → p ≠ 0 →
      exec (.readClear .host p 0x2C 4) s = .next ((s.modPav p fun q => { q with bar2Miss := 0 }).emit (.readData p (leBytes 4 (s.pavs[p.val]).bar2Miss.toNat)))
      ∧ exec (.readClear .host p 0x2C 1) s = .next (s.emit (.readData p [BitVec.ofNat 8 (s.pavs[p.val]).bar2Miss.toNat])))
  ∧ (∀ (s : State), s.Good → s.HostTo 0 →
      (∃ t, exec (.multiwordLowRead .host 0 0x70000C) s = .next t
        ∧ t.tx = .readData 0 (leBytes 4 (bits s.spire.now.toNat 31 0)) :: s.tx
        ∧ (t.caps.find? fun c => c.1 == 64 && c.2.1 == 0x700010) = some (64, 0x700010, w32 (bits s.spire.now.toNat 63 32)) ∧ t.spire = s.spire)
      ∧ (∀ w : Word, (s.caps.find? fun c => c.1 == 64 && c.2.1 == 0x700010) = some (64, 0x700010, w) →
        ∃ t, exec (.readClear .host 0 0x700010 4) s = .next t ∧ t.tx = .readData 0 (leBytes 4 w.toNat) :: s.tx))

/-- CONFIG_REQUEST. A port that the boot has not enabled answers with CRS, an absent function with Unsupported Request, a present one that is
not ready with CRS. A ready function answers: its vendor and device ID; Memory Space Enable; Bus Master Enable cleared; a write of a
BAR (R52) and of the power state (R44). Nothing else changes. A reset of a virtual function, by FLR or by the return from D3hot to D0: steps 2 to 5 of R88. Its
page is at the reset values of R660 and it is ready, its leases and extents are orphaned, its jobs, captures, exports and posted writes
are gone, and the manager's bit of it in FLR_DONE is set. Every other Pavilion keeps its extents. The virtual functions' device ID is the
model's (log 11). -/
def Obligations.FunctionsOfAPort : Prop :=
  (∀ (s : State) (p : Fin 64), s.Good →
      (∀ c : CfgOp, (s.ports[(portOf p).val]).enabled = false → exec (.configRequest p c) s = .next (s.emit (.crs p)))
      ∧ (∀ c : CfgOp, s.reach p = true → (s.pavs[p.val]).present = false → exec (.configRequest p c) s = .next (s.emit (.ur p)))
      ∧ (∀ c : CfgOp, s.reach p = true → (s.pavs[p.val]).present = true → (s.pavs[p.val]).ready = false →
        exec (.configRequest p c) s = .next (s.emit (.crs p)))
      ∧ (s.ConfigTo p →
        exec (.configRequest p (.read 0)) s = .next (s.emit (.cfgData p (if p.val % 16 = 0 then 0x82561F6B#32 else 0x82571F6B#32)))
        ∧ (∀ en : Bool, exec (.configRequest p (.memSpace en)) s = .next (s.modPav p fun v => { v with mse := en }))
        ∧ exec (.configRequest p (.busMaster false)) s = .next (s.modPav p fun v => { v with bme := false })
        -- BAR0 of a physical function keeps its type and size bits; a virtual function has none of its own
        ∧ (∀ v : Word, exec (.configRequest p (.write 0x10 v)) s = if p.val % 16 = 0 then .next (s.modPav p fun x => { x with fn := { x.fn with
            bar0 := w64 ((bits x.fn.bar0.toNat 63 32 * 2 ^ 32 + v.toNat) / 2 ^ (if p.val = 0 then 24 else 16) * 2 ^ (if p.val = 0 then 24 else 16)) } })
          else .next s)
        -- a write of 3 to the power state takes the function to D3hot, where it sends no request
        ∧ (∀ v : Word, bits v.toNat 1 0 = 3 →
          exec (.configRequest p (.write 0x44 v)) s = .next (s.modPav p fun x => { x with bme := false, fn := { x.fn with d3 := true } }))))
  ∧ (∀ (s : State) (p : Fin 64) (c : Instr), s.Good → s.ConfigTo p → p.val % 16 ≠ 0 → c = .flr p ∨ (c = .d3hotToD0 p ∧ (s.pavs[p.val]).fn.d3 = true) →
      ∃ t, exec c s = .next t
        ∧ t.pavs[p.val] = pageAfter s.pavs[p.val] false
        ∧ (∀ q : Fin 64, q ≠ p → (t.pavs[q.val]).exts = (s.pavs[q.val]).exts)
        ∧ t.flrDone = putB s.flrDone p.val true
        ∧ (∀ i : Fin 256, ∀ b : Nat, (s.slots[i.val]).lease = .held p b → (t.slots[i.val]).lease = .orphan ∧ (t.slots[i.val]).lost = true)
        ∧ t.orphanExts = s.orphanExts ++ (s.pavs[p.val]).exts
        ∧ (∀ j ∈ t.jobs, j.pav ≠ p)
        ∧ (∀ o : Fin 8, ∀ j ∈ (t.outs[o.val]).caps, j.pav ≠ p)
        ∧ (∀ e ∈ t.spire.exports, e.pav ≠ p)
        ∧ (∀ w ∈ (t.ports[(portOf p).val]).posted, w.2.pav ≠ p))
  ∧ (∀ (s : State) (p : Fin 64), s.Good → s.ConfigTo p → (s.pavs[p.val]).fn.d3 = false → exec (.d3hotToD0 p) s = .next s)
  -- while a warm reset lasts, until the boot enables the port
  ∧ (∀ (s : State) (p : Fin 64) (c : CfgOp), s.Inv → s.pwr.reset = .warm → s.calm = true → (s.ports[(portOf p).val]).enabled = false →
      exec (.configRequest p c) s = .next (s.emit (.crs p)))

/-- VF_ENABLE_SET makes the first NumVFs virtual functions of the port present and ready; while VF Enable is set it changes nothing.
VF_ENABLE_CLEAR, HOT_RESET, PCIE_LINK_DOWN and HP_PERST reset every function of their port and make its virtual functions absent; the last
three leave the link down, and each of the 16 Pavilions has its bit of FLR_DONE set; HP_PERST does so whether or not the link was up, but before
the boot has enabled the port only takes the link down. PCIE_LINK_UP brings it back. VF_ENABLE_CLEAR follows the words of R87 (log 38). -/
def Obligations.PortEvents : Prop :=
  (∀ (s : State) (n : Fin 4) (k : Fin 16), s.Good → s.ConfigTo (fp (n.val * 16)) →
      ((s.ports[n.val]).vfEnable = true → exec (.vfEnableSet n k) s = .next s)
      ∧ ((s.ports[n.val]).vfEnable = false → ∃ t, exec (.vfEnableSet n k) s = .next t
        ∧ (t.ports[n.val]).vfEnable = true ∧ (t.ports[n.val]).numVfs = k.val
        ∧ (∀ i : Fin 16, 1 ≤ i.val → i.val ≤ k.val →
          (t.pavs[(fp (n.val * 16 + i.val)).val]).present = true ∧ (t.pavs[(fp (n.val * 16 + i.val)).val]).ready = true)
        ∧ (∀ q : Fin 64, q.val / 16 ≠ n.val → t.pavs[q.val] = s.pavs[q.val])
        ∧ t.slots = s.slots ∧ t.spire = s.spire))
  ∧ (∀ (s : State) (n : Fin 4), s.Good →
      (s.ConfigTo (fp (n.val * 16)) → ∃ t, exec (.vfEnableClear n) s = .next t ∧ (t.ports[n.val]).vfEnable = false
        ∧ (t.ports[n.val]).numVfs = 0 ∧ (∀ q : Fin 64, q.val / 16 = n.val → q.val % 16 ≠ 0 → (t.pavs[q.val]).present = false))
      ∧ (∀ c : Instr, (c = .hotReset n ∨ c = .pcieLinkDown n) ∧ (s.ports[n.val]).linkUp = true ∨ c = .hpPerst n ∧ (s.ports[n.val]).enabled = true →
        ∃ t, exec c s = .next t ∧ (t.ports[n.val]).linkUp = false ∧ (t.ports[n.val]).vfEnable = false ∧ (t.ports[n.val]).posted = []
        ∧ (∀ q : Fin 64, q.val / 16 = n.val → t.flrDone.getLsbD q.val = true)
        ∧ (∀ q : Fin 64, q.val / 16 = n.val → q.val % 16 ≠ 0 → (t.pavs[q.val]).present = false))
      ∧ (∀ c : Instr, c = .hotReset n ∨ c = .pcieLinkDown n → (s.ports[n.val]).linkUp = false → exec c s = .next s)
      ∧ ((s.ports[n.val]).enabled = false → exec (.hpPerst n) s = .next (s.modPort n fun q => { q with linkUp := false }))
      ∧ (∀ (speed : Fin 5) (width : Fin 4), exec (.pcieLinkUp ⟨n, speed, width⟩) s = .next
          ({ s with clk := { s.clk with refclkOk := putB s.clk.refclkOk n.val true, pllLock := putB s.clk.pllLock (36 + n.val) true
                                        pllCoast := putB s.clk.pllCoast (36 + n.val) false } }.modPort n
            fun q => { q with linkUp := true, speed := speed.val + 1, width := 2 ^ width.val })))

/-- BAR2_WRITE and BAR2_READ. A write within one extent, with nothing posted before it and tokens for a DRAM access, lands at the extent's
place once the lines already due of the frames being scanned are read (R163); one without tokens waits (R364); a read of it returns those bytes. Beyond the last extent a write is discarded and counted, and a read is answered with Unsupported
Request. Bytes stored to a memory read back; every other byte of every memory reads as before. The DRAM's write queues have room. What a
command's effect reads of a memory is what stands there when it ends: its stores are in the memory, none is lost. The instant at which a
posted write lands is the model's (log 18). -/
def Obligations.Bar2AndMemory : Prop :=
  (∀ (s : State) (p : Fin 64) (off : Nat), s.Good → s.HostTo p →
      (∀ (data : List Byte) (m : MemId) (a o : Nat), pieces (s.pavs[p.val]).exts 0 off data.length = [(a, 0, data.length)] →
        off + data.length ≤ extTotal (s.pavs[p.val]).exts → s.locate a = some (m, o) → m ≠ .dram →
        s.permit (masterP p) false m o data.length true = true →
        exec (.bar2Write p off data) s = .next (s.run fun s =>
          (s.modPort (portOf p) fun t => { t with opNo := t.opNo + 1 }).memWriteOk (some data.length) (portP p) a data))
      ∧ (∀ (data : List Byte) (a o : Nat), pieces (s.pavs[p.val]).exts 0 off data.length = [(a, 0, data.length)] →
        off + data.length ≤ extTotal (s.pavs[p.val]).exts → s.locate a = some (.dram, o) → s.permit (masterP p) false .dram o data.length true = true →
        s.dramGone = false → s.admits (portP p) o data.length = true →
        exec (.bar2Write p off data) s = .next (s.run fun s =>
          (s.wake.modPort (portOf p) fun t => { t with opNo := t.opNo + 1 }).memWriteOk (some data.length) (portP p) a data))
      -- a DRAM write without tokens waits, and its wait is counted
      ∧ (∀ (data : List Byte) (a o : Nat), pieces (s.pavs[p.val]).exts 0 off data.length = [(a, 0, data.length)] →
        off + data.length ≤ extTotal (s.pavs[p.val]).exts → s.locate a = some (.dram, o) → data ≠ [] → s.admits (portP p) o data.length = false →
        ∃ t, exec (.bar2Write p off data) s = .next t ∧ (t.ports[(portOf p).val]).posted.length = (s.ports[(portOf p).val]).posted.length + 1
          ∧ t.img = s.img ∧ t.dmcs = s.wake.dmcs)
      ∧ (∀ data : List Byte, extTotal (s.pavs[p.val]).exts ≤ off → data ≠ [] →
        exec (.bar2Write p off data) s = .next (s.modPav p fun v => { v with bar2Miss := satInc v.bar2Miss }))
      ∧ (∀ (len : Nat) (m : MemId) (a o : Nat), pieces (s.pavs[p.val]).exts 0 off len = [(a, 0, len)] →
        off + len ≤ extTotal (s.pavs[p.val]).exts → s.locate a = some (m, o) → m ≠ .dram →
        s.permit (masterP p) false m o len false = true →
        s.poisoned m o len = false → (errIn s.flips m o len) = [] →
        exec (.bar2Read p off len) s = .next (((s.modPort (portOf p) fun t => { t with opNo := t.opNo + 1 }).wakeMem m o len).emit
          (.readData p (s.rdDev a len))))
      ∧ (∀ (len a o : Nat), pieces (s.pavs[p.val]).exts 0 off len = [(a, 0, len)] →
        off + len ≤ extTotal (s.pavs[p.val]).exts → s.locate a = some (.dram, o) → s.permit (masterP p) false .dram o len false = true →
        s.dramGone = false → s.admits (portP p) o len = true → s.poisoned .dram o len = false →
        ∃ t, exec (.bar2Read p off len) s = .next t ∧ t.tx = .readData p (s.rdDev a len) :: s.tx)
      ∧ (∀ len : Nat, extTotal (s.pavs[p.val]).exts < off + len → exec (.bar2Read p off len) s = .next (s.emit (.ur p))))
  ∧ (∀ (s : State) (m : MemId) (a : Nat) (l : List Byte), m ≠ .dram → m ≠ .keep →
      (s.stWords m a l).rdBytes m a l.length = l
      ∧ ∀ (n : MemId) (b : Nat), n ≠ m ∨ b < a ∨ a + l.length ≤ b → (s.stWords m a l).rdByte n b = s.rdByte n b)
  ∧ (∀ (s : State) (hint : Bool) (a : Nat) (l : List Byte), l ≠ [] → (∀ c : Fin 8, ((s.dmcs[c.val]).wq).length + l.length ≤ 64) →
      (s.dramPut hint a l).rdBytes .dram a l.length = l
      ∧ ∀ (n : MemId) (b : Nat), n ≠ .dram ∨ b < a ∨ a + l.length ≤ b → (s.dramPut hint a l).rdByte n b = s.rdByte n b)
  ∧ (∀ (s : State) (a : Nat) (l : List Byte), s.keep.used + wordsOf a l.length ≤ 16 → s.keep.buf = [] →
      (s.keepPut a l).rdBytes .keep a l.length = l
      ∧ ∀ (n : MemId) (b : Nat), n ≠ .keep ∨ b < a ∨ a + l.length ≤ b → (s.keepPut a l).rdByte n b = s.rdByte n b)
  ∧ (∀ (s : State) (f : State → State) (m : MemId) (a : Nat), s.Inv → (f s).img = s.img → (s.run f).rdByte m a = (f s).rdByte m a)

/-- NOP, TIMESTAMP and VIEWPORT_QUERY complete with their RESULT: the tag, Spire time, and the mapping of the viewport. Steps 1 to 3 of the
validation: a reserved opcode, a manager's opcode from another Pavilion, a reserved bit, a SUBOP that the layout does not list. The
descriptor completes with the status and the byte, and has no effect. A layer descriptor whose handle is not leased to the Pavilion
completes with ST_NO_LEASE and stages nothing. -/
def Obligations.DescriptorChecksAndResults : Prop :=
  (∀ (s : State) (d : Desc),
      (s.Accepts 0x01 d → exec (.nop d) s = .next (s.doing d fun t => t.ok 0x01 d (dU d 8 8)))
      ∧ (s.Accepts 0x0C d → exec (.timestamp d) s = .next (s.doing d fun t => t.ok 0x0C d s.spire.now.toNat))
      ∧ (s.Accepts 0x0E d → ((s.pavs[d.pav.val]).views[(dView d).val]).cur = none →
        exec (.viewportQuery d) s = .next (s.doing d fun t => t.ok 0x0E d 0))
      ∧ (∀ m : VMap, s.Accepts 0x0E d → ((s.pavs[d.pav.val]).views[(dView d).val]).cur = some m →
        exec (.viewportQuery d) s = .next (s.doing d fun t => t.ok 0x0E d
          (m.rect.w + m.rect.h * 2 ^ 16 + 2 ^ 32 + b2n (s.viewLive m) * 2 ^ 33 + ((s.outs[m.out.val]).set.rg).val * 2 ^ 34))))
  ∧ (∀ (s : State) (d : Desc) (op : BitVec 8), s.BeginsAtOnce op d →
      (opcodes.contains op.toNat = false → exec (.reservedOpcode op d) s = .next (s.doing d fun t => t.bad op d 0x10 0xFF))
      ∧ (op = 0x22 → d.pav ≠ 0 → exec (.budgetSet d) s = .next (s.doing d fun t => t.bad op d 0x10 0xFF))
      ∧ (op = 0x01 → ∀ k : Nat, reservedByte 0x01 d = some k → exec (.nop d) s = .next (s.doing d fun t => t.bad op d 0x11 k))
      ∧ (op = 0x0B ∨ (op = 0x21 ∨ op = 0x24) ∧ d.pav = 0 → reservedByte op.toNat d = none → subopListed op.toNat (dU d 8 1) = false →
        exec (.unlistedSubop op d) s = .next (s.doing d fun t => t.bad op d 0x11 8)))
  ∧ (∀ (s : State) (d : Desc), reservedByte 0x02 d = none → dHandle d ≤ 247 → (s.started d).slotOf d.pav (dHandle d) = none →
      s.BeginsAtOnce 0x02 d → exec (.layerSet d) s = .next (s.doing d fun t => t.bad 0x02 d 0x12 0xFF))

/-- LAYER_SET, BUF_ATTACH and REAFFIRM whose checks pass: the layer is staged for the handle's slot; the buffer is staged, with the number the
model gives it; the timestamp of the selected buffer is raised wherever the buffer stands. -/
def Obligations.LayerDescriptors : Prop :=
  ∀ (s : State) (d : Desc) (i : Fin 256), (s.started d).slotOf d.pav (dHandle d) = some i →
    (s.Accepts 0x02 d → firstBad ((s.started d).layerChecks d.pav d) = none →
      exec (.layerSet d) s = .next (s.doing d fun t => (t.modSlot i fun q => { q with staged := some (layerOf d) }).ok 0x02 d 0))
    ∧ (∀ a : Nat, s.Accepts 0x03 d → firstBad ((s.started d).attachChecks d.pav d) = none → d.flags.getLsbD 1 = false →
      (s.started d).xlate d.pav (dU d 8 8) (attachBytes d) = some a →
      exec (.bufAttach d) s = .next (s.doing d fun t => (({ t with nextId := t.nextId + 1 }).modSlot i fun q =>
        { q with att := some (attachOf d t.nextId a), attTaken := false }).ok 0x03 d 0))
    ∧ (∀ a : Attach, s.Accepts 0x04 d → firstBad ((s.started d).reaffirmChecks d.pav d) = none → s.spire.exports = [] →
      (s.started d).reaffirmed i (d.flags.getLsbD 0) = some a →
      exec (.reaffirm d) s = .next (s.doing d fun t => (t.setTime a.id (w64 (dU d 8 8))).ok 0x04 d 0))
    -- with streams, a raised timestamp also goes out as TS_UPDATE on those of the buffer (R338)
    ∧ (∀ a : Attach, s.Accepts 0x04 d → firstBad ((s.started d).reaffirmChecks d.pav d) = none →
      (s.started d).reaffirmed i (d.flags.getLsbD 0) = some a → a.time ≠ w64 (dU d 8 8) →
      exec (.reaffirm d) s = .next (s.doing d fun t => (t.raiseTime a.id (w64 (dU d 8 8))).ok 0x04 d 0))

/-- FENCE_SIGNAL gives the cell its value, unless that is below the current one; EVENT_ARM sets and clears bits of the event mask, and with
LINE the line of the viewport's EV_LINE_MATCH. -/
def Obligations.FencesAndEvents : Prop :=
  ∀ (s : State) (d : Desc),
    (s.Accepts 0x06 d → ((s.pavs[d.pav.val]).fences[(f256 (dHandle d)).val]).toNat ≤ dU d 8 8 →
      exec (.fenceSignal d) s = .next (s.doing d fun t =>
        (t.modPav d.pav fun q => { q with fences := upd q.fences (f256 (dHandle d)) fun _ => w64 (dU d 8 8) }).ok 0x06 d 0))
    ∧ (s.Accepts 0x06 d → dU d 8 8 < ((s.pavs[d.pav.val]).fences[(f256 (dHandle d)).val]).toNat →
      exec (.fenceSignal d) s = .next (s.doing d fun t => t.bad 0x06 d 0x11 8))
    ∧ (s.Accepts 0x0A d → firstBad ((s.started d).armChecks d.pav d) = none → dBits d 40 1 7 7 ≠ 1 →
      exec (.eventArm d) s = .next (s.doing d fun t => (t.modPav d.pav fun v =>
        { v with armed := (v.armed ||| BitVec.ofNat 128 (dU d 8 16)) &&& ~~~(BitVec.ofNat 128 (dU d 24 16)) }).ok 0x0A d 0))
    ∧ (s.Accepts 0x0A d → firstBad ((s.started d).armChecks d.pav d) = none → dBits d 40 1 7 7 = 1 →
      exec (.eventArm d) s = .next (s.doing d fun t => ((t.modPav d.pav fun v =>
        { v with armed := (v.armed ||| BitVec.ofNat 128 (dU d 8 16)) &&& ~~~(BitVec.ofNat 128 (dU d 24 16)) }).modView d.pav
          (f8 (dBits d 40 1 2 0)) fun v => { v with lmLine := some (dU d 42 2) }).ok 0x0A d 0))

/-- A COMMIT without GROUP and WALL whose checks pass, whose palettes and matrices read well and which every output it touches admits forms a
group of its own on the viewport's output and completes only when it latches or is discarded: its Pavilion's rings keep it live. Its first frame
is the one whose window is open (R176); where that window has closed it is late, its first frame is the next one, and the lateness is counted (R179).
A COMMIT that an output does not admit (R156) is refused with the status of that output, which records it, and forms no group. A COMMIT whose bytes
fail a check is refused. -/
def Obligations.Commit : Prop :=
  ∀ (s : State) (d : Desc) (m : VMap), s.Accepts 0x05 d → ((s.pavs[d.pav.val]).views[(dView d).val]).cur = some m →
    (∀ (u : State) (caps : List (Fin 256 × Latched)),
      (s.started d).readAll m.out ((commitHandles d).filterMap ((s.started d).capture d.pav)) = (u, some caps) →
      firstBad ((s.started d).commitChecks d.pav d) = none → (s.started d).stagedFail d.pav d = none →
      (caps.any fun c => c.2.layer.enable && decide ((u.slots[c.1.val]).granules < c.2.layer.granules)) = false →
      (u.admission d.pav (dView d) (u.commitOuts d.pav m.out caps) caps = none →
        d.flags.getLsbD 0 = false → d.flags.getLsbD 1 = false →
        let first := (s.comps[m.out.val]).winFrame + (if (s.comps[m.out.val]).winOpen then 0 else 1)
        ∃ t, exec (.commit d) s = .next t ∧ t.groups = s.groups ++ [
            { owner := some d.pav, gid := 0, size := 1, expiry := dU d 18 1, wall := false, wallFrame := dU d 8 8
              rg := (s.outs[m.out.val]).set.rg, first, target := first, late := !(s.comps[m.out.val]).winOpen
              members := [
                { no := s.nextId, pav := d.pav, sq := d.sq, seq := d.seq, view := dView d, out := m.out, deferred := false, caps }] }]
          ∧ ((t.pavs[d.pav.val]).sqs[d.sq.val]).live = ((s.pavs[d.pav.val]).sqs[d.sq.val]).live + 1
          ∧ (t.comps[m.out.val]).late = (if (s.comps[m.out.val]).winOpen then (s.comps[m.out.val]).late else satInc (s.comps[m.out.val]).late))
      ∧ (∀ (q : Fin 8) (st : Nat), u.admission d.pav (dView d) (u.commitOuts d.pav m.out caps) caps = some (q, st) →
        exec (.commit d) s = .next (s.doing d fun _ => (u.noteReject q st).bad 0x05 d st 0xFF)))
    ∧ (∀ st fb : Nat, firstBad ((s.started d).commitChecks d.pav d) = some (st, fb, 0) → st = 0x11 →
      exec (.commit d) s = .next (s.doing d fun t => t.bad 0x05 d 0x11 fb))

/-- WRITEBACK whose checks pass starts a capture of its viewport on the viewport's output and does not complete. With STOP it asks every
capture of the viewport to end. EXPORT for a handle with no latched buffer makes an export and does not complete. With STOP it ends that
export, whose EXPORT completes too; with no such export it is refused. An export to the device itself is refused. -/
def Obligations.WritebackAndExport : Prop :=
  (∀ (s : State) (d : Desc),
      (∀ m : VMap, s.Accepts 0x07 (setFlag d 0 false) →
        firstBad ((s.started (setFlag d 0 false)).writebackChecks d.pav (setFlag d 0 false)) = none →
        ((s.pavs[d.pav.val]).views[(f8 d.handle.toNat).val]).cur = some m →
        exec (.writeback d) s = .next (s.doing (setFlag d 0 false) fun t => t.modOut m.out fun u => { u with caps := u.caps ++
          [{ pav := d.pav, sq := d.sq, seq := d.seq, view := f8 d.handle.toNat, deferred := false,
             dest := (t.xlate d.pav (dU d 8 8) 1).getD 0, pitch := dU d 16 4, frames := dU d 20 4, ring := dU d 32 2,
             record := (t.xlate d.pav (dU d 24 8) 64).getD 0, rect := m.rect }] }))
      ∧ (s.Accepts 0x07 (setFlag d 0 true) →
        firstBad ((s.started (setFlag d 0 true)).writebackChecks d.pav (setFlag d 0 true)) = none →
        ∃ t, exec (.writebackStop d) s = .next t ∧ ∀ o : Fin 8, (t.outs[o.val]).caps = (s.outs[o.val]).caps.map fun c =>
          if c.pav == d.pav && c.view == f8 d.handle.toNat then { c with stops := c.stops ++ [(d.sq, d.seq, false)] } else c))
  ∧ (∀ (s : State) (d : Desc),
      (s.Accepts 0x0D (setFlag d 0 false) → dU d 8 2 ≠ s.spire.myId → (s.started (setFlag d 0 false)).latchedBuf d.pav (dHandle d) = none →
        exec (.export_ d) s = .next (s.doing (setFlag d 0 false) fun t => { t with spire := { t.spire with exports := t.spire.exports ++
          [{ pav := d.pav, sq := d.sq, seq := d.seq, deferred := false, handle := dHandle d, dest := dU d 8 2, expId := dU d 10 2
             paused := decide (12 ≤ s.route (dU d 8 2)), due := decide (12 ≤ s.route (dU d 8 2)) }] } }))
      ∧ (s.Accepts 0x0D (setFlag d 0 false) → dU d 8 2 = s.spire.myId →
        exec (.export_ d) s = .next (s.doing (setFlag d 0 false) fun t => t.bad 0x0D d 0x11 8))
      ∧ (∀ e : Export, s.Accepts 0x0D (setFlag d 0 true) →
        (s.spire.exports.find? fun e => e.is d.pav (dHandle d) (dU d 8 2) (dU d 10 2)) = some e →
        exec (.exportStop d) s = .next (s.doing (setFlag d 0 true) fun t =>
          (({ t with spire := { t.spire with exports := t.spire.exports.erase e } }).completeOk e.pav e.sq e.seq 0x0D e.deferred false false 0).ok 0x0D d 0))
      ∧ (s.Accepts 0x0D (setFlag d 0 true) → (s.spire.exports.find? fun e => e.is d.pav (dHandle d) (dU d 8 2) (dU d 10 2)) = none →
        exec (.exportStop d) s = .next (s.doing (setFlag d 0 true) fun t => t.bad 0x0D d 0x11 1)))

/-- COPY and CHECK whose checks pass complete later: each becomes a job, and a COPY that waits for no fence is past its wait (one from host memory
asks the host for its bytes). COPY_FENCE_TIMEOUT: a copy whose fence is still unsatisfied ends with ST_FENCE_TIMEOUT (R96). COPY_TRANSFER_END: a copy of
at most 4,096 bytes within the Orangery, past its fence and with no other job on its engine, ends with its bytes at the destination and its length as
RESULT; after a read error the copy ends with ST_DEVICE_ABORT. CHECK_JOB_END: a report over at most 4,096 bytes of the Orangery ends with the check value of
its bytes, which is its RESULT and which the channel keeps (R490, R491). A transfer's bytes move in turns once its end has come (log 44). -/
def Obligations.CopiesAndChecks : Prop :=
  (∀ (s : State) (d : Desc),
      (s.Accepts 0x08 d → firstBad ((s.started d).copyChecks d.pav d) = none → d.flags.getLsbD 4 = false →
        exec (.copy d) s = .next (s.doing d fun t =>
          let j := { t.copyJob { op := 0x08, d } with waiting := false }
          ({ t with jobs := t.jobs ++ [j] }).hostReads j))
      -- with FENCE_WAIT and its cell below the value it waits, and asks for nothing
      ∧ (s.Accepts 0x08 d → firstBad ((s.started d).copyChecks d.pav d) = none → d.flags.getLsbD 4 = true →
        ((s.pavs[d.pav.val]).fences[(f256 (dU d 44 1)).val]).toNat < dU d 48 8 →
        exec (.copy d) s = .next (s.doing d fun t => { t with jobs := t.jobs ++ [t.copyJob { op := 0x08, d }] }))
      ∧ (s.Accepts 0x09 d → firstBad ((s.started d).checkChecks d.pav d) = none → ∀ a : Nat, (s.started d).xlate d.pav (dU d 8 8) (dU d 16 4) = some a →
        exec (.check d) s = .next (s.doing d fun t => { t with jobs := t.jobs ++
          [{ pav := d.pav, sq := d.sq, seq := d.seq, op := 0x09, deferred := false, src := a, dst := a + dU d 16 4, len := dU d 16 4
             reg := match jobChan 0x09 d with | some c => crcStart (t.cvus[c.1.val]).crc | none => 0
             chan := (jobChan 0x09 d).map fun c => (c.1, c.2, (t.cvus[c.1.val]).crc) }] })))
  ∧ (∀ (s : State) (p : Fin 64) (sq : Fin 8) (seq : BitVec 16) (j : Job), ({ s with jobs := s.jobs.erase j }).Good →
      (s.jobs.filter fun x => x.engine == j.engine) = [j] →
      (j.is 0x08 p sq seq = true → j.waiting = true → j.fin = none → ((s.pavs[j.pav.val]).fences[(f256 j.fenceCell).val]).toNat < j.fenceVal.toNat →
        exec (.copyFenceTimeout p sq seq) s = .next (({ s with jobs := s.jobs.erase j }).complete j.pav j.sq j.seq j.op 0x21 j.deferred false false 0xFF 0)
        ∧ ∀ l e, exec (.copyTransferEnd p sq seq l e) s = .next s)
      ∧ (j.is 0x08 p sq seq = true → j.waiting = false → j.fin = none → exec (.copyFenceTimeout p sq seq) s = .next s)
      ∧ (j.is 0x08 p sq seq = true → j.waiting = false → j.fin = none → j.srcHost = false → j.dstHost = false → j.chan = none → j.rows = 0 →
        j.bad = false → j.moved = 0 → j.paused = false → 0 < j.len → j.len ≤ 4096 → s.inRecovery = false →
        s.locate j.src = some (.org, j.src) → s.locate j.dst = some (.org, j.dst) → s.permit 1 false .org j.src j.len false = true →
        s.permit 1 false .org j.dst j.len true = true → s.poisoned .org j.src j.len = false →
        exec (.copyTransferEnd p sq seq [] false) s = .next (s.run fun s =>
          let t := (((s.passTurn (portOf j.pav).val j.pav).wakeMem .org j.src j.len).memWrite 1 false (portP j.pav) j.dst (s.rdDev j.src j.len))
          ({ t with jobs := t.jobs.erase j }).completeOk j.pav j.sq j.seq j.op j.deferred false false j.len))
      -- an error of the transfer ends it with ST_DEVICE_ABORT; one of device memory is counted and reported (R404, R406)
      ∧ (j.is 0x08 p sq seq = true → j.waiting = false → j.fin = none → j.srcHost = true → ∀ l : List Byte,
        exec (.copyTransferEnd p sq seq l true) s = .next (({ s with jobs := s.jobs.erase j }).complete j.pav j.sq j.seq j.op 0x3F j.deferred false false 0xFF 0))
      ∧ (j.is 0x08 p sq seq = true → j.waiting = false → j.fin = none → j.srcHost = false → ∀ (l : List Byte) (o : Nat), s.locate j.src = some (.org, o) →
        ∃ t, exec (.copyTransferEnd p sq seq l true) s = .next t ∧ t.jobs = s.jobs.erase j ∧ t.org.ue = satInc s.org.ue ∧ t.org.eccOff = o / 8 * 8
          ∧ ((t.pavs[j.pav.val]).sqs[j.sq.val]).live = ((s.pavs[j.pav.val]).sqs[j.sq.val]).live - 1)
      ∧ (∀ (c : Fin 16) (crc : Crc), j.is 0x09 p sq seq = true → j.waiting = false → j.fin = none → j.srcHost = false → j.chan = some (c, .report, crc) →
        j.rows = 0 → j.bad = false → j.moved = 0 → j.paused = false → j.reg = crcStart crc → 0 < j.len → j.len ≤ 4096 →
        (s.pavs[j.pav.val]).limits[2] = BitVec.allOnes 64 → s.locate j.src = some (.org, j.src) →
        s.permit 1 false .org j.src j.len false = true → s.poisoned .org j.src j.len = false →
        ∃ t, exec (.checkJobEnd p sq seq false) s = .next t ∧ t.jobs = s.jobs.erase j
          ∧ (t.cvus[c.val]).lastRes = w64 (crcOf crc (s.rdDev j.src j.len))
          ∧ (t.cvus[c.val]).bytes = (s.cvus[c.val]).bytes + BitVec.ofNat 48 j.len
          ∧ ((t.pavs[j.pav.val]).sqs[j.sq.val]).live = ((s.pavs[j.pav.val]).sqs[j.sq.val]).live - 1))

/-- The seven CONSOLE operations whose checks pass: what each does at once, and its completion. `e` is the descriptor with the row's SUBOP. A
trigger on a haptic channel, with no other in the same cycle, is accepted when the channel is idle or the priority is at least the running
effect's; a lower one is counted as ignored and changes nothing else. What is in the same cycle is the sender's order between idle steps (log 13). -/
def Obligations.ConsoleDescriptors : Prop :=
  (∀ (s : State) (d e : Desc),
      s.Accepts 0x0B e → firstBad ((s.started e).consoleChecks e.pav e false) = none →
      -- HAPTIC_PLAY triggers the effect on the channel with the descriptor's priority and amplitude
      (e = setByte d 8 0 → dU e 10 1 ≠ 0 → exec (.hapticPlay d) s = .next (s.doing e fun t =>
        (t.hapTrigger (f16 (dU e 9 1)) (.pav e.pav) (dU e 10 1) (dU e 11 1) (dU e 12 1) false).ok 0x0B e 0))
      -- effect 0 stops it as HAPTIC_STOP with BRAKE does
      ∧ (e = setByte d 8 0 → dU e 10 1 = 0 → exec (.hapticPlay d) s = .next (s.doing e fun t => (t.hapStop (f16 (dU e 9 1)) true).ok 0x0B e 0))
      -- HAPTIC_STOP brakes or cuts it
      ∧ (e = setByte d 8 1 → exec (.hapticStop d) s = .next (s.doing e fun t => (t.hapStop (f16 (dU e 9 1)) (bit (dU e 10 1) 0)).ok 0x0B e 0))
      -- VOICE_START starts the voice in its attack, VOICE_STOP begins its release
      ∧ (e = setByte d 8 2 → (s.arrived.any fun a => match a with | .voice x q => x == f16 (dU e 9 1) && decide (e.pav.val < q.val) | _ => false) = false →
        exec (.voiceStart d) s = .next (s.doing e fun t => ((t.arrive (.voice (f16 (dU e 9 1)) e.pav)).modVoice (f16 (dU e 9 1)) fun x =>
        { x with phase := .attack, pav := e.pav, wave := dU e 10 1, f0 := dU e 12 2, f1 := dU e 14 2, durMs := dU e 16 2, level := dU e 18 1
                 aud := dBits e 19 1 0 0, slot := dBits e 19 1 3 1, acc := 0, n := 0, rel := 0, attack := envMs x.env 9 0
                 release := envMs x.env 25 16 }).ok 0x0B e 0))
      ∧ (e = setByte d 8 3 → exec (.voiceStop d) s = .next (s.doing e fun t => (t.voiceRelease (f16 (dU e 9 1))).ok 0x0B e 0))
      -- a VOICE_START in the cycle in which a higher-numbered Pavilion has started the voice changes nothing
      ∧ (e = setByte d 8 2 → (s.arrived.any fun a => match a with | .voice x q => x == f16 (dU e 9 1) && decide (e.pav.val < q.val) | _ => false) = true →
        exec (.voiceStart d) s = .next (s.doing e fun t => t.ok 0x0B e 0))
      -- PCM_QUEUE puts a buffer at the end of the stream's queue
      ∧ (∀ a : Nat, e = setByte d 8 4 → (s.started e).xlate e.pav (dU e 16 8) (dU e 24 4) = some a →
        exec (.pcmQueue d) s = .next (s.doing e fun t => (t.modPav e.pav fun v => { v with pcm := upd v.pcm (f8 (dU e 9 1)) fun q =>
          { q with queue := q.queue ++ [{ addr := a, off := dU e 16 8, bytes := dU e 24 4, aud := dBits e 28 1 0 0, slot := dBits e 28 1 3 1 }] } }).ok 0x0B e 0))
      -- REFLEX_BIND and REFLEX_UNBIND set and clear the binding of the control
      ∧ (e = setByte d 8 5 → exec (.reflexBind d) s = .next (s.doing e fun t => (t.modCtl (f32 (dU e 9 1)) fun c =>
        { c with reflex := some { pav := e.pav, dome := false, chan := dU e 10 1, effect := dU e 11 1, prio := dU e 12 1 } }).ok 0x0B e 0))
      ∧ (e = setByte d 8 6 → exec (.reflexUnbind d) s = .next (s.doing e fun t => (t.modCtl (f32 (dU e 9 1)) fun c =>
        { c with reflex := none }).ok 0x0B e 0)))
  ∧ (∀ (s : State) (h : Fin 16) (src : HapSrc) (effect prio amp : Nat) (reflex : Bool), s.hapRival h (hapRank src reflex) src = none →
      ((s.gaz.haps[h.val]).st ≠ .idle → prio < (s.gaz.haps[h.val]).prio →
        s.hapTrigger h src effect prio amp reflex = s.modHap h fun c => { c with ignored := satInc c.ignored })
      ∧ ((s.gaz.haps[h.val]).st = .idle ∨ (s.gaz.haps[h.val]).prio ≤ prio →
        let c := ((s.hapTrigger h src effect prio amp reflex).gaz.haps[h.val])
        c.effect = effect ∧ c.prio = prio ∧ c.amp = amp ∧ c.src = src ∧ (c.st = .drive ∨ c.st = .overdrive) ∧ c.seg = 0 ∧ c.halves = 0))

/-- VIEWPORT_MAP of a viewport that maps nowhere, onto an output that is not enabled, takes effect at once; UNMAP of a viewport mapped on an
enabled output waits for that output's latch. -/
def Obligations.ViewportDescriptors : Prop :=
  ∀ (s : State) (d e : Desc) (v : Fin 8) (m : VMap), v = f8 (bits d.handle.toNat 10 8) →
    m = { out := f8 (dU d 8 1), zBase := dU d 9 1, zDepth := dU d 10 1, rect := dRect d 12 } →
    (e = setFlag d 0 false → s.Accepts 0x20 e → firstBad ((s.started e).mapChecks e) = none → ((s.pavs[(tgtPav d).val]).views[v.val]).cur = none →
      (s.outs[m.out.val]).enabled = false →
      (s.started e).ceilingsHold m.out (fun p' v' => if p' = tgtPav d ∧ v' = v then [m] else (s.started e).viewsOn m.out p' v') (s.started e).shareOf
        ((s.bports[(f83 m.out.val).val]).grant) = true →
      (s.started e).viewCarries (tgtPav d) v = false →
      ∃ t, exec (.viewportMap d) s = .next t ∧ ((t.pavs[(tgtPav d).val]).views[v.val]).cur = some m
        ∧ ((t.pavs[(tgtPav d).val]).views[v.val]).pend = none)
    ∧ (∀ c : VMap, e = setFlag d 0 true → s.Accepts 0x20 e → firstBad ((s.started e).mapChecks e) = none →
      ((s.pavs[(tgtPav d).val]).views[v.val]).cur = some c → (s.outs[c.out.val]).enabled = true →
      exec (.viewportUnmap d) s = .next (s.doing e fun t => (t.modView (tgtPav d) v fun x => { x with pend := some none }).ok 0x20 d 0))

/-- The six LEASE_SLOTS operations whose checks pass. `e` is the descriptor with the row's SUBOP. EXTENT_ZERO_BLOCK zeroes the next 4 KiB of
released memory, at most what is left of the first extent of the queue; with nothing released it does nothing. -/
def Obligations.LeaseDescriptors : Prop :=
  (∀ (s : State) (d e : Desc) (i : Fin 256), i = f256 (dU e 10 1) →
      s.Accepts 0x21 e → firstBad ((s.started e).leaseChecks e) = none →
      -- GRANT_SLOT binds a free or orphaned slot to a handle of the target; nothing staged before stays
      (e = setByte d 8 0 → exec (.grantSlot d) s = .next (s.doing e fun t => (t.modSlot i fun q =>
        { q with lease := .held (tgtPav d) (dU e 12 1), staged := none, att := none, attTaken := false }).ok 0x21 e 0))
      -- RELEASE_SLOT of a slot that no enabled output shows gives it back to the pool with its granules
      ∧ (e = setByte d 8 1 → (s.slots[i.val]).cur = none → ∃ t, exec (.releaseSlot d) s = .next t ∧ t.slots[i.val] = {})
      -- GRANT_GRANULES and RELEASE_GRANULES
      ∧ (e = setByte d 8 2 → exec (.grantGranules d) s = .next (s.doing e fun t => (t.modSlot i fun q =>
        { q with granules := q.granules + dU e 14 2 }).ok 0x21 e 0))
      ∧ (e = setByte d 8 3 → exec (.releaseGranules d) s = .next (s.doing e fun t => (t.modSlot i fun q =>
        { q with granules := q.granules - dU e 14 2 }).ok 0x21 e 0))
      -- ADD_EXTENT appends to the target's extents; RELEASE_EXTENT takes one out, to be zeroed
      ∧ (e = setByte d 8 4 → exec (.addExtent d) s = .next (s.doing e fun t => (t.modPav (tgtPav d) fun v =>
        { v with exts := v.exts ++ [{ base := dU e 16 8, len := dU e 24 8 }] }).ok 0x21 e 0))
      ∧ (∀ x : Ext, e = setByte d 8 5 → ((s.pavs[(tgtPav d).val]).exts.find? fun q => q.base == dU e 16 8) = some x →
        exec (.releaseExtent d) s = .next (s.doing e fun t =>
          ({ (t.modPav (tgtPav d) fun v => { v with exts := v.exts.erase x }) with zeroQ := t.zeroQ ++ [x] }).ok 0x21 e 0)))
  ∧ (∀ (s : State), s.Good →
      (s.zeroQ = [] → exec .extentZeroBlock s = .next s)
      ∧ (∀ (e : Ext) (rest : List Ext), s.zeroQ = e :: rest → s.locate e.base = some (.org, e.base) → s.permit 1 false .org e.base (min 4096 e.len) true = true →
        ∃ t, exec .extentZeroBlock s = .next t ∧ t.zeroQ = (if e.len ≤ 4096 then rest else { base := e.base + 4096, len := e.len - 4096 } :: rest)
          ∧ (∀ k, k < min 4096 e.len → t.rdByte .org (e.base + k) = 0)
          ∧ ∀ (m : MemId) (b : Nat), m ≠ .org ∨ b < e.base ∨ e.base + min 4096 e.len ≤ b → t.rdByte m b = s.rdByte m b))

/-- BUDGET_SET whose checks pass applies its entries in order, then posts the events that a raised quota lets through, and completes. An entry
of a quota KIND sets that limit of the target; of KIND 4 a viewport's share; of KIND 5 a regulator's grant, whose bucket keeps no more
than it may hold. A budget period starts once (R344, R345): every quota and DRAM grant starts unused, and what is raised once a period may
be raised again. -/
def Obligations.Budgets : Prop :=
  (∀ (s : State) (d : Desc),
      (s.Accepts 0x22 d → firstBad ((s.started d).budgetChecks d) = none →
        exec (.budgetSet d) s = .next (s.doing d fun t =>
          (((budgetEntries d).foldl (fun t e => t.budgetEntry (tgtPav d) e) t).flushEvents 64 (tgtPav d)).ok 0x22 d 0))
      ∧ (∀ (p : Fin 64) (b k target v : Nat), k < 4 → (((s.budgetEntry p (b, k, target, v)).pavs[p.val]).limits[(f4 k).val]) = w64 v)
      ∧ (∀ (p : Fin 64) (b target v : Nat), s.budgetEntry p (b, 4, target, v) = s.modView p (f8 target) fun x => { x with share := w64 v })
      ∧ (∀ (p : Fin 64) (b target v : Nat), s.budgetEntry p (b, 5, target, v)
          = s.modBport (f83 target) fun x => { x with grant := v, bucket := min x.bucket (x.depth * v * 1000000) }))
  ∧ (∀ (s : State) (k : Nat), s.Good →
      (s.period < k → ∃ t, exec (.budgetPeriodStart k) s = .next t ∧ t.period = k
        ∧ ((∀ p : Fin 64, (s.pavs[p.val]).evHold = []) → ∀ p : Fin 64, (t.pavs[p.val]).used = Vector.replicate 4 0 ∧ (t.pavs[p.val]).deferRaised = Vector.replicate 4 false)
        ∧ (∀ b : Fin 83, (t.bports[b.val]).used = 0 ∧ (t.bports[b.val]).waited = false) ∧ t.dome.alarmSent = false ∧ t.dome.safeOutDone = [] ∧ t.ceRaised = [])
      ∧ (k ≤ s.period → exec (.budgetPeriodStart k) s = .next s))

/-- OUTPUT_MODE whose checks pass, on an output that is enabled in the same mode and link settings and the same rate group: it waits for the
next line 0 with its new parameters. On an output that is not enabled it starts the sequence. With ENABLE = 0 on an enabled output without
a secure layer it waits for the gate; on one not enabled it completes. -/
def Obligations.OutputDescriptors : Prop :=
  ∀ (s : State) (d e : Desc) (o : Fin 8), o = f8 d.handle.toNat →
    (e = setFlag d 0 true → s.Accepts 0x23 e → firstBad ((s.started e).modeChecks o e) = none → s.pwr.xinFail = false →
      ((s.outs[o.val]).enabled = true → (s.outs[o.val]).set.mode = (modeSetOf e).mode → (s.outs[o.val]).set.lanes = (modeSetOf e).lanes →
        (s.outs[o.val]).set.rate = (modeSetOf e).rate → (s.outs[o.val]).set.ssc = (modeSetOf e).ssc → (s.outs[o.val]).set.rg = (modeSetOf e).rg →
        exec (.outputMode d) s = .next (s.doing e fun t => t.modOut o fun u =>
          { u with enableSet := true, job := some { sq := d.sq, seq := d.seq, deferred := false, set := modeSetOf e, wait := .line0 } }))
      ∧ ((s.outs[o.val]).enabled = false → ∃ t, exec (.outputMode d) s = .next t ∧ (t.outs[o.val]).set = modeSetOf e
        ∧ (t.outs[o.val]).job = some { sq := d.sq, seq := d.seq, deferred := false, set := modeSetOf e, wait := .sequence }
        ∧ (t.outs[o.val]).enableSet = true))
    ∧ (e = setFlag d 0 false → s.Accepts 0x23 e → (s.outs[o.val]).job = none →
      ((s.outs[o.val]).enabled = false → exec (.outputDisable d) s = .next (s.doing e fun t => t.ok 0x23 d 0))
      ∧ ((s.outs[o.val]).enabled = true → (s.belvs[o.val]).cfg.getLsbD 0 = false →
        exec (.outputDisable d) s = .next (s.doing e fun t =>
          { (t.modOut o fun u => { u with enableSet := false, job := some { sq := d.sq, seq := d.seq, deferred := false, set := u.set, wait := .gate } })
            with clk := { t.clk with gateWait := putB t.clk.gateWait (15 + o.val) true } })))

/-- The three WALL_COMMIT_CFG operations whose checks pass. `e` is the descriptor with the row's SUBOP. -/
def Obligations.WallDescriptors : Prop :=
  ∀ (s : State) (d e : Desc), s.Accepts 0x24 e → firstBad ((s.started e).wallChecks e) = none →
    (e = setByte d 8 0 → exec (.wallParams d) s = .next (s.doing e fun t =>
      ({ t with spire := { t.spire with leads := upd t.spire.leads (f4 d.handle.toNat) fun _ => dU e 10 2 } }).ok 0x24 e 0))
    ∧ (e = setByte d 8 1 → exec (.groupDefine d) s = .next (s.doing e fun t =>
      ({ t with groupDefs := t.groupDefs ++ [({ gid := dU e 12 2, members := groupMembers e } : GroupDef)] } : State).ok 0x24 e 0))
    ∧ (e = setByte d 8 2 → ∃ t, exec (.groupDelete d) s = .next t ∧ t.groupDefs = s.groupDefs.filter fun q => q.gid != dU e 12 2)

/-- A completion record that has room is written at the tail's entry, then the new tail at the shadow address, before any interrupt; with no
room, or without Bus Master Enable, it waits in order. The record holds the descriptor's number, its status, ring, opcode, field byte and
RESULT. -/
def Obligations.CompletionRecords : Prop :=
  (∀ (s : State) (p : Fin 64) (r : BitVec 128), (s.pavs[p.val]).cq.enable = true → (s.pavs[p.val]).bme = true → (s.pavs[p.val]).cq.held = [] →
    0 < cqFree (s.pavs[p.val]).cq → (s.pavs[p.val]).cq.unsig + 1 < modCount (s.pavs[p.val]).cq.mod →
    s.postCq p r = (((s.emit (.hostWrite p ((s.pavs[p.val]).cq.base.toNat + (s.pavs[p.val]).cq.tail.toNat % 2 ^ (s.pavs[p.val]).cq.size * 16)
      (leBytes 16 r.toNat))).emit (.hostWrite p (s.pavs[p.val]).cq.shadow.toNat (leBytes 4 ((s.pavs[p.val]).cq.tail + 1).toNat))).modCq p
        fun c => { c with tail := c.tail + 1, unsig := c.unsig + 1, timer := true }))
  ∧ (∀ (s : State) (p : Fin 64) (r : BitVec 128), (s.pavs[p.val]).cq.enable = false ∨ (s.pavs[p.val]).bme = false ∨ cqFree (s.pavs[p.val]).cq = 0 →
    s.postCq p r = s.modCq p fun c => { c with held := c.held ++ [r] })
  ∧ (∀ (seq : BitVec 16) (st : Nat) (sq : Fin 8) (d l h : Bool) (op : BitVec 8) (f x : Nat), st < 256 → f < 256 → x < 2 ^ 64 →
    let r := (cqRecord seq st sq d l h op f x).toNat
    bits r 15 0 = seq.toNat ∧ bits r 23 16 = st ∧ bits r 26 24 = sq.val ∧ bits r 27 27 = b2n d ∧ bits r 28 28 = b2n l ∧ bits r 29 29 = b2n h
      ∧ bits r 39 32 = op.toNat ∧ bits r 47 40 = f ∧ bits r 127 64 = x)

/-- An event reaches a Pavilion's event ring only if it is armed there or non-maskable; an armed one with room and quota is posted, and one
that finds less than two free entries is counted in PAV_EQ_LOST. -/
def Obligations.EventDelivery : Prop :=
  (∀ c : Nat, isNmi c = true ↔ c = 0x40 ∨ c = 0x51 ∨ c = 0x52)
  ∧ (∀ (s : State) (p : Fin 64) (e : Ev), isNmi e.code = false → (s.pavs[p.val]).armed.getLsbD e.code = false → s.deliver p e = s)
  ∧ (∀ (s : State) (p : Fin 64) (e : Ev), isNmi e.code = false → (s.pavs[p.val]).armed.getLsbD e.code = true → (s.pavs[p.val]).present = true →
    (s.pavs[p.val]).ready = true → quotaUp s.pavs[p.val] 3 = false → (s.pavs[p.val]).eq.owed = false → (s.pavs[p.val]).bme = true →
    2 ≤ eqFree (s.pavs[p.val]).eq → s.deliver p e = (s.eqWrite p e).noteQuota p 3)
  ∧ (∀ (s : State) (p : Fin 64) (e : Ev), isNmi e.code = false → (s.pavs[p.val]).armed.getLsbD e.code = true → (s.pavs[p.val]).present = true →
    (s.pavs[p.val]).ready = true → quotaUp s.pavs[p.val] 3 = false → eqFree (s.pavs[p.val]).eq < 2 →
    (s.deliver p e).pavs[p.val].eq.lost = satInc (s.pavs[p.val]).eq.lost)
  ∧ (∀ (s : State) (p : Fin 64) (e : Ev), isNmi e.code = true → (s.pavs[p.val]).present = true → ((s.deliver p e).pavs[p.val]).nmiPending = true)

/-- The event log: an entry is written at index HEAD mod 4,096, then HEAD advances; a write into a full log first advances TAIL and counts the
loss, which saturates. -/
def Obligations.EventLog : Prop :=
  ∀ (s : State) (e : Ev), notLogged e = false →
    (gap s.evt.tail s.evt.head ≠ 4096 →
      s.logWrite e = { (s.logStore s.evt.head.toNat (logEntry e (s.evt.count.toNat % 65536))) with
        evt := { s.evt with head := s.evt.head + 1, count := s.evt.count + 1 } })
    ∧ (gap s.evt.tail s.evt.head = 4096 → (s.logWrite e).evt.tail = s.evt.tail + 1 ∧ (s.logWrite e).evt.head = s.evt.head + 1
      ∧ (s.logWrite e).evt.lost = satInc s.evt.lost)
    -- where no watermark is set up, or the FABRIC may write it, the entry's bytes are those of the log's slot
    ∧ (∀ k : Nat, s.permit 1 false .org (0x1FE0000 + k % 4096 * 32) 32 true = true →
      (s.logStore k (logEntry e (s.evt.count.toNat % 65536))).rdBytes .org (0x1FE0000 + k % 4096 * 32) 32 = logEntry e (s.evt.count.toNat % 65536))
    ∧ (satInc (BitVec.allOnes 32) = BitVec.allOnes 32)
    ∧ (logEntry e (s.evt.count.toNat % 65536)).length = 32

/-- Gating requests of a Spire link's island: SL_GATE_REQUEST begins a wait, SL_GATE_RELEASE ends it; GATE_IDLE gates the island once the link
is off, and GATE_TIMEOUT ends the wait with an error that is counted and reported. The gate of an output's island: when it is idle, with no AUX access
in flight, the OUTPUT_MODE that waits for it ends with the output disabled and its islands stopped; a time-out with one in flight leaves the output
enabled and is counted. A time-out of an island that is idle gates it (R8).
An island with no work stops by itself, one with work does not. What AUTO_GATE and the ends of a gate wait leave beside the spec's words
is in log 28. -/
def Obligations.GateRequests : Prop :=
  (∀ (s : State) (l : Fin 12) (i : Fin 45), s.Good → i.val = 23 + l.val →
      (s.HostTo 0 → s.clk.gateReq.getLsbD l.val = false → exec (.slGateRequest l) s = .next { s with clk := { s.clk with
        gateReq := putB s.clk.gateReq l.val true, gateWait := putB s.clk.gateWait (23 + l.val) true } })
      ∧ (s.HostTo 0 → s.clk.gateReq.getLsbD l.val = true → exec (.slGateRequest l) s = .next s)
      ∧ (s.HostTo 0 → s.clk.gateReq.getLsbD l.val = true → (s.spire.links[l.val]).enable = false → exec (.slGateRelease l) s = .next { s with clk := { s.clk with
        gateReq := putB s.clk.gateReq l.val false, gateWait := putB s.clk.gateWait (23 + l.val) false, gated := putB s.clk.gated (23 + l.val) false } })
      -- a link that is enabled and paired trains again
      ∧ (s.HostTo 0 → s.clk.gateReq.getLsbD l.val = true → (s.spire.links[l.val]).enable = true → (s.spire.links[l.val]).st = .off →
        (s.spire.pairing l).isSome = true → ∃ t, exec (.slGateRelease l) s = .next t ∧ (t.spire.links[l.val]).st = .train
          ∧ t.clk.gateReq = putB s.clk.gateReq l.val false ∧ t.clk.gated = putB s.clk.gated (23 + l.val) false ∧ t.clk.run.getLsbD (23 + l.val) = true)
      ∧ (s.clk.gateWait.getLsbD i.val = true → (s.spire.links[l.val]).st = .off → (s.spire.links[l.val]).waiting = [] →
        exec (.gateIdle i) s = .next { s with clk := { s.clk with
          gateWait := putB s.clk.gateWait i.val false, run := putB s.clk.run i.val false, gated := putB s.clk.gated i.val true } })
      -- a time-out finds the island idle (R8): it is gated, as above
      ∧ (s.clk.gateWait.getLsbD i.val = true → (s.spire.links[l.val]).st = .off → (s.spire.links[l.val]).waiting = [] →
        exec (.gateTimeout i) s = .next { s with clk := { s.clk with
          gateWait := putB s.clk.gateWait i.val false, run := putB s.clk.run i.val false, gated := putB s.clk.gated i.val true } })
      ∧ (s.clk.gateWait.getLsbD i.val = true → (s.spire.links[l.val]).st ≠ .off ∨ (s.spire.links[l.val]).waiting ≠ [] →
        ∃ t, exec (.gateTimeout i) s = .next t ∧ t.clk.gateReq = putB s.clk.gateReq l.val false
        ∧ t.clk.gateErr = putB s.clk.gateErr l.val true ∧ t.clk.gateWait = putB s.clk.gateWait i.val false ∧ t.clk.timeouts = satInc s.clk.timeouts
        ∧ t.spire = s.spire))
  ∧ (∀ (s : State) (o : Fin 8) (i : Fin 45) (j : ModeJob), s.Good → i.val = 15 + o.val →
      (∀ c : Instr, c = .gateIdle i ∨ (c = .gateTimeout i ∧ s.clk.gateWait.getLsbD i.val = true) →
        (s.outs[o.val]).job = some j → j.wait = .gate → (s.belvs[o.val]).cfg.getLsbD 0 = false → (s.outs[o.val]).auxBusy = false →
        ∃ t, exec c s = .next t ∧ (t.outs[o.val]).enabled = false ∧ (t.outs[o.val]).job = none ∧ (t.outs[o.val]).pvalid = false
          ∧ t.clk.run.getLsbD (7 + o.val) = false ∧ t.clk.run.getLsbD (15 + o.val) = false ∧ t.clk.gated.getLsbD (15 + o.val) = true)
      ∧ ((s.outs[o.val]).job = some j → j.wait = .gate → (s.belvs[o.val]).cfg.getLsbD 0 = false → (s.outs[o.val]).auxBusy = true →
        s.clk.gateWait.getLsbD i.val = true → ∃ t, exec (.gateTimeout i) s = .next t ∧ (t.outs[o.val]).job = none ∧ (t.outs[o.val]).enabled = (s.outs[o.val]).enabled
          ∧ (t.outs[o.val]).enableSet = true ∧ t.clk.timeouts = satInc s.clk.timeouts)
      ∧ (∀ k : Fin 45, s.islandWork k.val = false → exec (.autoGate k) s = .next { s with clk := { s.clk with run := putB s.clk.run k.val false } })
      ∧ (∀ k : Fin 45, s.islandWork k.val = true → exec (.autoGate k) s = .next s))

/-- The clock sources. XIN_STABLE makes XIN usable and restarts the monitor's tracked count; XIN_LOST while the device runs puts it on RCO,
with every PLL that XIN feeds unlocked; REFCLK_LOST takes a host port's link down; each failure leaves its code. A forced switch is
counted. The frequency monitor: the first 64 windows form the tracked count, which holds 256ths of a cycle; from then on each window moves
it by a 64th of the difference, and a window within 1 % judges nothing. A PLL that loses its reference coasts; it locks again on
PLL_RELOCK, unless XIN feeds it and has failed. RCO stopped (R555): the AON domain moves to XIN and the Dome and the Pavilions are told;
where the device runs on RCO already, no clock is left. The order of the monitor's judgement is the model's reading (log 28). -/
def Obligations.ClocksAndPlls : Prop :=
  (∀ (s : State), s.Good →
      (s.clk.xinOk = false → exec .xinStable s = .next { s with clk := { s.clk with
        xinOk := true, monTracking := false, monSum := 0, monWindows := 0, monBad := 0 } })
      ∧ (s.clk.xinOk = true → s.clk.onRco = false → ∃ t, exec .xinLost s = .next t ∧ t.clk.xinOk = false ∧ t.clk.onRco = true ∧ t.clk.failCode = 1
        ∧ ∀ n : Fin 48, xinPll n.val = true → t.clk.pllLock.getLsbD n.val = false)
      ∧ (∀ n : Fin 4, s.clk.refclkOk.getLsbD n.val = true → ∃ t, exec (.refclkLost n) s = .next t ∧ t.clk.refclkOk.getLsbD n.val = false
        ∧ (t.ports[n.val]).linkUp = false ∧ t.clk.failCode = 0x10 + n.val)
      ∧ (∀ i : Fin 45, ∃ t, exec (.switchForceTimeout i) s = .next t ∧ t.clk.forced = satInc s.clk.forced ∧ t.outs = s.outs))
  ∧ (∀ (s : State) (count : Nat) (refs : Vector Nat 4), s.Good → s.clk.rcoFail = false → s.clk.xinOk = true →
      (s.clk.monWindows < 63 → exec (.monitorWindow count refs) s = .next { s with clk := { s.clk with
        monCount := count, monSum := s.clk.monSum + count, monWindows := s.clk.monWindows + 1, monTracking := false } })
      ∧ (s.clk.monWindows = 63 → exec (.monitorWindow count refs) s = .next { s with clk := { s.clk with
        monCount := count, monSum := s.clk.monSum + count, monWindows := 64, monTracking := true, monTrack := (s.clk.monSum + count) * 256 / 64 } })
      ∧ (64 ≤ s.clk.monWindows → s.clk.monBad = 0 → (((count * 256 : Nat) : Int) - (s.clk.monTrack : Int)).natAbs * 100 ≤ s.clk.monTrack →
        exec (.monitorWindow count refs) s = .next { s with clk := { s.clk with
          monCount := count, monBad := 0
          monTrack := ((s.clk.monTrack : Int) + (((count * 256 : Nat) : Int) - (s.clk.monTrack : Int)) / 64).toNat } })
      -- after an off-frequency window the reference clocks decide: more than half of those locked agree with XIN within 0.6 %, or XIN has failed
      ∧ (64 ≤ s.clk.monWindows → s.clk.monBad ≠ 0 → s.clk.onRco = false → s.clk.aonOnXin = false → ∃ t, exec (.monitorWindow count refs) s = .next t
        ∧ (let near := (List.range 4).filter fun n => s.clk.pllLock.getLsbD (36 + n) && decide ((((refs.toList.getD n 0 : Nat) : Int) - 2 * (count : Int)).natAbs * 1000 ≤ 2 * count * 6)
           let locked := (List.range 4).filter fun n => s.clk.pllLock.getLsbD (36 + n)
           if locked.length < 2 * near.length then t.clk.rcoFail = true ∧ t.clk.aonOnXin = true else t.clk.onRco = true ∧ t.clk.failCode = 2)))
  ∧ (∀ (s : State) (n : Fin 48), s.Good →
      (s.clk.pllLock.getLsbD n.val = true → ∃ t, exec (.pllReferenceLost n) s = .next t ∧ t.clk.pllLock = putB s.clk.pllLock n.val false
        ∧ t.clk.pllCoast = putB s.clk.pllCoast n.val true)
      ∧ (s.clk.pllCoast.getLsbD n.val = true → xinPll n.val = false ∨ s.clk.onRco = false → ∃ t, exec (.pllRelock n) s = .next t
        ∧ t.clk.pllLock = putB s.clk.pllLock n.val true ∧ t.clk.pllCoast = putB s.clk.pllCoast n.val false)
      ∧ (s.clk.pllCoast.getLsbD n.val = true → xinPll n.val = true → s.clk.onRco = true → exec (.pllRelock n) s = .next s))
  ∧ ((∀ s : State, s.Good → s.clk.onRco = false → s.clk.rcoFail = false → ∃ t, exec .rcoStopped s = .next t ∧ t.clk.rcoFail = true ∧ t.clk.aonOnXin = true ∧ t.clk.failCode = 3
      ∧ t.pwr.reset = .running)
    ∧ (∀ s : State, s.Inv → s.pwr.reset = .running ∨ s.pwr.reset = .warm ∨ s.pwr.reset = .tripped → s.clk.onRco = true → ∃ t, exec .rcoStopped s = .next t ∧ t.pwr.reset = .dead))

/-- FRAME_START on an enabled output: within a line of its grid instant line 0 begins; farther off the output is re-phased. An output that is
not enabled, or coasts, starts no frame. OUTPUT_MODE_COMPLETE ends the sequence of an OUTPUT_MODE: its settings are in effect and a first
frame scans. Which frames start is the model's reading (log 31). -/
def Obligations.FrameStart : Prop :=
  (∀ (s : State) (o : Fin 8) (f : Nat) (err : Int), s.Good →
      ((s.outs[o.val]).enabled = true → (s.outs[o.val]).coast = false → (s.outs[o.val]).job = none →
        err.natAbs * 1000 ≤ (s.outs[o.val]).mode.linePs → ∃ t, exec (.frameStart o f err) s = .next t ∧ (t.outs[o.val]).frame = w64 f
          ∧ (t.outs[o.val]).scanning = true ∧ (t.outs[o.val]).vblank = false ∧ (t.outs[o.val]).gridErr = err
          ∧ (t.outs[o.val]).frameCount = (s.outs[o.val]).frameCount + 1 ∧ (t.outs[o.val]).underrunAt = none)
      ∧ ((s.outs[o.val]).enabled = true → (s.outs[o.val]).coast = false → (s.outs[o.val]).job = none →
        (s.outs[o.val]).mode.linePs < err.natAbs * 1000 → ∃ t, exec (.frameStart o f err) s = .next t ∧ (t.outs[o.val]).rephase = true
          ∧ (t.outs[o.val]).scanning = false ∧ (t.outs[o.val]).pvalid = false ∧ (t.outs[o.val]).rephases = satInc (s.outs[o.val]).rephases)
      ∧ ((s.outs[o.val]).enabled = false ∨ (s.outs[o.val]).coast = true → exec (.frameStart o f err) s = .next s))
  ∧ (∀ (s : State) (o : Fin 8) (j : ModeJob), s.Good → (s.outs[o.val]).job = some j → j.wait = .sequence →
      ∃ t, exec (.outputModeComplete o) s = .next t ∧ (t.outs[o.val]).enabled = true ∧ (t.outs[o.val]).set = j.set ∧ (t.outs[o.val]).job = none
        ∧ (t.outs[o.val]).scanning = true ∧ t.clk.run.getLsbD (7 + o.val) = true ∧ t.clk.run.getLsbD (15 + o.val) = true)

/-- The cut-off of frame F closes the window of F on its output, once; the latch of F then opens that of F + 1. Neither acts on an output that
is not enabled. The decision of a group without WALL at a cut-off: ready, it waits for the latch of this frame; not ready, it is held for
the next frame, unless this is the last frame of its expiry: then it is discarded. The order of cut-off and latch on one output is the
model's reading (log 31). -/
def Obligations.CutOffAndLatch : Prop :=
  (∀ (s : State) (o : Fin 8) (f : Nat), s.Good →
      ((s.outs[o.val]).enabled = true → (s.comps[o.val]).lastCut < f → ∃ t, exec (.commitCutoff o f) s = .next t
        ∧ (t.comps[o.val]).winFrame = f ∧ (t.comps[o.val]).winOpen = false)
      ∧ ((s.outs[o.val]).enabled = false ∨ f ≤ (s.comps[o.val]).lastCut → exec (.commitCutoff o f) s = .next s)
      ∧ ((s.outs[o.val]).enabled = true → (s.comps[o.val]).winOpen = false → (s.comps[o.val]).winFrame = f → ∃ t, exec (.latch o f) s = .next t
        ∧ (t.comps[o.val]).winFrame = f + 1 ∧ (t.comps[o.val]).winOpen = true ∧ (t.comps[o.val]).latchFrame = w64 f
        ∧ (t.comps[o.val]).bgLive = (s.comps[o.val]).bg)
      ∧ ((s.outs[o.val]).enabled = false ∨ (s.comps[o.val]).winOpen = true → exec (.latch o f) s = .next s))
  ∧ (∀ (s : State) (o : Fin 8) (f : Nat) (g : Group), s.groups = [g] → g.wall = false → g.st ≠ .latchWait → g.target ≤ f → g.first ≤ f →
      g.outs.contains o = true →
      (s.groupReady g f = true → s.cutTaken g f = false → (s.decidePlain o f).groups = [{ g with st := .latchWait, target := f }])
      ∧ (s.groupReady g f = false ∨ s.cutTaken g f = true → f + 1 < g.first + g.expiry →
        ∃ h, (s.decidePlain o f).groups = [h] ∧ h.st = .held ∧ h.target = f + 1 ∧ h.members = g.members ∧ h.fenceHold = true)
      ∧ (s.groupReady g f = false ∨ s.cutTaken g f = true → g.first + g.expiry ≤ f + 1 → (s.decidePlain o f).groups = []))

/-- FRAME_END of the frame that an output scans: vertical blanking begins, and the commits that latched for it complete; of any other frame,
and on an output not enabled, it does not touch the raster. UNDERRUN in an active line of composed content aborts the frame at that line;
under a safe frame it marks the discarded frame as failed. Each is counted. An output that does not scan has none. -/
def Obligations.FrameEndAndUnderrun : Prop :=
  (∀ (s : State) (o : Fin 8) (f : Nat), s.Good →
      ((s.outs[o.val]).enabled = true → (s.outs[o.val]).scanning = true → (s.outs[o.val]).vblank = false → (s.outs[o.val]).frame = w64 f →
        ∃ t, exec (.frameEnd o f) s = .next t ∧ (t.outs[o.val]).vblank = true ∧ (t.outs[o.val]).frame = w64 f
          ∧ t.doneQ = s.doneQ.filter fun d => !(d.m.out == o && decide (d.frame ≤ f)))
      -- of a frame that the output does not scan, the commits latched for it and for earlier ones complete all the same
      ∧ ((s.outs[o.val]).enabled = true → (s.outs[o.val]).scanning = false ∨ (s.outs[o.val]).vblank = true ∨ (s.outs[o.val]).frame ≠ w64 f →
        ∃ t, exec (.frameEnd o f) s = .next t ∧ (t.outs[o.val]).vblank = (s.outs[o.val]).vblank ∧ (t.outs[o.val]).frame = (s.outs[o.val]).frame
          ∧ t.doneQ = s.doneQ.filter fun d => !(d.m.out == o && decide (d.frame ≤ f)))
      ∧ ((s.outs[o.val]).enabled = false → exec (.frameEnd o f) s = .next s))
  ∧ (∀ (s : State) (o : Fin 8) (line : Nat), s.Good →
      ((s.outs[o.val]).scanning = true → (s.outs[o.val]).vblank = false → (s.outs[o.val]).underrunAt = none → (s.outs[o.val]).discardFail = false →
        line < (s.outs[o.val]).mode.h → ∃ t, exec (.underrun o line) s = .next t ∧ (t.outs[o.val]).underruns = satInc (s.outs[o.val]).underruns
          ∧ ((s.outs[o.val]).safe = false → (t.outs[o.val]).underrunAt = some line ∧ (t.outs[o.val]).abortRun = (s.outs[o.val]).abortRun + 1)
          ∧ ((s.outs[o.val]).safe = true → (t.outs[o.val]).discardFail = true ∧ (t.outs[o.val]).pvalid = (s.outs[o.val]).pvalid))
      -- one that finds no line to abort: no active line, a frame aborted or discarded already
      ∧ ((s.outs[o.val]).scanning = false ∨ (s.outs[o.val]).vblank = true ∨ (s.outs[o.val]).underrunAt ≠ none ∨ (s.outs[o.val]).discardFail = true
        ∨ (s.outs[o.val]).mode.h ≤ line → exec (.underrun o line) s = .next s))

/-- LINE_MATCH at the output's line with its own match enabled and no viewport mapped there: Spire time is the line's instant and
EV_LINE_MATCH goes to the manager. At another line nothing is reported. CAPTURE_REQUEST_DROP loses one line of the capture of its
viewport. SAFE_FRAME_LINE_READ of a line that reads well changes nothing, and one that meets an uncorrectable error clears SF_VERIFIED at
once. FRESHNESS_CHECK of a layer slot shown on an output: its age is counted from the timestamp of its latched buffer to the instant of
the layer's first line, and the layer is stale when the age reaches its first limit or it lost its producer. -/
def Obligations.LinesAndFreshness : Prop :=
  (∀ (s : State) (o : Fin 8) (line : Nat), s.Good → (s.outs[o.val]).scanning = true → line < (s.outs[o.val]).mode.vTotal → s.mapped o = [] →
      ((s.outs[o.val]).lineMatch.getLsbD 31 = true → bits (s.outs[o.val]).lineMatch.toNat 15 0 = line →
        exec (.lineMatch o line) s = .next (s.run fun s =>
          let t := s.upTo (s.gridPs (s.outs[o.val]).set.rg (s.outs[o.val]).frame.toNat + line * (s.outs[o.val]).mode.linePs)
          t.raise0 { code := evLineMatch, inst := o.val, time := t.spire.now, frame := (s.outs[o.val]).frame.toNat, detail := line }))
      ∧ (bits (s.outs[o.val]).lineMatch.toNat 15 0 ≠ line → exec (.lineMatch o line) s = .next (s.run fun s =>
        s.upTo (s.gridPs (s.outs[o.val]).set.rg (s.outs[o.val]).frame.toNat + line * (s.outs[o.val]).mode.linePs))))
  -- with one viewport mapped there whose match is that line: its Pavilion is told, in its own lines
  ∧ (∀ (s : State) (o : Fin 8) (p : Fin 64) (v : Fin 8) (m : VMap) (l : Nat), s.Good → (s.outs[o.val]).scanning = true →
      m.rect.y0 + l < (s.outs[o.val]).mode.vTotal → s.mapped o = [(p, v, m)] → ((s.pavs[p.val]).views[v.val]).lmLine = some l →
      (s.outs[o.val]).lineMatch.getLsbD 31 = false → exec (.lineMatch o (m.rect.y0 + l)) s = .next (s.run fun s =>
          let t := s.upTo (s.gridPs (s.outs[o.val]).set.rg (s.outs[o.val]).frame.toNat + (m.rect.y0 + l) * (s.outs[o.val]).mode.linePs)
          t.deliver p { code := evLineMatch, inst := 0xFF, view := v.val, time := t.spire.now, frame := (s.outs[o.val]).frame.toNat, detail := l }))
  -- whatever is mapped there, a line of the raster moves Spire time to its instant; a line the raster does not have, nothing
  ∧ (∀ (s : State) (o : Fin 8) (line : Nat), s.Good →
      ((s.outs[o.val]).scanning = true → line < (s.outs[o.val]).mode.vTotal → ∃ t, exec (.lineMatch o line) s = .next t
        ∧ (s.gridPs (s.outs[o.val]).set.rg (s.outs[o.val]).frame.toNat + line * (s.outs[o.val]).mode.linePs) / 1000 % 2 ^ 64 ≤ t.spire.now.toNat
        ∧ s.spire.now.toNat ≤ t.spire.now.toNat)
      ∧ ((s.outs[o.val]).scanning = false ∨ (s.outs[o.val]).mode.vTotal ≤ line → exec (.lineMatch o line) s = .next s))
  ∧ (∀ (s : State) (o : Fin 8) (line : Nat), s.Good →
      (∀ (p : Fin 64) (v : Fin 8), exec (.captureRequestDrop o p v line) s = .next (s.modOut o fun u => { u with caps := u.caps.map fun c =>
        if c.pav == p && c.view == v && c.inFrame then
          { c with incomplete := true, lost := if c.lost.contains line || decide (c.rect.h ≤ line) then c.lost else line :: c.lost }
        else c }))
      ∧ ((s.outs[o.val]).scanning = true → (s.outs[o.val]).safe = true → s.keep.sfVerified.getLsbD o.val = true → line < 539 →
        s.permit 9 true .keep (sfBase o + 0x800 + line * 960) 960 false = true →
        (s.poisoned .keep (sfBase o + 0x800 + line * 960) 960 = false → errIn s.flips .keep (sfBase o + 0x800 + line * 960) 960 = [] → line ≠ 0 →
          ∃ t, exec (.safeFrameLineRead o line) s = .next t ∧ t.keep = s.keep
            ∧ (t.outs[o.val]).sfLine = if line = (s.outs[o.val]).sfLine then line + 1 else (s.outs[o.val]).sfLine)
        ∧ (s.poisoned .keep (sfBase o + 0x800 + line * 960) 960 = true → ∃ t, exec (.safeFrameLineRead o line) s = .next t
          ∧ t.keep.sfVerified = putB s.keep.sfVerified o.val false ∧ t.keep.ue = satInc s.keep.ue)))
  ∧ (∀ (s : State) (o : Fin 8) (f : Nat) (i : Fin 256) (q : Placed) (a : Attach), s.Good → (s.outs[o.val]).enabled = true →
      s.checkable o i = some q → q.lat.buf = some a → ¬ (248 ≤ i.val ∧ (s.belvs[(f8 (i.val - 248)).val]).cur = none) →
      let at_ := (s.gridPs (s.outs[o.val]).set.rg f + q.clip.y0 * (s.outs[o.val]).mode.linePs) / 1000
      let age := at_ - (timeAt a.was a.time at_).toNat
      ∃ t, exec (.freshnessCheck o f i) s = .next t ∧ (t.slots[i.val]).checked = true ∧ (t.slots[i.val]).age = w64 age
        ∧ (t.slots[i.val]).stale = ((s.slots[i.val]).lost || decide ((s.limits i q.lat).1 * 1000 ≤ age))
        ∧ (t.slots[i.val]).cur = (s.slots[i.val]).cur ∧ (t.slots[i.val]).lease = (s.slots[i.val]).lease)
  -- a Belvedere slot without content is stale and beyond its second limit; a slot that the output does not show is not checked
  ∧ (∀ (s : State) (o : Fin 8) (f : Nat) (i : Fin 256) (q : Placed), s.Good → (s.outs[o.val]).enabled = true → s.checkable o i = some q → 248 ≤ i.val →
      (s.belvs[(f8 (i.val - 248)).val]).cur = none →
      ∃ t, exec (.freshnessCheck o f i) s = .next t ∧ (t.slots[i.val]).checked = true ∧ (t.slots[i.val]).stale = true ∧ (t.slots[i.val]).over2 = true)
  ∧ (∀ (s : State) (o : Fin 8) (f : Nat) (i : Fin 256), s.Good → (s.outs[o.val]).enabled = false ∨ s.checkable o i = none →
      exec (.freshnessCheck o f i) s = .next s)

/-- Hot plug, AUX and link training of an output. HPD_PLUG on an output that is on starts a training (R221); HPD_UNPLUG abandons it and PVALID falls
(R228); HPD_IRQ is counted and starts a training where the lanes have lost their lock (R227). AUX_TIMEOUT sends the access again, at most 7 times;
then the training fails at stage 1, the EDID read ends with ERR 2, or the access of an HPD_IRQ is given up (R224). LINK_TRAINING_COMPLETE makes
the accesses of the steps it reached and ends the training: with the mode's lanes and rate active, or with the stage that failed (R225).
TRAIN_RETRY_TIMER starts it again. EDID_READ_DONE ends an EDID read (R229). Which timeouts are of one request is the model's reading (log 21). -/
def Obligations.LinkTraining : Prop :=
  ∀ (s : State) (o : Fin 8), s.Good →
    ((s.outs[o.val]).hpd = false → ∃ t, exec (.hpdPlug o) s = .next t ∧ (t.outs[o.val]).hpd = true
      ∧ (t.outs[o.val]).training = ((s.outs[o.val]).training || (s.outs[o.val]).on) ∧ t.clk.run.getLsbD (islOut o.val) = true)
    ∧ ((s.outs[o.val]).hpd = true → exec (.hpdPlug o) s = .next s)
    ∧ ((s.outs[o.val]).hpd = true → ∃ t, exec (.hpdUnplug o) s = .next t ∧ (t.outs[o.val]).hpd = false ∧ (t.outs[o.val]).training = false
      ∧ (t.outs[o.val]).pvalid = false)
    ∧ ((s.outs[o.val]).hpd = false → exec (.hpdUnplug o) s = .next s ∧ ∀ st, exec (.hpdIrq o st) s = .next s)
    ∧ (∀ status : Option (BitVec 64), (s.outs[o.val]).hpd = true → ∃ t, exec (.hpdIrq o status) s = .next t
      ∧ (t.outs[o.val]).irqs = satInc16 (s.outs[o.val]).irqs ∧ (t.outs[o.val]).hpd = true ∧ t.clk.run.getLsbD (islOut o.val) = true)
    ∧ (∀ status : BitVec 64, (s.outs[o.val]).hpd = true → (s.outs[o.val]).on = true → (s.outs[o.val]).trained = true → (s.outs[o.val]).training = false →
      ∃ t, exec (.hpdIrq o (some status)) s = .next t ∧ (t.outs[o.val]).training = lockLost (s.outs[o.val]).set.lanes status
        ∧ (t.outs[o.val]).trained = !lockLost (s.outs[o.val]).set.lanes status)
    -- an access without a reply is sent again
    ∧ (∀ x : AuxAcc, (s.outs[o.val]).auxLast = some x → (s.outs[o.val]).auxRetries < 7 →
      ((s.outs[o.val]).training = true ∧ isTrainAcc x = true) ∨ ((s.outs[o.val]).edidBusy = true ∧ x = edidAcc (s.outs[o.val]).edidBlock)
        ∨ (s.outs[o.val]).auxOp = some x →
      ∀ (why : AuxMiss) (run : TrainRun),
        exec (.auxTimeout o ⟨x, why, run⟩) s = .next ((s.modOut o fun u => { u with auxRetries := u.auxRetries + 1 }).emit (auxTx o x)))
    -- the first miss of a training's access shows those made before it, and its first retry
    ∧ (∀ (x : AuxAcc) (why : AuxMiss) (run : TrainRun) (i : Nat), (s.outs[o.val]).training = true → isTrainAcc x = true → (s.outs[o.val]).auxLast ≠ some x →
      ((trainPlan run (s.outs[o.val]).set).drop (s.outs[o.val]).auxDone).findIdx? (· == x) = some i →
      ∃ t, exec (.auxTimeout o ⟨x, why, run⟩) s = .next t ∧ (t.outs[o.val]).auxRetries = 1 ∧ (t.outs[o.val]).auxLast = some x
        ∧ (t.outs[o.val]).auxDone = (s.outs[o.val]).auxDone + i + 1
        ∧ t.tx = auxTx o x :: ((((trainPlan run (s.outs[o.val]).set).drop (s.outs[o.val]).auxDone).take (i + 1)).map (auxTx o)).reverse ++ s.tx)
    -- after 7 of them the training fails, the EDID read ends, the access is given up
    ∧ (∀ (x : AuxAcc) (why : AuxMiss) (run : TrainRun), (s.outs[o.val]).auxLast = some x → (s.outs[o.val]).auxRetries = 7 → (s.outs[o.val]).training = true →
      isTrainAcc x = true → (s.outs[o.val]).edidBusy = false →
      ∃ t, exec (.auxTimeout o ⟨x, why, run⟩) s = .next t ∧ (t.outs[o.val]).training = false ∧ (t.outs[o.val]).trained = false ∧ (t.outs[o.val]).failStage = 1
        ∧ (t.outs[o.val]).fail = true)
    ∧ ((s.outs[o.val]).edidBusy = true → (s.outs[o.val]).auxLast = some (edidAcc (s.outs[o.val]).edidBlock) → (s.outs[o.val]).auxRetries = 7 →
      ∀ (why : AuxMiss) (run : TrainRun), exec (.auxTimeout o ⟨edidAcc (s.outs[o.val]).edidBlock, why, run⟩) s = .next (s.modOut o fun u =>
        { u with edidBusy := false, edidDone := true, edidErr := 2, auxRetries := 0, auxLast := none }))
    ∧ (∀ (x : AuxAcc) (why : AuxMiss) (run : TrainRun), (s.outs[o.val]).auxLast = some x → (s.outs[o.val]).auxRetries = 7 →
      (s.outs[o.val]).training = false → (s.outs[o.val]).edidBusy = false → (s.outs[o.val]).auxOp = some x → exec (.auxTimeout o ⟨x, why, run⟩) s = .next (s.modOut o fun u => { u with auxOp := none, auxRetries := 0, auxLast := none }))
    -- the end of a training: the stage at which the run stopped, stage 2 where the sink's capabilities do not reach the mode's rate and lanes
    ∧ (∀ r : TrainRun, (s.outs[o.val]).training = true →
      (r.stage = 0 → capFits r (s.outs[o.val]).set.rate (s.outs[o.val]).set.lanes = true → ∃ t, exec (.linkTrainingComplete o r) s = .next t
        ∧ (t.outs[o.val]).trained = true ∧ (t.outs[o.val]).training = false ∧ (t.outs[o.val]).lanesActive = (s.outs[o.val]).set.lanes
        ∧ (t.outs[o.val]).rateActive = (s.outs[o.val]).set.rate
        ∧ t.tx = (((trainReads r (s.outs[o.val]).set ++ trainWrites r (s.outs[o.val]).set ++ trainTries r (s.outs[o.val]).set
            ++ [AuxAcc.write 0x102 0]).drop (s.outs[o.val]).auxDone).map (auxTx o)).reverse ++ s.tx)
      ∧ (∀ n : Nat, (n = 1 ∧ r.stage.val = 1) ∨ (n = 2 ∧ r.stage.val ≠ 1 ∧ (r.stage.val = 2 ∨ capFits r (s.outs[o.val]).set.rate (s.outs[o.val]).set.lanes = false))
          ∨ (n = r.stage.val ∧ 3 ≤ n ∧ capFits r (s.outs[o.val]).set.rate (s.outs[o.val]).set.lanes = true) →
        ∃ t, exec (.linkTrainingComplete o r) s = .next t ∧ (t.outs[o.val]).trained = false ∧ (t.outs[o.val]).training = false
          ∧ (t.outs[o.val]).failStage = n ∧ (t.outs[o.val]).fail = true ∧ (t.outs[o.val]).pvalid = false))
    ∧ (∀ r : TrainRun, (s.outs[o.val]).training = false → exec (.linkTrainingComplete o r) s = .next s)
    ∧ ((s.outs[o.val]).hpd = true → (s.outs[o.val]).on = true → (s.outs[o.val]).trained = false → (s.outs[o.val]).training = false →
      bits (s.outs[o.val]).trainRetry.toNat 15 0 ≠ 0 → ∃ t, exec (.trainRetryTimer o) s = .next t
        ∧ (t.outs[o.val]).training = true ∧ (t.outs[o.val]).auxRetries = 0)
    ∧ ((s.outs[o.val]).hpd = false ∨ (s.outs[o.val]).trained = true ∨ bits (s.outs[o.val]).trainRetry.toNat 15 0 = 0 →
      exec (.trainRetryTimer o) s = .next s)
    ∧ ((s.outs[o.val]).edidBusy = true → ∃ t, exec (.edidReadDone o .nack) s = .next t ∧ (t.outs[o.val]).edidBusy = false
      ∧ (t.outs[o.val]).edidDone = true ∧ (t.outs[o.val]).edidErr = 1)
    ∧ (∀ l : List Byte, l.length = 128 → (s.outs[o.val]).edidBusy = true → ∃ t, exec (.edidReadDone o (.data l)) s = .next t
      ∧ (t.outs[o.val]).edidErr = 0 ∧ (t.outs[o.val]).edidDone = true
      ∧ ∀ k : Fin 32, ((t.outs[o.val]).edid[k.val]).toNat = ofLe ((l.drop (4 * k.val)).take 4))

/-- RECAPTURE and the scans of the controls: a capture is owed; a scan starts with the settings written; its end touches the controls whose
signal has reached the threshold often enough, and makes the captures owed; the ladder goes one level down, but not in the cycle of a touch. When
settings take effect is the model's reading (log 23). -/
def Obligations.ControlScans : Prop :=
  ∀ (s : State), s.Good →
    (∀ c : Fin 32, s.HostTo 0 → s.isHeld (0x20 + c.val) = false →
      exec (.recapture c) s = .next ((s.wakeIsland islGazebo).modCtl c fun x => { x with capture := true }))
    ∧ (∀ c : Fin 32, s.HostTo 0 → s.isHeld (0x20 + c.val) = true → exec (.recapture c) s = .next (s.wakeIsland islGazebo))
    ∧ (s.gaz.scanEn = true → s.gaz.scanning = false → ∃ t, exec .capacitiveScan s = .next t ∧ t.gaz.scanning = true ∧ ∀ c : Fin 32,
      (t.gaz.controls[c.val]).liveCfg = (s.gaz.controls[c.val]).cfg ∧ (t.gaz.controls[c.val]).liveTh = (s.gaz.controls[c.val]).th
        ∧ (t.gaz.controls[c.val]).liveBase = (s.gaz.controls[c.val]).base
        ∧ (t.gaz.controls[c.val]).cfgErr = (s.gaz.controls[c.val]).cfgBad s.gaz.csRole)
    ∧ (s.gaz.scanEn = false ∨ s.gaz.scanning = true → exec .capacitiveScan s = .next s)
    ∧ (∀ raw : List Nat, s.gaz.scanning = true → ∃ t, exec (.scanComplete raw) s = .next t ∧ t.gaz.scanning = false ∧ ∀ c : Fin 32,
      let x := (s.gaz.controls[c.val]).putRaw fun e => raw.getD (16 * c.val + e) 0
      x.measured = true →
      (x.capNow = true → (t.gaz.controls[c.val]).touched = false ∧ (t.gaz.controls[c.val]).provisional = true
        ∧ (t.gaz.controls[c.val]).elems.map Elem.base = x.elems.map fun e => e.raw * 65536)
      ∧ (x.capNow = false → x.touched = false → (bits x.liveTh.toNat 11 0 : Int) ≤ peakOf x.signals →
        (t.gaz.controls[c.val]).touched = decide (ctlDeb x.liveCfg ≤ x.pendingN + 1)))
    ∧ (∀ raw : List Nat, s.gaz.scanning = false → exec (.scanComplete raw) s = .next s)
    ∧ (s.gaz.scanEn = true → s.gaz.level < 3 → s.arrived.contains .touch = false → (s.gaz.controls.toList.any fun c => c.touched) = false →
      exec .ladderStep s = .next { s with gaz := { s.gaz with level := s.gaz.level + 1 } })
    ∧ (s.gaz.scanEn = false ∨ 3 ≤ s.gaz.level ∨ s.arrived.contains .touch = true ∨ (s.gaz.controls.toList.any fun c => c.touched) = true →
      exec .ladderStep s = .next s)

/-- Haptic drive, trigger pins and the Belfry: a half-cycle of back-EMF sets the frequency within its limits and advances the effect, and an
idle channel ignores it; an edge that TRIG_EDGE names starts the trigger's effect; a sample frame of a silent Belfry is eight zeros on
each output; a voice's duration ends in its release. Seven brake half-cycles without back-EMF end a brake by the model's reading (log 23). -/
def Obligations.GazeboDrive : Prop :=
  ∀ (s : State), s.Good →
    (∀ (h : Fin 16) (b : Bemf), (s.gaz.haps[h.val]).st = .idle → exec (.hapticHalfCycle h b) s = .next s)
    ∧ (∀ (h : Fin 16) (u mv : Nat), (s.gaz.haps[h.val]).st = .drive →
      (s.gaz.haps[h.val]).halves + 1 < 2 * max 1 (bits (effectWord (s.gaz.haps[h.val]).effect ((s.gaz.haps[h.val]).seg + 1)) 15 8) →
      ∃ t, exec (.hapticHalfCycle h { halfUs := some u, mv }) s = .next t ∧ (t.gaz.haps[h.val]).halves = (s.gaz.haps[h.val]).halves + 1
        ∧ (t.gaz.haps[h.val]).st = .drive ∧ (t.gaz.haps[h.val]).neg = !(s.gaz.haps[h.val]).neg
        ∧ (t.gaz.haps[h.val]).halfUs = clampHalf (s.gaz.haps[h.val]).cfg u)
    ∧ (∀ (h : Fin 16) (b : Bemf), (s.gaz.haps[h.val]).st = .brake → 7 ≤ (s.gaz.haps[h.val]).brakes → ∃ t, exec (.hapticHalfCycle h b) s = .next t
      ∧ (t.gaz.haps[h.val]).st = .idle ∧ (t.gaz.haps[h.val]).effect = 0)
    ∧ (∀ (n : Fin 8) (h : Fin 16), bit (s.gaz.trig[n.val]).toNat 0 = true → (∀ k : Fin 16, bit (s.gaz.trig[n.val]).toNat (16 + k.val) = decide (k = h)) →
      s.heldFromNormal (0x10 + h.val) = false → (s.gaz.haps[h.val]).st = .idle →
      exec (.trigEdge n (bit (s.gaz.trig[n.val]).toNat 1)) s
        = .next (s.hapTrigger h .trig (trigEffect s.gaz.trig[n.val]) (bits (s.gaz.trig[n.val]).toNat 4 2) 100 false))
    ∧ (∀ (n : Fin 8) (e : Bool), bit (s.gaz.trig[n.val]).toNat 0 = false → exec (.trigEdge n e) s = .next s)
    ∧ (s.dome.haltTone = false → (∀ v : Fin 16, (s.gaz.voices[v.val]).phase = .idle) → (∀ (p : Fin 64) (i : Fin 8), ((s.pavs[p.val]).pcm[i.val]).queue = []) →
      ∃ t, exec .sampleFrame s = .next t ∧ t.tx = .audio 1 (true :: List.replicate 255 false) (List.replicate 256 false)
          :: .audio 0 (true :: List.replicate 255 false) (List.replicate 256 false) :: s.tx
        ∧ s.gaz.sample < t.gaz.sample)
    ∧ (∀ v : Fin 16, (s.gaz.voices[v.val]).phase = .sustain → exec (.voiceDurationEnd v) s = .next
      (State.modVoice { s with arrived := s.arrived.filter fun a => match a with | .voice x _ => x != v | _ => true } v fun x => { x with phase := if x.release = 0 then .idle else .release, rel := 0, relNum := (envNow x).1, relDen := (envNow x).2 }))

/-- DRAM_WRITE and DRAM_READ of a range of the DRAM, the port's regulator admitting the request. A permitted write lands: its bytes read
back and no others change. A read registered in the same DMC cycle goes first (R385): it is answered, or answered later, with the bytes from
before. A permitted read within an atom that the newest queued entry covers is answered from it and counted (R383); any other waits in its
channel's read queue, a real-time one holding an RT burst open (R388), and as the channel issues it (R380) it returns the bytes that stood
there, or an error where ECC finds one (R404). A range the master may not reach is a violation: counted, nothing written, and a read gets an
error; a violation is counted once where the FABRIC may write the log. A request without tokens waits at fabric entry (R364). -/
def Obligations.DramAccesses : Prop :=
  ∀ (s : State) (r : MemReq), s.Good → s.dramGone = false → r.addr + r.len ≤ s.memSize .dram → 0 < r.len → r.addr % 64 + r.len ≤ 64 →
    let tag := fun (q : MemReq) => s.secureTag (portMaster q.port) (0x1000000000 + q.addr) q.len
    let c := chanOf r.addr
    (∀ data : List Byte, data.length = r.len → (∀ c : Fin 8, ((s.dmcs[c.val]).wq).length + r.len ≤ 64) → s.admits r.port r.addr r.len = true →
      s.permit (portMaster r.port) (tag r) .dram r.addr r.len true = true →
      (∃ t, exec (.dramWrite r data none) s = .next t ∧ t.rdBytes .dram r.addr r.len = data
        ∧ ∀ (m : MemId) (b : Nat), m ≠ .dram ∨ b < r.addr ∨ r.addr + r.len ≤ b → t.rdByte m b = s.rdByte m b)
      ∧ (∀ (q : MemReq) (e : Ecc), q.addr = r.addr → q.len = r.len → q.port ≠ r.port → s.admits q.port q.addr q.len = true →
        s.permit (portMaster q.port) (tag q) .dram q.addr q.len false = true → (s.dmcs[c.val]).rq = [] →
        ∃ t, exec (.dramWrite r data (some (q, e))) s = .next t ∧ t.rdBytes .dram r.addr r.len = data
          ∧ (Tx.memData true (s.rdBytes .dram r.addr r.len) ∈ t.tx ∨ ((t.dmcs[c.val]).rq = [{ req := q, since := s.now.toNat, no := (s.dmcs[c.val]).nextNo, who := asker q.port }]
            ∧ ((∀ w ∈ (s.dmcs[c.val]).wq, w.addr ≠ r.addr / 64 * 64) → (List.range r.len).map (fun k => t.rdCell .dram (r.addr + k)) = s.rdBytes .dram r.addr r.len)))))
    ∧ (∀ e : Ecc, s.admits r.port r.addr r.len = true → s.permit (portMaster r.port) (tag r) .dram r.addr r.len false = true →
      ((s.dmcs[c.val]).covers (r.addr / 64 * 64) (r.addr % 64) (r.addr % 64 + r.len) = true →
        ∃ t, exec (.dramRead r e) s = .next t ∧ t.tx = .memData true (s.rdBytes .dram r.addr r.len) :: s.tx ∧ (t.dmcs[c.val]).fwd = (s.dmcs[c.val]).fwd + 1)
      ∧ ((s.dmcs[c.val]).covers (r.addr / 64 * 64) (r.addr % 64) (r.addr % 64 + r.len) = false → (s.dmcs[c.val]).rq = [] →
        let rd : RAtom := { req := r, since := s.now.toNat, no := (s.dmcs[c.val]).nextNo, who := asker r.port }
        ∃ t, exec (.dramRead r e) s = .next t ∧ (t.dmcs[c.val]).rq = [rd] ∧ t.tx = s.tx
          ∧ (∀ b : Nat, t.rdByte .dram b = s.rdByte .dram b) ∧ (isRt r = true → (t.dmcs[c.val]).rtBurst = true)
          ∧ (e = .clean → s.poisoned .dram r.addr r.len = false →
            (t.issueRead c rd).tx = .memData true (s.rdBytes .dram r.addr r.len) :: s.tx)
          ∧ (e = .uncorrectable → s.inEcc r.addr = true →
            (t.issueRead c rd).tx.head? = some (.memData false []))))
    ∧ (∀ e : Ecc, s.admits r.port r.addr r.len = true → s.permit (portMaster r.port) (tag r) .dram r.addr r.len false = false →
      (∀ k : Nat, s.permit 1 false .org (0x1FE0000 + k % 4096 * 32) 32 true = true) → ∃ t, exec (.dramRead r e) s = .next t ∧ t.org.regionViol = satInc s.org.regionViol ∧ t.img.dram = s.img.dram)
    ∧ (∀ data : List Byte, data.length = r.len → s.admits r.port r.addr r.len = true →
      s.permit (portMaster r.port) (tag r) .dram r.addr r.len true = false →
      (∀ k : Nat, s.permit 1 false .org (0x1FE0000 + k % 4096 * 32) 32 true = true) → ∃ t, exec (.dramWrite r data none) s = .next t ∧ t.org.regionViol = satInc s.org.regionViol ∧ ∀ b : Nat, t.rdByte .dram b = s.rdByte .dram b)
    ∧ (∀ e : Ecc, s.admits r.port r.addr r.len = false → ∃ t, exec (.dramRead r e) s = .next t ∧ t.tx = s.tx
      ∧ t.entry = [{ req := r, data := none, ecc := e, ok := s.permit (portMaster r.port) (tag r) .dram r.addr r.len false }])

/-- Refresh of a live channel: a tick adds a unit of debt; a burst that reaches POSTPONE_MAX pays one REFab and is counted; the end of a burst
lets the debt be paid, but a real-time read that still waits keeps the burst alive; a retraining falls due with DQ_RETRAIN and is done in the
next REFab, which RETRAIN_REFAB_DUE issues at once or, in a burst, asks for; a row idle long enough is closed. A channel that is not live does
none of this. MR4_READ: a die that is not hot keeps the interval of 3,906 ns; the first hot report halves it and pays the debt at once. A
scrub reads the next atom: a corrected error is counted and written back, an uncorrectable one counted and stays. STANDBY is refused, with
REQ_ERR, while an output is enabled or the DRAM has an enabled SECURE region; otherwise every DMC begins its entry into self-refresh, and once
nothing is queued or owed the step ends in STANDBY. A request for RUN ends STANDBY or the entry. Which MR4 codes are hot is PRESUMED (log 15). -/
def Obligations.DramUpkeep : Prop :=
  (∀ (s : State) (c : Fin 8), s.Good →
      let d0 := s.dmcs[c.val]
      (s.dmcLive c = true → d0.rtBurst = false → exec (.refreshTick c) s = .next (s.modDmc c fun d =>
        { d with debt := d.debt + 8, ref := refStOf (d.debt + 8) false }))
      ∧ (s.dmcLive c = true → d0.rtBurst = true → d0.debt + 8 < 8 * d0.limit → exec (.refreshTick c) s = .next (s.modDmc c fun d =>
        { d with debt := d.debt + 8, ref := refStOf (d.debt + 8) true }))
      ∧ (s.dmcLive c = true → d0.rtBurst = true → 8 * d0.limit ≤ d0.debt + 8 → d0.retrain = none →
        exec (.refreshTick c) s = .next (s.modDmc c fun d => { d with
          debt := d.debt, refreshes := d.refreshes + 1, openRows := [], ref := refStOf d.debt true, preempts := satInc d.preempts }))
      ∧ (s.dmcLive c = true → d0.retrainDue = false → (d0.rq.any fun x => isRt x.req) = false → exec (.rtBurstEnd c) s = .next (s.modDmc c fun d =>
        { d with rtBurst := false, ref := refStOf d.debt false }))
      ∧ (s.dmcLive c = true → (d0.rq.any fun x => isRt x.req) = true → exec (.rtBurstEnd c) s = .next s)
      ∧ (∀ drift : Bool, s.dmcLive c = true → exec (.dqRetrain c drift) s = .next (s.modDmc c fun d => { d with retrain := some drift }))
      ∧ (∀ drift : Bool, s.dmcLive c = true → d0.retrain = some drift →
        (d0.rtBurst = true → exec (.retrainRefabDue c) s = .next (s.modDmc c fun d => { d with retrainDue := true }))
        ∧ (d0.rtBurst = false → exec (.retrainRefabDue c) s = .next (s.modDmc c fun d => { d with
          debt := d.debt - 8, refreshes := d.refreshes + 1, openRows := [], ref := refStOf (d.debt - 8) false, retrain := none, retrainDue := false
          drift := d.drift || drift, driftCount := if drift then satInc16 d.driftCount else d.driftCount })))
      ∧ (d0.retrain = none → exec (.retrainRefabDue c) s = .next s)
      ∧ (∀ bank : Nat, exec (.rowIdleClose c bank) s = .next (s.modDmc c fun d => { d with openRows := d.openRows.filter fun q => q.1 != bank }))
      ∧ (s.dmcLive c = false → ∀ (i : Instr) (drift : Bool), i = .refreshTick c ∨ i = .rtBurstEnd c ∨ i = .retrainRefabDue c ∨ i = .dqRetrain c drift →
        exec i s = .next s))
  ∧ (∀ (s : State) (c : Fin 8), s.Good → s.dmcLive c = true →
      let d0 := s.dmcs[c.val]
      (∀ r : Fin 32, r.val < 10 → exec (.mr4Read c r) s = .next (s.modDmc c fun d => { d with mr4 := r.val, hot := false, interval := 3906 }))
      ∧ (∀ r : Fin 32, 10 ≤ r.val → d0.hot = true ∨ d0.debt < 8 → exec (.mr4Read c r) s = .next (s.modDmc c fun d =>
        { d with mr4 := r.val, hot := true, hotOver := d.hotOver || decide (12 ≤ r.val), interval := 1953 }))
      ∧ (∀ r : Fin 32, 10 ≤ r.val → d0.hot = false → 8 ≤ d0.debt → ∃ t, exec (.mr4Read c r) s = .next t
        ∧ (t.dmcs[c.val]).hot = true ∧ (t.dmcs[c.val]).interval = 1953 ∧ (t.dmcs[c.val]).debt = 0
        ∧ (t.dmcs[c.val]).refreshes = d0.refreshes + BitVec.ofNat 48 (cdiv d0.debt 8) ∧ (t.dmcs[c.val]).bursts = satInc d0.bursts)
      ∧ (s.dmcg.scrubPeriod = 0 → ∀ e : Ecc, exec (.scrubRead c e) s = .next s)
      ∧ (∀ a : Nat, s.dmcg.scrubPeriod ≠ 0 → s.nextScrub c d0.scrubAt = some a → d0.wq = [] →
        (s.poisoned .dram a 64 = false →
          (∃ t, exec (.scrubRead c .clean) s = .next t ∧ (t.dmcs[c.val]).scrubAt = a ∧ t.tx = s.tx ∧ t.poison = s.poison)
          ∧ (∃ t, exec (.scrubRead c .corrected) s = .next t ∧ (t.dmcs[c.val]).scrubAt = a ∧ (t.dmcs[c.val]).ce = satInc d0.ce
            ∧ (t.dmcs[c.val]).wq.length = 1 ∧ t.rdBytes .dram a 64 = s.rdBytes .dram a 64))
        ∧ (∃ t, exec (.scrubRead c .uncorrectable) s = .next t ∧ (t.dmcs[c.val]).scrubAt = a ∧ (t.dmcs[c.val]).ue = satInc d0.ue
          ∧ t.poisoned .dram a 64 = true)))
  ∧ (∀ (s : State), s.Good → s.HostTo 0 →
      (s.pwr.standby = false → s.pwr.entering = false →
        ((s.outs.toList.any fun u => u.enabled) = true → exec .standbyRequest s = .next { s with pwr := { s.pwr with standbyReq := true, reqErr := true } })
        ∧ ((s.outs.toList.any fun u => u.enabled) = false →
          (((s.dome.regions[0]).toList.any fun r => r.en && r.secure) = true → ∃ t, exec .standbyRequest s = .next t
            ∧ t.pwr.standbyReq = s.pwr.standbyReq ∧ t.pwr.reqErr = true ∧ t.pwr.entering = false ∧ t.pwr.standby = false ∧ t.dmcs = s.dmcs)
          ∧ (((s.dome.regions[0]).toList.any fun r => r.en && r.secure) = false →
            exec .standbyRequest s = .next { s with pwr := { s.pwr with standbyReq := true, entering := true } }))
        ∧ exec .runRequest s = .next { s with pwr := { s.pwr with standbyReq := false } })
      ∧ (s.pwr.standby ≠ s.pwr.entering →
        exec .standbyRequest s = .next { s with pwr := { s.pwr with standbyReq := true } }
        ∧ ∃ t, exec .runRequest s = .next t ∧ t.pwr.standby = false ∧ t.pwr.entering = false
          ∧ t.pwr.standbyReq = false ∧ t.pwr.reqErr = s.pwr.reqErr ∧ ∀ c : Fin 8, (t.dmcs[c.val]).selfRef = false))
  ∧ (∀ (s : State), s.Good → s.pending = [] → s.pwr.entering = true → (∀ c : Fin 8, (s.dmcs[c.val]).rq = [] ∧ (s.dmcs[c.val]).wq = [] ∧ (s.dmcs[c.val]).debt = 0) →
      ∃ t, step s = .next t ∧ t.pwr.standby = true ∧ t.pwr.entering = false ∧ ∀ c : Fin 8, (t.dmcs[c.val]).selfRef = true)

/-- SRAM_ACCESS to the Orangery or the Keep by a master that may: a write lands, a read returns what stands there, and a read of one cycle with a
write at the bank's other port the bytes from before it (R417). One of a master that may not is a violation. The Dome SRAM answers no other
master than the Dome and the march engine. An error in a line buffer is counted, and an uncorrectable one is a fetch fault. A write through the
Keep aperture (R445): four bytes in the customer area, visible at once, one place of the 16-deep buffer (a full one first writes its oldest),
which the step on an empty queue writes and counts; outside the aperture's reach it is a region violation and the Keep keeps its bytes. March
tests (R426 to R432, R467). A preserving START of the Orangery begins a run, any START during a run has no effect, and a destructive START
outside watermark mode is refused. A MARCH_REQUEST begins a preserving run whose reply comes at its end; a destructive one, in BUILD with every
output off, is answered and starts a warm reset. The replies to a bad march range are the model's reading (log 34). -/
def Obligations.SramAndKeep : Prop :=
  (∀ (s : State) (a : SramReq) (m : MemId), s.Good →
      (sramMem a.mem = m → a.mem = .orangery ∨ (a.mem = .keep ∧ s.keep.buf = []) → a.off + a.len ≤ s.memSize m →
        (∀ l : List Byte, a.write = some l → l.length = a.len → s.sramPermit a = true →
          (∃ t, exec (.sramAccess [a]) s = .next t ∧ t.rdBytes m a.off a.len = l
            ∧ ∀ (n : MemId) (b : Nat), n ≠ m ∨ b < a.off ∨ a.off + a.len ≤ b → t.rdByte n b = s.rdByte n b)
          ∧ (∀ b : SramReq, a.mem = .orangery → b.mem = a.mem → b.off = a.off → b.len = a.len → b.write = none → b.ecc = .clean → onPort0 a = false → onPort0 b = true →
            s.sramPermit b = true → s.poisoned m a.off a.len = false → errIn s.flips m a.off a.len = [] →
            ∃ t, exec (.sramAccess [a, b]) s = .next t ∧ t.rdBytes m a.off a.len = l ∧ t.tx = .memData true (s.rdBytes m a.off a.len) :: s.tx))
        ∧ (a.write = none → a.ecc = .clean → s.sramPermit a = true → s.poisoned m a.off a.len = false → errIn s.flips m a.off a.len = [] →
          ∃ t, exec (.sramAccess [a]) s = .next t ∧ t.tx = .memData true (s.rdBytes m a.off a.len) :: s.tx ∧ t.img = s.img)
        ∧ (s.sramPermit a = false → (∀ k : Nat, s.permit 1 false .org (0x1FE0000 + k % 4096 * 32) 32 true = true) → 
          ∃ t, exec (.sramAccess [a]) s = .next t ∧ t.org.regionViol = satInc s.org.regionViol
          ∧ t.img.dram = s.img.dram ∧ t.img.keep = s.img.keep ∧ (∀ b, b < 0x1FE0000 → cellGet t.img.org b = cellGet s.img.org b)
          ∧ (a.write = none → a.master ≠ 8 → t.tx.head? = some (.memData false []))))
      ∧ (a.mem = .dome → a.master.val ≠ 0 → a.master.val ≠ 10 → ∃ t, exec (.sramAccess [a]) s = .next t ∧ t.img = s.img ∧ t.tx = s.tx)
      -- the line-buffer pool, whose words the composers write and read
      ∧ (∀ c : Fin 8, a.mem = .lineBuffer c → a.master = 8 → a.off + a.len ≤ s.memSize .pool → 0 < a.len → a.off % 8 + a.len ≤ 8 →
        errIn s.flips .pool a.off a.len = [] → errIn s.poison .pool a.off a.len = [] →
        (∀ l : List Byte, a.write = some l → l.length = a.len → ∃ t, exec (.sramAccess [a]) s = .next t ∧ t.rdBytes .pool a.off a.len = l)
        ∧ (a.write = none → a.ecc = .clean → ∃ t, exec (.sramAccess [a]) s = .next t ∧ t.tx = .memData true (s.rdBytes .pool a.off a.len) :: s.tx)
        ∧ (a.write = none → a.ecc = .corrected → ∃ t, exec (.sramAccess [a]) s = .next t ∧ t.org.ce = satInc s.org.ce ∧ t.org.eccUe = false
          ∧ t.org.eccOff = a.off / 8 * 8 ∧ Tx.memData true (s.rdBytes .pool a.off a.len) ∈ t.tx)
        ∧ (a.write = none → a.ecc = .uncorrectable → ∃ t, exec (.sramAccess [a]) s = .next t ∧ t.org.ue = satInc s.org.ue ∧ t.org.eccUe = true
          ∧ t.org.eccOff = a.off / 8 * 8 ∧ (t.comps[c.val]).fetchFault = true)))
  ∧ (∀ (s : State) (off : Nat) (v : Word), s.Good → s.HostTo 0 → off % 4 = 0 → off < 65536 →
      let a := s.apertureAt off
      (s.apertureOk = true → s.permit 4 false .keep a 4 true = true → ∃ t, exec (.keepApertureWrite off v) s = .next t
        ∧ (s.keep.used < 16 → t.keep = { s.keep with buf := s.keep.buf ++ [(a, leBytes 4 v.toNat)] } ∧ t.img = s.img)
        ∧ (16 ≤ s.keep.used → t.keep.writes = s.keep.writes + 1 ∧ t.keep.used = s.keep.used)
        ∧ t.rdBytes .keep a 4 = leBytes 4 v.toNat ∧ (∀ (m : MemId) (x : Nat), m ≠ .keep ∨ x < a ∨ a + 4 ≤ x → t.rdByte m x = s.rdByte m x)
        ∧ t.img.dram = s.img.dram ∧ t.img.org = s.img.org)
      ∧ (s.apertureOk = false ∨ s.permit 4 false .keep a 4 true = false →
        (∀ k : Nat, s.permit 1 false .org (0x1FE0000 + k % 4096 * 32) 32 true = true) → ∃ t, exec (.keepApertureWrite off v) s = .next t ∧ t.keep = s.keep ∧ t.img.keep = s.img.keep
        ∧ t.org.regionViol = satInc s.org.regionViol))
  -- a write that waits in the buffer is made in an idle cycle, the Dome's first, the oldest first
  ∧ (∀ s : State, s.Good → s.pending = [] → 0 < s.keep.used → ∃ t, step s = .next t ∧ t.keep.writes = s.keep.writes + 1
      ∧ (s.keep.dbuf ≠ [] → t.keep.dbuf = s.keep.dbuf.drop 1 ∧ t.keep.buf = s.keep.buf)
      ∧ (s.keep.dbuf = [] → t.keep.dbuf = [] ∧ t.keep.buf = s.keep.buf.drop 1) ∧ ∀ x, t.rdByte .keep x = s.rdByte .keep x)
  ∧ (∀ (s : State), s.Good →
      (∀ v : Word, s.dome.st = .run → s.org.marchRun = false → v.getLsbD 31 = true → v.getLsbD 4 = true → bits v.toNat 1 0 = 0 → ∃ t, exec (.marchStart v) s = .next t
        ∧ t.org.marchRun = true ∧ t.org.marchPreserve = true ∧ t.org.runBase = s.org.marchBase ∧ t.org.runLimit = s.org.marchLimit ∧ t.org.marchErr = false)
      ∧ (∀ v : Word, s.dome.st = .run → s.org.marchRun = false → v.getLsbD 31 = true → v.getLsbD 4 = false → s.dome.wmMode = false →
        ∃ t, exec (.marchStart v) s = .next t ∧ t.org.marchErr = true ∧ t.org.marchRun = false)
      ∧ (∀ v : Word, s.org.marchRun = true → exec (.marchStart v) s = .next s)
      ∧ (s.org.marchRun = true → s.org.marchPreserve = true → s.org.marchReply = none → exec (.marchRunDone []) s = .next { s with org := { s.org with
        marchDone := true, marchRun := false, faults := 0 } })
      ∧ (s.org.marchRun = false → ∀ l, exec (.marchRunDone l) s = .next s)
      ∧ (∀ (p : Fin 64) (i : Fin 2) (m : BitVec 2048), s.Asked p i m → mU m 0 1 = 2 →
        (p ≠ 0 → exec (.marchRequest p i) s = .next (s.answer p i m 7 []))
        ∧ (p = 0 → bit (mU m 1 1) 4 = false → bits (mU m 1 1) 1 0 ≠ 1 → bits (mU m 1 1) 1 0 ≠ 2 → mU m 8 2 ≤ 0x1FFF → mU m 10 2 ≤ 0x1FFF →
          (s.org.marchRun = false → ∃ t, exec (.marchRequest p i) s = .next t ∧ t.org.marchRun = true ∧ t.org.marchPreserve = true ∧ t.org.runBase = mU m 8 2 ∧ t.org.runLimit = mU m 10 2
            ∧ t.org.marchReply = some (p, i) ∧ ((t.pavs[p.val]).mbox[i.val]).busy = true)
          ∧ (s.org.marchRun = true → exec (.marchRequest p i) s = .next (s.answer p i m 6 [])))
        ∧ (p = 0 → bit (mU m 1 1) 4 = true → lcOf s.dome.lcFuse = 1 → (s.outs.toList.all fun u => !u.enabled) = true → ∃ t, exec (.marchRequest p i) s = .next t
          ∧ t.pwr.reset = .warm ∧ t.pwr.destructive = true ∧ t.pwr.cause = 16)))

/-- The sideband: a pointer write sets the pointer; each read sends the byte at the pointer, advances it and clears nothing; at another
address than the one its pins gave, or before the target answers, nothing happens. JTAG: BYPASS
shifts out its zero, IDCODE the identity code; SAMPLE/PRELOAD loads the boundary register, which EXTEST drives onto the pins; an access
reads or writes as master 4, and the Dome's SRAM never answers it; Dome debug reads and writes that SRAM in BLANK, and in every other
state it is not offered. The instruction codes and the Dome debug accesses are the model's (log 12). -/
def Obligations.SidebandAndJtag : Prop :=
  (∀ (s : State) (a : BitVec 7), s.Inv → s.calm = true → s.sbAnswers a = true →
      (∀ v : Byte, exec (.sbPointerWrite a v) s = .next { s with glb := { s.glb with sbPtr := v } })
      ∧ (s.glb.sbPtr ≠ 0x40 → s.glb.jtagIr ≠ 3 → exec (.sbRead a) s = .next (({ s with glb := { s.glb with sbPtr := s.glb.sbPtr + 1 } }).emit
        (.sideband (BitVec.ofNat 8 (s.sbWord s.wallOk s.pvalidPins (s.glb.sbPtr.toNat / 4 * 4) >>> (8 * (s.glb.sbPtr.toNat % 4)))))))
      ∧ (s.glb.sbPtr = 0x40 → s.glb.jtagIr ≠ 3 → ∃ t, exec (.sbRead a) s = .next t ∧ t.glb.sbTimeHi = w32 (bits s.spire.now.toNat 63 32)
        ∧ t.tx = .sideband (BitVec.ofNat 8 s.spire.now.toNat) :: s.tx))
  ∧ (∀ (s : State) (a : BitVec 7) (v : Byte), s.Inv → s.calm = true → s.sbAnswers a = false →
      exec (.sbPointerWrite a v) s = .next s ∧ exec (.sbRead a) s = .next s)
  ∧ (∀ (s : State), s.Inv → s.calm = true →
      exec .jtagBypass s = .next (({ s with glb := { s.glb with jtagIr := 0 } }).emit (.jtag [false]))
      ∧ exec .jtagIdcode s = .next (({ s with glb := { s.glb with jtagIr := 1 } }).emit (.jtag (bitsOf (leBytes 4 0xB8256D6B))))
      ∧ (∀ l : List Bool, ∃ t, exec (.jtagSamplePreload l) s = .next t ∧ t.glb.boundary = l ∧ t.glb.jtagIr = 2)
      ∧ (s.jtagExt = true → exec .jtagExtest s = .next (({ s with glb := { s.glb with jtagIr := 3 } }).emit (.jtag s.glb.boundary)))
      ∧ (∀ off n : Nat, s.jtagMem = true →
        exec (.jtagMemAccess (.readDome off n)) s = .next (({ s with glb := { s.glb with jtagIr := 4 } }).emit (.memData false [])))
      ∧ (∀ (x : Nat) (l : List Byte), s.jtagMem = true → s.pwr.reset = .running → s.locate x = some (.org, x) → s.permit 4 false .org x l.length true = true →
        x + l.length ≤ s.memSize .org → exec (.jtagMemAccess (.writeMem x l)) s = .next (s.run fun s =>
          ((({ s with glb := { s.glb with jtagIr := 4 } }).freeze).wakeMem .org x l.length).stWords .org x l))
      ∧ (∀ off n : Nat, s.lcCode = 0 → s.pwr.reset = .running → exec (.jtagDomeDebug (.readDome off n)) s
        = .next (({ s with glb := { s.glb with jtagIr := 5 } }).emit (.jtag (bitsOf (s.rdBytes .dome (off % 2 ^ 21) n)))))
      ∧ (∀ a : JtagAccess, s.lcCode ≠ 0 → exec (.jtagDomeDebug a) s = .next (({ s with glb := { s.glb with jtagIr := 0 } }).emit (.jtag [false]))))

/-- A flit that arrives on an UP link (R299, R304, R305, R306): it is counted and its ACK and NAK are taken; a sequenced one that is next in
order is accepted and its credit returned, then has its effect; one out of order is discarded with a NAK owed. Nothing else follows. Where
an effect is to step Spire time or to take part in a vote, its own statement says what. One CREDIT returns each flit's credit at once (log
27). -/
def Obligations.FlitsReceived : Prop :=
  ∀ (s : State) (l : Fin 12) (f : BitVec 256), s.Good → s.linkUp l = true →
    (∀ (c : Instr) (cls ty : Nat) (g : BitVec 256 → State → State),
      (c, cls, ty, g) ∈ [(Instr.delayReq l f, 0, 1, fun f s => s.delayReqIn l f), (.delayResp l f, 0, 2, fun f s => s.delayRespIn l f),
        (.idle l f, 2, 0, fun _ s => s), (.credit l f, 2, 5, fun f s => s.creditIn l f)] →
      exec c s = .next (s.run fun s => (g (asType cls ty f) (s.heard l (asType cls ty f))).exportsGo))
    ∧ (∀ (c : Instr) (cls ty : Nat) (h : BitVec 256) (g : BitVec 256 → State → State),
      (c, cls, ty, h, g) ∈ [(Instr.report l f, 0, 4, f, fun f s => s.reportIn l f), (.decide l f, 0, 5, f, fun f s => s.decideIn l f),
        (.adopt l f, 0, 6, f, fun _ s => s.adoptIn l), (.master l f, 0, 7, f, fun f s => s.masterIn l f), (.alarm l f, 1, 0, f, fun f s => s.alarmIn l f),
        (.presence l f, 2, 2, f, fun f s => s.routeFlit f [] fun s => s.presenceIn f),
        (.streamAlive l f, 2, 3, asKind 0 f, fun f s => s.routeFlit f [] fun s => s.aliveIn f),
        (.streamNak l f, 2, 3, asKind 1 f, fun f s => s.routeFlit f [] fun s => s.nakIn f),
        (.streamTsUpdate l f, 2, 3, asKind 2 f, fun f s => s.routeFlit f [] fun s => s.tsUpdateIn f),
        (.xferBegin l f, 3, 0, f, fun f s => s.routeFlit f [] fun s => s.xferBeginIn f), (.dataHead l f, 3, 1, f, fun f s => s.dataHeadIn l f),
        (.data l f, 3, 2, f, fun f s => s.dataIn l f), (.xferEnd l f, 3, 3, f, fun f s => s.routeFlit f [] fun s => s.xferEndIn f)] →
      (fSeq (asType cls ty h) = ((s.heard l (asType cls ty h)).spire.links[l.val]).seqRx →
        exec c s = .next (s.run fun s => (g (asType cls ty h) ((s.heard l (asType cls ty h)).inOrder l cls)).exportsGo))
      ∧ (fSeq (asType cls ty h) ≠ ((s.heard l (asType cls ty h)).spire.links[l.val]).seqRx →
        exec c s = .next (s.run fun s => ((s.heard l (asType cls ty h)).rxDiscard l).exportsGo)))

/-- SYNC (R318). From the active parent it gives the offset o = (T_TX + d) − t_rx: within 1 µs it is slewed away, beyond it the counter is
stepped by o, the step is counted and the accepted ALARM origins are forgotten. From another link, or on the master, it changes nothing
but the link. The times a DELAY_RESP answers with are those of its DELAY_REQ's arrival and its own departure; with T1 and T4 they give the
link delay, the median of the last 8 values (R317). The timers of Spire time: SYNC to every child on an UP link with the time it leaves
(R316), DELAY_REQ to the active parent (R317), and holdover when SYNC stays away (R319), one that comes at the same instant being in time (R310). -/
def Obligations.SpireTime : Prop :=
  (∀ (s : State) (l : Fin 12) (f : BitVec 256) (arr : Nat), s.Good → s.linkUp l = true → fNak f = false →
      let tx : Nat := fU f 4 8 * 2 ^ 24 + fU f 12 1 * 2 ^ 16 + (s.spire.links[l.val]).delay * 2 ^ 20
      (s.spire.master = false → s.spire.parent = some l → s.fine ≤ arr → arr < 2 ^ 88 →
        (((tx : Int) - arr).natAbs ≤ 1000 * 2 ^ 24 → ∃ t, exec (.sync l f arr) s = .next t ∧ t.fine = arr ∧ t.spire.slew = (tx : Int) - arr
          ∧ t.spire.holdover = false ∧ t.spire.steps = s.spire.steps)
        ∧ (1000 * 2 ^ 24 < ((tx : Int) - arr).natAbs → ∃ t, exec (.sync l f arr) s = .next t ∧ t.fine = tx % 2 ^ 88 ∧ t.spire.slew = 0
          ∧ t.spire.holdover = false ∧ t.spire.steps = satInc s.spire.steps ∧ t.spire.alarmsSeen = []))
      ∧ (s.spire.master = true ∨ s.spire.parent ≠ some l →
        exec (.sync l f arr) s = .next (s.run fun s => (s.heard l (asType 0 0 f)).exportsGo)))
  ∧ ((∀ (s : State) (l : Fin 12) (f : BitVec 256), ∃ g, s.delayReqIn l f = s.txFlit l g ∧ fClass g = 0 ∧ fType g = 2 ∧ fU g 4 4 = fU f 4 4 ∧ fU g 8 8 = s.spire.now.toNat
      ∧ fU g 17 8 = s.spire.now.toNat)
    ∧ (∀ (s : State) (l : Fin 12) (f : BitVec 256) (id : Word) (t1 : Nat), s.Good → s.linkUp l = true → fNak f = false →
      (s.spire.links[l.val]).req = some (id, t1) → fU f 4 4 = id.toNat →
      let t2 : Nat := fU f 8 8 * 2 ^ 24 + fU f 16 1 * 2 ^ 16
      let t3 : Nat := fU f 17 8 * 2 ^ 24 + fU f 25 1 * 2 ^ 16
      let d : Int := (((s.fine : Int) - t1) - ((t3 : Int) - t2)) / 2
      ∃ t, exec (.delayResp l f) s = .next t ∧ (t.spire.links[l.val]).req = none
        ∧ (t.spire.links[l.val]).samples = ((d / 2 ^ 20).toNat :: (s.spire.links[l.val]).samples).take 8
        ∧ (t.spire.links[l.val]).delay = medianNat (((d / 2 ^ 20).toNat :: (s.spire.links[l.val]).samples).take 8) % 2 ^ 24)
    ∧ medianNat [7, 1, 5] = 5 ∧ medianNat [9, 2, 4, 7] = 5)
  ∧ (∀ (s : State), s.Good →
      (s.standAlone = false → (s.spire.children ++ s.spire.newChildren).Nodup → ∃ t, exec .syncTimer s = .next t ∧ ∀ l : Fin 12,
        (l ∈ s.spire.children ++ s.spire.newChildren ∧ s.linkUp l = true → (t.spire.links[l.val]).tx = (s.spire.links[l.val]).tx + 1
          ∧ ∃ g, Tx.flit l g ∈ t.tx ∧ fU g 4 8 = s.spire.now.toNat ∧ fU g 13 4 = s.spire.term.toNat)
        ∧ (¬ (l ∈ s.spire.children ++ s.spire.newChildren ∧ s.linkUp l = true) → t.spire.links[l.val] = s.spire.links[l.val]))
      ∧ (s.standAlone = true → exec .syncTimer s = .next s)
      ∧ (∀ l, s.spire.parent = some l → ∃ t, exec .delayReqTimer s = .next t
        ∧ (t.spire.links[l.val]).req = some ((s.spire.links[l.val]).reqId + 1, s.fine) ∧ (t.spire.links[l.val]).tx = (s.spire.links[l.val]).tx + 1)
      ∧ (s.spire.parent = none → exec .delayReqTimer s = .next s)
      ∧ (s.spire.holdover = false → s.timeMaster = false → s.arrived.contains .sync = false → ∃ t, exec .holdoverTimeout s = .next t ∧ t.spire = { s.spire with holdover := true })
      ∧ (s.spire.holdover = true ∨ s.timeMaster = true ∨ s.arrived.contains .sync = true → exec .holdoverTimeout s = .next s))

/-- A vote at the master (R331, R332): the first NOT_READY report decides HOLD with the Spire ID it names, the last missing READY decides
FLIP, a report still missing at the up-deadline decides HOLD with 0x1_0000 + the lowest ID missing; the first decision stands. A report
point passes once (R331): the children taken up since the last one count from now on and the device's own report enters the vote; a stand-
alone device has none. A DECIDE is kept if it is the first for (g, F) and ignored otherwise (R333). ADOPT makes its sender a child from
the next report point (R327). When a new child counts is the model's reading (log 27). -/
def Obligations.WallVotes : Prop :=
  (∀ (s : State) (l : Fin 12) (f : BitVec 256), s.Good →
      let g := f4 (bits (fU f 4 1) 1 0)
      let n := fU f 5 8
      (s.spire.master = true → s.linkUp l = true → fNak f = false → fSeq f = (s.spire.links[l.val]).seqRx → l ∈ s.spire.children → s.decision g n = none →
        (∀ v, s.vote g n = some v → (v.children.any fun c => c.1 == l.val) = false →
          (bit (fU f 4 1) 7 = false → v.own ≠ some false → (∀ c ∈ v.children, c.2.1 = true) →
            ∃ t, exec (.report l f) s = .next t ∧ t.decision g n = some (false, fU f 13 2))
          ∧ (bit (fU f 4 1) 7 = true → v.own = some true → (∀ c ∈ v.children, c.2.1 = true) →
            (∀ k ∈ s.spire.children, k = l ∨ (v.children.any fun c => c.1 == k.val) = true) →
            ∃ t, exec (.report l f) s = .next t ∧ t.decision g n = some (true, 0)))
        ∧ (s.vote g n = none → bit (fU f 4 1) 7 = false → ∃ t, exec (.report l f) s = .next t ∧ t.decision g n = some (false, fU f 13 2)))
      ∧ (∀ (g : Fin 4) (n r x : Nat) (i : Image), s.spire.master = true → s.spire.image = some i → s.decision g n = none → s.spire.reported[g.val] = some r → n ≤ r →
        ((s.spire.children.filter fun k => !((match s.vote g n with | some v => v.children.map Prod.fst | none => []).contains k.val)).map
          fun k => (s.spire.links[k.val]).nbId).min? = some x →
        ∃ t, exec (.voteUpDeadline g n) s = .next t ∧ t.decision g n = some (false, 0x10000 + x))
      ∧ (∀ (g : Fin 4) (n : Nat), s.spire.master = false ∨ (s.decision g n).isSome = true → exec (.voteUpDeadline g n) s = .next s))
  ∧ (∀ (s : State), s.Good →
      (∀ (g : Fin 4) (n : Nat), s.standAlone = false → (∀ r, s.spire.reported[g.val] = some r → r < n) →
        ∃ t, exec (.reportPoint g n) s = .next t ∧ t.spire.reported[g.val] = some n ∧ t.spire.newChildren = []
          ∧ t.spire.children = s.spire.children ++ s.spire.newChildren.filter fun l => !s.spire.children.contains l)
      ∧ (∀ (g : Fin 4) (n : Nat), s.standAlone = true ∨ (∃ r, s.spire.reported[g.val] = some r ∧ n ≤ r) → exec (.reportPoint g n) s = .next s)
      ∧ (∀ (l : Fin 12) (f : BitVec 256), s.linkUp l = true → fNak f = false → fSeq f = (s.spire.links[l.val]).seqRx →
        (∃ t, exec (.decide l f) s = .next t ∧ t.decision (f4 (bits (fU f 4 1) 1 0)) (fU f 5 8) =
          match s.decision (f4 (bits (fU f 4 1) 1 0)) (fU f 5 8) with | some d => some d | none => some (bit (fU f 4 1) 7, fU f 13 8))
        ∧ (∃ t, exec (.adopt l f) s = .next t ∧ l ∈ t.spire.children ++ t.spire.newChildren ∧ t.spire.children = s.spire.children)))

/-- Masters (R325, R326, R327): a higher TERM is adopted; a MASTER of the current term keeps the device in the wall; one of a lower TERM does
neither. The master's beat advances at its timer; without heartbeats a device leaves the wall, and the backup takes over with the next
TERM. An ALARM is discarded if it is this device's own or not newer than the last accepted of its origin; otherwise its JOIN_TIME and
MSG_SEQ are recorded, and a late one is counted (R335, R336). -/
def Obligations.MastersAndAlarms : Prop :=
  (∀ (s : State) (i : Image), s.Good → s.spire.image = some i →
      (∀ (l : Fin 12) (f : BitVec 256), s.linkUp l = true → fNak f = false → fSeq f = (s.spire.links[l.val]).seqRx →
        (s.spire.term.toNat < fU f 6 4 → ∃ t, exec (.master l f) s = .next t ∧ t.spire.term.toNat = fU f 6 4 ∧ t.spire.masterId = bits (fU f 4 2) 13 0
          ∧ t.spire.master = false ∧ t.spire.inWall = true)
        ∧ (s.spire.term.toNat = fU f 6 4 → s.spire.masterId = bits (fU f 4 2) 13 0 → s.spire.master = false →
          ∃ t, exec (.master l f) s = .next t ∧ t.spire.inWall = true ∧ t.spire.term = s.spire.term)
        ∧ (fU f 6 4 < s.spire.term.toNat → ∃ t, exec (.master l f) s = .next t ∧ t.spire.inWall = s.spire.inWall ∧ t.spire.term = s.spire.term
          ∧ t.spire.masterId = s.spire.masterId))
      ∧ (s.spire.master = true → ∃ t, exec .masterBeatTimer s = .next t ∧ t.spire.beat = s.spire.beat + 1)
      ∧ (s.spire.master = false → exec .masterBeatTimer s = .next s)
      ∧ (s.spire.master = false → s.arrived.contains .beat = false → i.myId ≠ i.backupId → exec .masterHeartbeatTimeout s = .next { s with spire := { s.spire with
        inWall := false, joined := false, synced := false } })
      ∧ (s.spire.master = false → s.arrived.contains .beat = false → i.myId = i.backupId → ∃ t, exec .masterHeartbeatTimeout s = .next t ∧ t.spire.master = true
        ∧ t.spire.term = s.spire.term + 1 ∧ t.spire.masterId = i.myId ∧ t.spire.inWall = true ∧ t.spire.parent = none)
      ∧ (s.spire.master = true ∨ s.arrived.contains .beat = true → exec .masterHeartbeatTimeout s = .next s))
  ∧ (∀ (s : State) (l : Fin 12) (f : BitVec 256) (i : Image), s.Good → s.linkUp l = true → fNak f = false → fSeq f = (s.spire.links[l.val]).seqRx → s.spire.image = some i →
      ((fU f 4 2 = i.myId ∨ (∃ j q, s.spire.alarmsSeen.lookup (fU f 4 2) = some (j, q) ∧ (fU f 22 8 < j.toNat ∨ (fU f 22 8 = j.toNat ∧ fU f 6 4 ≤ q.toNat)))) →
        ∃ t, exec (.alarm l f) s = .next t ∧ t.spire.alarmsSeen = s.spire.alarmsSeen ∧ t.spire.safeLate = s.spire.safeLate ∧ t.outs = s.outs)
      ∧ (fU f 4 2 ≠ i.myId → (∀ j q, s.spire.alarmsSeen.lookup (fU f 4 2) = some (j, q) → j.toNat < fU f 22 8 ∨ (j.toNat = fU f 22 8 ∧ q.toNat < fU f 6 4)) →
        ∃ t, exec (.alarm l f) s = .next t ∧ t.spire.alarmsSeen.lookup (fU f 4 2) = some (w64 (fU f 22 8), w32 (fU f 6 4))
          ∧ t.spire.safeLate = if fU f 14 8 + i.safeNs < s.spire.now.toNat then satInc s.spire.safeLate else s.spire.safeLate))

/-- Presence (R337): the master marks a device whose PRESENCE arrives present, and one of the image whose PRESENCE stays away absent; any
other device in the wall sends its own towards the master. A routed flit (R314): one for this device is delivered, one for another device
goes on over its route with HOPS_LEFT one less, one without hops left or without a route is dropped and counted. -/
def Obligations.PresenceAndRouting : Prop :=
  (∀ (s : State), s.Good →
      (∀ (l : Fin 12) (f : BitVec 256), s.linkUp l = true → fNak f = false → fSeq f = (s.spire.links[l.val]).seqRx → s.route (fU f 4 2) = 12 →
        (s.spire.master = true → ∃ t, exec (.presence l f) s = .next t ∧ fU f 8 2 ∉ t.spire.absent ∧ fU f 8 2 ∈ t.spire.present
          ∧ (∀ x, x ≠ fU f 8 2 → (x ∈ t.spire.absent ↔ x ∈ s.spire.absent)))
        ∧ (s.spire.master = false → ∃ t, exec (.presence l f) s = .next t ∧ t.spire.absent = s.spire.absent ∧ t.spire.present = s.spire.present))
      ∧ (s.spire.inWall = true → s.spire.master = false → ∃ f, fClass f = 2 ∧ fType f = 2
        ∧ (s.spire.masterId < 2 ^ 16 → fU f 4 2 = s.spire.masterId) ∧ exec .presenceTimer s = .next (s.sendRouted s.spire.masterId f))
      ∧ (s.spire.inWall = false ∨ s.spire.master = true → exec .presenceTimer s = .next s)
      ∧ (∀ (id : BitVec 14) (i : Image), s.spire.image = some i → s.spire.master = true → (i.devices.any fun d => d.1 == id.toNat) = true → id.toNat ≠ i.myId →
        s.spire.absent.contains id.toNat = false → s.arrived.contains (.presence id.toNat) = false → exec (.presenceTimeout id) s = .next { s with spire := { s.spire with
          absent := s.spire.absent ++ [id.toNat], present := s.spire.present.filter (· != id.toNat) } })
      ∧ (∀ id : BitVec 14, s.spire.master = false ∨ s.arrived.contains (.presence id.toNat) = true → exec (.presenceTimeout id) s = .next s))
  ∧ (∀ (s : State) (f : BitVec 256) (body : List (BitVec 256)) (g : State → State),
      (s.route (fU f 4 2) = 12 → s.routeFlit f body g = g s)
      ∧ (s.route (fU f 4 2) < 12 → fU f 6 2 ≤ 1 → s.routeFlit f body g = { s with spire := { s.spire with hopDrop := satInc s.spire.hopDrop } })
      ∧ (12 < s.route (fU f 4 2) → s.routeFlit f body g = { s with spire := { s.spire with unreach := satInc s.spire.unreach } })
      ∧ (s.route (fU f 4 2) < 12 → 1 < fU f 6 2 → ∃ h, fU h 6 2 = fU f 6 2 - 1 ∧ (∀ k n, k + n ≤ 6 ∨ 8 ≤ k → k + n ≤ 32 → fU h k n = fU f k n)
        ∧ s.routeFlit f [] g = s.sendSeq (f12 (s.route (fU f 4 2))) h)
      ∧ (s.spire.image = none → s.route (fU f 4 2) = 15))

/-- An import stream (R338 to R342). XFER_BEGIN opens a transfer into the half that is not latched, and marks it bad if its size or bytes per
pixel do not match; each packet in place adds to it; XFER_END completes it, or discards it, counts it and asks again. A new transfer
ends its loss; 50 ms without a flit of the stream declares it lost, one at the same instant being in time (R310). An export stream (R338, R343): a NAK from its destination starts a new transfer with
the next XFER_SEQ, and the ALIVE timer sends STREAM ALIVE for every export whose destination can be reached. The half that a transfer
takes is the model's reading (log 27). -/
def Obligations.Streams : Prop :=
  (∀ (s : State) (l : Fin 12) (f : BitVec 256), s.Good → (s.spire.imports.map Import.attId).Nodup →
      let mine (i : Import) : Bool := i.srcId == fU f 8 2 && i.expId == fU f 10 2
      (s.linkUp l = true → fNak f = false → fSeq f = (s.spire.links[l.val]).seqRx → s.route (fU f 4 2) = 12 →
        (∃ t, exec (.streamAlive l f) s = .next t ∧ t.spire.imports = s.spire.imports.map fun i => if mine i then { i with last := s.now.toNat } else i)
        ∧ (∃ t, exec (.xferBegin l f) s = .next t ∧ t.spire.imports = s.spire.imports.map fun i =>
            if mine i then { i with
              last := s.now.toNat, lost := false, curSeq := some (w32 (fU f 12 4)), curBpp := fU f 20 1, curTime := w64 (fU f 21 8), got := 0, crc := crcStart {}
              curBad := decide (fU f 16 2 ≠ i.width) || decide (fU f 18 2 ≠ i.height) || fU f 20 1 == 0 || fU f 20 1 != s.committedBpp i
              ready := if i.live.isSome = true ∧ fU f 16 2 = i.width ∧ fU f 18 2 = i.height ∧ fU f 20 1 ≠ 0 ∧ fU f 20 1 = s.committedBpp i then none
                else i.ready } else i)
        ∧ (∃ t, exec (.xferEnd l f) s = .next t ∧ t.spire.imports = s.spire.imports.map fun i =>
            if mine i then
              if i.curSeq = some (w32 (fU f 12 4)) ∧ i.curBad = false ∧ i.got = i.width * i.curBpp * i.height ∧ fU f 16 4 = crcFinish {} i.crc
              then { i with last := s.now.toNat, lost := false, curSeq := none, ready := some (i.half, i.curTime, w32 (fU f 12 4)) }
              else { i with last := s.now.toNat, curSeq := none }
            else i)
        ∧ (∀ i ∈ s.spire.imports, mine i = true → (∀ j ∈ s.spire.imports, mine j = true → j = i) →
            i.curSeq ≠ some (w32 (fU f 12 4)) ∨ i.curBad = true ∨ i.got ≠ i.width * i.curBpp * i.height ∨ fU f 16 4 ≠ crcFinish {} i.crc →
            ∃ t, exec (.xferEnd l f) s = .next t ∧ t.spire.importRej = satInc s.spire.importRej)
        ∧ (∃ t, exec (.streamTsUpdate l f) s = .next t ∧ t.spire.imports = s.spire.imports.map fun i => if mine i then { i with last := s.now.toNat } else i)
        ∧ (∀ i : Import, i ∈ s.spire.imports → mine i = true → (∀ j ∈ s.spire.imports, mine j = true → j = i) → ∀ (h : Nat) (k : Fin 256) (c : Latched) (a : Attach),
            i.live = some (h, w32 (fU f 13 4)) → (s.slots[k.val]).cur = some c → c.buf = some a → a.id = i.attId →
            (∀ (j : Fin 256) (d : Latched) (b : Attach), (s.slots[j.val]).cur = some d → d.buf = some b → b.id = i.attId → b.time = a.time) →
            ∃ t, exec (.streamTsUpdate l f) s = .next t ∧ ((t.slots[k.val]).cur.bind Latched.buf).map Attach.time = some (if a.time.toNat < fU f 17 8 then w64 (fU f 17 8) else a.time)))
      ∧ (s.linkUp l = true → fNak f = false → fSeq f = (s.spire.links[l.val]).seqRx →
        (∃ t, exec (.dataHead l f) s = .next t ∧ (t.spire.links[l.val]).head = some (asType 3 1 f, []))
        ∧ (∀ h body, (s.spire.links[l.val]).head = some (h, body) → body.length + 1 < fU h 20 2 →
            ∃ t, exec (.data l f) s = .next t ∧ (t.spire.links[l.val]).head = some (h, asType 3 2 f :: body)
              ∧ t.spire.imports = s.spire.imports.map fun i =>
                if s.route (fU h 4 2) = 12 ∧ i.srcId = fU h 8 2 ∧ i.expId = fU h 10 2 then { i with last := s.now.toNat } else i)
        ∧ (∀ h body (i : Import), (s.spire.links[l.val]).head = some (h, body) → fU h 20 2 ≤ body.length + 1 → s.route (fU h 4 2) = 12 → i ∈ s.spire.imports →
            i.srcId = fU h 8 2 → i.expId = fU h 10 2 → i.curSeq = some (w32 (fU h 12 4)) → i.curBad = false → fU h 16 4 = i.got → i.got < i.width * i.curBpp * i.height →
            ∃ t, exec (.data l f) s = .next t ∧ (t.spire.links[l.val]).head = none ∧ ∃ j ∈ t.spire.imports, j.attId = i.attId ∧ j.curBad = false
              ∧ j.got = min (i.got + 26 * (body.length + 1)) (i.width * i.curBpp * i.height)))
      ∧ (∀ (k : Fin 256) (i : Import), s.silentImport k = some i → ∃ t, exec (.importLostTimeout k) s = .next t
        ∧ t.spire.imports = s.spire.imports.map (fun j => if j.attId = i.attId then { i with lost := true } else j) ∧ t.slots = s.slots)
      ∧ (∀ k : Fin 256, s.silentImport k = none → exec (.importLostTimeout k) s = .next s))
  ∧ (∀ (s : State), s.Good →
      (∀ (l : Fin 12) (f : BitVec 256) (k : Nat) (e : Export), s.linkUp l = true → fNak f = false → fSeq f = (s.spire.links[l.val]).seqRx → s.route (fU f 4 2) = 12 →
        s.spire.exports[k]? = some e → e.expId = fU f 10 2 → e.dest = fU f 8 2 → e.cur = none → (s.latchedBuf e.pav e.handle).isSome = true → s.route e.dest < 12 →
        (∀ (j : Nat) (x : Export), j ≠ k → s.spire.exports[j]? = some x → ¬ (x.expId = fU f 10 2 ∧ x.dest = fU f 8 2)) →
        ∃ t, exec (.streamNak l f) s = .next t ∧ (t.spire.exports[k]?).map Export.xferSeq = some (e.xferSeq + 1))
      ∧ (∃ t, exec .streamAliveTimer s = .next t ∧ t.spire.exports = s.spire.exports ∧ t.spire.unreach = s.spire.unreach
        ∧ ∀ e ∈ s.spire.exports, s.route e.dest < 12 → e.flows s = true → ∃ g ∈ (t.spire.links[(f12 (s.route e.dest)).val]).waiting ++ (t.spire.links[(f12 (s.route e.dest)).val]).unacked,
          fClass g = 2 ∧ fType g = 3 ∧ fU g 12 1 = 0 ∧ fU g 10 2 = e.expId % 2 ^ 16))

/-- The link states. TRAIN goes to IDENT when the lanes lock; with no lock it retries 10 ms after its time-out; both IDENT parts as declared
go to MEASURE, others to DISABLED; 16 delay exchanges within the limit go to UP, others to DISABLED; 1 µs of silence takes UP down to
TRAIN. Errors and replay (R300, R305, R306): a flit with a bad CRC is counted and owes a NAK, one with good CRC out of order owes a NAK,
an unlisted one is counted; 2 µs without an ACK replays every unacknowledged flit, and the eighth replay in a row takes the link down with
cause 2. Credits that come back are added (R302). -/
def Obligations.SpireLinks : Prop :=
  (∀ (s : State) (l : Fin 12), s.Good →
      (∀ i, s.spire.image = some i → (s.spire.links[l.val]).st = .train → (s.spire.links[l.val]).retrain = false →
        ∃ t, exec (.linkLaneLock l) s = .next t ∧ (t.spire.links[l.val]).st = .ident ∧ (t.spire.links[l.val]).tx = (s.spire.links[l.val]).tx + 2)
      ∧ ((s.spire.links[l.val]).st ≠ .train → exec (.linkLaneLock l) s = .next s ∧ exec (.linkTrainTimeout l) s = .next s ∧ exec (.linkTrainRetryDelay l) s = .next s)
      ∧ ((s.spire.links[l.val]).st = .train → exec (.linkTrainTimeout l) s = .next (s.modLink l fun k => { k with retrain := true })
        ∧ exec (.linkTrainRetryDelay l) s = .next (s.modLink l fun k => { k with retrain := false }))
      ∧ (s.linkUp l = true → s.arrived.contains (.flit l) = false → ∃ t, exec (.linkSilenceTimeout l) s = .next t ∧ (t.spire.links[l.val]).st = .train ∧ (t.spire.links[l.val]).cause = 1
        ∧ (t.spire.links[l.val]).downs = satInc (s.spire.links[l.val]).downs ∧ l ∉ t.spire.children ∧ t.spire.parent ≠ some l)
      ∧ (s.linkUp l = false ∨ s.arrived.contains (.flit l) = true → exec (.linkSilenceTimeout l) s = .next s)
      ∧ (∀ (f a : BitVec 256) (q : Pairing) (i : Image), (s.spire.links[l.val]).st = .ident → fNak f = false → bit (fU f 4 1) 0 = true →
        (s.spire.links[l.val]).identA = some a → s.spire.pairing l = some q → s.spire.image = some i →
        let good := fU a 5 16 = q.serial.toNat ∧ fU a 21 2 = q.id ∧ fU a 23 1 = q.nbLink ∧ fU f 5 8 = i.wallId.toNat ∧ fU f 13 8 = i.gen.toNat
        (good → fU f 21 4 ≤ s.spire.term.toNat → ∃ t, exec (.ident l f) s = .next t ∧ (t.spire.links[l.val]).st = .measure ∧ (t.spire.links[l.val]).nbId = q.id
          ∧ (t.spire.links[l.val]).req = some ((s.spire.links[l.val]).reqId + 1, s.fine))
        ∧ (¬ good → ∃ t, exec (.ident l f) s = .next t ∧ (t.spire.links[l.val]).st = .disabled ∧ (t.spire.links[l.val]).cause = 3))
      ∧ (∀ (d : Nat) (q : Pairing), (s.spire.links[l.val]).st = .measure → s.spire.pairing l = some q →
        let m := medianNat ((d :: (s.spire.links[l.val]).samples).take 8) % 2 ^ 24
        ((s.spire.links[l.val]).exchanges + 1 < 16 → ((s.delaySample l d).spire.links[l.val]).st = .measure
          ∧ ((s.delaySample l d).spire.links[l.val]).exchanges = (s.spire.links[l.val]).exchanges + 1)
        ∧ (16 ≤ (s.spire.links[l.val]).exchanges + 1 → m ≤ q.maxDelay * 16 → ((s.delaySample l d).spire.links[l.val]).st = .up
          ∧ ((s.delaySample l d).spire.links[l.val]).delay = m)
        ∧ (16 ≤ (s.spire.links[l.val]).exchanges + 1 → q.maxDelay * 16 < m → ((s.delaySample l d).spire.links[l.val]).st = .disabled
          ∧ ((s.delaySample l d).spire.links[l.val]).cause = 5)))
  ∧ (∀ (s : State) (l : Fin 12) (f : BitVec 256), s.Good →
      (s.linkUp l = true → crcGood f = false → ∃ t, exec (.flitCrcError l f) s = .next t ∧ (t.spire.links[l.val]).crcErr = satInc (s.spire.links[l.val]).crcErr
        ∧ (t.spire.links[l.val]).nakSent = true ∧ (t.spire.links[l.val]).rx = (s.spire.links[l.val]).rx)
      ∧ (s.linkUp l = true → fNak f = false → crcGood f = true → isSeq (fClass f) (fType f) = true → fSeq f ≠ (s.spire.links[l.val]).seqRx →
        ∃ t, exec (.flitCrcError l f) s = .next t ∧ (t.spire.links[l.val]).crcErr = (s.spire.links[l.val]).crcErr ∧ (t.spire.links[l.val]).nakSent = true
          ∧ (t.spire.links[l.val]).seqRx = (s.spire.links[l.val]).seqRx)
      ∧ (s.linkUp l = true → exec (.flitUnlisted l f) s = .next ((s.arrive (.flit l)).modLink l fun k => { k with crcErr := satInc k.crcErr }))
      ∧ ((s.spire.links[l.val]).st = .off ∨ (s.spire.links[l.val]).st = .train ∨ (s.spire.links[l.val]).st = .disabled →
        exec (.flitCrcError l f) s = .next s ∧ exec (.flitUnlisted l f) s = .next s)
      ∧ (s.linkUp l = true → s.arrived.contains (.ack l) = false → (s.spire.links[l.val]).unacked ≠ [] → (s.spire.links[l.val]).stalls < 7 → ∃ t, exec (.replayTimeout l) s = .next t
        ∧ (t.spire.links[l.val]).replays = satInc (s.spire.links[l.val]).replays ∧ (t.spire.links[l.val]).stalls = (s.spire.links[l.val]).stalls + 1
        ∧ (t.spire.links[l.val]).unacked = (s.spire.links[l.val]).unacked ∧ (t.spire.links[l.val]).st = .up)
      ∧ (s.linkUp l = true → s.arrived.contains (.ack l) = false → (s.spire.links[l.val]).unacked ≠ [] → 7 ≤ (s.spire.links[l.val]).stalls → ∃ t, exec (.replayTimeout l) s = .next t
        ∧ (t.spire.links[l.val]).st = .train ∧ (t.spire.links[l.val]).cause = 2)
      ∧ (s.linkUp l = false ∨ s.arrived.contains (.ack l) = true ∨ (s.spire.links[l.val]).unacked = [] → exec (.replayTimeout l) s = .next s)
      ∧ ((s.spire.links[l.val]).waiting = [] → s.creditIn l f = s.modLink l fun k => { k with credCtrl := k.credCtrl + fU f 4 2, credPix := k.credPix + fU f 6 2 }))

/-- The mailbox (R452 to R455). SEND of a free slot hands its message to the Dome, and on a slot that is busy or still holds a reply sets
SEND_ERR; a Dome that is down or restarting answers at once. ACK frees the reply. A reply fills the slot and ends the request; a time-out
answers with STATUS 10 and is counted; an unlisted TYPE is answered with STATUS 9. INFO is answered with the life cycle, the Dome's state,
its firmware version, the policy's generation and the serial number, whose place in the reply is the model's (R453, R604; log 34). CHALLENGE of the manager draws a nonce that the reply carries (R481); of any
other Pavilion it is not permitted. The nonce is a free value (log 6). -/
def Obligations.Mailboxes : Prop :=
  (∀ (s : State) (p : Fin 64) (i : Fin 2), s.Good →
      let x := (s.pavs[p.val]).mbox[i.val]
      (∀ v : Word, s.HostTo p → v.getLsbD i.val = true → (∀ j : Fin 2, j ≠ i → v.getLsbD j.val = false) →
        (x.busy = false → x.full = false → s.dome.st = .run ∨ s.dome.st = .boot → exec (.mbxSend p v) s = .next (s.modMbox p i fun x => { x with busy := true, taken := false }))
        ∧ (x.busy = false → x.full = false → s.dome.st = .down → ∃ t, exec (.mbxSend p v) s = .next t ∧ ((t.pavs[p.val]).mbox[i.val]).busy = false
          ∧ ((t.pavs[p.val]).mbox[i.val]).full = true ∧ mU ((t.pavs[p.val]).mbox[i.val]).out 2 1 = 0x32 ∧ mU ((t.pavs[p.val]).mbox[i.val]).out 4 4 = mU x.inp 4 4)
        ∧ (x.busy = true ∨ x.full = true → exec (.mbxSend p v) s = .next (s.modPav p fun q => { q with sendErr := true }))
        ∧ exec (.mbxAck p v) s = .next (s.modMbox p i fun x => { x with full := false }))
      ∧ (x.busy = true → ∃ t, exec (.mailboxTimeout p i) s = .next t ∧ ((t.pavs[p.val]).mbox[i.val]).busy = false ∧ ((t.pavs[p.val]).mbox[i.val]).full = true
        ∧ mU ((t.pavs[p.val]).mbox[i.val]).out 2 1 = 10 ∧ t.dome.mbxTimeouts = satInc s.dome.mbxTimeouts)
      ∧ (x.busy = false → exec (.mailboxTimeout p i) s = .next s)
      ∧ (∀ m, s.Asked p i m → mbxTypes.contains (mU m 0 1) = false → exec (.mbxBadType p i) s = .next (s.answer p i m 9 []))
      ∧ (∀ (m : BitVec 2048) (st : Nat), x.busy = true → st < 256 → ∃ r, s.answer p i m st [] =
          (s.modMbox p i fun x => { x with out := r, full := true, busy := false, taken := false }).msi p (bits (s.pavs[p.val]).mboxCfg.toNat 4 0)
        ∧ mU r 0 1 = mU m 0 1 ||| 0x80 ∧ mU r 1 1 = mU m 1 1 ∧ mU r 2 1 = st ∧ mU r 4 4 = mU m 4 4)
      ∧ (x.busy = false → ∀ r, s.mbxReply p i r = s))
  ∧ (∀ (s : State) (p : Fin 64) (i : Fin 2) (m : BitVec 2048), s.Good → s.Asked p i m →
      (mU m 0 1 = 1 → ∃ t, exec (.info p i) s = .next t ∧ ((t.pavs[p.val]).mbox[i.val]).busy = false ∧ ((t.pavs[p.val]).mbox[i.val]).full = true
        ∧ mU ((t.pavs[p.val]).mbox[i.val]).out 0 1 = 0x81 ∧ mU ((t.pavs[p.val]).mbox[i.val]).out 2 1 = 0 ∧ mU ((t.pavs[p.val]).mbox[i.val]).out 8 1 = lcOf s.dome.lcFuse
        ∧ mU ((t.pavs[p.val]).mbox[i.val]).out 9 1 = 1 ∧ mU ((t.pavs[p.val]).mbox[i.val]).out 12 4 = s.dome.fwVersion.toNat
        ∧ mU ((t.pavs[p.val]).mbox[i.val]).out 16 8 = s.dome.policyGen.toNat ∧ mU ((t.pavs[p.val]).mbox[i.val]).out 40 16 = s.dome.serial.toNat)
      ∧ (mU m 0 1 = 4 → p = 0 → ∃ t n, exec (.challenge p i) s = .next t ∧ t.dome.nonce = some n ∧ t.freeCount = s.freeCount + 1
        ∧ mU ((t.pavs[p.val]).mbox[i.val]).out 8 32 = n.toNat ∧ mU ((t.pavs[p.val]).mbox[i.val]).out 2 1 = 0)
      ∧ (mU m 0 1 = 4 → p ≠ 0 → exec (.challenge p i) s = .next (s.answer p i m 7 [])))

/-- INSTALL (R439, R447 to R451, R461, R477). From Pavilion 0, of an object that can be read, it is judged and answered with its status: 8 for
a bad signature, 5 for a bad field, 0 when it is taken, into the place of the Keep that its kind has; from any other Pavilion it is not
permitted. LIFECYCLE (R480 to R482). In BLANK a move to BUILD takes the keys it carries, burns one bit and starts a warm reset. Every
other move needs the nonce of the last CHALLENGE and the customer's signature; a request that may not move is answered and ends the nonce. One whose
bit does not read back burnt is refused too: that the device then stays as it is is the model's choice (log 46). -/
def Obligations.InstallsAndLifeCycle : Prop :=
  ((∀ (s : State) (i : Fin 2) (m : BitVec 2048) (k : Nat) (c : Instr) (f : State → List Byte → State × Nat), s.Good → s.Asked 0 i m → mU m 0 1 = 3 → mU m 1 1 = k →
      (k, c, f) ∈ [(0, Instr.installFirmware 0 i, State.takeFirmware), (1, .installPolicy 0 i, State.takePolicy), (2, .installTopology 0 i, State.takeTopology),
        (3, .installSafeFrame 0 i, State.takeSafeFrame)] →
      (∀ u, s.installObj 0 m = (u, none) → exec c s = .next (s.run fun _ => u.answer 0 i m 5 []))
      ∧ (∀ u l, s.installObj 0 m = (u, some l) → exec c s = .next (s.run fun _ => (f u l).1.answer 0 i m (f u l).2 [])))
    ∧ (∀ (s : State) (p : Fin 64) (i : Fin 2) (m : BitVec 2048), s.Good → s.Asked p i m → mU m 0 1 = 3 → p ≠ 0 →
      (mU m 1 1 = 0 → exec (.installFirmware p i) s = .next (s.answer p i m 7 [])) ∧ (mU m 1 1 = 1 → exec (.installPolicy p i) s = .next (s.answer p i m 7 []))
      ∧ (mU m 1 1 = 2 → exec (.installTopology p i) s = .next (s.answer p i m 7 [])) ∧ (mU m 1 1 = 3 → exec (.installSafeFrame p i) s = .next (s.answer p i m 7 [])))
    ∧ (∀ (s : State) (i : Fin 2) (m : BitVec 2048), s.Good → s.Asked 0 i m → mU m 0 1 = 3 → 3 < mU m 1 1 →
      exec (.installFirmware 0 i) s = .next (s.answer 0 i m 5 []))
    ∧ (∀ (s : State) (l : List Byte),
      (signedBy ((l.drop 16).take 64) l = false → s.takeFirmware l = (s, 8))
      ∧ (signedBy ((l.drop 16).take 64) l = true → s.fwFields l = false → s.takeFirmware l = (s, 5))
      ∧ (signedBy ((l.drop 16).take 64) l = true → s.fwFields l = true → s.takeFirmware l = ((s.burnSec l).keepPut 0x100000 l, 0))
      ∧ (s.policyCheck (if s.pendingGen = 0 then s.inForceGen else s.pendingGen) l = 1 → s.takePolicy l = ({ s with dome := { s.dome with policyErr := 1 } }, 8))
      ∧ (∀ c, 2 ≤ c → s.policyCheck (if s.pendingGen = 0 then s.inForceGen else s.pendingGen) l = c → s.takePolicy l = ({ s with dome := { s.dome with policyErr := c } }, 5))
      ∧ (s.policyCheck (if s.pendingGen = 0 then s.inForceGen else s.pendingGen) l = 0 → s.pendingGen = 0 →
        (s.takePolicy l).2 = 0 ∧ (s.takePolicy l).1.dome.carried = true ∧ (s.takePolicy l).1.dome.policyErr = 0)
      ∧ (∀ i, imgCheck s.custKey s.wallRecord s.dome.serial.toNat l = (0, i) → s.takeTopology l = ((s.keepPut 0x200000 l).keepPut 0x40 ((l.drop 16).take 16), 0))
      ∧ (s.safeFrameCheck l = 0 → s.takeSafeFrame l = (s.safeFramePut l, 0)) ∧ (s.safeFrameCheck l = 1 → s.takeSafeFrame l = (s, 8))
      ∧ (1 < s.safeFrameCheck l → s.takeSafeFrame l = (s, 5))))
  ∧ (∀ (s : State) (p : Fin 64) (i : Fin 2) (m : BitVec 2048) (stuck : Word), s.Good → s.Asked p i m → mU m 0 1 = 5 →
      let burns : Bool := (s.dome.lcFuse ||| (lcNext s.dome.lcFuse &&& ~~~stuck)) == lcNext s.dome.lcFuse
      (p ≠ 0 → exec (.lifecycle p i stuck) s = .next (s.answer p i m 7 []))
      ∧ (p = 0 → lcOf s.dome.lcFuse = 0 → bits (mU m 1 1) 1 0 = 1 → burns = true → ∃ t, exec (.lifecycle p i stuck) s = .next t ∧ t.dome.custKey.toNat = mU m 40 64
        ∧ t.dome.kek.toNat = mU m 104 32 ∧ t.dome.lcFuse = lcNext s.dome.lcFuse ∧ t.pwr.reset = .warm ∧ t.pwr.cause = 16 ∧ t.dome.nonce = none)
      ∧ (p = 0 → lcOf s.dome.lcFuse = 3 ∨ (lcOf s.dome.lcFuse = 0 ∧ bits (mU m 1 1) 1 0 ≠ 1) ∨ (0 < lcOf s.dome.lcFuse ∧ s.dome.nonce ≠ some (BitVec.ofNat 256 (mU m 8 32))) →
        exec (.lifecycle p i stuck) s = .next (({ s with dome := { s.dome with nonce := none } }).answer p i m 11 []))
      ∧ (p = 0 → lcOf s.dome.lcFuse = 0 → bits (mU m 1 1) 1 0 = 1 → burns = false → ∃ t, exec (.lifecycle p i stuck) s = .next t
        ∧ ((t.pavs[p.val]).mbox[i.val]).busy = false ∧ mU ((t.pavs[p.val]).mbox[i.val]).out 2 1 = 11 ∧ t.dome.lcFuse = s.dome.lcFuse ∧ t.pwr = s.pwr)
      ∧ (p = 0 → lcOf s.dome.lcFuse = 1 → bits (mU m 1 1) 1 0 = 2 → burns = true → s.dome.nonce = some (BitVec.ofNat 256 (mU m 8 32)) →
        signedBy s.custKey (mBytes m 0 160 ++ leBytes 16 s.dome.serial.toNat ++ mBytes m 160 64) = true →
        ∃ t, exec (.lifecycle p i stuck) s = .next t ∧ t.dome.lcFuse = lcNext s.dome.lcFuse ∧ t.dome.custKey = s.dome.custKey ∧ t.pwr.reset = .warm))

/-- The order of the checks of a safety request (R281, R483): after a tamper NOT_PERMITTED, then its fields and slot, then its MAC, then its
UPDATE_SEQ. A request that fails changes nothing but the reply. A safety reply carries STATUS, LATCH_FRAME, the slot's last accepted
UPDATE_SEQ and a MAC over the rest under the slot's key (R286). OUTPUT_CMD (R457): each of its four bits has its effect on every output of
the mask, or on the slot's own where the mask is empty; both bits of a pair are a bad field, and nothing changes. Which row an OUTPUT_CMD
is taken by is the model's (log 30). -/
def Obligations.SafetyRequests : Prop :=
  ((∀ (s : State) (p : Fin 64) (m : BitVec 2048), s.dome.tamperKeys = true → s.safetyCheck p m = 7)
    ∧ (∀ (s : State) (p : Fin 64) (m : BitVec 2048), s.dome.tamperKeys = false → (s.belvs[(f8 (mU m 1 1)).val]).safety ≠ p ∨ reservedZero m = false → s.safetyCheck p m = 5)
    ∧ (∀ (s : State) (p : Fin 64) (m : BitVec 2048), s.dome.tamperKeys = false → s.safetyCheck p m ≠ 5 →
      hmac (leBytes 32 (s.belvs[(f8 (mU m 1 1)).val]).key.toNat) (mBytes m 0 224) ≠ mBytes m 224 32 → s.safetyCheck p m = 1)
    ∧ (∀ (s : State) (p : Fin 64) (m : BitVec 2048), s.safetyCheck p m = 0 → (s.belvs[(f8 (mU m 1 1)).val]).seq.toNat < mU m 8 8)
    ∧ (∀ (s : State) (p : Fin 64) (i : Fin 2) (m : BitVec 2048) (c : Instr), s.Good → s.Asked p i m → s.safetyCheck p m ≠ 0 →
      (c, mU m 0 1) ∈ [(Instr.belvUpdate p i, 0x10), (.belvReaffirm p i, 0x11), (.belvResume p i, 0x12), (.safeSend p i, 0x14), (.blockTake p i, 0x15), (.blockRelease p i, 0x16),
        (.heldConsole p i, 0x17)] →
      exec c s = .next (s.safetyReply p i m (s.safetyCheck p m) 0)))
  ∧ (∀ (s : State) (p : Fin 64) (i : Fin 2) (m : BitVec 2048) (st frame : Nat), ((s.pavs[p.val]).mbox[i.val]).busy = true → st < 256 → frame < 2 ^ 64 →
      let b := s.belvs[(f8 (mU m 1 1)).val]
      let x := ((s.safetyReply p i m st frame).pavs[p.val]).mbox[i.val]
      x.busy = false ∧ x.full = true ∧ mU x.out 0 1 = mU m 0 1 ||| 0x80 ∧ mU x.out 2 1 = st ∧ mU x.out 4 4 = mU m 4 4 ∧ mU x.out 8 8 = frame ∧ mU x.out 16 8 = b.seq.toNat
      ∧ (b.hasKey = true → mU x.out 224 32 = ofLe (hmac (leBytes 32 b.key.toNat) (mBytes x.out 0 224)))
      ∧ (s.safetyReply p i m st frame).belvs = s.belvs ∧ (s.safetyReply p i m st frame).outs = s.outs)
  ∧ (∀ (s : State) (p : Fin 64) (i : Fin 2) (m : BitVec 2048), s.Good → s.Asked p i m → mU m 0 1 = 0x13 → s.safetyCheck p m = 0 →
      let v := mU m 16 1
      let on (o : Fin 8) : Bool := if mU m 17 1 = 0 then o == f8 (mU m 1 1) else bit (mU m 17 1) o.val
      ∀ c, (c, true) ∈ [(Instr.safeSet p i, bit v 0 || v % 16 == 0), (.safeRelease p i, bit v 1 || v % 16 == 0), (.forceLowSet p i, bit v 2 || v % 16 == 0),
          (.forceLowClear p i, bit v 3 || v % 16 == 0)] →
        ((bit v 0 && bit v 1) || (bit v 2 && bit v 3)) = true ∧ exec c s = .next (s.safetyReply p i m 5 0)
        ∨ ((bit v 0 && bit v 1) || (bit v 2 && bit v 3)) = false ∧ ∃ t, exec c s = .next t ∧ (t.belvs[(f8 (mU m 1 1)).val]).seq.toNat = mU m 8 8
          ∧ ∀ o : Fin 8, (t.outs[o.val]).cause4 = (if on o = true ∧ bit v 0 = true then true else if on o = true ∧ bit v 1 = true then false else (s.outs[o.val]).cause4)
            ∧ (t.outs[o.val]).forceLow = (if on o = true ∧ bit v 2 = true then true else if on o = true ∧ bit v 3 = true then false else (s.outs[o.val]).forceLow)
            ∧ (t.outs[o.val]).cause2 = (s.outs[o.val]).cause2)

/-- Belvedere messages that pass their checks (R281 to R285, R294). An UPDATE copies its content into the half that is not latched and waits
for its expected proof value; a second one meanwhile is answered BUSY; the ready one then waits for a latch. A REAFFIRM of the latched
content raises its timestamp; another digest is refused. A RESUME ends cause 2 and the mismatch run. PROOF_COMPARE takes the oldest
frame that waits: one that is not compared has no effect; a result that equals the expected value ends a run of mismatches; a first mismatch is counted and makes the Dome compute the expected value again; a second one
in a row shows the safe frame from the frame after the next one. -/
def Obligations.Belvedere : Prop :=
  ((∀ (s : State) (p : Fin 64) (i : Fin 2) (m : BitVec 2048), s.Good → s.Asked p i m → s.safetyCheck p m = 0 →
      let o := f8 (mU m 1 1)
      let b := s.belvs[o.val]
      (mU m 0 1 = 0x10 → s.belvTimeOk b (mU m 16 8) = true →
        (b.next.isSome = true → exec (.belvUpdate p i) s = .next (s.safetyReply p i m 6 0))
        ∧ (∀ a pal, b.next = none → s.staging p b m = some (a, pal) →
          ((s.belvContent b a (mU m 32 4) pal).2 = none ∨ (∃ l, (s.belvContent b a (mU m 32 4) pal).2 = some l ∧ sha256 l ≠ mBytes m 36 32) →
            ∃ t, exec (.belvUpdate p i) s = .next t ∧ mU ((t.pavs[p.val]).mbox[i.val]).out 2 1 = 4 ∧ t.belvs = s.belvs))
        ∧ (∀ a pal, b.next = none → s.staging p b m = some (a, pal) →
          ∀ l, (s.belvContent b a (mU m 32 4) pal).2 = some l → sha256 l = mBytes m 36 32 →
          ∃ t n, exec (.belvUpdate p i) s = .next t ∧ (t.belvs[o.val]).next = some n ∧ n.half = b.spare ∧ n.ready = false ∧ n.time.toNat = mU m 16 8 ∧ n.reply = some (p, i)
            ∧ (t.belvs[o.val]).seq.toNat = mU m 8 8 ∧ (t.belvs[o.val]).cur = b.cur ∧ ((t.pavs[p.val]).mbox[i.val]).busy = true))
      ∧ (mU m 0 1 = 0x10 → s.belvTimeOk b (mU m 16 8) = false → exec (.belvUpdate p i) s = .next (s.safetyReply p i m 3 0))
      ∧ (mU m 0 1 = 0x11 → s.belvTimeOk b (mU m 16 8) = true →
        (∀ k, b.cur = some k → k.digest.toNat = mU m 36 32 → ∃ t, exec (.belvReaffirm p i) s = .next t ∧ (t.belvs[o.val]).cur.map (fun x => (x.half, x.time, x.digest, x.expected)) = some (k.half, w64 (mU m 16 8), k.digest, k.expected)
          ∧ (t.belvs[o.val]).seq.toNat = mU m 8 8 ∧ mU ((t.pavs[p.val]).mbox[i.val]).out 2 1 = 0)
        ∧ (b.cur = none ∨ (∃ k, b.cur = some k ∧ k.digest.toNat ≠ mU m 36 32) → exec (.belvReaffirm p i) s = .next (s.safetyReply p i m 4 0)))
      ∧ (mU m 0 1 = 0x11 → s.belvTimeOk b (mU m 16 8) = false → exec (.belvReaffirm p i) s = .next (s.safetyReply p i m 3 0))
      ∧ (mU m 0 1 = 0x12 → ∃ t, exec (.belvResume p i) s = .next t ∧ (t.outs[o.val]).cause2 = false ∧ (t.belvs[o.val]).run = 0 ∧ (t.belvs[o.val]).proofFault = false
          ∧ (t.belvs[o.val]).seq.toNat = mU m 8 8 ∧ ((s.outs[o.val]).forceByProof = true → (t.outs[o.val]).forceLow = false)
          ∧ ((s.outs[o.val]).forceByProof = false → (t.outs[o.val]).forceLow = (s.outs[o.val]).forceLow)))
    ∧ (∀ (s : State) (o : Fin 8) (n : BelvBuf), s.Good → (s.belvs[o.val]).next = some n →
      (n.ready = false → s.dome.st = .run → ∃ t, exec (.belvUpdateReady o) s = .next t ∧ (t.belvs[o.val]).next = some { n with
        ready := true, expected := (s.expectedNow o ((s.belvs[o.val]).bufBase + n.half * (s.belvs[o.val]).halfBytes)).2 }
        ∧ (t.belvs[o.val]).cur = (s.belvs[o.val]).cur)
      ∧ (n.ready = true → exec (.belvUpdateReady o) s = .next s)))
  ∧ (∀ (s : State) (o : Fin 8) (a : BelvAwait) (rest : List BelvAwait), s.Good → s.dome.st = .run → (s.belvs[o.val]).awaits = a :: rest →
      (a.compared = false → exec (.proofCompare o) s = .next (s.modBelv o fun b => { b with awaits := rest }))
      ∧ (a.compared = true →
      (a.expected = a.result → ∃ t, exec (.proofCompare o) s = .next t ∧ (t.belvs[o.val]).run = 0 ∧ (t.belvs[o.val]).awaits = rest
        ∧ (t.belvs[o.val]).mismatch = (s.belvs[o.val]).mismatch ∧ t.outs = s.outs)
      ∧ (a.expected ≠ a.result → (s.belvs[o.val]).run = 0 → exec (.proofCompare o) s = .next (s.run fun s =>
        (s.modBelv o fun b => { b with awaits := rest, mismatch := satInc b.mismatch, run := 1 }).recomputeExpected o))
      ∧ (a.expected ≠ a.result → (s.belvs[o.val]).run = 1 → (s.outs[o.val]).cause2 = false → ∃ t, exec (.proofCompare o) s = .next t
        ∧ (t.belvs[o.val]).proofFault = true ∧ (t.outs[o.val]).cause2 = true ∧ (t.outs[o.val]).cause2At = a.frame + 2)))
  -- the value computed again is that of the latched half, and of every frame that waits
  ∧ (∀ (s : State) (o : Fin 8) (c : BelvBuf), (s.belvs[o.val]).cur = some c →
      ∃ v, ((s.recomputeExpected o).belvs[o.val]).cur = some { c with expected := v }
        ∧ v = (s.expectedNow o ((s.belvs[o.val]).bufBase + c.half * (s.belvs[o.val]).halfBytes)).2
        ∧ ((s.recomputeExpected o).belvs[o.val]).awaits.map (fun x => (x.frame, x.half, x.result)) = (s.belvs[o.val]).awaits.map fun x => (x.frame, x.half, x.result))

/-- SAFE_SEND (R458): the ALARM is sent at once where no other waits, the Dome has sent none in this period and no join holds it; otherwise,
or when 64 wait already, it says so. HELD_CONSOLE (R460) runs on a block the secure world holds, and is a bad field on any other. Hand-
over of a block (R471 to R474). BLOCK_TAKE and BLOCK_RELEASE of a movable block begin it and reply when it ends; a block that may not move
is not permitted, one that moves already is busy, one the world holds already is accepted at once. When the losing world's work has ended,
or 50 ms have passed, the block changes worlds. -/
def Obligations.AlarmsAndHandOver : Prop :=
  (∀ (s : State) (p : Fin 64) (i : Fin 2) (m : BitVec 2048), s.Good → s.Asked p i m → s.safetyCheck p m = 0 →
      (mU m 0 1 = 0x14 → s.dome.alarmSent = false → s.alarmWaits = false → ∃ t, exec (.safeSend p i) s = .next t ∧ t.dome.alarms = [] ∧ t.dome.alarmSent = true
        ∧ t.spire.msgSeq = s.spire.msgSeq + 1 ∧ mU ((t.pavs[p.val]).mbox[i.val]).out 2 1 = 0)
      ∧ (mU m 0 1 = 0x14 → s.dome.alarmSent = true ∨ s.alarmWaits = true → ∃ t, exec (.safeSend p i) s = .next t ∧ t.dome.alarms.map Prod.fst = [w32 (mU m 16 4)]
        ∧ t.spire = s.spire)
      ∧ (mU m 0 1 = 0x17 → (reservedByte 0x0B (consoleDesc p m)).isSome = true ∨ (firstBad (s.consoleChecks p (consoleDesc p m) true)).isSome = true →
        exec (.heldConsole p i) s = .next (s.safetyReply p i m 5 0))
      ∧ (mU m 0 1 = 0x17 → reservedByte 0x0B (consoleDesc p m) = none → firstBad (s.consoleChecks p (consoleDesc p m) true) = none →
        exec (.heldConsole p i) s = .next (s.run fun s => ((s.consoleDo p .dome (consoleDesc p m)).acceptSeq m).safetyReply p i m 0 0)))
  ∧ ((∀ (s : State) (p : Fin 64) (i : Fin 2) (m : BitVec 2048) (c : Instr) (take : Bool), s.Good → s.Asked p i m → s.safetyCheck p m = 0 →
      (c, take, mU m 0 1) ∈ [(Instr.blockTake p i, true, 0x15), (.blockRelease p i, false, 0x16)] →
      (s.dome.policy.movable.getLsbD (mU m 16 1) = false → exec c s = .next (s.safetyReply p i m 7 0))
      ∧ (s.dome.policy.movable.getLsbD (mU m 16 1) = true → (s.dome.ho.any fun h => h.block == mU m 16 1) = true → exec c s = .next (s.safetyReply p i m 6 0))
      ∧ (s.dome.policy.movable.getLsbD (mU m 16 1) = true → (s.dome.ho.any fun h => h.block == mU m 16 1) = false → s.isHeld (mU m 16 1) = take →
        exec c s = .next ((s.acceptSeq m).safetyReply p i m 0 0))
      ∧ (s.dome.policy.movable.getLsbD (mU m 16 1) = true → (s.dome.ho.any fun h => h.block == mU m 16 1) = false → s.isHeld (mU m 16 1) ≠ take →
        ∃ t, exec c s = .next t ∧ t.dome.ho.map Handover.block = s.dome.ho.map Handover.block ++ [mU m 16 1] ∧ t.dome.held = s.dome.held ∧ t.dome.hoBlock = mU m 16 1
          ∧ t.dome.hoToSecure = take ∧ (t.belvs[(f8 (mU m 1 1)).val]).seq.toNat = mU m 8 8 ∧ ((t.pavs[p.val]).mbox[i.val]).busy = true))
    ∧ (∀ (s : State) (b : BitVec 8) (h : Handover), s.Good → s.dome.ho.find? (fun h => h.block == b.toNat) = some h → s.dome.ho.Nodup →
      (s.blockBusy (blockOf b.toNat) = true → exec (.handoverQuiesceDone b) s = .next s)
      ∧ (s.blockBusy (blockOf b.toNat) = false → ∃ t, exec (.handoverQuiesceDone b) s = .next t ∧ t.dome.held = putB s.dome.held b.toNat h.toSecure ∧ h ∉ t.dome.ho)
      ∧ (∃ t, exec (.handoverQuiesceTimeout b) s = .next t ∧ t.dome.held = putB s.dome.held b.toNat h.toSecure ∧ h ∉ t.dome.ho))
    ∧ (∀ (s : State) (b : BitVec 8), s.Good → s.dome.ho.find? (fun h => h.block == b.toNat) = none →
      exec (.handoverQuiesceDone b) s = .next s ∧ exec (.handoverQuiesceTimeout b) s = .next s))

/-- The Dome's watchdog (R475 to R479). A kick starts it anew. Its expiry is a failure: with the firmware and the policy intact the Dome
restarts, and every request it owes is answered DOME_DOWN; the third failure within 10 s halts it with the halt tone. A
kick at the instant of the expiry is in time (R8). WM_MODE_EXIT ends watermark mode (R466). TAMPER while the device runs (R441, R483): it is latched, the
Belvedere keys are gone, a wipe begins with the key block zero, every output's PVALID is forced low where the policy says so, and the fuses
are retired where it says that. A wipe ends with the Dome SRAM and the secure partition zero and WIPE_DONE set; the step on an empty queue
takes its next step. The end of a restart at its bound of 10 ms is the model's (log 24). -/
def Obligations.DomeFailuresAndTamper : Prop :=
  (∀ (s : State), s.Good → s.dome.st = .run →
      (∀ v : Word, exec (.wdtKick v) s = .next ({ s with dome := { s.dome with lastKick := s.spire.now } }.arrive .kick))
      ∧ (s.arrived.contains .kick = true → exec .domeWatchdogExpiry s = .next s)
      ∧ exec .wmModeExit s = .next { s with dome := { s.dome with wmMode := false } }
      ∧ (s.arrived.contains .kick = false → s.dome.failTimes = [] → s.restartOk = true → s.spire.now.toNat < 2 ^ 63 → s.dome.lastKick.toNat < 2 ^ 63 →
        ∃ t, exec .domeWatchdogExpiry s = .next t ∧ t.dome.st = .restart ∧ t.dome.restarts = satInc s.dome.restarts ∧ t.dome.failTimes.length = 1 ∧ t.dome.nonce = none
          ∧ t.dome.held = s.dome.held ∧ t.dome.restartEnd = t.spire.now + 10000000
          ∧ ∀ (p : Fin 64) (i : Fin 2), ((s.pavs[p.val]).mbox[i.val]).busy = true → ((t.pavs[p.val]).mbox[i.val]).busy = false
            ∧ mU ((t.pavs[p.val]).mbox[i.val]).out 2 1 = 0x32)
      ∧ (s.arrived.contains .kick = false → 2 ≤ (s.recentFails s.dome.failTimes).length → s.dome.lastKick.toNat + 50000000 ≤ s.spire.now.toNat → s.dome.policy.haltAlarm = false →
        ∃ t, exec .domeWatchdogExpiry s = .next t ∧ t.dome.st = .down ∧ t.dome.haltTone = true ∧ t.dome.restarts = s.dome.restarts))
  ∧ (∀ (s : State), s.Good → s.pwr.railGood.getLsbD 0 = true → ∃ t, exec .tamper s = .next t ∧ t.dome.tamper = true ∧ t.dome.tamperKeys = true
      ∧ (∀ o : Fin 8, (t.belvs[o.val]).hasKey = false ∧ (t.belvs[o.val]).key = 0 ∧ (t.belvs[o.val]).seq = 0)
      ∧ (1 ≤ s.dome.policy.tamperResponse → ∀ o : Fin 8, (t.outs[o.val]).forceLow = true)
      ∧ (s.dome.policy.tamperResponse = 0 → ∀ o : Fin 8, (t.outs[o.val]).forceLow = (s.outs[o.val]).forceLow)
      ∧ (s.dome.policy.tamperResponse = 2 → lcOf t.dome.lcFuse = 3 ∧ t.dome.custKey = BitVec.allOnes 512) ∧ (s.dome.policy.tamperResponse ≠ 2 → t.dome.lcFuse = s.dome.lcFuse)
      ∧ t.keep.wiping = true ∧ t.rdVal .keep 0 8 = 1 ∧ (∀ a, 0xF00000 ≤ a → a < 0xF00040 → cellGet t.img.keep a = 0))
  ∧ (∀ s : State, s.Inv → s.keep.wiping = false →
      (∀ a, a < 0x200000 → cellGet (s.run fun s => s.wipe).img.dome a = 0) ∧ (∀ a, 0xF00000 ≤ a → a < 0x1000000 → cellGet (s.run fun s => s.wipe).img.keep a = 0)
      ∧ (s.run fun s => s.wipe).keep.wiping = false ∧ (s.run fun s => s.wipe).keep.wipeDone = true ∧ (s.run fun s => s.wipe).rdVal .keep 0 8 = 0)
  ∧ (∀ s : State, s.Inv → s.pending = [] → s.keep.wiping = true → s.keep.wipeStep = 6 → ∃ t, step s = .next t ∧ t.keep.wiping = false ∧ t.keep.wipeDone = true)

/-- Resets and rails (R575 to R579, R661). PORST_N starts a power-on reset, which keeps the fuses, the memories' contents and the Belvedere
sequence numbers, and ends with its rise; the pin of a warm reset keeps Spire time, in holdover, and what the AON domain holds; a rail
below its level holds the device in reset, spares AON unless it is VDD_AON, and loses an aperture write that was still buffered (R434). WARM_RESET_KEY: the key A55AH starts a warm reset with its
cause, and every Pavilion, output and Spire link is at its reset value; any other value does nothing. A temperature sample (R630 to R632):
status and peak take it; EV_THERMAL comes when it reaches WARN and again when it falls more than 5.0 °C below; at 115.0 °C the trip holds
every island but AON in reset. Which holds win over which is the model's reading (log 32). -/
def Obligations.ResetsRailsAndTemperature : Prop :=
  ((∀ s : State, s.Inv → ∃ t, exec .powerOnReset s = .next t ∧ t.pwr.reset = .powerOn ∧ t.pwr.cause = 1 ∧ t.img = s.img ∧ t.dome.lcFuse = s.dome.lcFuse
      ∧ t.dome.custKey = s.dome.custKey ∧ t.dome.serial = s.dome.serial ∧ (∀ o : Fin 8, (t.belvs[o.val]).seq = (s.belvs[o.val]).seq) ∧ t.glb.tripped = false ∧ t.spire.now = 0
      ∧ t.pavs = State.reset.pavs ∧ t.outs = State.reset.outs ∧ t.dome.tamper = false)
    ∧ (∀ s : State, s.Inv → s.calm = true →
      (s.pwr.reset = .powerOn → s.pwr.railGood = 0x1F → s.glb.tripped = false → exec .porstRelease s = .next { s with
        glb := { s.glb with sbAddr := s.glb.sbPins, sbWait := true }, pwr := { s.pwr with reset := .running } })
      ∧ (s.pwr.reset = .powerOn → s.pwr.railGood ≠ 0x1F → exec .porstRelease s = .next { s with
        glb := { s.glb with sbAddr := s.glb.sbPins, sbWait := true }, pwr := { s.pwr with reset := .railDown } })
      ∧ (s.pwr.reset ≠ .powerOn → exec .porstRelease s = .next s)
      ∧ (s.pwr.reset = .railDown → s.glb.tripped = false → exec .railPowerGood s = .next { s with pwr := { s.pwr with railGood := 0x1F, reset := .running } })
      ∧ (s.pwr.reset = .railDown → s.glb.tripped = true → exec .railPowerGood s = .next { s with pwr := { s.pwr with railGood := 0x1F, reset := .tripped } })
      ∧ (s.pwr.reset ≠ .railDown → exec .railPowerGood s = .next { s with pwr := { s.pwr with railGood := 0x1F } })
      ∧ (s.pwr.reset ≠ .running → s.pwr.reset ≠ .warm → exec .wrstPin s = .next s)
      ∧ (∀ r : Fin 5, s.keep.used = 0 → s.pwr.reset = .powerOn ∨ (r ≠ 0 ∧ (s.pwr.reset = .railDown ∨ s.pwr.reset = .dead)) →
        exec (.railDrop r) s = .next { s with pwr := { s.pwr with railGood := putB s.pwr.railGood r.val false } }))
    ∧ (∀ s : State, s.Inv → s.pwr.reset = .running ∨ s.pwr.reset = .warm → ∃ t, exec .wrstPin s = .next t ∧ t.pwr.reset = .warm ∧ t.pwr.cause = 4 ∧ t.img = s.img
      ∧ t.spire.now = s.spire.now ∧ t.spire.holdover = true ∧ t.dome.lcFuse = s.dome.lcFuse ∧ t.dome.tamper = s.dome.tamper ∧ t.dome.wmMode = true ∧ t.glb.tjPeak = s.glb.tjPeak
      ∧ t.pavs = State.reset.pavs ∧ t.outs = State.reset.outs ∧ t.spire.links = State.reset.spire.links ∧ t.pwr.railGood = s.pwr.railGood)
    ∧ (∀ s : State, s.Inv → s.pwr.reset ≠ .powerOn → ∃ t, exec (.railDrop 0) s = .next t ∧ t.pwr.reset = .railDown ∧ t.pwr.cause = 2 ∧ t.pwr.railGood = putB s.pwr.railGood 0 false
      ∧ t.spire.now = 0 ∧ t.glb.tripped = false ∧ t.dome.lcFuse = s.dome.lcFuse)
    ∧ (∀ (s : State) (r : Fin 5), s.Inv → r ≠ 0 → s.pwr.reset = .running ∨ s.pwr.reset = .warm ∨ s.pwr.reset = .tripped → ∃ t, exec (.railDrop r) s = .next t ∧ t.pwr.reset = .railDown
      ∧ t.pwr.cause = 2 ∧ t.pwr.railGood = putB s.pwr.railGood r.val false ∧ t.pwr.railDropped.toNat = 2 ^ r.val ∧ t.spire.now = s.spire.now ∧ t.glb.tripped = s.glb.tripped
      ∧ t.pavs = State.reset.pavs)
    -- the words that wait in the Keep's write buffer are lost
    ∧ (∀ (s : State) (r : Fin 5) (a : Nat), s.Inv → ∃ t, exec (.railDrop r) s = .next t ∧ t.keep.used = 0
      ∧ t.rdByte .keep a = s.rdCell .keep a))
  ∧ (∀ (s : State) (v : Word), s.Good → s.HostTo 0 →
      (bits v.toNat 15 0 = 0xA55A → ∃ t, exec (.warmResetKey v) s = .next t ∧ t.pwr.reset = .warm ∧ t.pwr.cause = 8#5 ∧ t.pavs = State.reset.pavs
        ∧ t.spire.links = State.reset.spire.links ∧ t.img.dram = s.img.dram)
      ∧ (bits v.toNat 15 0 ≠ 0xA55A → exec (.warmResetKey v) s = .next s))
  ∧ (∀ (s : State) (tj : Int), s.Good → s.pwr.railGood.getLsbD 0 = true →
      ((s.glb.warn = false → tj < warnAt s.glb.warnTh) → (s.glb.warn = true → warnAt s.glb.warnTh - 50 ≤ tj) → tj < 1150 ∨ s.glb.tripped = true →
        exec (.thermalSample tj) s = .next { s with glb := { s.glb with tj := tj, tjPeak := max tj s.glb.tjPeak } })
      ∧ (s.glb.warn = false → warnAt s.glb.warnTh ≤ tj → tj < 1150 → ∃ t, exec (.thermalSample tj) s = .next t ∧ t.glb.warn = true ∧ t.glb.tj = tj
        ∧ t.glb.tjPeak = max tj s.glb.tjPeak ∧ ∃ e, Tx.domeEvent e ∈ t.tx ∧ e.code = evThermal ∧ (0 ≤ tj → e.detail = tj.toNat))
      ∧ (s.glb.warn = true → tj < warnAt s.glb.warnTh - 50 → tj < 1150 → ∃ t, exec (.thermalSample tj) s = .next t ∧ t.glb.warn = false ∧ t.glb.tj = tj
        ∧ ∃ e, Tx.domeEvent e ∈ t.tx ∧ e.code = evThermal)
      ∧ (s.glb.tripped = false → 1150 ≤ tj → ∃ t, exec (.thermalSample tj) s = .next t ∧ t.glb.tripped = true ∧ t.pwr.reset = .tripped ∧ t.glb.tj = tj
        ∧ t.spire.now = s.spire.now ∧ t.outs = State.reset.outs))

/-- The boot (R584 to R594). From the end of a reset one BOOT runs the flow: with firmware that passes it ends with the Dome running, the
regions in force, DMC_LOCK set, every host port enabled and the physical functions ready; without, in recovery with HP0's Pavilion alone.
XIN that is not stable in time puts the device on RCO. A boot happens once. What a boot clears and keeps (R424, R425, R427, R639, R644):
the Orangery and the Dome SRAM are zero; a warm reset with PRESERVE_LOG, that no destructive march asked for, keeps the log's 128 KiB. The
regions of a boot are the model's (log 14). -/
def Obligations.Boot : Prop :=
  ((∀ (s : State) (e : BootEnv), s.Inv → s.calm = true → s.pwr.booted = false → s.pwr.reset = .running ∨ s.pwr.reset = .warm →
      (∀ u, (s.cleared e).bootFirmware e = (u, true) → ∃ t, exec (.boot e) s = .next t ∧ t.pwr.reset = .running ∧ t.pwr.booted = true ∧ t.dome.st = .run ∧ t.dome.wmMode = false
        ∧ t.dmcg.lock = true ∧ ∀ n : Fin 4, (t.ports[n.val]).enabled = true ∧ (t.pavs[16 * n.val]'(by omega)).present = true ∧ (t.pavs[16 * n.val]'(by omega)).ready = true)
      ∧ (∀ u, (s.cleared e).bootFirmware e = (u, false) → ∃ t, exec (.boot e) s = .next t ∧ t.pwr.stage = 15 ∧ t.pwr.booted = true ∧ t.pwr.reset = .running
        ∧ (t.ports[0]).enabled = true ∧ (t.pavs[0]).ready = true ∧ (t.pavs[0]).exts = [⟨0, 0x1FE0000⟩])
      ∧ (s.clk.xinOk = false → exec .bootXinTimeout s = .next { s with
          clk := { s.clk with xinOk := false, onRco := true, failCode := 1 }
          spire := { s.spire with holdover := true }
          pwr := { s.pwr with xinFail := true, dramFail := true } })
      ∧ (s.clk.xinOk = true → exec .bootXinTimeout s = .next s))
    ∧ (∀ (s : State) (e : BootEnv), s.Inv → s.calm = true → s.pwr.booted = true ∨ (s.pwr.reset ≠ .running ∧ s.pwr.reset ≠ .warm) →
      exec (.boot e) s = .next s ∧ exec .bootXinTimeout s = .next s))
  ∧ (∀ (s : State) (e : BootEnv), s.Inv → s.calm = true → s.pwr.booted = false → s.pwr.reset = .running ∨ s.pwr.reset = .warm →
      let keepLog := s.pwr.reset == .warm && s.org.preserveLog && !s.pwr.destructive
      let u := s.run fun s => s.cleared e
      (∀ a, a < 0x1FE0000 → cellGet u.img.org a = 0) ∧ (∀ a, a < 0x200000 → cellGet u.img.dome a = 0)
        ∧ (keepLog = true → ∀ a, 0x1FE0000 ≤ a → a < 0x2000000 → cellGet u.img.org a = cellGet s.img.org a)
        ∧ (keepLog = false → u.evt = {} ∧ ∀ a, a < 0x2000000 → cellGet u.img.org a = 0) ∧ u.org.logKept = keepLog ∧ u.org.clearDone = true)

/-- One AON cycle of an idle device (R36, R318, R319): Spire time advances by 10 ns with at most 200 ppm of the slew still owed, by the rate
of the last correction in holdover, and by the RCO's own measure on RCO; a link that is UP with nothing to send sends an IDLE flit (R301, R309). That an empty queue is one cycle is the model's choice (log 3). -/
def Obligations.IdleCycle : Prop :=
  ∀ s : State, s.Good → s.pending = [] → s.pwr.railGood.getLsbD 0 = true → s.spire.frac < 2 ^ 24 → s.spire.now.toNat < 2 ^ 63 → s.clk.track < 2 ^ 40 →
    -- the cycle of AON on XIN lasts 20 ns, on RCO it lasts what the monitor has measured
    let n : Nat := if s.clk.aonOnXin = true then 2 else 1
    ∃ t, step s = .next t ∧ t.pending = [] ∧
      (s.clk.onRco = true → t.fine = s.fine + 20 * s.clk.track)
      ∧ (s.clk.onRco = false → s.spire.holdover = true → -100000 ≤ s.spire.rate → s.spire.rate ≤ 100000 →
        (t.fine : Int) = s.fine + (n : Int) * (10 * 2 ^ 24 + s.spire.rate))
      ∧ (s.clk.onRco = false → s.spire.holdover = false →
        (t.fine : Int) - (s.fine + (n : Int) * 10 * 2 ^ 24) = s.spire.slew - t.spire.slew ∧ (s.spire.slew - t.spire.slew).natAbs ≤ n * 33554
        ∧ (s.spire.slew.natAbs ≤ n * 33554 → t.spire.slew = 0))
      ∧ t.arrived = []
      ∧ (∀ l : Fin 12, s.linkUp l = true → (s.spire.links[l.val]).waiting = [] → ∃ g, Tx.flit l g ∈ t.tx ∧ fClass g = 2 ∧ fType g = 0
        ∧ (t.spire.links[l.val]).tx = (s.spire.links[l.val]).tx + 1)
end

