-- ==== Sys2Proof/Laws/Core.lean ====
section
/-!
SUPPORT. The core of a state: what decides whether something follows a command's effect (`State.calm`). Every operation but a few keeps
it, and a command that keeps it in a steady state is followed by nothing.
-/
namespace Sys2Proof.Machine
open Sys2Proof

/-- What `State.calm` looks at: the descriptors waiting to begin, the requests and posted writes that wait for tokens, whether the jobs wait and have ended, the composers'
errors, a wipe, the Dome's state and its halt ALARM, its policy entries that make ALARMs, the ALARMs waiting where no entry makes them, and the reset and boot
states. -/
structure Core where
  orders : Vector (List Waiting) 64
  posted : Vector (List (Nat × HostOp)) 4
  faults : Vector (List (Option Nat)) 8
  jobs : List (Bool × Bool)
  entry : List EntryReq
  wiping : Bool
  domeSt : DomeSt
  haltSend : Bool
  safeOut : List SafeOut
  alarms : List (Word × Option Nat)
  reset : ResetSt
  stage : Nat

/-- The core of a state. -/
def State.core (s : State) : Core :=
  { orders := s.pavs.map Pav.order, posted := s.ports.map Port.posted, faults := s.comps.map Comp.faults, jobs := s.jobs.map fun j => (j.waiting, j.fin.isNone), entry := s.entry
    wiping := s.keep.wiping, domeSt := s.dome.st, haltSend := s.dome.haltSend, safeOut := s.dome.policy.safeOut
    alarms := if s.dome.policy.safeOut.isEmpty then s.dome.alarms else [], reset := s.pwr.reset, stage := s.pwr.stage }

/-- A field of a vector's entries that an update of one entry keeps. -/
theorem map_upd {α β : Type} {n : Nat} (g : α → β) (v : Vector α n) (p : Fin n) (f : α → α) (h : ∀ x, g (f x) = g x) :
    (upd v p f).map g = v.map g := by
  ext i hi
  by_cases hp : p.val = i
  · subst hp; simp [upd, h]
  · simp [upd, Vector.getElem_set, hp]

theorem calm_of_core {s t : State} (h : t.core = s.core) : t.calm = s.calm := by
  have h1 := congrArg Core.orders h
  have h2 := congrArg Core.domeSt h
  have h3 := congrArg Core.safeOut h
  have h4 := congrArg Core.alarms h
  have h6 := congrArg Core.stage h
  have h7 := congrArg Core.posted h
  have h8 := congrArg Core.faults h
  have h9 := congrArg Core.jobs h
  have h10 := congrArg Core.entry h
  have h11 := congrArg Core.wiping h
  have h12 := congrArg Core.haltSend h
  simp only [State.core] at h1 h2 h3 h4 h6 h7 h8 h9 h10 h11 h12
  have q : t.quiet = s.quiet := by
    have e : ∀ u : State, u.quiet = (u.pavs.map Pav.order).toList.all List.isEmpty := by
      intro u; simp [State.quiet, Vector.toList_map, List.all_map, Function.comp_def]
    rw [e, e, h1]
  have q2 : (t.ports.toList.all fun t => t.posted.isEmpty) = s.ports.toList.all fun t => t.posted.isEmpty := by
    have e : ∀ u : State, (u.ports.toList.all fun t => t.posted.isEmpty) = (u.ports.map Port.posted).toList.all List.isEmpty := by
      intro u; simp [Vector.toList_map, List.all_map, Function.comp_def]
    rw [e, e, h7]
  have q3 : (t.comps.toList.all fun c => c.faults.isEmpty) = s.comps.toList.all fun c => c.faults.isEmpty := by
    have e : ∀ u : State, (u.comps.toList.all fun c => c.faults.isEmpty) = (u.comps.map Comp.faults).toList.all List.isEmpty := by
      intro u; simp [Vector.toList_map, List.all_map, Function.comp_def]
    rw [e, e, h8]
  have q4 : t.jobsIdle = s.jobsIdle := by
    have e : ∀ u : State, u.jobsIdle = (u.jobs.map fun j => (j.waiting, j.fin.isNone)).all fun x => !x.1 && x.2 := by
      intro u; simp [State.jobsIdle, List.all_map, Function.comp_def]
    rw [e, e, h9]
  unfold State.calm
  rw [q, q2, q3, q4, h2, h3, h6, h10, h11, h12]
  rw [h3] at h4
  by_cases he : s.dome.policy.safeOut.isEmpty
  · rw [if_pos he, if_pos he] at h4; rw [h4]
  · simp [he]

/-- What calm says, part by part. -/
theorem calm_parts {s : State} (h : s.calm = true) :
    s.keep.wiping = false ∧ s.dome.st ≠ .restart ∧ s.dome.haltSend = false ∧ s.dome.alarms = [] ∧ s.dome.policy.safeOut = [] ∧ s.entry = []
      ∧ (∀ n : Fin 4, (s.ports[n.val]).posted = []) ∧ s.quiet = true ∧ s.jobsIdle = true ∧ (∀ o : Fin 8, (s.comps[o.val]).faults = [])
      ∧ s.pwr.stage ≠ 10 := by
  simp only [State.calm, Bool.and_eq_true, bne_iff_ne, ne_eq, Bool.not_eq_true', List.isEmpty_iff, List.all_eq_true] at h
  obtain ⟨⟨⟨⟨⟨⟨⟨⟨⟨⟨h1, h2⟩, h2a⟩, h3⟩, h4⟩, h5⟩, h6⟩, h7⟩, h8⟩, h9⟩, h10⟩ := h
  refine ⟨h1, h2, h2a, h3, h4, h5, fun n => ?_, h7, h8, fun o => ?_, h10⟩
  · exact h6 _ (Vector.mem_toList_iff.2 (Vector.getElem_mem n.isLt))
  · exact h9 _ (Vector.mem_toList_iff.2 (Vector.getElem_mem o.isLt))

/-- Idle jobs take no turn. -/
theorem serveJobs_idle {s : State} (h : s.jobsIdle = true) : s.serveJobs = s := by
  simp only [State.jobsIdle, List.all_eq_true, Bool.and_eq_true, Bool.not_eq_true'] at h
  have hr : s.releaseJobs = s := by
    unfold State.releaseJobs
    rw [List.filter_eq_nil_iff.2]
    · rfl
    · intro j hj; simp [(h j hj).1]
  have hs : ∀ n e, State.serve n s e = s := by
    intro n e
    cases n with
    | zero => rfl
    | succ n =>
      unfold State.serve
      rw [if_neg]
      simp only [List.any_eq_true, not_exists, not_and, Bool.and_eq_true]
      intro j hj e
      have := (h j hj).2
      simp_all
  unfold State.serveJobs
  split
  · rfl
  · rw [hr]
    have : ∀ l : List Nat, l.foldl (fun t e => State.serve t.turnsLeft t e) s = s := by
      intro l
      induction l with
      | nil => rfl
      | cons a l ih => rw [List.foldl_cons, hs, ih]
    have hf : s.jobs.filter s.jobHeld = [] := by
      rw [List.filter_eq_nil_iff]
      intro j hj
      have hn := (h j hj).2
      simp only [Option.isNone_iff_eq_none] at hn
      simp [State.jobHeld, hn]
    rw [this]
    dsimp only
    rw [hf]
    rfl

/-- Composers without errors of their fetches have no underrun of them. -/
theorem faultGo_idle {s : State} (h : ∀ o : Fin 8, (s.comps[o.val]).faults = []) : (idx 8).foldl State.faultGo s = s := by
  have hs : ∀ o, s.faultGo o = s := by intro o; unfold State.faultGo; simp [h o]
  have : ∀ l : List (Fin 8), l.foldl State.faultGo s = s := by
    intro l
    induction l with
    | nil => rfl
    | cons a l ih => rw [List.foldl_cons, hs, ih]
  exact this _

/-- No request and no posted write waits for tokens. -/
theorem fabricGo_idle {s : State} (he : s.entry = []) (hp : ∀ n : Fin 4, (s.ports[n.val]).posted = []) : s.fabricGo = s := by
  have h0 : (s.ports.toList.map fun t => t.posted.length).sum = 0 := by
    have : ∀ l : List Port, (∀ x ∈ l, x.posted = []) → (l.map fun t => t.posted.length).sum = 0 := by
      intro l h
      induction l with
      | nil => rfl
      | cons a l ih => simp [h a (by simp), ih fun x hx => h x (by simp [hx])]
    refine this _ fun x hx => ?_
    obtain ⟨i, hi, rfl⟩ := Vector.mem_iff_getElem.1 (Vector.mem_toList_iff.1 hx)
    exact hp ⟨i, hi⟩
  have : s.waitingN = 0 := by unfold State.waitingN; rw [h0, he]; rfl
  unfold State.fabricGo
  rw [this]
  rfl

/-- In a calm state nothing follows. -/
theorem after_of_calm {s : State} (h : s.calm = true) : s.after = s := by
  obtain ⟨h1, h2, h2a, h3, h4, h5, h6, h7, h8, h9, h10⟩ := calm_parts h
  have w : State.wipeDue 3 s = s := by simp [State.wipeDue, h1]
  have a : s.domeBack = s := by unfold State.domeBack; simp [h2]
  have b : s.alarmsGo = s := by unfold State.alarmsGo; rw [h2a, h3]; rfl
  have c : s.settle = s := by unfold State.settle; simp [h7]
  have d : s.noteReady = s := by unfold State.noteReady; simp [h10]
  unfold State.after
  rw [w, a, b, fabricGo_idle h5 h6, c, serveJobs_idle h8, c, faultGo_idle h9, d]

/-- A command whose effect keeps the core of a steady state does that and nothing else. -/
theorem act_steady {s : State} {f : State → State} (h : s.Steady) (hf : (f s).core = s.core) : act f s = .next (s.run f) := by
  have hc : (f s).calm = true := by rw [calm_of_core hf]; exact h.2
  simp only [act, runOk, State.run, h.1, beq_self_eq_true, if_true, after_of_calm hc]

/-- The same for a command of the AON domain, in any reset state. -/
theorem actAon_calm {s : State} {f : State → State} (h : s.calm = true) (hf : (f s).core = s.core) : actAon f s = .next (s.run f) := by
  have hc : (f s).calm = true := by rw [calm_of_core hf]; exact h
  simp only [actAon, runOk, State.run, after_of_calm hc]

/-- An operation that keeps the core keeps it in every turn of a loop. -/
@[simp] theorem foldl_core {α : Type} {f : State → α → State} (h : ∀ s a, (f s a).core = s.core) (l : List α) (s : State) :
    (l.foldl f s).core = s.core := by
  induction l generalizing s with
  | nil => rfl
  | cons a l ih => rw [List.foldl_cons, ih, h]

@[simp] theorem foldl_core2 {α β : Type} {f : State × β → α → State × β} (h : ∀ x a, (f x a).1.core = x.1.core) (l : List α) (x : State × β) :
    (l.foldl f x).1.core = x.1.core := by
  induction l generalizing x with
  | nil => rfl
  | cons a l ih => rw [List.foldl_cons, ih, h]

@[simp] theorem modPav_core {s : State} {p : Fin 64} {f : Pav → Pav} (h : ∀ x, (f x).order = x.order) : (s.modPav p f).core = s.core := by
  simp [State.core, State.modPav, map_upd Pav.order _ _ _ h]

@[simp] theorem modPort_core {s : State} {p : Fin 4} {f : Port → Port} (h : ∀ x, (f x).posted = x.posted) : (s.modPort p f).core = s.core := by
  simp [State.core, State.modPort, map_upd Port.posted _ _ _ h]

@[simp] theorem modComp_core {s : State} {p : Fin 8} {f : Comp → Comp} (h : ∀ x, (f x).faults = x.faults) : (s.modComp p f).core = s.core := by
  simp [State.core, State.modComp, map_upd Comp.faults _ _ _ h]

@[simp] theorem pavsMap_core {s : State} {f : Pav → Pav} (h : ∀ x, (f x).order = x.order) : ({ s with pavs := s.pavs.map f } : State).core = s.core := by
  simp [State.core, Vector.map_map, Function.comp_def, h]

end Sys2Proof.Machine
end

