-- ==== Sys2Proof/Laws/CoreOps.lean ====
section
/-!
SUPPORT. The operations over the state that keep its core, first part: what the commands are made of.
-/
set_option maxHeartbeats 400000
set_option linter.all false
set_option exponentiation.threshold 3000
namespace Sys2Proof.Machine
open Sys2Proof

@[simp] theorem core_mk (t : State) {a0} {a1} {a2} {a3} {a4} {a5} {a6} {a7} {a8} {a9} {a10} {a11} {a12} {a13} {a14} {a15} {a16} {a17} {a18} {a19} {a20} {a21} {a22} {a23} {a24} {a25} {a26} {a27} {a28} {a29} {a30} {a31} {a32} {a33} {a34} : (State.mk a0 a1 a2 a3 a4 t.pavs t.ports a5 a6 a7 a8 a9 a10 a11 a12 t.comps a13 a14 a15 a16 a17 t.jobs a18 a19 t.entry a20 a21 a22 a23 a24 a25 a26 t.keep t.dome a27 a28 t.pwr a29 a30 a31 a32 a33 a34).core = t.core := rfl
@[simp] theorem core_mkDome (t : State) {a0} {a1} {a2} {a3} {a4} {a5} {a6} {a7} {a8} {a9} {a10} {a11} {a12} {a13} {a14} {a15} {a16} {a17} {a18} {a19} {a20} {a21} {a22} {a23} {a24} {a25} {a26} {a27} {a28} {a29} {a30} {a31} {a32} {a33} {a34} {b0} {b1} {b2} {b3} {b4} {b5} {b6} {b7} {b8} {b9} {b10} {b11} {b12} {b13} {b14} {b15} {b16} {b17} {b18} {b19} {b20} {b21} {b22} {b23} {b24} {b25} {b26} : (State.mk a0 a1 a2 a3 a4 t.pavs t.ports a5 a6 a7 a8 a9 a10 a11 a12 t.comps a13 a14 a15 a16 a17 t.jobs a18 a19 t.entry a20 a21 a22 a23 a24 a25 a26 t.keep (Dome.mk t.dome.st b0 b1 b2 b3 b4 b5 b6 b7 b8 b9 b10 b11 b12 b13 b14 b15 t.dome.policy b16 b17 b18 b19 b20 b21 b22 b23 t.dome.alarms b24 b25 b26 t.dome.haltSend) a27 a28 t.pwr a29 a30 a31 a32 a33 a34).core = t.core := rfl
@[simp] theorem core_mkPwr (t : State) {a0} {a1} {a2} {a3} {a4} {a5} {a6} {a7} {a8} {a9} {a10} {a11} {a12} {a13} {a14} {a15} {a16} {a17} {a18} {a19} {a20} {a21} {a22} {a23} {a24} {a25} {a26} {a27} {a28} {a29} {a30} {a31} {a32} {a33} {a34} {b0} {b1} {b2} {b3} {b4} {b5} {b6} {b7} {b8} {b9} {b10} {b11} {b12} {b13} {b14} {b15} : (State.mk a0 a1 a2 a3 a4 t.pavs t.ports a5 a6 a7 a8 a9 a10 a11 a12 t.comps a13 a14 a15 a16 a17 t.jobs a18 a19 t.entry a20 a21 a22 a23 a24 a25 a26 t.keep t.dome a27 a28 (Pwr.mk t.pwr.reset b0 b1 b2 b3 b4 b5 b6 t.pwr.stage b7 b8 b9 b10 b11 b12 b13 b14 b15) a29 a30 a31 a32 a33 a34).core = t.core := rfl
@[simp] theorem core_mkKeep (t : State) {a0} {a1} {a2} {a3} {a4} {a5} {a6} {a7} {a8} {a9} {a10} {a11} {a12} {a13} {a14} {a15} {a16} {a17} {a18} {a19} {a20} {a21} {a22} {a23} {a24} {a25} {a26} {a27} {a28} {a29} {a30} {a31} {a32} {a33} {a34} {b0} {b1} {b2} {b3} {b4} {b5} {b6} {b7} {b8} {b9} : (State.mk a0 a1 a2 a3 a4 t.pavs t.ports a5 a6 a7 a8 a9 a10 a11 a12 t.comps a13 a14 a15 a16 a17 t.jobs a18 a19 t.entry a20 a21 a22 a23 a24 a25 a26 (Keep.mk t.keep.wiping b0 b1 b2 b3 b4 b5 b6 b7 b8 b9) t.dome a27 a28 t.pwr a29 a30 a31 a32 a33 a34).core = t.core := rfl
@[simp] theorem modSq_core (s : State) (p : Fin 64) (q : Fin 8) (f : Sq → Sq) : (s.modSq p q f).core = s.core := modPav_core fun _ => rfl
@[simp] theorem modCq_core (s : State) (p : Fin 64) (f : Cq → Cq) : (s.modCq p f).core = s.core := modPav_core fun _ => rfl
@[simp] theorem modEq_core (s : State) (p : Fin 64) (f : Evq → Evq) : (s.modEq p f).core = s.core := modPav_core fun _ => rfl
@[simp] theorem modMbox_core (s : State) (p : Fin 64) (i : Fin 2) (f : MboxSlot → MboxSlot) : (s.modMbox p i f).core = s.core := modPav_core fun _ => rfl
@[simp] theorem modView_core (s : State) (p : Fin 64) (v : Fin 8) (f : View → View) : (s.modView p v f).core = s.core := modPav_core fun _ => rfl
theorem safeOutFold_core (g : SafeOut × Nat → State → Bool) (m : List (SafeOut × Nat)) (t : State) (h : t.dome.policy.safeOut ≠ []) :
    (m.foldl (fun s q =>
      if g q s then
        { s with dome := { s.dome with alarms := s.dome.alarms ++ [(q.1.word, some q.2)], safeOutDone := q.2 :: s.dome.safeOutDone } }
      else s) t).core = t.core := by
  induction m generalizing t with
  | nil => rfl
  | cons q m ih =>
    rw [List.foldl_cons]
    split
    · refine (ih _ (by exact h)).trans ?_; simp [State.core, h]
    · exact ih t h
@[simp] theorem safeOut_core (s : State) (ev : Ev) : (s.safeOut ev).core = s.core := by
  unfold State.safeOut
  split
  · rfl
  · by_cases h : s.dome.policy.safeOut = []
    · rw [h]; rfl
    · exact safeOutFold_core (fun q s => q.1.code == ev.code && (q.1.inst == 0xFF || q.1.inst == ev.inst) && !s.dome.safeOutDone.contains q.2
                && !(s.dome.alarms.any fun a => a.2 == some q.2) && decide (s.dome.alarms.length < 64)) _ s h
@[simp] theorem stCell_core (s : State) (m : MemId) (a : Nat) (v : Byte) : (State.stCell s m a v).core = s.core := by simp [State.stCell]
@[simp] theorem meet_core (s : State) (m : MemId) (a : Nat) (e : Ecc) : (State.meet s m a e).core = s.core := by unfold State.meet; repeat' split <;> simp
@[simp] theorem modSlot_core (s : State) (i : Fin 256) (f : Slot → Slot) : (State.modSlot s i f).core = s.core := by simp [State.modSlot]
@[simp] theorem modOut_core (s : State) (o : Fin 8) (f : Out → Out) : (State.modOut s o f).core = s.core := by simp [State.modOut]
@[simp] theorem modBelv_core (s : State) (o : Fin 8) (f : Belv → Belv) : (State.modBelv s o f).core = s.core := by simp [State.modBelv]
@[simp] theorem modCvu_core (s : State) (c : Fin 16) (f : Cvu → Cvu) : (State.modCvu s c f).core = s.core := by simp [State.modCvu]
@[simp] theorem modDmc_core (s : State) (c : Fin 8) (f : Dmc → Dmc) : (State.modDmc s c f).core = s.core := by simp [State.modDmc]
@[simp] theorem modBport_core (s : State) (q : Fin 83) (f : BPort → BPort) : (State.modBport s q f).core = s.core := by simp [State.modBport]
@[simp] theorem modLink_core (s : State) (l : Fin 12) (f : Link → Link) : (State.modLink s l f).core = s.core := by simp [State.modLink]
@[simp] theorem modCtl_core (s : State) (c : Fin 32) (f : Control → Control) : (State.modCtl s c f).core = s.core := by simp [State.modCtl]
@[simp] theorem modHap_core (s : State) (h : Fin 16) (f : Hap → Hap) : (State.modHap s h f).core = s.core := by simp [State.modHap]
@[simp] theorem modVoice_core (s : State) (v : Fin 16) (f : Voice → Voice) : (State.modVoice s v f).core = s.core := by simp [State.modVoice]
@[simp] theorem emit_core (s : State) (t : Tx) : (State.emit s t).core = s.core := by simp [State.emit]
@[simp] theorem msi_core (s : State) (p : Fin 64) (vec : Nat) : (State.msi s p vec).core = s.core := by unfold State.msi; simp [apply_ite State.core]
@[simp] theorem errMsi_core (s : State) (p : Fin 64) : (State.errMsi s p).core = s.core := by simp [State.errMsi]
@[simp] theorem cqInt_core (s : State) (p : Fin 64) : (State.cqInt s p).core = s.core := by simp [State.cqInt]
@[simp] theorem eqInt_core (s : State) (p : Fin 64) : (State.eqInt s p).core = s.core := by simp [State.eqInt]
@[simp] theorem cqWrite_core (s : State) (p : Fin 64) (rec : BitVec 128) : (State.cqWrite s p rec).core = s.core := by unfold State.cqWrite; simp [apply_ite State.core]
@[simp] theorem postCq_core (s : State) (p : Fin 64) (rec : BitVec 128) : (State.postCq s p rec).core = s.core := by unfold State.postCq; simp [apply_ite State.core]
@[simp] theorem complete_core (s : State) (p : Fin 64) (sq : Fin 8) (seq : BitVec 16) (op : BitVec 8) (status : Nat)
    (deferred late heldWall : Bool) (field result : Nat) : (State.complete s p sq seq op status deferred late heldWall field result).core = s.core := by simp [State.complete]
@[simp] theorem completeOk_core (s : State) (p : Fin 64) (sq : Fin 8) (seq : BitVec 16) (op : BitVec 8)
    (deferred late heldWall : Bool) (result : Nat) : (State.completeOk s p sq seq op deferred late heldWall result).core = s.core := by simp [State.completeOk]
@[simp] theorem eqWrite_core (s : State) (p : Fin 64) (ev : Ev) : (State.eqWrite s p ev).core = s.core := by unfold State.eqWrite; simp [apply_ite State.core]
@[simp] theorem eqLose_core (s : State) (p : Fin 64) : (State.eqLose s p).core = s.core := by simp [State.eqLose]
@[simp] theorem eqOwed_core (s : State) (p : Fin 64) : (State.eqOwed s p).core = s.core := by unfold State.eqOwed; simp [apply_ite State.core]
@[simp] theorem eqPost_core (s : State) (p : Fin 64) (ev : Ev) : (State.eqPost s p ev).core = s.core := by unfold State.eqPost; simp [apply_ite State.core]
@[simp] theorem noteOne_core (s : State) (p : Fin 64) (k : Fin 4) : (State.noteOne s p k).core = s.core := by unfold State.noteOne; simp [apply_ite State.core]
@[simp] theorem noteQuota_core (s : State) (p : Fin 64) (k : Fin 4) : (State.noteQuota s p k).core = s.core := by unfold State.noteQuota; simp [apply_ite State.core]
@[simp] theorem announce_core (s : State) (p : Fin 64) : (State.announce s p).core = s.core := by simp [State.announce]
@[simp] theorem charge_core (s : State) (p : Fin 64) (k : Fin 4) (n : Nat) : (State.charge s p k n).core = s.core := by simp [State.charge]
@[simp] theorem deliver_core (s : State) (p : Fin 64) (ev : Ev) : (State.deliver s p ev).core = s.core := by unfold State.deliver; simp [apply_ite State.core]
@[simp] theorem refill_core (s : State) (ns : Nat) : (State.refill s ns).core = s.core := by simp [State.refill]
@[simp] theorem noteNeed_core (s : State) (o : Fin 8) (n : Need) : (State.noteNeed s o n).core = s.core := by simp [State.noteNeed]
@[simp] theorem reEval_core (s : State) (o : Fin 8) : (State.reEval s o).core = s.core := by simp [State.reEval]
@[simp] theorem noteReject_core (s : State) (o : Fin 8) (st : Nat) : (State.noteReject s o st).core = s.core := by unfold State.noteReject; split <;> simp
@[simp] theorem refuse_core (s : State) (w : Waiting) (b : Bad) : (State.refuse s w b).core = s.core := by simp [State.refuse]
@[simp] theorem finish_core (s : State) (w : Waiting) (result : Nat) : (State.finish s w result).core = s.core := by simp [State.finish]
@[simp] theorem judge_core (s : State) (w : Waiting) (checks : List (Bool × Nat × Nat)) (eff : State → State) (h1 : ∀ x0, (eff x0).core = x0.core) : (State.judge s w checks eff).core = s.core := by
  unfold State.judge
  try dsimp only
  repeat' (first | with_reducible rfl | (simp only [core_mk, core_mkDome, core_mkPwr, apply_ite State.core, apply_ite Prod.fst, ite_self, implies_true, foldl_core, foldl_core2, h1]; done) | (simp [core_mk, core_mkDome, core_mkPwr, apply_ite State.core, apply_ite Prod.fst, ite_self, implies_true, foldl_core, foldl_core2, h1]; done) | split | (apply foldl_core; intro _ _; try dsimp only) | (apply foldl_core2; intro _ _; try dsimp only) | (simp only [core_mk, core_mkDome, core_mkPwr, apply_ite State.core, apply_ite Prod.fst, ite_self, implies_true, foldl_core, foldl_core2, h1]))
@[simp] theorem mbxReply_core (s : State) (p : Fin 64) (i : Fin 2) (m : BitVec 2048) : (State.mbxReply s p i m).core = s.core := by unfold State.mbxReply; simp [apply_ite State.core]
@[simp] theorem answer_core (s : State) (p : Fin 64) (i : Fin 2) (req : BitVec 2048) (status : Nat) (more : List (Nat × Nat × Nat)) : (State.answer s p i req status more).core = s.core := by simp [State.answer]
@[simp] theorem safetyReply_core (s : State) (p : Fin 64) (i : Fin 2) (req : BitVec 2048) (status frame : Nat) : (State.safetyReply s p i req status frame).core = s.core := by unfold State.safetyReply; dsimp only; repeat' split <;> simp
@[simp] theorem mbxTake_core (s : State) (p : Fin 64) (i : Fin 2) (q : BitVec 2048 → Bool) (f : State → BitVec 2048 → State) (h1 : ∀ x0 x1, (f x0 x1).core = x0.core) : (State.mbxTake s p i q f).core = s.core := by
  unfold State.mbxTake
  try dsimp only
  repeat' (first | with_reducible rfl | (simp only [core_mk, core_mkDome, core_mkPwr, apply_ite State.core, apply_ite Prod.fst, ite_self, implies_true, foldl_core, foldl_core2, h1]; done) | (simp [core_mk, core_mkDome, core_mkPwr, apply_ite State.core, apply_ite Prod.fst, ite_self, implies_true, foldl_core, foldl_core2, h1]; done) | split | (apply foldl_core; intro _ _; try dsimp only) | (apply foldl_core2; intro _ _; try dsimp only) | (simp only [core_mk, core_mkDome, core_mkPwr, apply_ite State.core, apply_ite Prod.fst, ite_self, implies_true, foldl_core, foldl_core2, h1]))
@[simp] theorem managerOnly_core (s : State) (p : Fin 64) (i : Fin 2) (req : BitVec 2048) (f : State → State) (h1 : ∀ x0, (f x0).core = x0.core) : (State.managerOnly s p i req f).core = s.core := by
  unfold State.managerOnly
  try dsimp only
  repeat' (first | with_reducible rfl | (simp only [core_mk, core_mkDome, core_mkPwr, apply_ite State.core, apply_ite Prod.fst, ite_self, implies_true, foldl_core, foldl_core2, h1]; done) | (simp [core_mk, core_mkDome, core_mkPwr, apply_ite State.core, apply_ite Prod.fst, ite_self, implies_true, foldl_core, foldl_core2, h1]; done) | split | (apply foldl_core; intro _ _; try dsimp only) | (apply foldl_core2; intro _ _; try dsimp only) | (simp only [core_mk, core_mkDome, core_mkPwr, apply_ite State.core, apply_ite Prod.fst, ite_self, implies_true, foldl_core, foldl_core2, h1]))
@[simp] theorem acceptSeq_core (s : State) (m : BitVec 2048) : (State.acceptSeq s m).core = s.core := by simp [State.acceptSeq]
@[simp] theorem toDome_core (s : State) (e : Ev) : (State.toDome s e).core = s.core := by simp [State.toDome]
@[simp] theorem portWaits_core (s : State) (q : Fin 83) : (State.portWaits s q).core = s.core := by unfold State.portWaits; simp [apply_ite State.core]
@[simp] theorem portUse_core (s : State) (q : Fin 83) (n : Nat) : (State.portUse s q n).core = s.core := by unfold State.portUse; simp [apply_ite State.core]
@[simp] theorem dramCharge_core (s : State) (q : Fin 83) (a n : Nat) : (State.dramCharge s q a n).core = s.core := by simp [State.dramCharge]
@[simp] theorem wqAdd_core (s : State) (keepOpen : Bool) (atom : Nat) (bytes : List (Nat × Byte)) : (State.wqAdd s keepOpen atom bytes).core = s.core := by simp [State.wqAdd]
@[simp] theorem rowUse_core (s : State) (a : Nat) (openHint : Bool) : (State.rowUse s a openHint).core = s.core := by simp [State.rowUse]
@[simp] theorem stCells_core (s : State) (m : MemId) (a : Nat) (l : List Byte) : (State.stCells s m a l).core = s.core := by simp [State.stCells]
@[simp] theorem unpoison_core (s : State) (m : MemId) (a n : Nat) : (State.unpoison s m a n).core = s.core := by simp [State.unpoison]
@[simp] theorem txFlit_core (s : State) (l : Fin 12) (f : BitVec 256) : (State.txFlit s l f).core = s.core := by simp [State.txFlit]
@[simp] theorem replay_core (s : State) (l : Fin 12) : (State.replay s l).core = s.core := by unfold State.replay; dsimp only; repeat' first | rfl | (simp [apply_ite State.core, apply_ite Prod.fst]; done) | split | (apply foldl_core; intro _ _; try dsimp only)
@[simp] theorem setTime_core (s : State) (id : Nat) (t : DWord) : (State.setTime s id t).core = s.core := by simp [State.setTime]
@[simp] theorem setFence_core (s : State) (p : Fin 64) (c : Fin 256) (v : DWord) : (State.setFence s p c v).core = s.core := by simp [State.setFence]
@[simp] theorem beginFenceSignal_core (s : State) (w : Waiting) : (State.beginFenceSignal s w).core = s.core := by simp [State.beginFenceSignal]
@[simp] theorem fenceRegister_core (s : State) (p : Fin 64) (c : Fin 256) (v : DWord) : (State.fenceRegister s p c v).core = s.core := by unfold State.fenceRegister; simp [apply_ite State.core]
@[simp] theorem expire_core (s : State) (m : Member) : (State.expire s m).core = s.core := by simp [State.expire]
@[simp] theorem modGroup_core (s : State) (g : Group) (f : Group → Group) : (State.modGroup s g f).core = s.core := by simp [State.modGroup]
@[simp] theorem noteHeld_core (s : State) (gs : List Group) : (State.noteHeld s gs).core = s.core := by simp [State.noteHeld]
@[simp] theorem countCut_core (s : State) (g : Fin 4) (f : Nat) (dec : Option (Bool × Nat)) : (State.countCut s g f dec).core = s.core := by unfold State.countCut; simp [apply_ite State.core]
@[simp] theorem keepDecision_core (s : State) (g : Fin 4) (f : Nat) (flip : Bool) (detail : Nat) : (State.keepDecision s g f flip detail).core = s.core := by simp [State.keepDecision]
@[simp] theorem passReports_core (s : State) : (State.passReports s).core = s.core := by unfold State.passReports; simp [apply_ite State.core]
@[simp] theorem beginEventArm_core (s : State) (w : Waiting) : (State.beginEventArm s w).core = s.core := by unfold State.beginEventArm; simp [apply_ite State.core]
@[simp] theorem endExport_core (s : State) (e : Export) : (State.endExport s e).core = s.core := by simp [State.endExport]
@[simp] theorem endCapture_core (s : State) (o : Fin 8) (c : Capture) : (State.endCapture s o c).core = s.core := by unfold State.endCapture; simp [apply_ite State.core]
@[simp] theorem endCapturesOf_core (s : State) (o : Fin 8) (p : Fin 64) (v : Fin 8) : (State.endCapturesOf s o p v).core = s.core := by simp [State.endCapturesOf]
@[simp] theorem purgeImports_core (s : State) : (State.purgeImports s).core = s.core := by simp [State.purgeImports]
@[simp] theorem freeSlot_core (s : State) (i : Fin 256) : (State.freeSlot s i).core = s.core := by simp [State.freeSlot]
@[simp] theorem freeReleased_core (s : State) (was : List (Fin 256)) : (State.freeReleased s was).core = s.core := by unfold State.freeReleased; simp [apply_ite State.core]
@[simp] theorem releaseExtent_core (s : State) (p : Fin 64) (base : Nat) : (State.releaseExtent s p base).core = s.core := by unfold State.releaseExtent; dsimp only; repeat' first | rfl | (simp; done) | split
@[simp] theorem endOver_core (s : State) (o : Fin 8) : (State.endOver s o).core = s.core := by simp [State.endOver]
@[simp] theorem sendLines_core (s : State) (o : Fin 8) (n : Nat) : (State.sendLines s o n).core = s.core := by unfold State.sendLines; simp [apply_ite State.core]
@[simp] theorem streamOn_core (s : State) (o : Fin 8) : (State.streamOn s o).core = s.core := by unfold State.streamOn; simp [apply_ite State.core]
@[simp] theorem stopStream_core (s : State) (o : Fin 8) (n : Nat) (x : List Tx) : (State.stopStream s o n x).core = s.core := by unfold State.stopStream; simp [apply_ite State.core]
@[simp] theorem auxSend_core (s : State) (x : AuxAcc) (o : Fin 8) : (State.auxSend s x o).core = s.core := by simp [State.auxSend]
@[simp] theorem startTrain_core (s : State) (o : Fin 8) : (State.startTrain s o).core = s.core := by unfold State.startTrain; simp [apply_ite State.core]
@[simp] theorem dropTrain_core (s : State) (o : Fin 8) : (State.dropTrain s o).core = s.core := by simp [State.dropTrain]
@[simp] theorem modeEnd_core (s : State) (j : ModeJob) (st : Nat) : (State.modeEnd s j st).core = s.core := by unfold State.modeEnd; simp [apply_ite State.core]
@[simp] theorem modeDone_core (s : State) (o : Fin 8) (j : ModeJob) : (State.modeDone s o j).core = s.core := by simp [State.modeDone]
@[simp] theorem captureDrop_core (s : State) (o : Fin 8) (p : Fin 64) (v : Fin 8) (line : Nat) : (State.captureDrop s o p v line).core = s.core := by simp [State.captureDrop]
@[simp] theorem proofResults_core (s : State) (o : Fin 8) : (State.proofResults s o).core = s.core := by simp [State.proofResults]
@[simp] theorem awaitCompare_core (s : State) (o : Fin 8) : (State.awaitCompare s o).core = s.core := by unfold State.awaitCompare; simp [apply_ite State.core]
@[simp] theorem completeDone_core (s : State) (o : Fin 8) (q : Done → Bool) : (State.completeDone s o q).core = s.core := by simp [State.completeDone]
@[simp] theorem applyCap_core (s : State) (c : Fin 256 × Latched) : (State.applyCap s c).core = s.core := by simp [State.applyCap]
@[simp] theorem latchGroups_core (s : State) (o : Fin 8) (f : Nat) : (State.latchGroups s o f).core = s.core := by simp [State.latchGroups]
@[simp] theorem latchImports_core (s : State) (o : Fin 8) : (State.latchImports s o).core = s.core := by unfold State.latchImports; dsimp only; repeat' first | rfl | (simp [apply_ite State.core, apply_ite Prod.fst]; done) | split | (apply foldl_core; intro _ _; try dsimp only)
@[simp] theorem claim_core (s : State) (g : Fin 4) (c : Option Nat) : (State.claim s g c).core = s.core := by simp [State.claim]
@[simp] theorem reWindow_core (s : State) (o : Fin 8) : (State.reWindow s o).core = s.core := by simp [State.reWindow]
@[simp] theorem rebase_core (s : State) (o : Fin 8) : (State.rebase s o).core = s.core := by unfold State.rebase; simp [apply_ite State.core]
@[simp] theorem newGrid_core (s : State) (o : Fin 8) : (State.newGrid s o).core = s.core := by simp [State.newGrid]
@[simp] theorem runIsland_core (s : State) (i : Nat) (b : Bool) : (State.runIsland s i b).core = s.core := by simp [State.runIsland]
@[simp] theorem wakeIsland_core (s : State) (i : Nat) : (State.wakeIsland s i).core = s.core := by unfold State.wakeIsland; simp [apply_ite State.core]
@[simp] theorem arrive_core (s : State) (a : Awaited) : (State.arrive s a).core = s.core := by unfold State.arrive; simp [apply_ite State.core]
@[simp] theorem uncoastOut_core (s : State) (o : Fin 8) : (State.uncoastOut s o).core = s.core := by unfold State.uncoastOut; simp [apply_ite State.core]
@[simp] theorem beginWriteback_core (s : State) (w : Waiting) : (State.beginWriteback s w).core = s.core := by
  unfold State.beginWriteback
  try dsimp only
  repeat' (first | with_reducible rfl | (simp only [core_mk, core_mkDome, core_mkPwr, apply_ite State.core, apply_ite Prod.fst, ite_self, implies_true, foldl_core, foldl_core2]; done) | (simp [core_mk, core_mkDome, core_mkPwr, apply_ite State.core, apply_ite Prod.fst, ite_self, implies_true, foldl_core, foldl_core2]; done) | split | (apply foldl_core; intro _ _; try dsimp only) | (apply foldl_core2; intro _ _; try dsimp only) | (simp only [core_mk, core_mkDome, core_mkPwr, apply_ite State.core, apply_ite Prod.fst, ite_self, implies_true, foldl_core, foldl_core2]))
@[simp] theorem edidEnd_core (s : State) (o : Fin 8) (r : EdidResult) : (State.edidEnd s o r).core = s.core := by unfold State.edidEnd; simp [apply_ite State.core]
@[simp] theorem trainReach_core (s : State) (o : Fin 8) (x : AuxAcc) (run : TrainRun) : (State.trainReach s o x run).core = s.core := by unfold State.trainReach; dsimp only; repeat' split <;> simp
@[simp] theorem edidStart_core (s : State) (o : Fin 8) (block : BitVec 8) : (State.edidStart s o block).core = s.core := by unfold State.edidStart; simp [apply_ite State.core]
@[simp] theorem trainRetry_core (s : State) (o : Fin 8) : (State.trainRetry s o).core = s.core := by unfold State.trainRetry; simp [apply_ite State.core]
@[simp] theorem setCause4_core (s : State) (o : Fin 8) (b : Bool) : (State.setCause4 s o b).core = s.core := by simp [State.setCause4]
@[simp] theorem setForceLow_core (s : State) (o : Fin 8) (b : Bool) : (State.setForceLow s o b).core = s.core := by simp [State.setForceLow]
@[simp] theorem safeAction_core (s : State) (o : Fin 8) (action : Nat) : (State.safeAction s o action).core = s.core := by unfold State.safeAction; split <;> simp
@[simp] theorem applySafeIn_core (s : State) (word : Word) : (State.applySafeIn s word).core = s.core := by simp [State.applySafeIn]
@[simp] theorem hapDrive_core (s : State) (h : Fin 16) : (State.hapDrive s h).core = s.core := by simp [State.hapDrive]
@[simp] theorem voiceStart_core (s : State) (v : Fin 16) (p : Fin 64) (wave f0 f1 dur level aud slot : Nat) : (State.voiceStart s v p wave f0 f1 dur level aud slot).core = s.core := by simp [State.voiceStart]
@[simp] theorem voiceRelease_core (s : State) (v : Fin 16) : (State.voiceRelease s v).core = s.core := by simp [State.voiceRelease]
@[simp] theorem hostReads_core (s : State) (j : Job) : (State.hostReads s j).core = s.core := by unfold State.hostReads; simp [apply_ite State.core]
@[simp] theorem noteChan_core (s : State) (j : Job) : (State.noteChan s j).core = s.core := by
  unfold State.noteChan
  try dsimp only
  repeat' (first | with_reducible rfl | (simp only [core_mk, core_mkDome, core_mkPwr, core_mkKeep, apply_ite State.core, apply_ite Prod.fst, ite_self, implies_true, foldl_core, foldl_core2]; done) | (simp [core_mk, apply_ite State.core, apply_ite Prod.fst, foldl_core, foldl_core2]; done) | split | (apply foldl_core; intro _ _; try dsimp only) | (apply foldl_core2; intro _ _; try dsimp only) | (simp only [core_mk, apply_ite State.core, apply_ite Prod.fst, foldl_core, foldl_core2]))
@[simp] theorem verify_core (s : State) (c : Fin 16) (crc : Crc) (v : Nat) (stored : List Byte) : (State.verify s c crc v stored).1.core = s.core := by simp [State.verify]
@[simp] theorem chanTaken_core (s : State) (j : Job) : (State.chanTaken s j).1.core = s.core := by unfold State.chanTaken; repeat' split <;> simp
@[simp] theorem passTurn_core (s : State) (e : Nat) (p : Fin 64) : (State.passTurn s e p).core = s.core := by unfold State.passTurn; simp [apply_ite State.core]
@[simp] theorem hostAcc_core (s : State) (p : Fin 64) (f : State → State) (h1 : ∀ x0, (f x0).core = x0.core) : (State.hostAcc s p f).core = s.core := by
  unfold State.hostAcc
  try dsimp only
  repeat' (first | with_reducible rfl | (simp only [core_mk, core_mkDome, core_mkPwr, apply_ite State.core, apply_ite Prod.fst, ite_self, implies_true, foldl_core, foldl_core2, h1]; done) | (simp [core_mk, core_mkDome, core_mkPwr, apply_ite State.core, apply_ite Prod.fst, ite_self, implies_true, foldl_core, foldl_core2, h1]; done) | split | (apply foldl_core; intro _ _; try dsimp only) | (apply foldl_core2; intro _ _; try dsimp only) | (simp only [core_mk, core_mkDome, core_mkPwr, apply_ite State.core, apply_ite Prod.fst, ite_self, implies_true, foldl_core, foldl_core2, h1]))
@[simp] theorem sqError_core (s : State) (p : Fin 64) (q : Fin 8) (e : Nat) : (State.sqError s p q e).core = s.core := by simp [State.sqError]
@[simp] theorem sqStart_core (s : State) (p : Fin 64) (q : Fin 8) : (State.sqStart s p q).core = s.core := by unfold State.sqStart; simp [apply_ite State.core]
@[simp] theorem sqCtl_core (s : State) (p : Fin 64) (q : Fin 8) (v : Word) : (State.sqCtl s p q v).core = s.core := by unfold State.sqCtl; repeat' split <;> simp
@[simp] theorem sqDrained_core (s : State) (p : Fin 64) (q : Fin 8) : (State.sqDrained s p q).core = s.core := by unfold State.sqDrained; simp [apply_ite State.core]
@[simp] theorem fetch_core (s : State) (p : Fin 64) (q : Fin 8) (n : Nat) : (State.fetch s p q n).core = s.core := by unfold State.fetch; simp [apply_ite State.core]
@[simp] theorem fetchEnd_core (s : State) (p : Fin 64) (q : Fin 8) (e : Nat) : (State.fetchEnd s p q e).core = s.core := by unfold State.fetchEnd; simp [apply_ite State.core]
@[simp] theorem logAer_core (s : State) (p : Fin 64) (e : FetchErr) : (State.logAer s p e).core = s.core := by simp [State.logAer]
@[simp] theorem fetchError_core (s : State) (p : Fin 64) (q : Fin 8) (e : FetchErr) : (State.fetchError s p q e).core = s.core := by unfold State.fetchError; simp [apply_ite State.core]
@[simp] theorem sqDoorbell_core (s : State) (p : Fin 64) (q : Fin 8) (tail : BitVec 16) : (State.sqDoorbell s p q tail).core = s.core := by unfold State.sqDoorbell; simp [apply_ite State.core]
@[simp] theorem eqDoorbell_core (s : State) (p : Fin 64) (head : BitVec 16) : (State.eqDoorbell s p head).core = s.core := by unfold State.eqDoorbell; simp [apply_ite State.core]
@[simp] theorem eqCtl_core (s : State) (p : Fin 64) (v : Word) : (State.eqCtl s p v).core = s.core := by unfold State.eqCtl; simp [apply_ite State.core]
@[simp] theorem modTimeout_core (s : State) (p : Fin 64) (eq : Bool) : (State.modTimeout s p eq).core = s.core := by unfold State.modTimeout; simp [apply_ite State.core]
@[simp] theorem msixMask_core (s : State) (p : Fin 64) (vec : Fin 32) (masked : Bool) : (State.msixMask s p vec masked).core = s.core := by unfold State.msixMask; simp [apply_ite State.core]
@[simp] theorem msixGo_core (s : State) (p : Fin 64) : (State.msixGo s p).core = s.core := by simp [State.msixGo]
@[simp] theorem vfSet_core (s : State) (n : Fin 4) (k : Nat) : (State.vfSet s n k).core = s.core := by unfold State.vfSet; simp [apply_ite State.core]
@[simp] theorem vfSpace_core (s : State) (n : Fin 4) (mse ari : Bool) : (State.vfSpace s n mse ari).core = s.core := by unfold State.vfSpace; simp [apply_ite State.core]
@[simp] theorem cfgReach_core (s : State) (p : Fin 64) (f : State → State) (h1 : ∀ x0, (f x0).core = x0.core) : (State.cfgReach s p f).core = s.core := by
  unfold State.cfgReach
  try dsimp only
  repeat' (first | with_reducible rfl | (simp only [core_mk, core_mkDome, core_mkPwr, core_mkKeep, apply_ite State.core, apply_ite Prod.fst, ite_self, implies_true, foldl_core, foldl_core2, h1]; done) | (simp [core_mk, apply_ite State.core, apply_ite Prod.fst, foldl_core, foldl_core2, h1]; done) | split | (apply foldl_core; intro _ _; try dsimp only) | (apply foldl_core2; intro _ _; try dsimp only) | (simp only [core_mk, apply_ite State.core, apply_ite Prod.fst, foldl_core, foldl_core2, h1]))
@[simp] theorem timeInLoss_core (s : State) : (State.timeInLoss s).core = s.core := by unfold State.timeInLoss; simp [apply_ite State.core]
@[simp] theorem tryJoin_core (s : State) : (State.tryJoin s).core = s.core := by unfold State.tryJoin; simp [apply_ite State.core]
@[simp] theorem leaveWall_core (s : State) : (State.leaveWall s).core = s.core := by simp [State.leaveWall]
@[simp] theorem sendDelayReq_core (s : State) (l : Fin 12) : (State.sendDelayReq s l).core = s.core := by simp [State.sendDelayReq]
@[simp] theorem resetChildren_core (s : State) : (State.resetChildren s).core = s.core := by simp [State.resetChildren]
@[simp] theorem putVote_core (s : State) (v : Vote) : (State.putVote s v).core = s.core := by simp [State.putVote]
@[simp] theorem linkRetry_core (s : State) (l : Fin 12) : (State.linkRetry s l).core = s.core := by simp [State.linkRetry]
@[simp] theorem laneLock_core (s : State) (l : Fin 12) : (State.laneLock s l).core = s.core := by
  unfold State.laneLock
  try dsimp only
  repeat' (first | with_reducible rfl | (simp only [core_mk, core_mkDome, core_mkPwr, apply_ite State.core, apply_ite Prod.fst, ite_self, implies_true, foldl_core, foldl_core2]; done) | (simp [core_mk, core_mkDome, core_mkPwr, apply_ite State.core, apply_ite Prod.fst, ite_self, implies_true, foldl_core, foldl_core2]; done) | split | (apply foldl_core; intro _ _; try dsimp only) | (apply foldl_core2; intro _ _; try dsimp only) | (simp only [core_mk, core_mkDome, core_mkPwr, apply_ite State.core, apply_ite Prod.fst, ite_self, implies_true, foldl_core, foldl_core2]))
@[simp] theorem rxDiscard_core (s : State) (l : Fin 12) : (State.rxDiscard s l).core = s.core := by simp [State.rxDiscard]
@[simp] theorem giveCredit_core (s : State) (l : Fin 12) (cls : Nat) : (State.giveCredit s l cls).core = s.core := by unfold State.giveCredit; simp [apply_ite State.core]
@[simp] theorem pllRelock_core (s : State) (n : Nat) : (State.pllRelock s n).core = s.core := by unfold State.pllRelock; simp [apply_ite State.core]
@[simp] theorem xinStable_core (s : State) : (State.xinStable s).core = s.core := by unfold State.xinStable; simp [apply_ite State.core]
@[simp] theorem autoGate_core (s : State) (i : Nat) : (State.autoGate s i).core = s.core := by unfold State.autoGate; simp [apply_ite State.core]
@[simp] theorem endWait_core (s : State) (i : Nat) : (State.endWait s i).core = s.core := by simp [State.endWait]
@[simp] theorem gateLink_core (s : State) (l : Fin 12) : (State.gateLink s l).core = s.core := by unfold State.gateLink; simp [apply_ite State.core]
@[simp] theorem slGate_core (s : State) (l : Fin 12) : (State.slGate s l).core = s.core := by unfold State.slGate; simp [apply_ite State.core]
@[simp] theorem standbyReady_core (s : State) : (State.standbyReady s).core = s.core := by unfold State.standbyReady; simp [apply_ite State.core]
@[simp] theorem loadFw_core (s : State) (l : List Byte) : (State.loadFw s l).core = s.core := by unfold State.loadFw; dsimp only; repeat' first | rfl | (simp [apply_ite State.core, apply_ite Prod.fst]; done) | split | (apply foldl_core; intro _ _; try dsimp only)
@[simp] theorem burnSec_core (s : State) (l : List Byte) : (State.burnSec s l).core = s.core := by unfold State.burnSec; simp [apply_ite State.core]
@[simp] theorem applyRest_core (s : State) (l : List Byte) : (State.applyRest s l).core = s.core := by
  unfold State.applyRest
  try dsimp only
  repeat' (first | with_reducible rfl | (simp only [core_mk, core_mkDome, core_mkPwr, apply_ite State.core, apply_ite Prod.fst, ite_self, implies_true, foldl_core, foldl_core2]; done) | (simp [core_mk, core_mkDome, core_mkPwr, apply_ite State.core, apply_ite Prod.fst, ite_self, implies_true, foldl_core, foldl_core2]; done) | split | (apply foldl_core; intro _ _; try dsimp only) | (apply foldl_core2; intro _ _; try dsimp only) | (simp only [core_mk, core_mkDome, core_mkPwr, apply_ite State.core, apply_ite Prod.fst, ite_self, implies_true, foldl_core, foldl_core2]))
@[simp] theorem bootRegions_core (s : State) : (State.bootRegions s).core = s.core := by simp [State.bootRegions]
@[simp] theorem mbxSend_core (s : State) (p : Fin 64) (v : Word) : (State.mbxSend s p v).core = s.core := by unfold State.mbxSend; dsimp only; repeat' first | rfl | (simp [apply_ite State.core, apply_ite Prod.fst]; done) | split | (apply foldl_core; intro _ _; try dsimp only)
@[simp] theorem mbxAck_core (s : State) (p : Fin 64) (v : Word) : (State.mbxAck s p v).core = s.core := by unfold State.mbxAck; simp [apply_ite State.core]
@[simp] theorem forgetReply_core (s : State) (p : Fin 64) (i : Fin 2) : (State.forgetReply s p i).core = s.core := by simp [State.forgetReply]
@[simp] theorem mbxTimeout_core (s : State) (p : Fin 64) (i : Fin 2) : (State.mbxTimeout s p i).core = s.core := by unfold State.mbxTimeout; simp [apply_ite State.core]
@[simp] theorem marchBegin_core (s : State) (target : Nat) (preserve : Bool) (base limit : Nat) : (State.marchBegin s target preserve base limit).core = s.core := by simp [State.marchBegin]
@[simp] theorem marchCtl_core (s : State) (v : Word) : (State.marchCtl s v).core = s.core := by unfold State.marchCtl; simp [apply_ite State.core]
@[simp] theorem challengeDo_core (s : State) (p : Fin 64) (i : Fin 2) (m : BitVec 2048) : (State.challengeDo s p i m).core = s.core := by simp [State.challengeDo]
@[simp] theorem retire_core (s : State) : (State.retire s).core = s.core := by simp [State.retire]
@[simp] theorem belvReaffirm_core (s : State) (p : Fin 64) (i : Fin 2) (m : BitVec 2048) : (State.belvReaffirm s p i m).core = s.core := by unfold State.belvReaffirm; dsimp only; repeat' first | rfl | (simp; done) | split
@[simp] theorem outputBits_core (s : State) (o : Fin 8) (v : Nat) : (State.outputBits s o v).core = s.core := by unfold State.outputBits; simp [apply_ite State.core]
@[simp] theorem answerDown_core (s : State) : (State.answerDown s).core = s.core := by unfold State.answerDown; simp [apply_ite State.core]
@[simp] theorem restartLoad_core (s : State) : (State.restartLoad s).core = s.core := by unfold State.restartLoad; simp [apply_ite State.core]
@[simp] theorem ladderDown_core (s : State) : (State.ladderDown s).core = s.core := by unfold State.ladderDown; simp [apply_ite State.core]
@[simp] theorem recaptureSet_core (s : State) (c : Fin 32) : (State.recaptureSet s c).core = s.core := by unfold State.recaptureSet; simp [apply_ite State.core]
@[simp] theorem haltSound_core (s : State) : (State.haltSound s).core = s.core := by unfold State.haltSound; simp [apply_ite State.core]
@[simp] theorem logRebuild_core (s : State) : (State.logRebuild s).core = s.core := by unfold State.logRebuild; dsimp only; repeat' split <;> simp
@[simp] theorem bootClocks_core (s : State) (e : BootEnv) : (State.bootClocks s e).core = s.core := by unfold State.bootClocks; simp [apply_ite State.core]
@[simp] theorem bootImage_core (s : State) (i : Image) : (State.bootImage s i).core = s.core := by simp [State.bootImage]
@[simp] theorem bootDramCfg_core (s : State) (e : BootEnv) : (State.bootDramCfg s e).core = s.core := by unfold State.bootDramCfg; simp [apply_ite State.core]
@[simp] theorem bootDram_core (s : State) (e : BootEnv) : (State.bootDram s e).core = s.core := by unfold State.bootDram; dsimp only; repeat' first | rfl | (simp; done) | split
@[simp] theorem bootHosts_core (s : State) (n : Nat) : (State.bootHosts s n).core = s.core := by simp [State.bootHosts]
@[simp] theorem bootService_core (s : State) : (State.bootService s).core = s.core := by simp [State.bootService]
@[simp] theorem bootXinTimeout_core (s : State) : (State.bootXinTimeout s).core = s.core := by unfold State.bootXinTimeout; simp [apply_ite State.core]
@[simp] theorem pcieUp_core (s : State) (n : Fin 4) (speed : Fin 5) (width : Fin 4) : (State.pcieUp s n speed width).core = s.core := by simp [State.pcieUp]
@[simp] theorem manClear_core (s : State) (off : Nat) : (State.manClear s off).core = s.core := by unfold State.manClear; dsimp only; repeat' first | rfl | (simp; done) | split
@[simp] theorem pageClear_core (s : State) (p : Fin 64) (o : Nat) : (State.pageClear s p o).core = s.core := by unfold State.pageClear; repeat' split <;> simp
@[simp] theorem glbWr_core (s : State) (o : Nat) (v : Word) : (State.glbWr s o v).core = s.core := by unfold State.glbWr; split <;> simp
@[simp] theorem compWr_core (s : State) (n : Fin 8) (o : Nat) (v : Word) : (State.compWr s n o v).core = s.core := by
  unfold State.compWr
  try dsimp only
  repeat' (first | with_reducible rfl | (simp only [core_mk, core_mkDome, core_mkPwr, apply_ite State.core, apply_ite Prod.fst, ite_self, implies_true, foldl_core, foldl_core2]; done) | (simp [core_mk, core_mkDome, core_mkPwr, apply_ite State.core, apply_ite Prod.fst, ite_self, implies_true, foldl_core, foldl_core2]; done) | split | (apply foldl_core; intro _ _; try dsimp only) | (apply foldl_core2; intro _ _; try dsimp only) | (simp only [core_mk, core_mkDome, core_mkPwr, apply_ite State.core, apply_ite Prod.fst, ite_self, implies_true, foldl_core, foldl_core2]))
@[simp] theorem resumeAsk_core (s : State) (n : Fin 8) : (State.resumeAsk s n).core = s.core := by simp [State.resumeAsk]
@[simp] theorem outWr_core (s : State) (secure : Bool) (n : Fin 8) (o : Nat) (v : Word) : (State.outWr s secure n o v).core = s.core := by unfold State.outWr; dsimp only; repeat' first | rfl | (simp; done) | split
@[simp] theorem orgWr_core (s : State) (secure : Bool) (o : Nat) (v : Word) : (State.orgWr s secure o v).core = s.core := by unfold State.orgWr; dsimp only; repeat' first | rfl | (simp; done) | split
@[simp] theorem keepWr_core (s : State) (o : Nat) (v : Word) : (State.keepWr s o v).core = s.core := by unfold State.keepWr; repeat' split <;> simp
@[simp] theorem cvuWr_core (s : State) (secure : Bool) (o : Nat) (v : Word) : (State.cvuWr s secure o v).core = s.core := by unfold State.cvuWr; repeat' split <;> simp
@[simp] theorem gazWr_core (s : State) (secure : Bool) (o : Nat) (v : Word) : (State.gazWr s secure o v).core = s.core := by unfold State.gazWr; dsimp only; repeat' first | rfl | (simp; done) | split
@[simp] theorem budWr_core (s : State) (o : Nat) (v : Word) : (State.budWr s o v).core = s.core := by unfold State.budWr; repeat' split <;> simp

end Sys2Proof.Machine
end

