-- ==== Sys2Proof/Laws/CoreRows.lean ====
section
/-!
SUPPORT. The operations over the state that keep its core, second part: whole commands and what follows them.
-/
set_option maxHeartbeats 400000
set_option linter.all false
set_option exponentiation.threshold 3000
namespace Sys2Proof.Machine
open Sys2Proof

@[simp] theorem domeWr_core (s : State) (o : Nat) (v : Word) : (State.domeWr s o v).core = s.core := by unfold State.domeWr; dsimp only; repeat' first | rfl | (simp; done) | split
@[simp] theorem fenceHi_core (s : State) (p : Fin 64) (c : Fin 256) (v : Word) : (State.fenceHi s p c v).core = s.core := by simp [State.fenceHi]
@[simp] theorem sqWr_core (s : State) (p : Fin 64) (q : Fin 8) (k : Nat) (v : Word) : (State.sqWr s p q k v).core = s.core := by unfold State.sqWr; repeat' split <;> simp
@[simp] theorem eqWr_core (s : State) (p : Fin 64) (k : Nat) (v : Word) : (State.eqWr s p k v).core = s.core := by unfold State.eqWr; repeat' split <;> simp
@[simp] theorem msixWr_core (s : State) (p : Fin 64) (n : Fin 32) (k : Nat) (v : Word) : (State.msixWr s p n k v).core = s.core := by unfold State.msixWr; split <;> simp
@[simp] theorem wakeFor_core (s : State) (t : Option (Fin 64)) (off : Nat) : (State.wakeFor s t off).core = s.core := by unfold State.wakeFor; simp [apply_ite State.core]
@[simp] theorem captureWords_core (s : State) (secure : Bool) (t : Option (Fin 64)) (off n v : Nat) : (State.captureWords s secure t off n v).core = s.core := by simp [State.captureWords]
@[simp] theorem readDone_core (s : State) (secure : Bool) (t : Option (Fin 64)) (off : Nat) : (State.readDone s secure t off).core = s.core := by
  unfold State.readDone
  try dsimp only
  repeat' (first | with_reducible rfl | (simp only [core_mk, core_mkDome, core_mkPwr, core_mkKeep, apply_ite State.core, apply_ite Prod.fst, ite_self, implies_true, foldl_core, foldl_core2]; done) | (simp [core_mk, apply_ite State.core, apply_ite Prod.fst, foldl_core, foldl_core2]; done) | split | (apply foldl_core; intro _ _; try dsimp only) | (apply foldl_core2; intro _ _; try dsimp only) | (simp only [core_mk, apply_ite State.core, apply_ite Prod.fst, foldl_core, foldl_core2]))
@[simp] theorem readRegs_core (s : State) (secure : Bool) (t : Option (Fin 64)) (off size : Nat) : (State.readRegs s secure t off size).1.core = s.core := by simp [State.readRegs]
@[simp] theorem answerRead_core (s : State) (src : Src) (p : Fin 64) (r : Option (List Byte)) : (State.answerRead s src p r).core = s.core := by
  unfold State.answerRead
  try dsimp only
  repeat' (first | with_reducible rfl | (simp only [core_mk, core_mkDome, core_mkPwr, apply_ite State.core, apply_ite Prod.fst, ite_self, implies_true, foldl_core, foldl_core2]; done) | (simp [core_mk, core_mkDome, core_mkPwr, apply_ite State.core, apply_ite Prod.fst, ite_self, implies_true, foldl_core, foldl_core2]; done) | split | (apply foldl_core; intro _ _; try dsimp only) | (apply foldl_core2; intro _ _; try dsimp only) | (simp only [core_mk, core_mkDome, core_mkPwr, apply_ite State.core, apply_ite Prod.fst, ite_self, implies_true, foldl_core, foldl_core2]))
@[simp] theorem fromSrc_core (s : State) (src : Src) (p : Fin 64) (f : State → State) (h1 : ∀ x0, (f x0).core = x0.core) : (State.fromSrc s src p f).core = s.core := by
  unfold State.fromSrc
  try dsimp only
  repeat' (first | with_reducible rfl | (simp only [core_mk, core_mkDome, core_mkPwr, apply_ite State.core, apply_ite Prod.fst, ite_self, implies_true, foldl_core, foldl_core2, h1]; done) | (simp [core_mk, core_mkDome, core_mkPwr, apply_ite State.core, apply_ite Prod.fst, ite_self, implies_true, foldl_core, foldl_core2, h1]; done) | split | (apply foldl_core; intro _ _; try dsimp only) | (apply foldl_core2; intro _ _; try dsimp only) | (simp only [core_mk, core_mkDome, core_mkPwr, apply_ite State.core, apply_ite Prod.fst, ite_self, implies_true, foldl_core, foldl_core2, h1]))
@[simp] theorem jtagNow_core (s : State) (ir : Nat) : (State.jtagNow s ir).core = s.core := by simp [State.jtagNow]
@[simp] theorem jtagPass_core (s : State) : (State.jtagPass s).core = s.core := by simp [State.jtagPass]
@[simp] theorem delayReqIn_core (s : State) (l : Fin 12) (f : BitVec 256) : (State.delayReqIn s l f).core = s.core := by simp [State.delayReqIn]
@[simp] theorem adoptIn_core (s : State) (l : Fin 12) : (State.adoptIn s l).core = s.core := by unfold State.adoptIn; simp [apply_ite State.core]
@[simp] theorem presenceIn_core (s : State) (f : BitVec 256) : (State.presenceIn s f).core = s.core := by unfold State.presenceIn; simp [apply_ite State.core]
@[simp] theorem presenceLost_core (s : State) (id : Nat) : (State.presenceLost s id).core = s.core := by unfold State.presenceLost; repeat' split <;> simp
@[simp] theorem eachImport_core (s : State) (f : BitVec 256) (g : State → Import → State) (h1 : ∀ x0 x1, (g x0 x1).core = x0.core) : (State.eachImport s f g).core = s.core := by
  unfold State.eachImport
  try dsimp only
  repeat' (first | with_reducible rfl | (simp only [core_mk, core_mkDome, core_mkPwr, apply_ite State.core, apply_ite Prod.fst, ite_self, implies_true, foldl_core, foldl_core2, h1]; done) | (simp [core_mk, core_mkDome, core_mkPwr, apply_ite State.core, apply_ite Prod.fst, ite_self, implies_true, foldl_core, foldl_core2, h1]; done) | split | (apply foldl_core; intro _ _; try dsimp only) | (apply foldl_core2; intro _ _; try dsimp only) | (simp only [core_mk, core_mkDome, core_mkPwr, apply_ite State.core, apply_ite Prod.fst, ite_self, implies_true, foldl_core, foldl_core2, h1]))
@[simp] theorem noteStream_core (s : State) (h : BitVec 256) : (State.noteStream s h).core = s.core := by unfold State.noteStream; dsimp only; repeat' first | rfl | (simp [apply_ite State.core, apply_ite Prod.fst]; done) | split | (apply foldl_core; intro _ _; try dsimp only)
@[simp] theorem putImport_core (s : State) (i : Import) : (State.putImport s i).core = s.core := by simp [State.putImport]
@[simp] theorem xferBeginIn_core (s : State) (f : BitVec 256) : (State.xferBeginIn s f).core = s.core := by simp [State.xferBeginIn]
@[simp] theorem aliveIn_core (s : State) (f : BitVec 256) : (State.aliveIn s f).core = s.core := by simp [State.aliveIn]
@[simp] theorem dataHeadIn_core (s : State) (l : Fin 12) (f : BitVec 256) : (State.dataHeadIn s l f).core = s.core := by simp [State.dataHeadIn]
@[simp] theorem syncOut_core (s : State) : (State.syncOut s).core = s.core := by unfold State.syncOut; simp [apply_ite State.core]
@[simp] theorem unlistedFlit_core (s : State) (l : Fin 12) : (State.unlistedFlit s l).core = s.core := by unfold State.unlistedFlit; simp [apply_ite State.core]
@[simp] theorem timeCycle_core (s : State) : (State.timeCycle s).core = s.core := by unfold State.timeCycle; simp [apply_ite State.core]
@[simp] theorem withFetchWord_core (s : State) (nbits w : Nat) : (State.withFetchWord s nbits w).core = s.core := by unfold State.withFetchWord; split <;> simp
@[simp] theorem free_core (s : State) : s.free.2.core = s.core := rfl
@[simp] theorem pump_core (n : Nat) (s : State) (l : Fin 12) : (State.pump n s l).core = s.core := by
  induction n generalizing s with
  | zero => rfl
  | succ n ih => unfold State.pump; dsimp only; split; · rfl
                 split; · rfl
                 rw [ih]; simp
@[simp] theorem flushCq_core (n : Nat) (s : State) (p : Fin 64) : (State.flushCq n s p).core = s.core := by
  induction n generalizing s with
  | zero => rfl
  | succ n ih => unfold State.flushCq; dsimp only; split; · rfl
                 split; · rw [ih]; simp
                 · rfl
@[simp] theorem freeBits_core (n : Nat) (s : State) : (State.freeBits n s).2.core = s.core := by
  induction n generalizing s with
  | zero => rfl
  | succ n ih => unfold State.freeBits; dsimp only; rw [ih]; simp
@[simp] theorem statusPins_core (s : State) : s.statusPins.2.2.core = s.core := by
  unfold State.statusPins; split <;> rfl
@[simp] theorem sendSeq_core (s : State) (l : Fin 12) (f : BitVec 256) : (State.sendSeq s l f).core = s.core := by simp [State.sendSeq]
@[simp] theorem flood_core (s : State) (skip : Option (Fin 12)) (f : BitVec 256) : (State.flood s skip f).core = s.core := by unfold State.flood; simp [apply_ite State.core]
@[simp] theorem resend_core (s : State) (l : Fin 12) (f : BitVec 256) : (State.resend s l f).core = s.core := by simp [State.resend]
@[simp] theorem sendRouted_core (s : State) (dest : Nat) (f : BitVec 256) : (State.sendRouted s dest f).core = s.core := by unfold State.sendRouted; simp [apply_ite State.core]
@[simp] theorem exportTsUpdate_core (s : State) (p : Fin 64) (h : Nat) (t : DWord) : (State.exportTsUpdate s p h t).core = s.core := by unfold State.exportTsUpdate; simp [apply_ite State.core]
@[simp] theorem raiseTime_core (s : State) (id : Nat) (t : DWord) : (State.raiseTime s id t).core = s.core := by
  unfold State.raiseTime
  try dsimp only
  repeat' (first | with_reducible rfl | (simp only [core_mk, core_mkDome, core_mkPwr, core_mkKeep, apply_ite State.core, apply_ite Prod.fst, ite_self, implies_true, foldl_core, foldl_core2]; done) | (simp [core_mk, apply_ite State.core, apply_ite Prod.fst, foldl_core, foldl_core2]; done) | split | (apply foldl_core; intro _ _; try dsimp only) | (apply foldl_core2; intro _ _; try dsimp only) | (simp only [core_mk, apply_ite State.core, apply_ite Prod.fst, foldl_core, foldl_core2]))
@[simp] theorem frameCounters_core (s : State) (o : Fin 8) : (State.frameCounters s o).core = s.core := by simp [State.frameCounters]
@[simp] theorem floodAlarm_core (s : State) (word : Word) : (State.floodAlarm s word).core = s.core := by simp [State.floodAlarm]
@[simp] theorem cqDoorbell_core (s : State) (p : Fin 64) (head : BitVec 16) : (State.cqDoorbell s p head).core = s.core := by unfold State.cqDoorbell; simp [apply_ite State.core]
@[simp] theorem cqCtl_core (s : State) (p : Fin 64) (v : Word) : (State.cqCtl s p v).core = s.core := by unfold State.cqCtl; simp [apply_ite State.core]
@[simp] theorem busMaster_core (s : State) (p : Fin 64) (en : Bool) : (State.busMaster s p en).core = s.core := by unfold State.busMaster; simp [apply_ite State.core]
@[simp] theorem dropReads_core (s : State) (p : Fin 64) : (State.dropReads s p).core = s.core := by
  unfold State.dropReads
  try dsimp only
  repeat' (first | with_reducible rfl | (simp only [core_mk, core_mkDome, core_mkPwr, core_mkKeep, apply_ite State.core, apply_ite Prod.fst, ite_self, implies_true, foldl_core, foldl_core2]; done) | (simp [core_mk, apply_ite State.core, apply_ite Prod.fst, foldl_core, foldl_core2]; done) | split | (apply foldl_core; intro _ _; try dsimp only) | (apply foldl_core2; intro _ _; try dsimp only) | (simp only [core_mk, apply_ite State.core, apply_ite Prod.fst, foldl_core, foldl_core2]))
@[simp] theorem completeSkipped_core (s : State) (o : Fin 8) : (State.completeSkipped s o).core = s.core := by simp [State.completeSkipped]
@[simp] theorem takeParent_core (s : State) : (State.takeParent s).core = s.core := by
  unfold State.takeParent
  split
  · rfl
  · dsimp only
    split
    · rfl
    · split
      · simp [State.core]
      · split
        · simp only [sendDelayReq_core]; simp [State.core]
        · simp only [sendSeq_core, sendDelayReq_core]; simp [State.core]
@[simp] theorem decideVote_core (s : State) (g : Fin 4) (f : Nat) (flip : Bool) (detail : Nat) : (State.decideVote s g f flip detail).core = s.core := by unfold State.decideVote; simp [apply_ite State.core]
@[simp] theorem voteGo_core (s : State) (v : Vote) : (State.voteGo s v).core = s.core := by unfold State.voteGo; dsimp only; repeat' first | rfl | (simp; done) | split
@[simp] theorem votesGo_core (s : State) : (State.votesGo s).core = s.core := by
  unfold State.votesGo
  try dsimp only
  repeat' (first | with_reducible rfl | (simp only [core_mk, core_mkDome, core_mkPwr, apply_ite State.core, apply_ite Prod.fst, ite_self, implies_true, foldl_core, foldl_core2]; done) | (simp [core_mk, core_mkDome, core_mkPwr, apply_ite State.core, apply_ite Prod.fst, ite_self, implies_true, foldl_core, foldl_core2]; done) | split | (apply foldl_core; intro _ _; try dsimp only) | (apply foldl_core2; intro _ _; try dsimp only) | (simp only [core_mk, core_mkDome, core_mkPwr, apply_ite State.core, apply_ite Prod.fst, ite_self, implies_true, foldl_core, foldl_core2]))
@[simp] theorem setPosition_core (s : State) (c : Fin 32) (sg : List Int) : (State.setPosition s c sg).core = s.core := by unfold State.setPosition; split <;> simp
@[simp] theorem cqWr_core (s : State) (p : Fin 64) (k : Nat) (v : Word) : (State.cqWr s p k v).core = s.core := by unfold State.cqWr; repeat' split <;> simp
@[simp] theorem sbReadByte_core (s : State) (a : BitVec 7) : (State.sbReadByte s a).core = s.core := by unfold State.sbReadByte; simp [apply_ite State.core]
@[simp] theorem jtagSample_core (s : State) (load : List Bool) : (State.jtagSample s load).core = s.core := by simp [State.jtagSample]
@[simp] theorem reportIn_core (s : State) (l : Fin 12) (f : BitVec 256) : (State.reportIn s l f).core = s.core := by unfold State.reportIn; simp [apply_ite State.core]
@[simp] theorem decideIn_core (s : State) (l : Fin 12) (f : BitVec 256) : (State.decideIn s l f).core = s.core := by unfold State.decideIn; simp [apply_ite State.core]
@[simp] theorem beatOut_core (s : State) : (State.beatOut s).core = s.core := by unfold State.beatOut; simp [apply_ite State.core]
@[simp] theorem takeOver_core (s : State) : (State.takeOver s).core = s.core := by unfold State.takeOver; dsimp only; repeat' first | rfl | (simp [apply_ite State.core, apply_ite Prod.fst]; done) | split | (apply foldl_core; intro _ _; try dsimp only)
@[simp] theorem heartbeatLost_core (s : State) : (State.heartbeatLost s).core = s.core := by unfold State.heartbeatLost; dsimp only; repeat' first | rfl | (simp; done) | split
@[simp] theorem routeFlit_core (s : State) (f : BitVec 256) (body : List (BitVec 256)) (g : State → State) (h1 : ∀ x0, (g x0).core = x0.core) : (State.routeFlit s f body g).core = s.core := by
  unfold State.routeFlit
  try dsimp only
  repeat' (first | with_reducible rfl | (simp only [core_mk, core_mkDome, core_mkPwr, apply_ite State.core, apply_ite Prod.fst, ite_self, implies_true, foldl_core, foldl_core2, h1]; done) | (simp [core_mk, core_mkDome, core_mkPwr, apply_ite State.core, apply_ite Prod.fst, ite_self, implies_true, foldl_core, foldl_core2, h1]; done) | split | (apply foldl_core; intro _ _; try dsimp only) | (apply foldl_core2; intro _ _; try dsimp only) | (simp only [core_mk, core_mkDome, core_mkPwr, apply_ite State.core, apply_ite Prod.fst, ite_self, implies_true, foldl_core, foldl_core2, h1]))
@[simp] theorem presenceOut_core (s : State) : (State.presenceOut s).core = s.core := by unfold State.presenceOut; simp [apply_ite State.core]
@[simp] theorem xferEndIn_core (s : State) (f : BitVec 256) : (State.xferEndIn s f).core = s.core := by unfold State.xferEndIn; simp [apply_ite State.core]
@[simp] theorem aliveOut_core (s : State) : (State.aliveOut s).core = s.core := by unfold State.aliveOut; simp [apply_ite State.core]
@[simp] theorem creditIn_core (s : State) (l : Fin 12) (f : BitVec 256) : (State.creditIn s l f).core = s.core := by simp [State.creditIn]
theorem safetyDo_core (s : State) (p : Fin 64) (i : Fin 2) (m : BitVec 2048) (f : State → State × Nat) (h : ∀ s, (f s).1.core = s.core) :
    (s.safetyDo p i m f).core = s.core := by
  unfold State.safetyDo; dsimp only
  split
  · simp
  · split <;> simp [h]
@[simp] theorem stWords_core (s : State) (m : MemId) (a : Nat) (l : List Byte) : (State.stWords s m a l).core = s.core := by simp [State.stWords]
@[simp] theorem beginLayerSet_core (s : State) (w : Waiting) : (s.beginLayerSet w).core = s.core := by
  unfold State.beginLayerSet
  refine judge_core _ _ _ _ fun s => ?_
  split <;> simp
@[simp] theorem beginBufAttach_core (s : State) (w : Waiting) : (s.beginBufAttach w).core = s.core := by
  unfold State.beginBufAttach
  refine judge_core _ _ _ _ fun s => ?_
  split
  · dsimp only; split <;> rfl
  · rfl
@[simp] theorem blockScrub_core (s : State) (b : Block) : (s.blockScrub b).core = s.core := by
  cases b <;> try rfl
  rename_i a
  unfold State.blockScrub
  dsimp only
  have h := foldl_core (f := fun (s : State) v => s.modVoice v fun x => { x with phase := .idle }) (fun s v => modVoice_core s v _) (s.voicesOn a) s
  generalize (s.voicesOn a).foldl _ s = t at h ⊢
  rw [← h]
  simp [State.core, Vector.map_map, Function.comp_def]
theorem gaz_core (t : State) (g : Gaz) : ({ t with gaz := g } : State).core = t.core := rfl
@[simp] theorem flashGet_core (s : State) (e : BootEnv) (k : Nat) : (State.flashGet s e k).1.core = s.core := by unfold State.flashGet; split <;> simp
@[simp] theorem outputCmd_core (s : State) (p : Fin 64) (i : Fin 2) (m : BitVec 2048) : (s.outputCmd p i m).core = s.core := by
  unfold State.outputCmd
  dsimp only
  split
  · simp
  · exact safetyDo_core _ _ _ _ _ fun s => foldl_core (fun s o => outputBits_core _ _ _) _ _
@[simp] theorem belvResume_core (s : State) (p : Fin 64) (i : Fin 2) (m : BitVec 2048) : (s.belvResume p i m).core = s.core := by
  unfold State.belvResume
  refine safetyDo_core _ _ _ _ _ fun s => ?_
  dsimp only
  (repeat' split) <;> simp
@[simp] theorem releaseUnchecked_core (s : State) (o : Fin 8) (f : Nat) : (State.releaseUnchecked s o f).core = s.core := by unfold State.releaseUnchecked; simp [apply_ite State.core]
@[simp] theorem takeTurn_core (s : State) (p : Fin 64) : (State.takeTurn s p).core = s.core := by simp [State.takeTurn]
@[simp] theorem writeBack_core (s : State) (a : Nat) : (State.writeBack s a).core = s.core := by simp [State.writeBack]
@[simp] theorem recordLost_core (s : State) (dev : Nat) : (State.recordLost s dev).core = s.core := by simp [State.recordLost]
@[simp] theorem awake_core (s : State) (c : Fin 8) : (State.awake s c).core = s.core := by unfold State.awake; simp [apply_ite State.core]
@[simp] theorem wakeDmcs_core (s : State) (a n : Nat) : (State.wakeDmcs s a n).core = s.core := by simp [State.wakeDmcs]
@[simp] theorem keepMake_core (s : State) (q : Nat × List Byte) : (State.keepMake s q).core = s.core := by simp [State.keepMake]
@[simp] theorem keepDrain_core (s : State) : (State.keepDrain s).core = s.core := by unfold State.keepDrain; split <;> simp
@[simp] theorem meetIf_core (s : State) (a : Nat) (e : Ecc) : (State.meetIf s a e).core = s.core := by unfold State.meetIf; simp [apply_ite State.core]
@[simp] theorem linkIdle_core (s : State) (l : Fin 12) : (State.linkIdle s l).core = s.core := by unfold State.linkIdle; simp [apply_ite State.core]
@[simp] theorem discardGroup_core (s : State) (g : Group) (reset : Option (Fin 64)) : (State.discardGroup s g reset).core = s.core := by unfold State.discardGroup; simp [apply_ite State.core]
@[simp] theorem discardWhere_core (s : State) (q : Member → Bool) (reset : Option (Fin 64)) : (State.discardWhere s q reset).core = s.core := by simp [State.discardWhere]
@[simp] theorem holdGroup_core (s : State) (g : Group) (f : Nat) (wall : Bool) : (State.holdGroup s g f wall).core = s.core := by unfold State.holdGroup; simp [apply_ite State.core]
@[simp] theorem applyView_core (s : State) (p : Fin 64) (v : Fin 8) (m : Option VMap) (rest : Option (Option VMap)) : (State.applyView s p v m rest).core = s.core := by unfold State.applyView; repeat' split <;> simp
@[simp] theorem viewStep_core (s : State) (o : Fin 8) (p : Fin 64) (v : Fin 8) : (State.viewStep s o p v).core = s.core := by unfold State.viewStep; dsimp only; repeat' first | rfl | (simp; done) | split
@[simp] theorem viewSteps_core (s : State) (o : Fin 8) : (State.viewSteps s o).core = s.core := by unfold State.viewSteps; simp [apply_ite State.core]
@[simp] theorem beginViewportMap_core (s : State) (w : Waiting) : (State.beginViewportMap s w).core = s.core := by unfold State.beginViewportMap; dsimp only; repeat' first | rfl | (simp; done) | split
@[simp] theorem releaseSlot_core (s : State) (i : Fin 256) : (State.releaseSlot s i).core = s.core := by unfold State.releaseSlot; repeat' split <;> simp
@[simp] theorem leaseDo_core (s : State) (d : Desc) : (State.leaseDo s d).core = s.core := by unfold State.leaseDo; split <;> simp
@[simp] theorem beginLease_core (s : State) (w : Waiting) : (State.beginLease s w).core = s.core := by simp [State.beginLease]
@[simp] theorem wallDo_core (s : State) (d : Desc) : (State.wallDo s d).core = s.core := by unfold State.wallDo; split <;> simp
@[simp] theorem beginWallCfg_core (s : State) (w : Waiting) : (State.beginWallCfg s w).core = s.core := by simp [State.beginWallCfg]
@[simp] theorem hapPast_core (s : State) (h : Fin 16) : (State.hapPast s h).core = s.core := by simp [State.hapPast]
@[simp] theorem fenceLand_core (s : State) (p : Fin 64) (c : Fin 256) (v : DWord) : (State.fenceLand s p c v).core = s.core := by simp [State.fenceLand]
@[simp] theorem spirePll_core (s : State) (l : Fin 12) : (State.spirePll s l).core = s.core := by unfold State.spirePll; simp [apply_ite State.core]
@[simp] theorem bufferLost_core (s : State) : (State.bufferLost s).core = s.core := by simp [State.bufferLost]
@[simp] theorem tsUpdateIn_core (s : State) (f : BitVec 256) : (State.tsUpdateIn s f).core = s.core := by unfold State.tsUpdateIn; dsimp only; repeat' first | rfl | (simp [apply_ite State.core, apply_ite Prod.fst]; done) | split | (apply foldl_core; intro _ _; try dsimp only)

end Sys2Proof.Machine
end

