-- ==== Sys2Proof/Laws/CoreBegin.lean ====
section
/-!
SUPPORT. The operations over the state that keep its core, third part: memory, descriptors and the events of a frame.
-/
set_option maxHeartbeats 400000
set_option linter.all false
set_option exponentiation.threshold 3000
namespace Sys2Proof.Machine
open Sys2Proof

@[simp] theorem zero_core (s : State) (m : MemId) (lo hi : Nat) : (s.zero m lo hi).core = s.core := rfl
@[simp] theorem logStore_core (s : State) (i : Nat) (l : List Byte) : (s.logStore i l).core = s.core := by
  unfold State.logStore
  dsimp only
  split <;> simp
@[simp] theorem logWrite_core (s : State) (ev : Ev) : (State.logWrite s ev).core = s.core := by
  unfold State.logWrite
  dsimp only
  repeat' split
  all_goals simp
@[simp] theorem raiseAs_core (s : State) (logged : Ev) (dests : List (Fin 64 × Ev)) : (State.raiseAs s logged dests).core = s.core := by simp [State.raiseAs]
@[simp] theorem raise_core (s : State) (logged : Ev) (dests : List (Fin 64 × Ev)) : (State.raise s logged dests).core = s.core := by simp [State.raise]
@[simp] theorem raise0_core (s : State) (ev : Ev) : (State.raise0 s ev).core = s.core := by simp [State.raise0]
@[simp] theorem raiseAll_core (s : State) (ev : Ev) : (State.raiseAll s ev).core = s.core := by simp [State.raiseAll]
@[simp] theorem violation_core (s : State) (m : MemId) (addr : Nat) : (State.violation s m addr).core = s.core := by simp [State.violation]
@[simp] theorem noteUe_core (s : State) (m : MemId) (a : Nat) (who : Option (Fin 64)) : (State.noteUe s m a who).core = s.core := by
  unfold State.noteUe
  cases m <;> dsimp only <;> (repeat' split) <;> simp
@[simp] theorem noteCe_core (s : State) (m : MemId) (a : Nat) : (State.noteCe s m a).core = s.core := by
  unfold State.noteCe
  cases m <;> dsimp only <;> (repeat' split) <;> simp
@[simp] theorem issueAtom_core (s : State) (w : WAtom) : (s.issueAtom w).core = s.core := by
  unfold State.issueAtom
  dsimp only
  rw [modDmc_core, foldl_core (fun _ _ => by simp)]
  repeat' split
  all_goals simp
@[simp] theorem issueWrite_core (s : State) (c : Fin 8) : (State.issueWrite s c).core = s.core := by unfold State.issueWrite; (try dsimp only); (repeat' split) <;> simp
@[simp] theorem wake_core (s : State) : s.wake.core = s.core := by
  unfold State.wake
  dsimp only
  split
  · rw [foldl_core (fun _ _ => by simp)]; rfl
  · split
    · rw [foldl_core (fun _ _ => by simp)]; rfl
    · rfl
@[simp] theorem wakeMem_core (s : State) (m : MemId) (a n : Nat) : (State.wakeMem s m a n).core = s.core := by unfold State.wakeMem; (try dsimp only); (repeat' split) <;> simp
@[simp] theorem readErrs_core (s : State) (m : MemId) (a n : Nat) (who : Option (Fin 64)) : (State.readErrs s m a n who).1.core = s.core := by unfold State.readErrs; simp [apply_ite State.core]
@[simp] theorem violationDev_core (s : State) (a : Nat) : (State.violationDev s a).core = s.core := by unfold State.violationDev; (try dsimp only); (repeat' split) <;> simp
@[simp] theorem fenceHold_core (s : State) (g : Group) (f : Nat) : (State.fenceHold s g f).core = s.core := by unfold State.fenceHold; (try dsimp only); (repeat' split) <;> simp
@[simp] theorem wallHold_core (s : State) (rg : Fin 4) (f : Nat) (detail : Nat) (ps : List (Fin 64)) : (State.wallHold s rg f detail ps).core = s.core := by unfold State.wallHold; simp [apply_ite State.core]
@[simp] theorem commitLate_core (s : State) (m : Member) (e : Nat) : (State.commitLate s m e).core = s.core := by simp [State.commitLate]
@[simp] theorem joinGroup_core (s : State) (w : Waiting) (o : Fin 8) (caps : List (Fin 256 × Latched)) : (State.joinGroup s w o caps).core = s.core := by unfold State.joinGroup; (try dsimp only); (repeat' split) <;> simp
@[simp] theorem decidePlain_core (s : State) (o : Fin 8) (f : Nat) : (State.decidePlain s o f).core = s.core := by simp [State.decidePlain]
@[simp] theorem decideWall_core (s : State) (o : Fin 8) (f : Nat) (dec : Option (Bool × Nat)) : (State.decideWall s o f dec).core = s.core := by unfold State.decideWall; simp [apply_ite State.core]
@[simp] theorem reportGroups_core (s : State) (gs : List Group) (f : Nat) : (State.reportGroups s gs f).1.core = s.core := by simp [State.reportGroups]
@[simp] theorem cutOffAt_core (s : State) (o : Fin 8) (f : Nat) : (State.cutOffAt s o f).core = s.core := by unfold State.cutOffAt; (try dsimp only); (repeat' split) <;> simp
@[simp] theorem skipHold_core (s : State) (t1 : Nat) (g : Group) : (State.skipHold s t1 g).core = s.core := by unfold State.skipHold; simp [apply_ite State.core]
@[simp] theorem holdSkipped_core (s : State) (t1 : Nat) (g : Group) : (State.holdSkipped s t1 g).core = s.core := by unfold State.holdSkipped; simp [apply_ite State.core]
@[simp] theorem passPoints_core (s : State) (t1 : Nat) (q : List Group × List Group) : (State.passPoints s t1 q).core = s.core := by simp [State.passPoints]
@[simp] theorem outEvent_core (s : State) (o : Fin 8) (code frame detail : Nat) (view : VMap → Option Nat) : (State.outEvent s o code frame detail view).core = s.core := by simp [State.outEvent]
@[simp] theorem outEv_core (s : State) (o : Fin 8) (code frame detail : Nat) : (State.outEv s o code frame detail).core = s.core := by simp [State.outEv]
@[simp] theorem trainFail_core (s : State) (o : Fin 8) (stage : Nat) : (State.trainFail s o stage).core = s.core := by simp [State.trainFail]
@[simp] theorem trainEnd_core (s : State) (o : Fin 8) (r : TrainRun) : (State.trainEnd s o r).core = s.core := by unfold State.trainEnd; (try dsimp only); (repeat' split) <;> simp
@[simp] theorem takeCauses_core (s : State) (o : Fin 8) (f : Nat) : (State.takeCauses s o f).core = s.core := by unfold State.takeCauses; (try dsimp only); (repeat' split) <;> simp
@[simp] theorem sfJudge_core (s : State) (o : Fin 8) : (State.sfJudge s o).core = s.core := by simp [State.sfJudge]
@[simp] theorem sfRead_core (s : State) (a n : Nat) : (State.sfRead s a n).1.core = s.core := by unfold State.sfRead; (try dsimp only); (repeat' split) <;> simp
@[simp] theorem safeLine_core (s : State) (o : Fin 8) (line : Nat) : (State.safeLine s o line).core = s.core := by unfold State.safeLine; (try dsimp only); (repeat' split) <;> simp
@[simp] theorem staleEvent_core (s : State) (o : Fin 8) (f : Nat) (i : Fin 256) (stale : Bool) (age : Nat) : (State.staleEvent s o f i stale age).core = s.core := by simp [State.staleEvent]
@[simp] theorem secureHeld_core (s : State) (island : Nat) : (State.secureHeld s island).core = s.core := by simp [State.secureHeld]
@[simp] theorem hpdUnplug_core (s : State) (o : Fin 8) : (State.hpdUnplug s o).core = s.core := by unfold State.hpdUnplug; simp [apply_ite State.core]
@[simp] theorem hpdPlug_core (s : State) (o : Fin 8) : (State.hpdPlug s o).core = s.core := by unfold State.hpdPlug; simp [apply_ite State.core]
@[simp] theorem auxTimeout_core (s : State) (o : Fin 8) (x : AuxAcc) (_why : AuxMiss) (run : TrainRun) : (State.auxTimeout s o x _why run).core = s.core := by unfold State.auxTimeout; simp [apply_ite State.core]
@[simp] theorem safeMsg_core (s : State) (inst : Nat) (word : Word) (time : DWord) : (State.safeMsg s inst word time).core = s.core := by simp [State.safeMsg]
@[simp] theorem sendAlarm_core (s : State) (word : Word) : (State.sendAlarm s word).core = s.core := by simp [State.sendAlarm]
@[simp] theorem hapDone_core (s : State) (h : Fin 16) : (State.hapDone s h).core = s.core := by unfold State.hapDone; (try dsimp only); (repeat' split) <;> simp
@[simp] theorem hapIdle_core (s : State) (h : Fin 16) (last : Nat) : (State.hapIdle s h last).core = s.core := by simp [State.hapIdle]
@[simp] theorem hapTrigger_core (s : State) (h : Fin 16) (src : HapSrc) (effect prio amp : Nat) (reflex : Bool) : (State.hapTrigger s h src effect prio amp reflex).core = s.core := by unfold State.hapTrigger; simp [apply_ite State.core]
@[simp] theorem hapStop_core (s : State) (h : Fin 16) (brake : Bool) : (State.hapStop s h brake).core = s.core := by unfold State.hapStop; simp [apply_ite State.core]
@[simp] theorem consoleDo_core (s : State) (p : Fin 64) (src : HapSrc) (d : Desc) : (State.consoleDo s p src d).core = s.core := by unfold State.consoleDo; (try dsimp only); (repeat' split) <;> simp
@[simp] theorem beginConsole_core (s : State) (w : Waiting) : (State.beginConsole s w).core = s.core := by simp [State.beginConsole]
@[simp] theorem pavRecord_core (s : State) (p : Fin 64) : (State.pavRecord s p).core = s.core := by simp [State.pavRecord]
@[simp] theorem holdover_core (s : State) : (State.holdover s).core = s.core := by unfold State.holdover; simp [apply_ite State.core]
@[simp] theorem evDown_core (s : State) (l : Fin 12) (cause : Nat) : (State.evDown s l cause).core = s.core := by simp [State.evDown]
@[simp] theorem linkStart_core (s : State) (l : Fin 12) : (State.linkStart s l).core = s.core := by unfold State.linkStart; simp [apply_ite State.core]
@[simp] theorem adoptMaster_core (s : State) (id term : Nat) : (State.adoptMaster s id term).core = s.core := by unfold State.adoptMaster; (try dsimp only); (repeat' split) <;> simp
@[simp] theorem clkFail_core (s : State) (code : Nat) : (State.clkFail s code).core = s.core := by simp [State.clkFail]
@[simp] theorem domeAnd0_core (s : State) (ev : Ev) : (State.domeAnd0 s ev).core = s.core := by simp [State.domeAnd0]
@[simp] theorem rcoFaulty_core (s : State) : (State.rcoFaulty s).core = s.core := by unfold State.rcoFaulty; simp [apply_ite State.core]
@[simp] theorem switchForced_core (s : State) (i : Nat) : (State.switchForced s i).core = s.core := by simp [State.switchForced]
@[simp] theorem gateLate_core (s : State) (i : Nat) : (State.gateLate s i).core = s.core := by simp [State.gateLate]
@[simp] theorem slRelease_core (s : State) (l : Fin 12) : (State.slRelease s l).core = s.core := by unfold State.slRelease; simp [apply_ite State.core]
@[simp] theorem mr4_core (s : State) (c : Fin 8) (rate : Nat) : (State.mr4 s c rate).core = s.core := by unfold State.mr4; simp [apply_ite State.core]
@[simp] theorem sfTouched_core (s : State) (o n : Nat) : (State.sfTouched s o n).core = s.core := by unfold State.sfTouched; simp [apply_ite State.core]
@[simp] theorem standbyOn_core (s : State) : (State.standbyOn s).core = s.core := by unfold State.standbyOn; simp [apply_ite State.core]
@[simp] theorem standbyOff_core (s : State) : (State.standbyOff s).core = s.core := by unfold State.standbyOff; simp [apply_ite State.core]
@[simp] theorem keepNote_core (s : State) (a n : Nat) : (State.keepNote s a n).core = s.core := by simp [State.keepNote]
@[simp] theorem noteFw_core (s : State) : (State.noteFw s).core = s.core := by simp [State.noteFw]
@[simp] theorem raiseThermal_core (s : State) (tj : Int) : (State.raiseThermal s tj).core = s.core := by simp [State.raiseThermal]
@[simp] theorem judgeWarn_core (s : State) (tj : Int) : (State.judgeWarn s tj).core = s.core := by unfold State.judgeWarn; simp [apply_ite State.core]
@[simp] theorem bootRepairs_core (s : State) : (State.bootRepairs s).core = s.core := by simp [State.bootRepairs]
@[simp] theorem handoverEnd_core (s : State) (h : Handover) : (State.handoverEnd s h).core = s.core := by unfold State.handoverEnd; (try dsimp only); (repeat' split) <;> simp
@[simp] theorem blockMove_core (s : State) (p : Fin 64) (i : Fin 2) (m : BitVec 2048) (take : Bool) : (State.blockMove s p i m take).core = s.core := by unfold State.blockMove; (try dsimp only); (repeat' split) <;> simp
@[simp] theorem quiesceDone_core (s : State) (b : Nat) : (State.quiesceDone s b).core = s.core := by unfold State.quiesceDone; (try dsimp only); (repeat' split) <;> simp
@[simp] theorem restartReads_core (s : State) : (State.restartReads s).core = s.core := by simp [State.restartReads]
@[simp] theorem touchEvent_core (s : State) (c : Fin 32) (code detail : Nat) : (State.touchEvent s c code detail).core = s.core := by unfold State.touchEvent; simp [apply_ite State.core]
@[simp] theorem touchReport_core (s : State) (c : Fin 32) (down : Bool) : (State.touchReport s c down).core = s.core := by simp [State.touchReport]
@[simp] theorem reflexFire_core (s : State) (c : Fin 32) : (State.reflexFire s c).core = s.core := by unfold State.reflexFire; (try dsimp only); (repeat' split) <;> simp
@[simp] theorem scanFree_core (s : State) (c : Fin 32) (us : Nat) (sg : List Int) : (State.scanFree s c us sg).core = s.core := by unfold State.scanFree; simp [apply_ite State.core]
@[simp] theorem scanTouched_core (s : State) (c : Fin 32) (us : Nat) (sg : List Int) : (State.scanTouched s c us sg).core = s.core := by unfold State.scanTouched; simp [apply_ite State.core]
@[simp] theorem scanControl_core (s : State) (us : Nat) (c : Fin 32) : (State.scanControl s us c).core = s.core := by unfold State.scanControl; simp [apply_ite State.core]
@[simp] theorem halfCycle_core (s : State) (h : Fin 16) (b : Bemf) : (State.halfCycle s h b).core = s.core := by unfold State.halfCycle; (try dsimp only); (repeat' split) <;> simp
@[simp] theorem trigIn_core (s : State) (t : Fin 8) (falling : Bool) : (State.trigIn s t falling).core = s.core := by unfold State.trigIn; simp [apply_ite State.core]
@[simp] theorem noteObj_core (s : State) (base cap : Nat) : (State.noteObj s base cap).core = s.core := by simp [State.noteObj]
@[simp] theorem readLogWindow_core (s : State) (a n : Nat) : (State.readLogWindow s a n).1.core = s.core := by simp [State.readLogWindow]
@[simp] theorem sfTouchedDev_core (s : State) (a n : Nat) : (State.sfTouchedDev s a n).core = s.core := by unfold State.sfTouchedDev; (try dsimp only); (repeat' split) <;> simp
@[simp] theorem masterIn_core (s : State) (l : Fin 12) (f : BitVec 256) : (State.masterIn s l f).core = s.core := by unfold State.masterIn; simp [apply_ite State.core]
@[simp] theorem alarmIn_core (s : State) (l : Fin 12) (f : BitVec 256) : (State.alarmIn s l f).core = s.core := by unfold State.alarmIn; simp [apply_ite State.core]
@[simp] theorem identCheck_core (s : State) (l : Fin 12) (a b : BitVec 256) : (State.identCheck s l a b).core = s.core := by unfold State.identCheck; (try dsimp only); (repeat' split) <;> simp
@[simp] theorem identIn_core (s : State) (l : Fin 12) (f : BitVec 256) : (State.identIn s l f).core = s.core := by unfold State.identIn; (try dsimp only); (repeat' split) <;> simp
@[simp] theorem importLost_core (s : State) (k : Fin 256) : (State.importLost s k).core = s.core := by unfold State.importLost; (try dsimp only); (repeat' split) <;> simp
@[simp] theorem flushEvents_core (n : Nat) (s : State) (p : Fin 64) : (State.flushEvents n s p).core = s.core := by
  induction n generalizing s with
  | zero => rfl
  | succ n ih =>
    unfold State.flushEvents
    (repeat' split) <;> simp [ih]
@[simp] theorem newPeriod_core (s : State) (k : Nat) : (s.newPeriod k).core = s.core := by
  unfold State.newPeriod
  rw [foldl_core]
  · have e1 : (s.pavs.map fun v => { v with used := Vector.replicate 4 0, deferRaised := Vector.replicate 4 false }).map Pav.order = s.pavs.map Pav.order := by
      rw [Vector.map_map]; rfl
    have e2 : (s.jobs.map fun j => { j with paused := false }).map (fun j => (j.waiting, j.fin.isNone)) = s.jobs.map fun j => (j.waiting, j.fin.isNone) := by
      rw [List.map_map]; rfl
    simp only [State.core, e1, e2]
  · intro u p
    split
    · rfl
    · simp
@[simp] theorem periodGo_core (s : State) : s.periodGo.core = s.core := by
  unfold State.periodGo
  (repeat' split) <;> simp
@[simp] theorem moveTo_core (s : State) (a b : Nat) : (s.moveTo a b).core = s.core := by
  unfold State.moveTo
  simp
@[simp] theorem upTo_core (s : State) (a : Nat) : (s.upTo a).core = s.core := by
  unfold State.upTo
  split <;> simp
@[simp] theorem upToFine_core (s : State) (a : Nat) : (s.upToFine a).core = s.core := by
  unfold State.upToFine
  split <;> simp
@[simp] theorem underrunFrom_core (s : State) (o : Fin 8) (line x : Nat) : (State.underrunFrom s o line x).core = s.core := by unfold State.underrunFrom; simp [apply_ite State.core]
@[simp] theorem underrunDo_core (s : State) (o : Fin 8) (line : Nat) : (State.underrunDo s o line).core = s.core := by unfold State.underrunDo; simp [apply_ite State.core]
@[simp] theorem cutOffDo_core (s : State) (o : Fin 8) (f : Nat) : (State.cutOffDo s o f).core = s.core := by unfold State.cutOffDo; simp [apply_ite State.core]
@[simp] theorem freshness_core (s : State) (o : Fin 8) (f : Nat) (i : Fin 256) : (State.freshness s o f i).core = s.core := by unfold State.freshness; (try dsimp only); (repeat' split) <;> simp
@[simp] theorem periodStart_core (s : State) (k : Nat) : (State.periodStart s k).core = s.core := by unfold State.periodStart; simp [apply_ite State.core]
@[simp] theorem scanBegin_core (s : State) : (State.scanBegin s).core = s.core := by unfold State.scanBegin; (try dsimp only); (repeat' split) <;> simp
@[simp] theorem scanEnd_core (s : State) (raw : List Nat) : (State.scanEnd s raw).core = s.core := by unfold State.scanEnd; (try dsimp only); (repeat' split) <;> simp
@[simp] theorem reportPoint_core (s : State) (g : Fin 4) (f : Nat) : (State.reportPoint s g f).core = s.core := by unfold State.reportPoint; simp [apply_ite State.core]
@[simp] theorem upDeadline_core (s : State) (g : Fin 4) (f : Nat) : (State.upDeadline s g f).core = s.core := by unfold State.upDeadline; (try dsimp only); (repeat' split) <;> simp

end Sys2Proof.Machine
end

