-- ==== Sys2Proof/Laws/Mem.lean ====
section
/-!
SUPPORT. The memories: what a store does to a cell list, and that every store keeps the canonical form.
-/
namespace Sys2Proof.Machine
open Sys2Proof

/-! ### The canonical form -/

theorem cellsWf_cons {k : Nat} {v : Byte} {l : List Host.Cell} :
    cellsWf ((k, v) :: l) = true ↔ v ≠ 0 ∧ (∀ c ∈ l, k < c.1) ∧ cellsWf l = true := by
  induction l generalizing k v with
  | nil => simp [cellsWf]
  | cons c l ih =>
    obtain ⟨k', v'⟩ := c
    simp only [cellsWf, Bool.and_eq_true, bne_iff_ne, ne_eq, decide_eq_true_eq, List.mem_cons]
    constructor
    · rintro ⟨⟨hv, hk⟩, hl⟩
      refine ⟨hv, ?_, hl⟩
      rintro c (rfl | hc)
      · exact hk
      · exact Nat.lt_trans hk ((ih.1 hl).2.1 c hc)
    · rintro ⟨hv, hk, hl⟩
      exact ⟨⟨hv, hk _ (Or.inl rfl)⟩, hl⟩

theorem cellSet_mem {l : List Host.Cell} {a : Nat} {v : Byte} {c : Host.Cell} (h : c ∈ cellSet l a v) : c.1 = a ∨ c ∈ l := by
  induction l with
  | nil =>
    simp only [cellSet] at h
    split at h
    · simp at h
    · simp at h; left; rw [h]
  | cons q l ih =>
    obtain ⟨k, w⟩ := q
    simp only [cellSet] at h
    split at h
    · split at h
      · exact Or.inr h
      · rcases List.mem_cons.1 h with h | h
        · left; rw [h]
        · exact Or.inr h
    · split at h
      · split at h
        · exact Or.inr (List.mem_cons_of_mem _ h)
        · rcases List.mem_cons.1 h with h | h
          · left; rw [h]
          · exact Or.inr (List.mem_cons_of_mem _ h)
      · rcases List.mem_cons.1 h with h | h
        · exact Or.inr (by rw [h]; exact List.mem_cons_self ..)
        · rcases ih h with h | h
          · exact Or.inl h
          · exact Or.inr (List.mem_cons_of_mem _ h)

/-- Storing a byte keeps the canonical form. -/
theorem cellSet_wf {l : List Host.Cell} (h : cellsWf l = true) (a : Nat) (v : Byte) : cellsWf (cellSet l a v) = true := by
  induction l with
  | nil => simp only [cellSet]; split <;> simp_all [cellsWf]
  | cons q l ih =>
    obtain ⟨k, w⟩ := q
    have h' := cellsWf_cons.1 h
    simp only [cellSet]
    split
    · split
      · exact h
      · next ha hv =>
        refine cellsWf_cons.2 ⟨hv, ?_, h⟩
        intro c hc
        rcases List.mem_cons.1 hc with rfl | hc
        · exact ha
        · exact Nat.lt_trans ha (h'.2.1 c hc)
    · split
      · split
        · exact h'.2.2
        · next _ ha hv => exact cellsWf_cons.2 ⟨hv, fun c hc => by rw [ha]; exact h'.2.1 c hc, h'.2.2⟩
      · next h1 h2 =>
        refine cellsWf_cons.2 ⟨h'.1, ?_, ih h'.2.2⟩
        intro c hc
        rcases cellSet_mem hc with e | hc
        · omega
        · exact h'.2.1 c hc

/-- Making a range zero keeps the canonical form. -/
theorem cellClear_wf {l : List Host.Cell} (h : cellsWf l = true) (lo hi : Nat) : cellsWf (cellClear l lo hi) = true := by
  induction l with
  | nil => rfl
  | cons q l ih =>
    obtain ⟨k, w⟩ := q
    have h' := cellsWf_cons.1 h
    unfold cellClear at ih ⊢
    rw [List.filter_cons]
    split
    · exact cellsWf_cons.2 ⟨h'.1, fun c hc => h'.2.1 c (List.mem_filter.1 hc).1, ih h'.2.2⟩
    · exact ih h'.2.2

/-- Every store keeps every memory in canonical form. -/
theorem apply_wf {i : Images} (h : i.wf = true) (st : Store) : (i.apply st).wf = true := by
  simp only [Images.wf, Bool.and_eq_true] at h ⊢
  obtain ⟨⟨⟨h1, h2⟩, h3⟩, h4⟩ := h
  cases st with
  | byte m a v => cases m <;> simp only [Images.apply] <;> simp [*, cellSet_wf]
  | clear m lo hi => cases m <;> simp only [Images.apply] <;> simp [*, cellClear_wf]

/-- The stores of a command keep every memory in canonical form. -/
theorem applyAll_wf {i : Images} (h : i.wf = true) (l : List Store) : (i.applyAll l).wf = true := by
  induction l with
  | nil => exact h
  | cons st l ih => exact apply_wf ih st

/-! ### Read after write -/

theorem cellGet_of_lt {l : List Host.Cell} {a : Nat} (h : ∀ c ∈ l, a < c.1) : cellGet l a = 0 := by
  induction l with
  | nil => rfl
  | cons q l ih =>
    obtain ⟨k, w⟩ := q
    have := h _ (List.mem_cons_self ..)
    simp only [cellGet]
    rw [if_neg (by omega)]
    exact ih fun c hc => h c (List.mem_cons_of_mem _ hc)

/-- A byte stored reads back; every other byte is as it was. -/
theorem cellGet_cellSet {l : List Host.Cell} (h : cellsWf l = true) (a b : Nat) (v : Byte) :
    cellGet (cellSet l a v) b = if b = a then v else cellGet l b := by
  induction l with
  | nil =>
    simp only [cellSet]
    by_cases hv : v = 0
    · simp [hv, cellGet]
    · rw [if_neg hv]
      by_cases hb : b = a
      · simp [hb, cellGet]
      · simp [hb, cellGet, Ne.symm hb]
  | cons q l ih =>
    obtain ⟨k, w⟩ := q
    have h' := cellsWf_cons.1 h
    simp only [cellSet]
    split
    · next ha =>
      by_cases hv : v = 0
      · rw [if_pos hv]
        by_cases hb : b = a
        · rw [if_pos hb, hv]
          refine cellGet_of_lt fun c hc => ?_
          rcases List.mem_cons.1 hc with rfl | hc
          · exact hb ▸ ha
          · exact hb ▸ Nat.lt_trans ha (h'.2.1 c hc)
        · rw [if_neg hb]
      · rw [if_neg hv]
        by_cases hb : b = a
        · simp [cellGet, hb]
        · rw [if_neg hb]; simp [cellGet, Ne.symm hb]
    · split
      · next _ ha =>
        subst ha
        by_cases hv : v = 0
        · rw [if_pos hv]
          by_cases hb : b = a
          · rw [if_pos hb, hv, hb]; exact cellGet_of_lt h'.2.1
          · rw [if_neg hb]; simp [cellGet, Ne.symm hb]
        · rw [if_neg hv]
          by_cases hb : b = a
          · simp [cellGet, hb]
          · rw [if_neg hb]; simp [cellGet, Ne.symm hb]
      · next h1 h2 =>
        simp only [cellGet]
        by_cases hb : k = b
        · rw [if_pos hb, if_neg (by omega), if_pos hb]
        · rw [if_neg hb, if_neg hb]; exact ih h'.2.2

end Sys2Proof.Machine
end

