-- ==== Sys2Proof/Laws/State.lean ====
section
/-!
SUPPORT. What the named updates of the state change and keep: one lemma per field per update, each true by unfolding the update alone, so
that no later proof unfolds a record update.
-/
set_option linter.all false
namespace Sys2Proof.Machine
open Sys2Proof

/-! ### Vectors -/

theorem upd_upd {α : Type} {n : Nat} (v : Vector α n) (i : Fin n) (f g : α → α) : upd (upd v i f) i g = upd v i fun x => g (f x) := by
  ext j hj
  by_cases h : i.val = j
  · subst h; simp [upd]
  · simp [upd, Vector.getElem_set, h]

theorem upd_id {α : Type} {n : Nat} (v : Vector α n) (i : Fin n) (f : α → α) (h : f v[i.val] = v[i.val]) : upd v i f = v := by
  ext j hj
  by_cases e : i.val = j
  · subst e; simp [upd, h]
  · simp [upd, Vector.getElem_set, e]

@[simp] theorem upd_same {α : Type} {n : Nat} (v : Vector α n) (i : Fin n) (f : α → α) : (upd v i f)[i.val] = f v[i.val] := by simp [upd]

theorem upd_other {α : Type} {n : Nat} (v : Vector α n) (i j : Fin n) (f : α → α) (h : j ≠ i) : (upd v i f)[j.val] = v[j.val] := by
  have : i.val ≠ j.val := fun e => h (Fin.ext e.symm)
  simp [upd, Vector.getElem_set, this]

/-- Two changes of an element agree when they give the same value on the element there. -/
theorem upd_congr {α : Type} {n : Nat} {v : Vector α n} {i : Fin n} {f g : α → α} (h : f v[i.val] = g v[i.val]) : upd v i f = upd v i g := by
  simp [upd, h]

/-! ### `State.modPav` -/

@[simp] theorem modPav_pending (s : State) (p : Fin 64) (f : Pav → Pav) : (s.modPav p f).pending = s.pending := rfl
@[simp] theorem modPav_img (s : State) (p : Fin 64) (f : Pav → Pav) : (s.modPav p f).img = s.img := rfl
@[simp] theorem modPav_stores (s : State) (p : Fin 64) (f : Pav → Pav) : (s.modPav p f).stores = s.stores := rfl
@[simp] theorem modPav_poison (s : State) (p : Fin 64) (f : Pav → Pav) : (s.modPav p f).poison = s.poison := rfl
@[simp] theorem modPav_flips (s : State) (p : Fin 64) (f : Pav → Pav) : (s.modPav p f).flips = s.flips := rfl
@[simp] theorem modPav_pavs (s : State) (p : Fin 64) (f : Pav → Pav) : (s.modPav p f).pavs = upd s.pavs p f := rfl
@[simp] theorem modPav_ports (s : State) (p : Fin 64) (f : Pav → Pav) : (s.modPav p f).ports = s.ports := rfl
@[simp] theorem modPav_flrDone (s : State) (p : Fin 64) (f : Pav → Pav) : (s.modPav p f).flrDone = s.flrDone := rfl
@[simp] theorem modPav_zeroQ (s : State) (p : Fin 64) (f : Pav → Pav) : (s.modPav p f).zeroQ = s.zeroQ := rfl
@[simp] theorem modPav_orphanExts (s : State) (p : Fin 64) (f : Pav → Pav) : (s.modPav p f).orphanExts = s.orphanExts := rfl
@[simp] theorem modPav_slots (s : State) (p : Fin 64) (f : Pav → Pav) : (s.modPav p f).slots = s.slots := rfl
@[simp] theorem modPav_groups (s : State) (p : Fin 64) (f : Pav → Pav) : (s.modPav p f).groups = s.groups := rfl
@[simp] theorem modPav_doneQ (s : State) (p : Fin 64) (f : Pav → Pav) : (s.modPav p f).doneQ = s.doneQ := rfl
@[simp] theorem modPav_groupDefs (s : State) (p : Fin 64) (f : Pav → Pav) : (s.modPav p f).groupDefs = s.groupDefs := rfl
@[simp] theorem modPav_nextId (s : State) (p : Fin 64) (f : Pav → Pav) : (s.modPav p f).nextId = s.nextId := rfl
@[simp] theorem modPav_comps (s : State) (p : Fin 64) (f : Pav → Pav) : (s.modPav p f).comps = s.comps := rfl
@[simp] theorem modPav_outs (s : State) (p : Fin 64) (f : Pav → Pav) : (s.modPav p f).outs = s.outs := rfl
@[simp] theorem modPav_belvs (s : State) (p : Fin 64) (f : Pav → Pav) : (s.modPav p f).belvs = s.belvs := rfl
@[simp] theorem modPav_ltn (s : State) (p : Fin 64) (f : Pav → Pav) : (s.modPav p f).ltn = s.ltn := rfl
@[simp] theorem modPav_ageSel (s : State) (p : Fin 64) (f : Pav → Pav) : (s.modPav p f).ageSel = s.ageSel := rfl
@[simp] theorem modPav_staleCount (s : State) (p : Fin 64) (f : Pav → Pav) : (s.modPav p f).staleCount = s.staleCount := rfl
@[simp] theorem modPav_jobs (s : State) (p : Fin 64) (f : Pav → Pav) : (s.modPav p f).jobs = s.jobs := rfl
@[simp] theorem modPav_cvus (s : State) (p : Fin 64) (f : Pav → Pav) : (s.modPav p f).cvus = s.cvus := rfl
@[simp] theorem modPav_bports (s : State) (p : Fin 64) (f : Pav → Pav) : (s.modPav p f).bports = s.bports := rfl
@[simp] theorem modPav_entry (s : State) (p : Fin 64) (f : Pav → Pav) : (s.modPav p f).entry = s.entry := rfl
@[simp] theorem modPav_entryTurn (s : State) (p : Fin 64) (f : Pav → Pav) : (s.modPav p f).entryTurn = s.entryTurn := rfl
@[simp] theorem modPav_period (s : State) (p : Fin 64) (f : Pav → Pav) : (s.modPav p f).period = s.period := rfl
@[simp] theorem modPav_evt (s : State) (p : Fin 64) (f : Pav → Pav) : (s.modPav p f).evt = s.evt := rfl
@[simp] theorem modPav_spire (s : State) (p : Fin 64) (f : Pav → Pav) : (s.modPav p f).spire = s.spire := rfl
@[simp] theorem modPav_dmcs (s : State) (p : Fin 64) (f : Pav → Pav) : (s.modPav p f).dmcs = s.dmcs := rfl
@[simp] theorem modPav_dmcg (s : State) (p : Fin 64) (f : Pav → Pav) : (s.modPav p f).dmcg = s.dmcg := rfl
@[simp] theorem modPav_org (s : State) (p : Fin 64) (f : Pav → Pav) : (s.modPav p f).org = s.org := rfl
@[simp] theorem modPav_keep (s : State) (p : Fin 64) (f : Pav → Pav) : (s.modPav p f).keep = s.keep := rfl
@[simp] theorem modPav_dome (s : State) (p : Fin 64) (f : Pav → Pav) : (s.modPav p f).dome = s.dome := rfl
@[simp] theorem modPav_gaz (s : State) (p : Fin 64) (f : Pav → Pav) : (s.modPav p f).gaz = s.gaz := rfl
@[simp] theorem modPav_clk (s : State) (p : Fin 64) (f : Pav → Pav) : (s.modPav p f).clk = s.clk := rfl
@[simp] theorem modPav_pwr (s : State) (p : Fin 64) (f : Pav → Pav) : (s.modPav p f).pwr = s.pwr := rfl
@[simp] theorem modPav_glb (s : State) (p : Fin 64) (f : Pav → Pav) : (s.modPav p f).glb = s.glb := rfl
@[simp] theorem modPav_caps (s : State) (p : Fin 64) (f : Pav → Pav) : (s.modPav p f).caps = s.caps := rfl
@[simp] theorem modPav_ceRaised (s : State) (p : Fin 64) (f : Pav → Pav) : (s.modPav p f).ceRaised = s.ceRaised := rfl
@[simp] theorem modPav_tx (s : State) (p : Fin 64) (f : Pav → Pav) : (s.modPav p f).tx = s.tx := rfl
@[simp] theorem modPav_freeCount (s : State) (p : Fin 64) (f : Pav → Pav) : (s.modPav p f).freeCount = s.freeCount := rfl
@[simp] theorem modPav_arrived (s : State) (p : Fin 64) (f : Pav → Pav) : (s.modPav p f).arrived = s.arrived := rfl

/-! ### `State.modPort` -/

@[simp] theorem modPort_pending (s : State) (p : Fin 4) (f : Port → Port) : (s.modPort p f).pending = s.pending := rfl
@[simp] theorem modPort_img (s : State) (p : Fin 4) (f : Port → Port) : (s.modPort p f).img = s.img := rfl
@[simp] theorem modPort_stores (s : State) (p : Fin 4) (f : Port → Port) : (s.modPort p f).stores = s.stores := rfl
@[simp] theorem modPort_poison (s : State) (p : Fin 4) (f : Port → Port) : (s.modPort p f).poison = s.poison := rfl
@[simp] theorem modPort_flips (s : State) (p : Fin 4) (f : Port → Port) : (s.modPort p f).flips = s.flips := rfl
@[simp] theorem modPort_pavs (s : State) (p : Fin 4) (f : Port → Port) : (s.modPort p f).pavs = s.pavs := rfl
@[simp] theorem modPort_ports (s : State) (p : Fin 4) (f : Port → Port) : (s.modPort p f).ports = upd s.ports p f := rfl
@[simp] theorem modPort_flrDone (s : State) (p : Fin 4) (f : Port → Port) : (s.modPort p f).flrDone = s.flrDone := rfl
@[simp] theorem modPort_zeroQ (s : State) (p : Fin 4) (f : Port → Port) : (s.modPort p f).zeroQ = s.zeroQ := rfl
@[simp] theorem modPort_orphanExts (s : State) (p : Fin 4) (f : Port → Port) : (s.modPort p f).orphanExts = s.orphanExts := rfl
@[simp] theorem modPort_slots (s : State) (p : Fin 4) (f : Port → Port) : (s.modPort p f).slots = s.slots := rfl
@[simp] theorem modPort_groups (s : State) (p : Fin 4) (f : Port → Port) : (s.modPort p f).groups = s.groups := rfl
@[simp] theorem modPort_doneQ (s : State) (p : Fin 4) (f : Port → Port) : (s.modPort p f).doneQ = s.doneQ := rfl
@[simp] theorem modPort_groupDefs (s : State) (p : Fin 4) (f : Port → Port) : (s.modPort p f).groupDefs = s.groupDefs := rfl
@[simp] theorem modPort_nextId (s : State) (p : Fin 4) (f : Port → Port) : (s.modPort p f).nextId = s.nextId := rfl
@[simp] theorem modPort_comps (s : State) (p : Fin 4) (f : Port → Port) : (s.modPort p f).comps = s.comps := rfl
@[simp] theorem modPort_outs (s : State) (p : Fin 4) (f : Port → Port) : (s.modPort p f).outs = s.outs := rfl
@[simp] theorem modPort_belvs (s : State) (p : Fin 4) (f : Port → Port) : (s.modPort p f).belvs = s.belvs := rfl
@[simp] theorem modPort_ltn (s : State) (p : Fin 4) (f : Port → Port) : (s.modPort p f).ltn = s.ltn := rfl
@[simp] theorem modPort_ageSel (s : State) (p : Fin 4) (f : Port → Port) : (s.modPort p f).ageSel = s.ageSel := rfl
@[simp] theorem modPort_staleCount (s : State) (p : Fin 4) (f : Port → Port) : (s.modPort p f).staleCount = s.staleCount := rfl
@[simp] theorem modPort_jobs (s : State) (p : Fin 4) (f : Port → Port) : (s.modPort p f).jobs = s.jobs := rfl
@[simp] theorem modPort_cvus (s : State) (p : Fin 4) (f : Port → Port) : (s.modPort p f).cvus = s.cvus := rfl
@[simp] theorem modPort_bports (s : State) (p : Fin 4) (f : Port → Port) : (s.modPort p f).bports = s.bports := rfl
@[simp] theorem modPort_entry (s : State) (p : Fin 4) (f : Port → Port) : (s.modPort p f).entry = s.entry := rfl
@[simp] theorem modPort_entryTurn (s : State) (p : Fin 4) (f : Port → Port) : (s.modPort p f).entryTurn = s.entryTurn := rfl
@[simp] theorem modPort_period (s : State) (p : Fin 4) (f : Port → Port) : (s.modPort p f).period = s.period := rfl
@[simp] theorem modPort_evt (s : State) (p : Fin 4) (f : Port → Port) : (s.modPort p f).evt = s.evt := rfl
@[simp] theorem modPort_spire (s : State) (p : Fin 4) (f : Port → Port) : (s.modPort p f).spire = s.spire := rfl
@[simp] theorem modPort_dmcs (s : State) (p : Fin 4) (f : Port → Port) : (s.modPort p f).dmcs = s.dmcs := rfl
@[simp] theorem modPort_dmcg (s : State) (p : Fin 4) (f : Port → Port) : (s.modPort p f).dmcg = s.dmcg := rfl
@[simp] theorem modPort_org (s : State) (p : Fin 4) (f : Port → Port) : (s.modPort p f).org = s.org := rfl
@[simp] theorem modPort_keep (s : State) (p : Fin 4) (f : Port → Port) : (s.modPort p f).keep = s.keep := rfl
@[simp] theorem modPort_dome (s : State) (p : Fin 4) (f : Port → Port) : (s.modPort p f).dome = s.dome := rfl
@[simp] theorem modPort_gaz (s : State) (p : Fin 4) (f : Port → Port) : (s.modPort p f).gaz = s.gaz := rfl
@[simp] theorem modPort_clk (s : State) (p : Fin 4) (f : Port → Port) : (s.modPort p f).clk = s.clk := rfl
@[simp] theorem modPort_pwr (s : State) (p : Fin 4) (f : Port → Port) : (s.modPort p f).pwr = s.pwr := rfl
@[simp] theorem modPort_glb (s : State) (p : Fin 4) (f : Port → Port) : (s.modPort p f).glb = s.glb := rfl
@[simp] theorem modPort_caps (s : State) (p : Fin 4) (f : Port → Port) : (s.modPort p f).caps = s.caps := rfl
@[simp] theorem modPort_ceRaised (s : State) (p : Fin 4) (f : Port → Port) : (s.modPort p f).ceRaised = s.ceRaised := rfl
@[simp] theorem modPort_tx (s : State) (p : Fin 4) (f : Port → Port) : (s.modPort p f).tx = s.tx := rfl
@[simp] theorem modPort_freeCount (s : State) (p : Fin 4) (f : Port → Port) : (s.modPort p f).freeCount = s.freeCount := rfl
@[simp] theorem modPort_arrived (s : State) (p : Fin 4) (f : Port → Port) : (s.modPort p f).arrived = s.arrived := rfl

/-! ### `State.modSlot` -/

@[simp] theorem modSlot_pending (s : State) (i : Fin 256) (f : Slot → Slot) : (s.modSlot i f).pending = s.pending := rfl
@[simp] theorem modSlot_img (s : State) (i : Fin 256) (f : Slot → Slot) : (s.modSlot i f).img = s.img := rfl
@[simp] theorem modSlot_stores (s : State) (i : Fin 256) (f : Slot → Slot) : (s.modSlot i f).stores = s.stores := rfl
@[simp] theorem modSlot_poison (s : State) (i : Fin 256) (f : Slot → Slot) : (s.modSlot i f).poison = s.poison := rfl
@[simp] theorem modSlot_flips (s : State) (i : Fin 256) (f : Slot → Slot) : (s.modSlot i f).flips = s.flips := rfl
@[simp] theorem modSlot_pavs (s : State) (i : Fin 256) (f : Slot → Slot) : (s.modSlot i f).pavs = s.pavs := rfl
@[simp] theorem modSlot_ports (s : State) (i : Fin 256) (f : Slot → Slot) : (s.modSlot i f).ports = s.ports := rfl
@[simp] theorem modSlot_flrDone (s : State) (i : Fin 256) (f : Slot → Slot) : (s.modSlot i f).flrDone = s.flrDone := rfl
@[simp] theorem modSlot_zeroQ (s : State) (i : Fin 256) (f : Slot → Slot) : (s.modSlot i f).zeroQ = s.zeroQ := rfl
@[simp] theorem modSlot_orphanExts (s : State) (i : Fin 256) (f : Slot → Slot) : (s.modSlot i f).orphanExts = s.orphanExts := rfl
@[simp] theorem modSlot_slots (s : State) (i : Fin 256) (f : Slot → Slot) : (s.modSlot i f).slots = upd s.slots i f := rfl
@[simp] theorem modSlot_groups (s : State) (i : Fin 256) (f : Slot → Slot) : (s.modSlot i f).groups = s.groups := rfl
@[simp] theorem modSlot_doneQ (s : State) (i : Fin 256) (f : Slot → Slot) : (s.modSlot i f).doneQ = s.doneQ := rfl
@[simp] theorem modSlot_groupDefs (s : State) (i : Fin 256) (f : Slot → Slot) : (s.modSlot i f).groupDefs = s.groupDefs := rfl
@[simp] theorem modSlot_nextId (s : State) (i : Fin 256) (f : Slot → Slot) : (s.modSlot i f).nextId = s.nextId := rfl
@[simp] theorem modSlot_comps (s : State) (i : Fin 256) (f : Slot → Slot) : (s.modSlot i f).comps = s.comps := rfl
@[simp] theorem modSlot_outs (s : State) (i : Fin 256) (f : Slot → Slot) : (s.modSlot i f).outs = s.outs := rfl
@[simp] theorem modSlot_belvs (s : State) (i : Fin 256) (f : Slot → Slot) : (s.modSlot i f).belvs = s.belvs := rfl
@[simp] theorem modSlot_ltn (s : State) (i : Fin 256) (f : Slot → Slot) : (s.modSlot i f).ltn = s.ltn := rfl
@[simp] theorem modSlot_ageSel (s : State) (i : Fin 256) (f : Slot → Slot) : (s.modSlot i f).ageSel = s.ageSel := rfl
@[simp] theorem modSlot_staleCount (s : State) (i : Fin 256) (f : Slot → Slot) : (s.modSlot i f).staleCount = s.staleCount := rfl
@[simp] theorem modSlot_jobs (s : State) (i : Fin 256) (f : Slot → Slot) : (s.modSlot i f).jobs = s.jobs := rfl
@[simp] theorem modSlot_cvus (s : State) (i : Fin 256) (f : Slot → Slot) : (s.modSlot i f).cvus = s.cvus := rfl
@[simp] theorem modSlot_bports (s : State) (i : Fin 256) (f : Slot → Slot) : (s.modSlot i f).bports = s.bports := rfl
@[simp] theorem modSlot_entry (s : State) (i : Fin 256) (f : Slot → Slot) : (s.modSlot i f).entry = s.entry := rfl
@[simp] theorem modSlot_entryTurn (s : State) (i : Fin 256) (f : Slot → Slot) : (s.modSlot i f).entryTurn = s.entryTurn := rfl
@[simp] theorem modSlot_period (s : State) (i : Fin 256) (f : Slot → Slot) : (s.modSlot i f).period = s.period := rfl
@[simp] theorem modSlot_evt (s : State) (i : Fin 256) (f : Slot → Slot) : (s.modSlot i f).evt = s.evt := rfl
@[simp] theorem modSlot_spire (s : State) (i : Fin 256) (f : Slot → Slot) : (s.modSlot i f).spire = s.spire := rfl
@[simp] theorem modSlot_dmcs (s : State) (i : Fin 256) (f : Slot → Slot) : (s.modSlot i f).dmcs = s.dmcs := rfl
@[simp] theorem modSlot_dmcg (s : State) (i : Fin 256) (f : Slot → Slot) : (s.modSlot i f).dmcg = s.dmcg := rfl
@[simp] theorem modSlot_org (s : State) (i : Fin 256) (f : Slot → Slot) : (s.modSlot i f).org = s.org := rfl
@[simp] theorem modSlot_keep (s : State) (i : Fin 256) (f : Slot → Slot) : (s.modSlot i f).keep = s.keep := rfl
@[simp] theorem modSlot_dome (s : State) (i : Fin 256) (f : Slot → Slot) : (s.modSlot i f).dome = s.dome := rfl
@[simp] theorem modSlot_gaz (s : State) (i : Fin 256) (f : Slot → Slot) : (s.modSlot i f).gaz = s.gaz := rfl
@[simp] theorem modSlot_clk (s : State) (i : Fin 256) (f : Slot → Slot) : (s.modSlot i f).clk = s.clk := rfl
@[simp] theorem modSlot_pwr (s : State) (i : Fin 256) (f : Slot → Slot) : (s.modSlot i f).pwr = s.pwr := rfl
@[simp] theorem modSlot_glb (s : State) (i : Fin 256) (f : Slot → Slot) : (s.modSlot i f).glb = s.glb := rfl
@[simp] theorem modSlot_caps (s : State) (i : Fin 256) (f : Slot → Slot) : (s.modSlot i f).caps = s.caps := rfl
@[simp] theorem modSlot_ceRaised (s : State) (i : Fin 256) (f : Slot → Slot) : (s.modSlot i f).ceRaised = s.ceRaised := rfl
@[simp] theorem modSlot_tx (s : State) (i : Fin 256) (f : Slot → Slot) : (s.modSlot i f).tx = s.tx := rfl
@[simp] theorem modSlot_freeCount (s : State) (i : Fin 256) (f : Slot → Slot) : (s.modSlot i f).freeCount = s.freeCount := rfl
@[simp] theorem modSlot_arrived (s : State) (i : Fin 256) (f : Slot → Slot) : (s.modSlot i f).arrived = s.arrived := rfl

/-! ### `State.modOut` -/

@[simp] theorem modOut_pending (s : State) (o : Fin 8) (f : Out → Out) : (s.modOut o f).pending = s.pending := rfl
@[simp] theorem modOut_img (s : State) (o : Fin 8) (f : Out → Out) : (s.modOut o f).img = s.img := rfl
@[simp] theorem modOut_stores (s : State) (o : Fin 8) (f : Out → Out) : (s.modOut o f).stores = s.stores := rfl
@[simp] theorem modOut_poison (s : State) (o : Fin 8) (f : Out → Out) : (s.modOut o f).poison = s.poison := rfl
@[simp] theorem modOut_flips (s : State) (o : Fin 8) (f : Out → Out) : (s.modOut o f).flips = s.flips := rfl
@[simp] theorem modOut_pavs (s : State) (o : Fin 8) (f : Out → Out) : (s.modOut o f).pavs = s.pavs := rfl
@[simp] theorem modOut_ports (s : State) (o : Fin 8) (f : Out → Out) : (s.modOut o f).ports = s.ports := rfl
@[simp] theorem modOut_flrDone (s : State) (o : Fin 8) (f : Out → Out) : (s.modOut o f).flrDone = s.flrDone := rfl
@[simp] theorem modOut_zeroQ (s : State) (o : Fin 8) (f : Out → Out) : (s.modOut o f).zeroQ = s.zeroQ := rfl
@[simp] theorem modOut_orphanExts (s : State) (o : Fin 8) (f : Out → Out) : (s.modOut o f).orphanExts = s.orphanExts := rfl
@[simp] theorem modOut_slots (s : State) (o : Fin 8) (f : Out → Out) : (s.modOut o f).slots = s.slots := rfl
@[simp] theorem modOut_groups (s : State) (o : Fin 8) (f : Out → Out) : (s.modOut o f).groups = s.groups := rfl
@[simp] theorem modOut_doneQ (s : State) (o : Fin 8) (f : Out → Out) : (s.modOut o f).doneQ = s.doneQ := rfl
@[simp] theorem modOut_groupDefs (s : State) (o : Fin 8) (f : Out → Out) : (s.modOut o f).groupDefs = s.groupDefs := rfl
@[simp] theorem modOut_nextId (s : State) (o : Fin 8) (f : Out → Out) : (s.modOut o f).nextId = s.nextId := rfl
@[simp] theorem modOut_comps (s : State) (o : Fin 8) (f : Out → Out) : (s.modOut o f).comps = s.comps := rfl
@[simp] theorem modOut_outs (s : State) (o : Fin 8) (f : Out → Out) : (s.modOut o f).outs = upd s.outs o f := rfl
@[simp] theorem modOut_belvs (s : State) (o : Fin 8) (f : Out → Out) : (s.modOut o f).belvs = s.belvs := rfl
@[simp] theorem modOut_ltn (s : State) (o : Fin 8) (f : Out → Out) : (s.modOut o f).ltn = s.ltn := rfl
@[simp] theorem modOut_ageSel (s : State) (o : Fin 8) (f : Out → Out) : (s.modOut o f).ageSel = s.ageSel := rfl
@[simp] theorem modOut_staleCount (s : State) (o : Fin 8) (f : Out → Out) : (s.modOut o f).staleCount = s.staleCount := rfl
@[simp] theorem modOut_jobs (s : State) (o : Fin 8) (f : Out → Out) : (s.modOut o f).jobs = s.jobs := rfl
@[simp] theorem modOut_cvus (s : State) (o : Fin 8) (f : Out → Out) : (s.modOut o f).cvus = s.cvus := rfl
@[simp] theorem modOut_bports (s : State) (o : Fin 8) (f : Out → Out) : (s.modOut o f).bports = s.bports := rfl
@[simp] theorem modOut_entry (s : State) (o : Fin 8) (f : Out → Out) : (s.modOut o f).entry = s.entry := rfl
@[simp] theorem modOut_entryTurn (s : State) (o : Fin 8) (f : Out → Out) : (s.modOut o f).entryTurn = s.entryTurn := rfl
@[simp] theorem modOut_period (s : State) (o : Fin 8) (f : Out → Out) : (s.modOut o f).period = s.period := rfl
@[simp] theorem modOut_evt (s : State) (o : Fin 8) (f : Out → Out) : (s.modOut o f).evt = s.evt := rfl
@[simp] theorem modOut_spire (s : State) (o : Fin 8) (f : Out → Out) : (s.modOut o f).spire = s.spire := rfl
@[simp] theorem modOut_dmcs (s : State) (o : Fin 8) (f : Out → Out) : (s.modOut o f).dmcs = s.dmcs := rfl
@[simp] theorem modOut_dmcg (s : State) (o : Fin 8) (f : Out → Out) : (s.modOut o f).dmcg = s.dmcg := rfl
@[simp] theorem modOut_org (s : State) (o : Fin 8) (f : Out → Out) : (s.modOut o f).org = s.org := rfl
@[simp] theorem modOut_keep (s : State) (o : Fin 8) (f : Out → Out) : (s.modOut o f).keep = s.keep := rfl
@[simp] theorem modOut_dome (s : State) (o : Fin 8) (f : Out → Out) : (s.modOut o f).dome = s.dome := rfl
@[simp] theorem modOut_gaz (s : State) (o : Fin 8) (f : Out → Out) : (s.modOut o f).gaz = s.gaz := rfl
@[simp] theorem modOut_clk (s : State) (o : Fin 8) (f : Out → Out) : (s.modOut o f).clk = s.clk := rfl
@[simp] theorem modOut_pwr (s : State) (o : Fin 8) (f : Out → Out) : (s.modOut o f).pwr = s.pwr := rfl
@[simp] theorem modOut_glb (s : State) (o : Fin 8) (f : Out → Out) : (s.modOut o f).glb = s.glb := rfl
@[simp] theorem modOut_caps (s : State) (o : Fin 8) (f : Out → Out) : (s.modOut o f).caps = s.caps := rfl
@[simp] theorem modOut_ceRaised (s : State) (o : Fin 8) (f : Out → Out) : (s.modOut o f).ceRaised = s.ceRaised := rfl
@[simp] theorem modOut_tx (s : State) (o : Fin 8) (f : Out → Out) : (s.modOut o f).tx = s.tx := rfl
@[simp] theorem modOut_freeCount (s : State) (o : Fin 8) (f : Out → Out) : (s.modOut o f).freeCount = s.freeCount := rfl
@[simp] theorem modOut_arrived (s : State) (o : Fin 8) (f : Out → Out) : (s.modOut o f).arrived = s.arrived := rfl

/-! ### `State.modComp` -/

@[simp] theorem modComp_pending (s : State) (o : Fin 8) (f : Comp → Comp) : (s.modComp o f).pending = s.pending := rfl
@[simp] theorem modComp_img (s : State) (o : Fin 8) (f : Comp → Comp) : (s.modComp o f).img = s.img := rfl
@[simp] theorem modComp_stores (s : State) (o : Fin 8) (f : Comp → Comp) : (s.modComp o f).stores = s.stores := rfl
@[simp] theorem modComp_poison (s : State) (o : Fin 8) (f : Comp → Comp) : (s.modComp o f).poison = s.poison := rfl
@[simp] theorem modComp_flips (s : State) (o : Fin 8) (f : Comp → Comp) : (s.modComp o f).flips = s.flips := rfl
@[simp] theorem modComp_pavs (s : State) (o : Fin 8) (f : Comp → Comp) : (s.modComp o f).pavs = s.pavs := rfl
@[simp] theorem modComp_ports (s : State) (o : Fin 8) (f : Comp → Comp) : (s.modComp o f).ports = s.ports := rfl
@[simp] theorem modComp_flrDone (s : State) (o : Fin 8) (f : Comp → Comp) : (s.modComp o f).flrDone = s.flrDone := rfl
@[simp] theorem modComp_zeroQ (s : State) (o : Fin 8) (f : Comp → Comp) : (s.modComp o f).zeroQ = s.zeroQ := rfl
@[simp] theorem modComp_orphanExts (s : State) (o : Fin 8) (f : Comp → Comp) : (s.modComp o f).orphanExts = s.orphanExts := rfl
@[simp] theorem modComp_slots (s : State) (o : Fin 8) (f : Comp → Comp) : (s.modComp o f).slots = s.slots := rfl
@[simp] theorem modComp_groups (s : State) (o : Fin 8) (f : Comp → Comp) : (s.modComp o f).groups = s.groups := rfl
@[simp] theorem modComp_doneQ (s : State) (o : Fin 8) (f : Comp → Comp) : (s.modComp o f).doneQ = s.doneQ := rfl
@[simp] theorem modComp_groupDefs (s : State) (o : Fin 8) (f : Comp → Comp) : (s.modComp o f).groupDefs = s.groupDefs := rfl
@[simp] theorem modComp_nextId (s : State) (o : Fin 8) (f : Comp → Comp) : (s.modComp o f).nextId = s.nextId := rfl
@[simp] theorem modComp_comps (s : State) (o : Fin 8) (f : Comp → Comp) : (s.modComp o f).comps = upd s.comps o f := rfl
@[simp] theorem modComp_outs (s : State) (o : Fin 8) (f : Comp → Comp) : (s.modComp o f).outs = s.outs := rfl
@[simp] theorem modComp_belvs (s : State) (o : Fin 8) (f : Comp → Comp) : (s.modComp o f).belvs = s.belvs := rfl
@[simp] theorem modComp_ltn (s : State) (o : Fin 8) (f : Comp → Comp) : (s.modComp o f).ltn = s.ltn := rfl
@[simp] theorem modComp_ageSel (s : State) (o : Fin 8) (f : Comp → Comp) : (s.modComp o f).ageSel = s.ageSel := rfl
@[simp] theorem modComp_staleCount (s : State) (o : Fin 8) (f : Comp → Comp) : (s.modComp o f).staleCount = s.staleCount := rfl
@[simp] theorem modComp_jobs (s : State) (o : Fin 8) (f : Comp → Comp) : (s.modComp o f).jobs = s.jobs := rfl
@[simp] theorem modComp_cvus (s : State) (o : Fin 8) (f : Comp → Comp) : (s.modComp o f).cvus = s.cvus := rfl
@[simp] theorem modComp_bports (s : State) (o : Fin 8) (f : Comp → Comp) : (s.modComp o f).bports = s.bports := rfl
@[simp] theorem modComp_entry (s : State) (o : Fin 8) (f : Comp → Comp) : (s.modComp o f).entry = s.entry := rfl
@[simp] theorem modComp_entryTurn (s : State) (o : Fin 8) (f : Comp → Comp) : (s.modComp o f).entryTurn = s.entryTurn := rfl
@[simp] theorem modComp_period (s : State) (o : Fin 8) (f : Comp → Comp) : (s.modComp o f).period = s.period := rfl
@[simp] theorem modComp_evt (s : State) (o : Fin 8) (f : Comp → Comp) : (s.modComp o f).evt = s.evt := rfl
@[simp] theorem modComp_spire (s : State) (o : Fin 8) (f : Comp → Comp) : (s.modComp o f).spire = s.spire := rfl
@[simp] theorem modComp_dmcs (s : State) (o : Fin 8) (f : Comp → Comp) : (s.modComp o f).dmcs = s.dmcs := rfl
@[simp] theorem modComp_dmcg (s : State) (o : Fin 8) (f : Comp → Comp) : (s.modComp o f).dmcg = s.dmcg := rfl
@[simp] theorem modComp_org (s : State) (o : Fin 8) (f : Comp → Comp) : (s.modComp o f).org = s.org := rfl
@[simp] theorem modComp_keep (s : State) (o : Fin 8) (f : Comp → Comp) : (s.modComp o f).keep = s.keep := rfl
@[simp] theorem modComp_dome (s : State) (o : Fin 8) (f : Comp → Comp) : (s.modComp o f).dome = s.dome := rfl
@[simp] theorem modComp_gaz (s : State) (o : Fin 8) (f : Comp → Comp) : (s.modComp o f).gaz = s.gaz := rfl
@[simp] theorem modComp_clk (s : State) (o : Fin 8) (f : Comp → Comp) : (s.modComp o f).clk = s.clk := rfl
@[simp] theorem modComp_pwr (s : State) (o : Fin 8) (f : Comp → Comp) : (s.modComp o f).pwr = s.pwr := rfl
@[simp] theorem modComp_glb (s : State) (o : Fin 8) (f : Comp → Comp) : (s.modComp o f).glb = s.glb := rfl
@[simp] theorem modComp_caps (s : State) (o : Fin 8) (f : Comp → Comp) : (s.modComp o f).caps = s.caps := rfl
@[simp] theorem modComp_ceRaised (s : State) (o : Fin 8) (f : Comp → Comp) : (s.modComp o f).ceRaised = s.ceRaised := rfl
@[simp] theorem modComp_tx (s : State) (o : Fin 8) (f : Comp → Comp) : (s.modComp o f).tx = s.tx := rfl
@[simp] theorem modComp_freeCount (s : State) (o : Fin 8) (f : Comp → Comp) : (s.modComp o f).freeCount = s.freeCount := rfl
@[simp] theorem modComp_arrived (s : State) (o : Fin 8) (f : Comp → Comp) : (s.modComp o f).arrived = s.arrived := rfl

/-! ### `State.modBelv` -/

@[simp] theorem modBelv_pending (s : State) (o : Fin 8) (f : Belv → Belv) : (s.modBelv o f).pending = s.pending := rfl
@[simp] theorem modBelv_img (s : State) (o : Fin 8) (f : Belv → Belv) : (s.modBelv o f).img = s.img := rfl
@[simp] theorem modBelv_stores (s : State) (o : Fin 8) (f : Belv → Belv) : (s.modBelv o f).stores = s.stores := rfl
@[simp] theorem modBelv_poison (s : State) (o : Fin 8) (f : Belv → Belv) : (s.modBelv o f).poison = s.poison := rfl
@[simp] theorem modBelv_flips (s : State) (o : Fin 8) (f : Belv → Belv) : (s.modBelv o f).flips = s.flips := rfl
@[simp] theorem modBelv_pavs (s : State) (o : Fin 8) (f : Belv → Belv) : (s.modBelv o f).pavs = s.pavs := rfl
@[simp] theorem modBelv_ports (s : State) (o : Fin 8) (f : Belv → Belv) : (s.modBelv o f).ports = s.ports := rfl
@[simp] theorem modBelv_flrDone (s : State) (o : Fin 8) (f : Belv → Belv) : (s.modBelv o f).flrDone = s.flrDone := rfl
@[simp] theorem modBelv_zeroQ (s : State) (o : Fin 8) (f : Belv → Belv) : (s.modBelv o f).zeroQ = s.zeroQ := rfl
@[simp] theorem modBelv_orphanExts (s : State) (o : Fin 8) (f : Belv → Belv) : (s.modBelv o f).orphanExts = s.orphanExts := rfl
@[simp] theorem modBelv_slots (s : State) (o : Fin 8) (f : Belv → Belv) : (s.modBelv o f).slots = s.slots := rfl
@[simp] theorem modBelv_groups (s : State) (o : Fin 8) (f : Belv → Belv) : (s.modBelv o f).groups = s.groups := rfl
@[simp] theorem modBelv_doneQ (s : State) (o : Fin 8) (f : Belv → Belv) : (s.modBelv o f).doneQ = s.doneQ := rfl
@[simp] theorem modBelv_groupDefs (s : State) (o : Fin 8) (f : Belv → Belv) : (s.modBelv o f).groupDefs = s.groupDefs := rfl
@[simp] theorem modBelv_nextId (s : State) (o : Fin 8) (f : Belv → Belv) : (s.modBelv o f).nextId = s.nextId := rfl
@[simp] theorem modBelv_comps (s : State) (o : Fin 8) (f : Belv → Belv) : (s.modBelv o f).comps = s.comps := rfl
@[simp] theorem modBelv_outs (s : State) (o : Fin 8) (f : Belv → Belv) : (s.modBelv o f).outs = s.outs := rfl
@[simp] theorem modBelv_belvs (s : State) (o : Fin 8) (f : Belv → Belv) : (s.modBelv o f).belvs = upd s.belvs o f := rfl
@[simp] theorem modBelv_ltn (s : State) (o : Fin 8) (f : Belv → Belv) : (s.modBelv o f).ltn = s.ltn := rfl
@[simp] theorem modBelv_ageSel (s : State) (o : Fin 8) (f : Belv → Belv) : (s.modBelv o f).ageSel = s.ageSel := rfl
@[simp] theorem modBelv_staleCount (s : State) (o : Fin 8) (f : Belv → Belv) : (s.modBelv o f).staleCount = s.staleCount := rfl
@[simp] theorem modBelv_jobs (s : State) (o : Fin 8) (f : Belv → Belv) : (s.modBelv o f).jobs = s.jobs := rfl
@[simp] theorem modBelv_cvus (s : State) (o : Fin 8) (f : Belv → Belv) : (s.modBelv o f).cvus = s.cvus := rfl
@[simp] theorem modBelv_bports (s : State) (o : Fin 8) (f : Belv → Belv) : (s.modBelv o f).bports = s.bports := rfl
@[simp] theorem modBelv_entry (s : State) (o : Fin 8) (f : Belv → Belv) : (s.modBelv o f).entry = s.entry := rfl
@[simp] theorem modBelv_entryTurn (s : State) (o : Fin 8) (f : Belv → Belv) : (s.modBelv o f).entryTurn = s.entryTurn := rfl
@[simp] theorem modBelv_period (s : State) (o : Fin 8) (f : Belv → Belv) : (s.modBelv o f).period = s.period := rfl
@[simp] theorem modBelv_evt (s : State) (o : Fin 8) (f : Belv → Belv) : (s.modBelv o f).evt = s.evt := rfl
@[simp] theorem modBelv_spire (s : State) (o : Fin 8) (f : Belv → Belv) : (s.modBelv o f).spire = s.spire := rfl
@[simp] theorem modBelv_dmcs (s : State) (o : Fin 8) (f : Belv → Belv) : (s.modBelv o f).dmcs = s.dmcs := rfl
@[simp] theorem modBelv_dmcg (s : State) (o : Fin 8) (f : Belv → Belv) : (s.modBelv o f).dmcg = s.dmcg := rfl
@[simp] theorem modBelv_org (s : State) (o : Fin 8) (f : Belv → Belv) : (s.modBelv o f).org = s.org := rfl
@[simp] theorem modBelv_keep (s : State) (o : Fin 8) (f : Belv → Belv) : (s.modBelv o f).keep = s.keep := rfl
@[simp] theorem modBelv_dome (s : State) (o : Fin 8) (f : Belv → Belv) : (s.modBelv o f).dome = s.dome := rfl
@[simp] theorem modBelv_gaz (s : State) (o : Fin 8) (f : Belv → Belv) : (s.modBelv o f).gaz = s.gaz := rfl
@[simp] theorem modBelv_clk (s : State) (o : Fin 8) (f : Belv → Belv) : (s.modBelv o f).clk = s.clk := rfl
@[simp] theorem modBelv_pwr (s : State) (o : Fin 8) (f : Belv → Belv) : (s.modBelv o f).pwr = s.pwr := rfl
@[simp] theorem modBelv_glb (s : State) (o : Fin 8) (f : Belv → Belv) : (s.modBelv o f).glb = s.glb := rfl
@[simp] theorem modBelv_caps (s : State) (o : Fin 8) (f : Belv → Belv) : (s.modBelv o f).caps = s.caps := rfl
@[simp] theorem modBelv_ceRaised (s : State) (o : Fin 8) (f : Belv → Belv) : (s.modBelv o f).ceRaised = s.ceRaised := rfl
@[simp] theorem modBelv_tx (s : State) (o : Fin 8) (f : Belv → Belv) : (s.modBelv o f).tx = s.tx := rfl
@[simp] theorem modBelv_freeCount (s : State) (o : Fin 8) (f : Belv → Belv) : (s.modBelv o f).freeCount = s.freeCount := rfl
@[simp] theorem modBelv_arrived (s : State) (o : Fin 8) (f : Belv → Belv) : (s.modBelv o f).arrived = s.arrived := rfl

/-! ### `State.modCvu` -/

@[simp] theorem modCvu_pending (s : State) (c : Fin 16) (f : Cvu → Cvu) : (s.modCvu c f).pending = s.pending := rfl
@[simp] theorem modCvu_img (s : State) (c : Fin 16) (f : Cvu → Cvu) : (s.modCvu c f).img = s.img := rfl
@[simp] theorem modCvu_stores (s : State) (c : Fin 16) (f : Cvu → Cvu) : (s.modCvu c f).stores = s.stores := rfl
@[simp] theorem modCvu_poison (s : State) (c : Fin 16) (f : Cvu → Cvu) : (s.modCvu c f).poison = s.poison := rfl
@[simp] theorem modCvu_flips (s : State) (c : Fin 16) (f : Cvu → Cvu) : (s.modCvu c f).flips = s.flips := rfl
@[simp] theorem modCvu_pavs (s : State) (c : Fin 16) (f : Cvu → Cvu) : (s.modCvu c f).pavs = s.pavs := rfl
@[simp] theorem modCvu_ports (s : State) (c : Fin 16) (f : Cvu → Cvu) : (s.modCvu c f).ports = s.ports := rfl
@[simp] theorem modCvu_flrDone (s : State) (c : Fin 16) (f : Cvu → Cvu) : (s.modCvu c f).flrDone = s.flrDone := rfl
@[simp] theorem modCvu_zeroQ (s : State) (c : Fin 16) (f : Cvu → Cvu) : (s.modCvu c f).zeroQ = s.zeroQ := rfl
@[simp] theorem modCvu_orphanExts (s : State) (c : Fin 16) (f : Cvu → Cvu) : (s.modCvu c f).orphanExts = s.orphanExts := rfl
@[simp] theorem modCvu_slots (s : State) (c : Fin 16) (f : Cvu → Cvu) : (s.modCvu c f).slots = s.slots := rfl
@[simp] theorem modCvu_groups (s : State) (c : Fin 16) (f : Cvu → Cvu) : (s.modCvu c f).groups = s.groups := rfl
@[simp] theorem modCvu_doneQ (s : State) (c : Fin 16) (f : Cvu → Cvu) : (s.modCvu c f).doneQ = s.doneQ := rfl
@[simp] theorem modCvu_groupDefs (s : State) (c : Fin 16) (f : Cvu → Cvu) : (s.modCvu c f).groupDefs = s.groupDefs := rfl
@[simp] theorem modCvu_nextId (s : State) (c : Fin 16) (f : Cvu → Cvu) : (s.modCvu c f).nextId = s.nextId := rfl
@[simp] theorem modCvu_comps (s : State) (c : Fin 16) (f : Cvu → Cvu) : (s.modCvu c f).comps = s.comps := rfl
@[simp] theorem modCvu_outs (s : State) (c : Fin 16) (f : Cvu → Cvu) : (s.modCvu c f).outs = s.outs := rfl
@[simp] theorem modCvu_belvs (s : State) (c : Fin 16) (f : Cvu → Cvu) : (s.modCvu c f).belvs = s.belvs := rfl
@[simp] theorem modCvu_ltn (s : State) (c : Fin 16) (f : Cvu → Cvu) : (s.modCvu c f).ltn = s.ltn := rfl
@[simp] theorem modCvu_ageSel (s : State) (c : Fin 16) (f : Cvu → Cvu) : (s.modCvu c f).ageSel = s.ageSel := rfl
@[simp] theorem modCvu_staleCount (s : State) (c : Fin 16) (f : Cvu → Cvu) : (s.modCvu c f).staleCount = s.staleCount := rfl
@[simp] theorem modCvu_jobs (s : State) (c : Fin 16) (f : Cvu → Cvu) : (s.modCvu c f).jobs = s.jobs := rfl
@[simp] theorem modCvu_cvus (s : State) (c : Fin 16) (f : Cvu → Cvu) : (s.modCvu c f).cvus = upd s.cvus c f := rfl
@[simp] theorem modCvu_bports (s : State) (c : Fin 16) (f : Cvu → Cvu) : (s.modCvu c f).bports = s.bports := rfl
@[simp] theorem modCvu_entry (s : State) (c : Fin 16) (f : Cvu → Cvu) : (s.modCvu c f).entry = s.entry := rfl
@[simp] theorem modCvu_entryTurn (s : State) (c : Fin 16) (f : Cvu → Cvu) : (s.modCvu c f).entryTurn = s.entryTurn := rfl
@[simp] theorem modCvu_period (s : State) (c : Fin 16) (f : Cvu → Cvu) : (s.modCvu c f).period = s.period := rfl
@[simp] theorem modCvu_evt (s : State) (c : Fin 16) (f : Cvu → Cvu) : (s.modCvu c f).evt = s.evt := rfl
@[simp] theorem modCvu_spire (s : State) (c : Fin 16) (f : Cvu → Cvu) : (s.modCvu c f).spire = s.spire := rfl
@[simp] theorem modCvu_dmcs (s : State) (c : Fin 16) (f : Cvu → Cvu) : (s.modCvu c f).dmcs = s.dmcs := rfl
@[simp] theorem modCvu_dmcg (s : State) (c : Fin 16) (f : Cvu → Cvu) : (s.modCvu c f).dmcg = s.dmcg := rfl
@[simp] theorem modCvu_org (s : State) (c : Fin 16) (f : Cvu → Cvu) : (s.modCvu c f).org = s.org := rfl
@[simp] theorem modCvu_keep (s : State) (c : Fin 16) (f : Cvu → Cvu) : (s.modCvu c f).keep = s.keep := rfl
@[simp] theorem modCvu_dome (s : State) (c : Fin 16) (f : Cvu → Cvu) : (s.modCvu c f).dome = s.dome := rfl
@[simp] theorem modCvu_gaz (s : State) (c : Fin 16) (f : Cvu → Cvu) : (s.modCvu c f).gaz = s.gaz := rfl
@[simp] theorem modCvu_clk (s : State) (c : Fin 16) (f : Cvu → Cvu) : (s.modCvu c f).clk = s.clk := rfl
@[simp] theorem modCvu_pwr (s : State) (c : Fin 16) (f : Cvu → Cvu) : (s.modCvu c f).pwr = s.pwr := rfl
@[simp] theorem modCvu_glb (s : State) (c : Fin 16) (f : Cvu → Cvu) : (s.modCvu c f).glb = s.glb := rfl
@[simp] theorem modCvu_caps (s : State) (c : Fin 16) (f : Cvu → Cvu) : (s.modCvu c f).caps = s.caps := rfl
@[simp] theorem modCvu_ceRaised (s : State) (c : Fin 16) (f : Cvu → Cvu) : (s.modCvu c f).ceRaised = s.ceRaised := rfl
@[simp] theorem modCvu_tx (s : State) (c : Fin 16) (f : Cvu → Cvu) : (s.modCvu c f).tx = s.tx := rfl
@[simp] theorem modCvu_freeCount (s : State) (c : Fin 16) (f : Cvu → Cvu) : (s.modCvu c f).freeCount = s.freeCount := rfl
@[simp] theorem modCvu_arrived (s : State) (c : Fin 16) (f : Cvu → Cvu) : (s.modCvu c f).arrived = s.arrived := rfl

/-! ### `State.modDmc` -/

@[simp] theorem modDmc_pending (s : State) (c : Fin 8) (f : Dmc → Dmc) : (s.modDmc c f).pending = s.pending := rfl
@[simp] theorem modDmc_img (s : State) (c : Fin 8) (f : Dmc → Dmc) : (s.modDmc c f).img = s.img := rfl
@[simp] theorem modDmc_stores (s : State) (c : Fin 8) (f : Dmc → Dmc) : (s.modDmc c f).stores = s.stores := rfl
@[simp] theorem modDmc_poison (s : State) (c : Fin 8) (f : Dmc → Dmc) : (s.modDmc c f).poison = s.poison := rfl
@[simp] theorem modDmc_flips (s : State) (c : Fin 8) (f : Dmc → Dmc) : (s.modDmc c f).flips = s.flips := rfl
@[simp] theorem modDmc_pavs (s : State) (c : Fin 8) (f : Dmc → Dmc) : (s.modDmc c f).pavs = s.pavs := rfl
@[simp] theorem modDmc_ports (s : State) (c : Fin 8) (f : Dmc → Dmc) : (s.modDmc c f).ports = s.ports := rfl
@[simp] theorem modDmc_flrDone (s : State) (c : Fin 8) (f : Dmc → Dmc) : (s.modDmc c f).flrDone = s.flrDone := rfl
@[simp] theorem modDmc_zeroQ (s : State) (c : Fin 8) (f : Dmc → Dmc) : (s.modDmc c f).zeroQ = s.zeroQ := rfl
@[simp] theorem modDmc_orphanExts (s : State) (c : Fin 8) (f : Dmc → Dmc) : (s.modDmc c f).orphanExts = s.orphanExts := rfl
@[simp] theorem modDmc_slots (s : State) (c : Fin 8) (f : Dmc → Dmc) : (s.modDmc c f).slots = s.slots := rfl
@[simp] theorem modDmc_groups (s : State) (c : Fin 8) (f : Dmc → Dmc) : (s.modDmc c f).groups = s.groups := rfl
@[simp] theorem modDmc_doneQ (s : State) (c : Fin 8) (f : Dmc → Dmc) : (s.modDmc c f).doneQ = s.doneQ := rfl
@[simp] theorem modDmc_groupDefs (s : State) (c : Fin 8) (f : Dmc → Dmc) : (s.modDmc c f).groupDefs = s.groupDefs := rfl
@[simp] theorem modDmc_nextId (s : State) (c : Fin 8) (f : Dmc → Dmc) : (s.modDmc c f).nextId = s.nextId := rfl
@[simp] theorem modDmc_comps (s : State) (c : Fin 8) (f : Dmc → Dmc) : (s.modDmc c f).comps = s.comps := rfl
@[simp] theorem modDmc_outs (s : State) (c : Fin 8) (f : Dmc → Dmc) : (s.modDmc c f).outs = s.outs := rfl
@[simp] theorem modDmc_belvs (s : State) (c : Fin 8) (f : Dmc → Dmc) : (s.modDmc c f).belvs = s.belvs := rfl
@[simp] theorem modDmc_ltn (s : State) (c : Fin 8) (f : Dmc → Dmc) : (s.modDmc c f).ltn = s.ltn := rfl
@[simp] theorem modDmc_ageSel (s : State) (c : Fin 8) (f : Dmc → Dmc) : (s.modDmc c f).ageSel = s.ageSel := rfl
@[simp] theorem modDmc_staleCount (s : State) (c : Fin 8) (f : Dmc → Dmc) : (s.modDmc c f).staleCount = s.staleCount := rfl
@[simp] theorem modDmc_jobs (s : State) (c : Fin 8) (f : Dmc → Dmc) : (s.modDmc c f).jobs = s.jobs := rfl
@[simp] theorem modDmc_cvus (s : State) (c : Fin 8) (f : Dmc → Dmc) : (s.modDmc c f).cvus = s.cvus := rfl
@[simp] theorem modDmc_bports (s : State) (c : Fin 8) (f : Dmc → Dmc) : (s.modDmc c f).bports = s.bports := rfl
@[simp] theorem modDmc_entry (s : State) (c : Fin 8) (f : Dmc → Dmc) : (s.modDmc c f).entry = s.entry := rfl
@[simp] theorem modDmc_entryTurn (s : State) (c : Fin 8) (f : Dmc → Dmc) : (s.modDmc c f).entryTurn = s.entryTurn := rfl
@[simp] theorem modDmc_period (s : State) (c : Fin 8) (f : Dmc → Dmc) : (s.modDmc c f).period = s.period := rfl
@[simp] theorem modDmc_evt (s : State) (c : Fin 8) (f : Dmc → Dmc) : (s.modDmc c f).evt = s.evt := rfl
@[simp] theorem modDmc_spire (s : State) (c : Fin 8) (f : Dmc → Dmc) : (s.modDmc c f).spire = s.spire := rfl
@[simp] theorem modDmc_dmcs (s : State) (c : Fin 8) (f : Dmc → Dmc) : (s.modDmc c f).dmcs = upd s.dmcs c f := rfl
@[simp] theorem modDmc_dmcg (s : State) (c : Fin 8) (f : Dmc → Dmc) : (s.modDmc c f).dmcg = s.dmcg := rfl
@[simp] theorem modDmc_org (s : State) (c : Fin 8) (f : Dmc → Dmc) : (s.modDmc c f).org = s.org := rfl
@[simp] theorem modDmc_keep (s : State) (c : Fin 8) (f : Dmc → Dmc) : (s.modDmc c f).keep = s.keep := rfl
@[simp] theorem modDmc_dome (s : State) (c : Fin 8) (f : Dmc → Dmc) : (s.modDmc c f).dome = s.dome := rfl
@[simp] theorem modDmc_gaz (s : State) (c : Fin 8) (f : Dmc → Dmc) : (s.modDmc c f).gaz = s.gaz := rfl
@[simp] theorem modDmc_clk (s : State) (c : Fin 8) (f : Dmc → Dmc) : (s.modDmc c f).clk = s.clk := rfl
@[simp] theorem modDmc_pwr (s : State) (c : Fin 8) (f : Dmc → Dmc) : (s.modDmc c f).pwr = s.pwr := rfl
@[simp] theorem modDmc_glb (s : State) (c : Fin 8) (f : Dmc → Dmc) : (s.modDmc c f).glb = s.glb := rfl
@[simp] theorem modDmc_caps (s : State) (c : Fin 8) (f : Dmc → Dmc) : (s.modDmc c f).caps = s.caps := rfl
@[simp] theorem modDmc_ceRaised (s : State) (c : Fin 8) (f : Dmc → Dmc) : (s.modDmc c f).ceRaised = s.ceRaised := rfl
@[simp] theorem modDmc_tx (s : State) (c : Fin 8) (f : Dmc → Dmc) : (s.modDmc c f).tx = s.tx := rfl
@[simp] theorem modDmc_freeCount (s : State) (c : Fin 8) (f : Dmc → Dmc) : (s.modDmc c f).freeCount = s.freeCount := rfl
@[simp] theorem modDmc_arrived (s : State) (c : Fin 8) (f : Dmc → Dmc) : (s.modDmc c f).arrived = s.arrived := rfl

/-! ### `State.modBport` -/

@[simp] theorem modBport_pending (s : State) (q : Fin 83) (f : BPort → BPort) : (s.modBport q f).pending = s.pending := rfl
@[simp] theorem modBport_img (s : State) (q : Fin 83) (f : BPort → BPort) : (s.modBport q f).img = s.img := rfl
@[simp] theorem modBport_stores (s : State) (q : Fin 83) (f : BPort → BPort) : (s.modBport q f).stores = s.stores := rfl
@[simp] theorem modBport_poison (s : State) (q : Fin 83) (f : BPort → BPort) : (s.modBport q f).poison = s.poison := rfl
@[simp] theorem modBport_flips (s : State) (q : Fin 83) (f : BPort → BPort) : (s.modBport q f).flips = s.flips := rfl
@[simp] theorem modBport_pavs (s : State) (q : Fin 83) (f : BPort → BPort) : (s.modBport q f).pavs = s.pavs := rfl
@[simp] theorem modBport_ports (s : State) (q : Fin 83) (f : BPort → BPort) : (s.modBport q f).ports = s.ports := rfl
@[simp] theorem modBport_flrDone (s : State) (q : Fin 83) (f : BPort → BPort) : (s.modBport q f).flrDone = s.flrDone := rfl
@[simp] theorem modBport_zeroQ (s : State) (q : Fin 83) (f : BPort → BPort) : (s.modBport q f).zeroQ = s.zeroQ := rfl
@[simp] theorem modBport_orphanExts (s : State) (q : Fin 83) (f : BPort → BPort) : (s.modBport q f).orphanExts = s.orphanExts := rfl
@[simp] theorem modBport_slots (s : State) (q : Fin 83) (f : BPort → BPort) : (s.modBport q f).slots = s.slots := rfl
@[simp] theorem modBport_groups (s : State) (q : Fin 83) (f : BPort → BPort) : (s.modBport q f).groups = s.groups := rfl
@[simp] theorem modBport_doneQ (s : State) (q : Fin 83) (f : BPort → BPort) : (s.modBport q f).doneQ = s.doneQ := rfl
@[simp] theorem modBport_groupDefs (s : State) (q : Fin 83) (f : BPort → BPort) : (s.modBport q f).groupDefs = s.groupDefs := rfl
@[simp] theorem modBport_nextId (s : State) (q : Fin 83) (f : BPort → BPort) : (s.modBport q f).nextId = s.nextId := rfl
@[simp] theorem modBport_comps (s : State) (q : Fin 83) (f : BPort → BPort) : (s.modBport q f).comps = s.comps := rfl
@[simp] theorem modBport_outs (s : State) (q : Fin 83) (f : BPort → BPort) : (s.modBport q f).outs = s.outs := rfl
@[simp] theorem modBport_belvs (s : State) (q : Fin 83) (f : BPort → BPort) : (s.modBport q f).belvs = s.belvs := rfl
@[simp] theorem modBport_ltn (s : State) (q : Fin 83) (f : BPort → BPort) : (s.modBport q f).ltn = s.ltn := rfl
@[simp] theorem modBport_ageSel (s : State) (q : Fin 83) (f : BPort → BPort) : (s.modBport q f).ageSel = s.ageSel := rfl
@[simp] theorem modBport_staleCount (s : State) (q : Fin 83) (f : BPort → BPort) : (s.modBport q f).staleCount = s.staleCount := rfl
@[simp] theorem modBport_jobs (s : State) (q : Fin 83) (f : BPort → BPort) : (s.modBport q f).jobs = s.jobs := rfl
@[simp] theorem modBport_cvus (s : State) (q : Fin 83) (f : BPort → BPort) : (s.modBport q f).cvus = s.cvus := rfl
@[simp] theorem modBport_bports (s : State) (q : Fin 83) (f : BPort → BPort) : (s.modBport q f).bports = upd s.bports q f := rfl
@[simp] theorem modBport_entry (s : State) (q : Fin 83) (f : BPort → BPort) : (s.modBport q f).entry = s.entry := rfl
@[simp] theorem modBport_entryTurn (s : State) (q : Fin 83) (f : BPort → BPort) : (s.modBport q f).entryTurn = s.entryTurn := rfl
@[simp] theorem modBport_period (s : State) (q : Fin 83) (f : BPort → BPort) : (s.modBport q f).period = s.period := rfl
@[simp] theorem modBport_evt (s : State) (q : Fin 83) (f : BPort → BPort) : (s.modBport q f).evt = s.evt := rfl
@[simp] theorem modBport_spire (s : State) (q : Fin 83) (f : BPort → BPort) : (s.modBport q f).spire = s.spire := rfl
@[simp] theorem modBport_dmcs (s : State) (q : Fin 83) (f : BPort → BPort) : (s.modBport q f).dmcs = s.dmcs := rfl
@[simp] theorem modBport_dmcg (s : State) (q : Fin 83) (f : BPort → BPort) : (s.modBport q f).dmcg = s.dmcg := rfl
@[simp] theorem modBport_org (s : State) (q : Fin 83) (f : BPort → BPort) : (s.modBport q f).org = s.org := rfl
@[simp] theorem modBport_keep (s : State) (q : Fin 83) (f : BPort → BPort) : (s.modBport q f).keep = s.keep := rfl
@[simp] theorem modBport_dome (s : State) (q : Fin 83) (f : BPort → BPort) : (s.modBport q f).dome = s.dome := rfl
@[simp] theorem modBport_gaz (s : State) (q : Fin 83) (f : BPort → BPort) : (s.modBport q f).gaz = s.gaz := rfl
@[simp] theorem modBport_clk (s : State) (q : Fin 83) (f : BPort → BPort) : (s.modBport q f).clk = s.clk := rfl
@[simp] theorem modBport_pwr (s : State) (q : Fin 83) (f : BPort → BPort) : (s.modBport q f).pwr = s.pwr := rfl
@[simp] theorem modBport_glb (s : State) (q : Fin 83) (f : BPort → BPort) : (s.modBport q f).glb = s.glb := rfl
@[simp] theorem modBport_caps (s : State) (q : Fin 83) (f : BPort → BPort) : (s.modBport q f).caps = s.caps := rfl
@[simp] theorem modBport_ceRaised (s : State) (q : Fin 83) (f : BPort → BPort) : (s.modBport q f).ceRaised = s.ceRaised := rfl
@[simp] theorem modBport_tx (s : State) (q : Fin 83) (f : BPort → BPort) : (s.modBport q f).tx = s.tx := rfl
@[simp] theorem modBport_freeCount (s : State) (q : Fin 83) (f : BPort → BPort) : (s.modBport q f).freeCount = s.freeCount := rfl
@[simp] theorem modBport_arrived (s : State) (q : Fin 83) (f : BPort → BPort) : (s.modBport q f).arrived = s.arrived := rfl

/-! ### `State.modLink` -/

@[simp] theorem modLink_pending (s : State) (l : Fin 12) (f : Link → Link) : (s.modLink l f).pending = s.pending := rfl
@[simp] theorem modLink_img (s : State) (l : Fin 12) (f : Link → Link) : (s.modLink l f).img = s.img := rfl
@[simp] theorem modLink_stores (s : State) (l : Fin 12) (f : Link → Link) : (s.modLink l f).stores = s.stores := rfl
@[simp] theorem modLink_poison (s : State) (l : Fin 12) (f : Link → Link) : (s.modLink l f).poison = s.poison := rfl
@[simp] theorem modLink_flips (s : State) (l : Fin 12) (f : Link → Link) : (s.modLink l f).flips = s.flips := rfl
@[simp] theorem modLink_pavs (s : State) (l : Fin 12) (f : Link → Link) : (s.modLink l f).pavs = s.pavs := rfl
@[simp] theorem modLink_ports (s : State) (l : Fin 12) (f : Link → Link) : (s.modLink l f).ports = s.ports := rfl
@[simp] theorem modLink_flrDone (s : State) (l : Fin 12) (f : Link → Link) : (s.modLink l f).flrDone = s.flrDone := rfl
@[simp] theorem modLink_zeroQ (s : State) (l : Fin 12) (f : Link → Link) : (s.modLink l f).zeroQ = s.zeroQ := rfl
@[simp] theorem modLink_orphanExts (s : State) (l : Fin 12) (f : Link → Link) : (s.modLink l f).orphanExts = s.orphanExts := rfl
@[simp] theorem modLink_slots (s : State) (l : Fin 12) (f : Link → Link) : (s.modLink l f).slots = s.slots := rfl
@[simp] theorem modLink_groups (s : State) (l : Fin 12) (f : Link → Link) : (s.modLink l f).groups = s.groups := rfl
@[simp] theorem modLink_doneQ (s : State) (l : Fin 12) (f : Link → Link) : (s.modLink l f).doneQ = s.doneQ := rfl
@[simp] theorem modLink_groupDefs (s : State) (l : Fin 12) (f : Link → Link) : (s.modLink l f).groupDefs = s.groupDefs := rfl
@[simp] theorem modLink_nextId (s : State) (l : Fin 12) (f : Link → Link) : (s.modLink l f).nextId = s.nextId := rfl
@[simp] theorem modLink_comps (s : State) (l : Fin 12) (f : Link → Link) : (s.modLink l f).comps = s.comps := rfl
@[simp] theorem modLink_outs (s : State) (l : Fin 12) (f : Link → Link) : (s.modLink l f).outs = s.outs := rfl
@[simp] theorem modLink_belvs (s : State) (l : Fin 12) (f : Link → Link) : (s.modLink l f).belvs = s.belvs := rfl
@[simp] theorem modLink_ltn (s : State) (l : Fin 12) (f : Link → Link) : (s.modLink l f).ltn = s.ltn := rfl
@[simp] theorem modLink_ageSel (s : State) (l : Fin 12) (f : Link → Link) : (s.modLink l f).ageSel = s.ageSel := rfl
@[simp] theorem modLink_staleCount (s : State) (l : Fin 12) (f : Link → Link) : (s.modLink l f).staleCount = s.staleCount := rfl
@[simp] theorem modLink_jobs (s : State) (l : Fin 12) (f : Link → Link) : (s.modLink l f).jobs = s.jobs := rfl
@[simp] theorem modLink_cvus (s : State) (l : Fin 12) (f : Link → Link) : (s.modLink l f).cvus = s.cvus := rfl
@[simp] theorem modLink_bports (s : State) (l : Fin 12) (f : Link → Link) : (s.modLink l f).bports = s.bports := rfl
@[simp] theorem modLink_entry (s : State) (l : Fin 12) (f : Link → Link) : (s.modLink l f).entry = s.entry := rfl
@[simp] theorem modLink_entryTurn (s : State) (l : Fin 12) (f : Link → Link) : (s.modLink l f).entryTurn = s.entryTurn := rfl
@[simp] theorem modLink_period (s : State) (l : Fin 12) (f : Link → Link) : (s.modLink l f).period = s.period := rfl
@[simp] theorem modLink_evt (s : State) (l : Fin 12) (f : Link → Link) : (s.modLink l f).evt = s.evt := rfl
@[simp] theorem modLink_spire (s : State) (l : Fin 12) (f : Link → Link) : (s.modLink l f).spire = { s.spire with links := upd s.spire.links l f } := rfl
@[simp] theorem modLink_dmcs (s : State) (l : Fin 12) (f : Link → Link) : (s.modLink l f).dmcs = s.dmcs := rfl
@[simp] theorem modLink_dmcg (s : State) (l : Fin 12) (f : Link → Link) : (s.modLink l f).dmcg = s.dmcg := rfl
@[simp] theorem modLink_org (s : State) (l : Fin 12) (f : Link → Link) : (s.modLink l f).org = s.org := rfl
@[simp] theorem modLink_keep (s : State) (l : Fin 12) (f : Link → Link) : (s.modLink l f).keep = s.keep := rfl
@[simp] theorem modLink_dome (s : State) (l : Fin 12) (f : Link → Link) : (s.modLink l f).dome = s.dome := rfl
@[simp] theorem modLink_gaz (s : State) (l : Fin 12) (f : Link → Link) : (s.modLink l f).gaz = s.gaz := rfl
@[simp] theorem modLink_clk (s : State) (l : Fin 12) (f : Link → Link) : (s.modLink l f).clk = s.clk := rfl
@[simp] theorem modLink_pwr (s : State) (l : Fin 12) (f : Link → Link) : (s.modLink l f).pwr = s.pwr := rfl
@[simp] theorem modLink_glb (s : State) (l : Fin 12) (f : Link → Link) : (s.modLink l f).glb = s.glb := rfl
@[simp] theorem modLink_caps (s : State) (l : Fin 12) (f : Link → Link) : (s.modLink l f).caps = s.caps := rfl
@[simp] theorem modLink_ceRaised (s : State) (l : Fin 12) (f : Link → Link) : (s.modLink l f).ceRaised = s.ceRaised := rfl
@[simp] theorem modLink_tx (s : State) (l : Fin 12) (f : Link → Link) : (s.modLink l f).tx = s.tx := rfl
@[simp] theorem modLink_freeCount (s : State) (l : Fin 12) (f : Link → Link) : (s.modLink l f).freeCount = s.freeCount := rfl
@[simp] theorem modLink_arrived (s : State) (l : Fin 12) (f : Link → Link) : (s.modLink l f).arrived = s.arrived := rfl

/-! ### `State.modCtl` -/

@[simp] theorem modCtl_pending (s : State) (c : Fin 32) (f : Control → Control) : (s.modCtl c f).pending = s.pending := rfl
@[simp] theorem modCtl_img (s : State) (c : Fin 32) (f : Control → Control) : (s.modCtl c f).img = s.img := rfl
@[simp] theorem modCtl_stores (s : State) (c : Fin 32) (f : Control → Control) : (s.modCtl c f).stores = s.stores := rfl
@[simp] theorem modCtl_poison (s : State) (c : Fin 32) (f : Control → Control) : (s.modCtl c f).poison = s.poison := rfl
@[simp] theorem modCtl_flips (s : State) (c : Fin 32) (f : Control → Control) : (s.modCtl c f).flips = s.flips := rfl
@[simp] theorem modCtl_pavs (s : State) (c : Fin 32) (f : Control → Control) : (s.modCtl c f).pavs = s.pavs := rfl
@[simp] theorem modCtl_ports (s : State) (c : Fin 32) (f : Control → Control) : (s.modCtl c f).ports = s.ports := rfl
@[simp] theorem modCtl_flrDone (s : State) (c : Fin 32) (f : Control → Control) : (s.modCtl c f).flrDone = s.flrDone := rfl
@[simp] theorem modCtl_zeroQ (s : State) (c : Fin 32) (f : Control → Control) : (s.modCtl c f).zeroQ = s.zeroQ := rfl
@[simp] theorem modCtl_orphanExts (s : State) (c : Fin 32) (f : Control → Control) : (s.modCtl c f).orphanExts = s.orphanExts := rfl
@[simp] theorem modCtl_slots (s : State) (c : Fin 32) (f : Control → Control) : (s.modCtl c f).slots = s.slots := rfl
@[simp] theorem modCtl_groups (s : State) (c : Fin 32) (f : Control → Control) : (s.modCtl c f).groups = s.groups := rfl
@[simp] theorem modCtl_doneQ (s : State) (c : Fin 32) (f : Control → Control) : (s.modCtl c f).doneQ = s.doneQ := rfl
@[simp] theorem modCtl_groupDefs (s : State) (c : Fin 32) (f : Control → Control) : (s.modCtl c f).groupDefs = s.groupDefs := rfl
@[simp] theorem modCtl_nextId (s : State) (c : Fin 32) (f : Control → Control) : (s.modCtl c f).nextId = s.nextId := rfl
@[simp] theorem modCtl_comps (s : State) (c : Fin 32) (f : Control → Control) : (s.modCtl c f).comps = s.comps := rfl
@[simp] theorem modCtl_outs (s : State) (c : Fin 32) (f : Control → Control) : (s.modCtl c f).outs = s.outs := rfl
@[simp] theorem modCtl_belvs (s : State) (c : Fin 32) (f : Control → Control) : (s.modCtl c f).belvs = s.belvs := rfl
@[simp] theorem modCtl_ltn (s : State) (c : Fin 32) (f : Control → Control) : (s.modCtl c f).ltn = s.ltn := rfl
@[simp] theorem modCtl_ageSel (s : State) (c : Fin 32) (f : Control → Control) : (s.modCtl c f).ageSel = s.ageSel := rfl
@[simp] theorem modCtl_staleCount (s : State) (c : Fin 32) (f : Control → Control) : (s.modCtl c f).staleCount = s.staleCount := rfl
@[simp] theorem modCtl_jobs (s : State) (c : Fin 32) (f : Control → Control) : (s.modCtl c f).jobs = s.jobs := rfl
@[simp] theorem modCtl_cvus (s : State) (c : Fin 32) (f : Control → Control) : (s.modCtl c f).cvus = s.cvus := rfl
@[simp] theorem modCtl_bports (s : State) (c : Fin 32) (f : Control → Control) : (s.modCtl c f).bports = s.bports := rfl
@[simp] theorem modCtl_entry (s : State) (c : Fin 32) (f : Control → Control) : (s.modCtl c f).entry = s.entry := rfl
@[simp] theorem modCtl_entryTurn (s : State) (c : Fin 32) (f : Control → Control) : (s.modCtl c f).entryTurn = s.entryTurn := rfl
@[simp] theorem modCtl_period (s : State) (c : Fin 32) (f : Control → Control) : (s.modCtl c f).period = s.period := rfl
@[simp] theorem modCtl_evt (s : State) (c : Fin 32) (f : Control → Control) : (s.modCtl c f).evt = s.evt := rfl
@[simp] theorem modCtl_spire (s : State) (c : Fin 32) (f : Control → Control) : (s.modCtl c f).spire = s.spire := rfl
@[simp] theorem modCtl_dmcs (s : State) (c : Fin 32) (f : Control → Control) : (s.modCtl c f).dmcs = s.dmcs := rfl
@[simp] theorem modCtl_dmcg (s : State) (c : Fin 32) (f : Control → Control) : (s.modCtl c f).dmcg = s.dmcg := rfl
@[simp] theorem modCtl_org (s : State) (c : Fin 32) (f : Control → Control) : (s.modCtl c f).org = s.org := rfl
@[simp] theorem modCtl_keep (s : State) (c : Fin 32) (f : Control → Control) : (s.modCtl c f).keep = s.keep := rfl
@[simp] theorem modCtl_dome (s : State) (c : Fin 32) (f : Control → Control) : (s.modCtl c f).dome = s.dome := rfl
@[simp] theorem modCtl_gaz (s : State) (c : Fin 32) (f : Control → Control) : (s.modCtl c f).gaz = { s.gaz with controls := upd s.gaz.controls c f } := rfl
@[simp] theorem modCtl_clk (s : State) (c : Fin 32) (f : Control → Control) : (s.modCtl c f).clk = s.clk := rfl
@[simp] theorem modCtl_pwr (s : State) (c : Fin 32) (f : Control → Control) : (s.modCtl c f).pwr = s.pwr := rfl
@[simp] theorem modCtl_glb (s : State) (c : Fin 32) (f : Control → Control) : (s.modCtl c f).glb = s.glb := rfl
@[simp] theorem modCtl_caps (s : State) (c : Fin 32) (f : Control → Control) : (s.modCtl c f).caps = s.caps := rfl
@[simp] theorem modCtl_ceRaised (s : State) (c : Fin 32) (f : Control → Control) : (s.modCtl c f).ceRaised = s.ceRaised := rfl
@[simp] theorem modCtl_tx (s : State) (c : Fin 32) (f : Control → Control) : (s.modCtl c f).tx = s.tx := rfl
@[simp] theorem modCtl_freeCount (s : State) (c : Fin 32) (f : Control → Control) : (s.modCtl c f).freeCount = s.freeCount := rfl
@[simp] theorem modCtl_arrived (s : State) (c : Fin 32) (f : Control → Control) : (s.modCtl c f).arrived = s.arrived := rfl

/-! ### `State.modHap` -/

@[simp] theorem modHap_pending (s : State) (h : Fin 16) (f : Hap → Hap) : (s.modHap h f).pending = s.pending := rfl
@[simp] theorem modHap_img (s : State) (h : Fin 16) (f : Hap → Hap) : (s.modHap h f).img = s.img := rfl
@[simp] theorem modHap_stores (s : State) (h : Fin 16) (f : Hap → Hap) : (s.modHap h f).stores = s.stores := rfl
@[simp] theorem modHap_poison (s : State) (h : Fin 16) (f : Hap → Hap) : (s.modHap h f).poison = s.poison := rfl
@[simp] theorem modHap_flips (s : State) (h : Fin 16) (f : Hap → Hap) : (s.modHap h f).flips = s.flips := rfl
@[simp] theorem modHap_pavs (s : State) (h : Fin 16) (f : Hap → Hap) : (s.modHap h f).pavs = s.pavs := rfl
@[simp] theorem modHap_ports (s : State) (h : Fin 16) (f : Hap → Hap) : (s.modHap h f).ports = s.ports := rfl
@[simp] theorem modHap_flrDone (s : State) (h : Fin 16) (f : Hap → Hap) : (s.modHap h f).flrDone = s.flrDone := rfl
@[simp] theorem modHap_zeroQ (s : State) (h : Fin 16) (f : Hap → Hap) : (s.modHap h f).zeroQ = s.zeroQ := rfl
@[simp] theorem modHap_orphanExts (s : State) (h : Fin 16) (f : Hap → Hap) : (s.modHap h f).orphanExts = s.orphanExts := rfl
@[simp] theorem modHap_slots (s : State) (h : Fin 16) (f : Hap → Hap) : (s.modHap h f).slots = s.slots := rfl
@[simp] theorem modHap_groups (s : State) (h : Fin 16) (f : Hap → Hap) : (s.modHap h f).groups = s.groups := rfl
@[simp] theorem modHap_doneQ (s : State) (h : Fin 16) (f : Hap → Hap) : (s.modHap h f).doneQ = s.doneQ := rfl
@[simp] theorem modHap_groupDefs (s : State) (h : Fin 16) (f : Hap → Hap) : (s.modHap h f).groupDefs = s.groupDefs := rfl
@[simp] theorem modHap_nextId (s : State) (h : Fin 16) (f : Hap → Hap) : (s.modHap h f).nextId = s.nextId := rfl
@[simp] theorem modHap_comps (s : State) (h : Fin 16) (f : Hap → Hap) : (s.modHap h f).comps = s.comps := rfl
@[simp] theorem modHap_outs (s : State) (h : Fin 16) (f : Hap → Hap) : (s.modHap h f).outs = s.outs := rfl
@[simp] theorem modHap_belvs (s : State) (h : Fin 16) (f : Hap → Hap) : (s.modHap h f).belvs = s.belvs := rfl
@[simp] theorem modHap_ltn (s : State) (h : Fin 16) (f : Hap → Hap) : (s.modHap h f).ltn = s.ltn := rfl
@[simp] theorem modHap_ageSel (s : State) (h : Fin 16) (f : Hap → Hap) : (s.modHap h f).ageSel = s.ageSel := rfl
@[simp] theorem modHap_staleCount (s : State) (h : Fin 16) (f : Hap → Hap) : (s.modHap h f).staleCount = s.staleCount := rfl
@[simp] theorem modHap_jobs (s : State) (h : Fin 16) (f : Hap → Hap) : (s.modHap h f).jobs = s.jobs := rfl
@[simp] theorem modHap_cvus (s : State) (h : Fin 16) (f : Hap → Hap) : (s.modHap h f).cvus = s.cvus := rfl
@[simp] theorem modHap_bports (s : State) (h : Fin 16) (f : Hap → Hap) : (s.modHap h f).bports = s.bports := rfl
@[simp] theorem modHap_entry (s : State) (h : Fin 16) (f : Hap → Hap) : (s.modHap h f).entry = s.entry := rfl
@[simp] theorem modHap_entryTurn (s : State) (h : Fin 16) (f : Hap → Hap) : (s.modHap h f).entryTurn = s.entryTurn := rfl
@[simp] theorem modHap_period (s : State) (h : Fin 16) (f : Hap → Hap) : (s.modHap h f).period = s.period := rfl
@[simp] theorem modHap_evt (s : State) (h : Fin 16) (f : Hap → Hap) : (s.modHap h f).evt = s.evt := rfl
@[simp] theorem modHap_spire (s : State) (h : Fin 16) (f : Hap → Hap) : (s.modHap h f).spire = s.spire := rfl
@[simp] theorem modHap_dmcs (s : State) (h : Fin 16) (f : Hap → Hap) : (s.modHap h f).dmcs = s.dmcs := rfl
@[simp] theorem modHap_dmcg (s : State) (h : Fin 16) (f : Hap → Hap) : (s.modHap h f).dmcg = s.dmcg := rfl
@[simp] theorem modHap_org (s : State) (h : Fin 16) (f : Hap → Hap) : (s.modHap h f).org = s.org := rfl
@[simp] theorem modHap_keep (s : State) (h : Fin 16) (f : Hap → Hap) : (s.modHap h f).keep = s.keep := rfl
@[simp] theorem modHap_dome (s : State) (h : Fin 16) (f : Hap → Hap) : (s.modHap h f).dome = s.dome := rfl
@[simp] theorem modHap_gaz (s : State) (h : Fin 16) (f : Hap → Hap) : (s.modHap h f).gaz = { s.gaz with haps := upd s.gaz.haps h f } := rfl
@[simp] theorem modHap_clk (s : State) (h : Fin 16) (f : Hap → Hap) : (s.modHap h f).clk = s.clk := rfl
@[simp] theorem modHap_pwr (s : State) (h : Fin 16) (f : Hap → Hap) : (s.modHap h f).pwr = s.pwr := rfl
@[simp] theorem modHap_glb (s : State) (h : Fin 16) (f : Hap → Hap) : (s.modHap h f).glb = s.glb := rfl
@[simp] theorem modHap_caps (s : State) (h : Fin 16) (f : Hap → Hap) : (s.modHap h f).caps = s.caps := rfl
@[simp] theorem modHap_ceRaised (s : State) (h : Fin 16) (f : Hap → Hap) : (s.modHap h f).ceRaised = s.ceRaised := rfl
@[simp] theorem modHap_tx (s : State) (h : Fin 16) (f : Hap → Hap) : (s.modHap h f).tx = s.tx := rfl
@[simp] theorem modHap_freeCount (s : State) (h : Fin 16) (f : Hap → Hap) : (s.modHap h f).freeCount = s.freeCount := rfl
@[simp] theorem modHap_arrived (s : State) (h : Fin 16) (f : Hap → Hap) : (s.modHap h f).arrived = s.arrived := rfl

/-! ### `State.modVoice` -/

@[simp] theorem modVoice_pending (s : State) (v : Fin 16) (f : Voice → Voice) : (s.modVoice v f).pending = s.pending := rfl
@[simp] theorem modVoice_img (s : State) (v : Fin 16) (f : Voice → Voice) : (s.modVoice v f).img = s.img := rfl
@[simp] theorem modVoice_stores (s : State) (v : Fin 16) (f : Voice → Voice) : (s.modVoice v f).stores = s.stores := rfl
@[simp] theorem modVoice_poison (s : State) (v : Fin 16) (f : Voice → Voice) : (s.modVoice v f).poison = s.poison := rfl
@[simp] theorem modVoice_flips (s : State) (v : Fin 16) (f : Voice → Voice) : (s.modVoice v f).flips = s.flips := rfl
@[simp] theorem modVoice_pavs (s : State) (v : Fin 16) (f : Voice → Voice) : (s.modVoice v f).pavs = s.pavs := rfl
@[simp] theorem modVoice_ports (s : State) (v : Fin 16) (f : Voice → Voice) : (s.modVoice v f).ports = s.ports := rfl
@[simp] theorem modVoice_flrDone (s : State) (v : Fin 16) (f : Voice → Voice) : (s.modVoice v f).flrDone = s.flrDone := rfl
@[simp] theorem modVoice_zeroQ (s : State) (v : Fin 16) (f : Voice → Voice) : (s.modVoice v f).zeroQ = s.zeroQ := rfl
@[simp] theorem modVoice_orphanExts (s : State) (v : Fin 16) (f : Voice → Voice) : (s.modVoice v f).orphanExts = s.orphanExts := rfl
@[simp] theorem modVoice_slots (s : State) (v : Fin 16) (f : Voice → Voice) : (s.modVoice v f).slots = s.slots := rfl
@[simp] theorem modVoice_groups (s : State) (v : Fin 16) (f : Voice → Voice) : (s.modVoice v f).groups = s.groups := rfl
@[simp] theorem modVoice_doneQ (s : State) (v : Fin 16) (f : Voice → Voice) : (s.modVoice v f).doneQ = s.doneQ := rfl
@[simp] theorem modVoice_groupDefs (s : State) (v : Fin 16) (f : Voice → Voice) : (s.modVoice v f).groupDefs = s.groupDefs := rfl
@[simp] theorem modVoice_nextId (s : State) (v : Fin 16) (f : Voice → Voice) : (s.modVoice v f).nextId = s.nextId := rfl
@[simp] theorem modVoice_comps (s : State) (v : Fin 16) (f : Voice → Voice) : (s.modVoice v f).comps = s.comps := rfl
@[simp] theorem modVoice_outs (s : State) (v : Fin 16) (f : Voice → Voice) : (s.modVoice v f).outs = s.outs := rfl
@[simp] theorem modVoice_belvs (s : State) (v : Fin 16) (f : Voice → Voice) : (s.modVoice v f).belvs = s.belvs := rfl
@[simp] theorem modVoice_ltn (s : State) (v : Fin 16) (f : Voice → Voice) : (s.modVoice v f).ltn = s.ltn := rfl
@[simp] theorem modVoice_ageSel (s : State) (v : Fin 16) (f : Voice → Voice) : (s.modVoice v f).ageSel = s.ageSel := rfl
@[simp] theorem modVoice_staleCount (s : State) (v : Fin 16) (f : Voice → Voice) : (s.modVoice v f).staleCount = s.staleCount := rfl
@[simp] theorem modVoice_jobs (s : State) (v : Fin 16) (f : Voice → Voice) : (s.modVoice v f).jobs = s.jobs := rfl
@[simp] theorem modVoice_cvus (s : State) (v : Fin 16) (f : Voice → Voice) : (s.modVoice v f).cvus = s.cvus := rfl
@[simp] theorem modVoice_bports (s : State) (v : Fin 16) (f : Voice → Voice) : (s.modVoice v f).bports = s.bports := rfl
@[simp] theorem modVoice_entry (s : State) (v : Fin 16) (f : Voice → Voice) : (s.modVoice v f).entry = s.entry := rfl
@[simp] theorem modVoice_entryTurn (s : State) (v : Fin 16) (f : Voice → Voice) : (s.modVoice v f).entryTurn = s.entryTurn := rfl
@[simp] theorem modVoice_period (s : State) (v : Fin 16) (f : Voice → Voice) : (s.modVoice v f).period = s.period := rfl
@[simp] theorem modVoice_evt (s : State) (v : Fin 16) (f : Voice → Voice) : (s.modVoice v f).evt = s.evt := rfl
@[simp] theorem modVoice_spire (s : State) (v : Fin 16) (f : Voice → Voice) : (s.modVoice v f).spire = s.spire := rfl
@[simp] theorem modVoice_dmcs (s : State) (v : Fin 16) (f : Voice → Voice) : (s.modVoice v f).dmcs = s.dmcs := rfl
@[simp] theorem modVoice_dmcg (s : State) (v : Fin 16) (f : Voice → Voice) : (s.modVoice v f).dmcg = s.dmcg := rfl
@[simp] theorem modVoice_org (s : State) (v : Fin 16) (f : Voice → Voice) : (s.modVoice v f).org = s.org := rfl
@[simp] theorem modVoice_keep (s : State) (v : Fin 16) (f : Voice → Voice) : (s.modVoice v f).keep = s.keep := rfl
@[simp] theorem modVoice_dome (s : State) (v : Fin 16) (f : Voice → Voice) : (s.modVoice v f).dome = s.dome := rfl
@[simp] theorem modVoice_gaz (s : State) (v : Fin 16) (f : Voice → Voice) : (s.modVoice v f).gaz = { s.gaz with voices := upd s.gaz.voices v f } := rfl
@[simp] theorem modVoice_clk (s : State) (v : Fin 16) (f : Voice → Voice) : (s.modVoice v f).clk = s.clk := rfl
@[simp] theorem modVoice_pwr (s : State) (v : Fin 16) (f : Voice → Voice) : (s.modVoice v f).pwr = s.pwr := rfl
@[simp] theorem modVoice_glb (s : State) (v : Fin 16) (f : Voice → Voice) : (s.modVoice v f).glb = s.glb := rfl
@[simp] theorem modVoice_caps (s : State) (v : Fin 16) (f : Voice → Voice) : (s.modVoice v f).caps = s.caps := rfl
@[simp] theorem modVoice_ceRaised (s : State) (v : Fin 16) (f : Voice → Voice) : (s.modVoice v f).ceRaised = s.ceRaised := rfl
@[simp] theorem modVoice_tx (s : State) (v : Fin 16) (f : Voice → Voice) : (s.modVoice v f).tx = s.tx := rfl
@[simp] theorem modVoice_freeCount (s : State) (v : Fin 16) (f : Voice → Voice) : (s.modVoice v f).freeCount = s.freeCount := rfl
@[simp] theorem modVoice_arrived (s : State) (v : Fin 16) (f : Voice → Voice) : (s.modVoice v f).arrived = s.arrived := rfl

/-! ### `State.emit` -/

@[simp] theorem emit_pending (s : State) (t : Tx) : (s.emit t).pending = s.pending := rfl
@[simp] theorem emit_img (s : State) (t : Tx) : (s.emit t).img = s.img := rfl
@[simp] theorem emit_stores (s : State) (t : Tx) : (s.emit t).stores = s.stores := rfl
@[simp] theorem emit_poison (s : State) (t : Tx) : (s.emit t).poison = s.poison := rfl
@[simp] theorem emit_flips (s : State) (t : Tx) : (s.emit t).flips = s.flips := rfl
@[simp] theorem emit_pavs (s : State) (t : Tx) : (s.emit t).pavs = s.pavs := rfl
@[simp] theorem emit_ports (s : State) (t : Tx) : (s.emit t).ports = s.ports := rfl
@[simp] theorem emit_flrDone (s : State) (t : Tx) : (s.emit t).flrDone = s.flrDone := rfl
@[simp] theorem emit_zeroQ (s : State) (t : Tx) : (s.emit t).zeroQ = s.zeroQ := rfl
@[simp] theorem emit_orphanExts (s : State) (t : Tx) : (s.emit t).orphanExts = s.orphanExts := rfl
@[simp] theorem emit_slots (s : State) (t : Tx) : (s.emit t).slots = s.slots := rfl
@[simp] theorem emit_groups (s : State) (t : Tx) : (s.emit t).groups = s.groups := rfl
@[simp] theorem emit_doneQ (s : State) (t : Tx) : (s.emit t).doneQ = s.doneQ := rfl
@[simp] theorem emit_groupDefs (s : State) (t : Tx) : (s.emit t).groupDefs = s.groupDefs := rfl
@[simp] theorem emit_nextId (s : State) (t : Tx) : (s.emit t).nextId = s.nextId := rfl
@[simp] theorem emit_comps (s : State) (t : Tx) : (s.emit t).comps = s.comps := rfl
@[simp] theorem emit_outs (s : State) (t : Tx) : (s.emit t).outs = s.outs := rfl
@[simp] theorem emit_belvs (s : State) (t : Tx) : (s.emit t).belvs = s.belvs := rfl
@[simp] theorem emit_ltn (s : State) (t : Tx) : (s.emit t).ltn = s.ltn := rfl
@[simp] theorem emit_ageSel (s : State) (t : Tx) : (s.emit t).ageSel = s.ageSel := rfl
@[simp] theorem emit_staleCount (s : State) (t : Tx) : (s.emit t).staleCount = s.staleCount := rfl
@[simp] theorem emit_jobs (s : State) (t : Tx) : (s.emit t).jobs = s.jobs := rfl
@[simp] theorem emit_cvus (s : State) (t : Tx) : (s.emit t).cvus = s.cvus := rfl
@[simp] theorem emit_bports (s : State) (t : Tx) : (s.emit t).bports = s.bports := rfl
@[simp] theorem emit_entry (s : State) (t : Tx) : (s.emit t).entry = s.entry := rfl
@[simp] theorem emit_entryTurn (s : State) (t : Tx) : (s.emit t).entryTurn = s.entryTurn := rfl
@[simp] theorem emit_period (s : State) (t : Tx) : (s.emit t).period = s.period := rfl
@[simp] theorem emit_evt (s : State) (t : Tx) : (s.emit t).evt = s.evt := rfl
@[simp] theorem emit_spire (s : State) (t : Tx) : (s.emit t).spire = s.spire := rfl
@[simp] theorem emit_dmcs (s : State) (t : Tx) : (s.emit t).dmcs = s.dmcs := rfl
@[simp] theorem emit_dmcg (s : State) (t : Tx) : (s.emit t).dmcg = s.dmcg := rfl
@[simp] theorem emit_org (s : State) (t : Tx) : (s.emit t).org = s.org := rfl
@[simp] theorem emit_keep (s : State) (t : Tx) : (s.emit t).keep = s.keep := rfl
@[simp] theorem emit_dome (s : State) (t : Tx) : (s.emit t).dome = s.dome := rfl
@[simp] theorem emit_gaz (s : State) (t : Tx) : (s.emit t).gaz = s.gaz := rfl
@[simp] theorem emit_clk (s : State) (t : Tx) : (s.emit t).clk = s.clk := rfl
@[simp] theorem emit_pwr (s : State) (t : Tx) : (s.emit t).pwr = s.pwr := rfl
@[simp] theorem emit_glb (s : State) (t : Tx) : (s.emit t).glb = s.glb := rfl
@[simp] theorem emit_caps (s : State) (t : Tx) : (s.emit t).caps = s.caps := rfl
@[simp] theorem emit_ceRaised (s : State) (t : Tx) : (s.emit t).ceRaised = s.ceRaised := rfl
@[simp] theorem emit_tx (s : State) (t : Tx) : (s.emit t).tx = t :: s.tx := rfl
@[simp] theorem emit_freeCount (s : State) (t : Tx) : (s.emit t).freeCount = s.freeCount := rfl
@[simp] theorem emit_arrived (s : State) (t : Tx) : (s.emit t).arrived = s.arrived := rfl

/-! ### `State.stCell` -/

@[simp] theorem stCell_pending (s : State) (m : MemId) (a : Nat) (v : Byte) : (s.stCell m a v).pending = s.pending := rfl
@[simp] theorem stCell_img (s : State) (m : MemId) (a : Nat) (v : Byte) : (s.stCell m a v).img = s.img := rfl
@[simp] theorem stCell_stores (s : State) (m : MemId) (a : Nat) (v : Byte) : (s.stCell m a v).stores = .byte m a v :: s.stores := rfl
@[simp] theorem stCell_poison (s : State) (m : MemId) (a : Nat) (v : Byte) : (s.stCell m a v).poison = s.poison := rfl
@[simp] theorem stCell_flips (s : State) (m : MemId) (a : Nat) (v : Byte) : (s.stCell m a v).flips = s.flips := rfl
@[simp] theorem stCell_pavs (s : State) (m : MemId) (a : Nat) (v : Byte) : (s.stCell m a v).pavs = s.pavs := rfl
@[simp] theorem stCell_ports (s : State) (m : MemId) (a : Nat) (v : Byte) : (s.stCell m a v).ports = s.ports := rfl
@[simp] theorem stCell_flrDone (s : State) (m : MemId) (a : Nat) (v : Byte) : (s.stCell m a v).flrDone = s.flrDone := rfl
@[simp] theorem stCell_zeroQ (s : State) (m : MemId) (a : Nat) (v : Byte) : (s.stCell m a v).zeroQ = s.zeroQ := rfl
@[simp] theorem stCell_orphanExts (s : State) (m : MemId) (a : Nat) (v : Byte) : (s.stCell m a v).orphanExts = s.orphanExts := rfl
@[simp] theorem stCell_slots (s : State) (m : MemId) (a : Nat) (v : Byte) : (s.stCell m a v).slots = s.slots := rfl
@[simp] theorem stCell_groups (s : State) (m : MemId) (a : Nat) (v : Byte) : (s.stCell m a v).groups = s.groups := rfl
@[simp] theorem stCell_doneQ (s : State) (m : MemId) (a : Nat) (v : Byte) : (s.stCell m a v).doneQ = s.doneQ := rfl
@[simp] theorem stCell_groupDefs (s : State) (m : MemId) (a : Nat) (v : Byte) : (s.stCell m a v).groupDefs = s.groupDefs := rfl
@[simp] theorem stCell_nextId (s : State) (m : MemId) (a : Nat) (v : Byte) : (s.stCell m a v).nextId = s.nextId := rfl
@[simp] theorem stCell_comps (s : State) (m : MemId) (a : Nat) (v : Byte) : (s.stCell m a v).comps = s.comps := rfl
@[simp] theorem stCell_outs (s : State) (m : MemId) (a : Nat) (v : Byte) : (s.stCell m a v).outs = s.outs := rfl
@[simp] theorem stCell_belvs (s : State) (m : MemId) (a : Nat) (v : Byte) : (s.stCell m a v).belvs = s.belvs := rfl
@[simp] theorem stCell_ltn (s : State) (m : MemId) (a : Nat) (v : Byte) : (s.stCell m a v).ltn = s.ltn := rfl
@[simp] theorem stCell_ageSel (s : State) (m : MemId) (a : Nat) (v : Byte) : (s.stCell m a v).ageSel = s.ageSel := rfl
@[simp] theorem stCell_staleCount (s : State) (m : MemId) (a : Nat) (v : Byte) : (s.stCell m a v).staleCount = s.staleCount := rfl
@[simp] theorem stCell_jobs (s : State) (m : MemId) (a : Nat) (v : Byte) : (s.stCell m a v).jobs = s.jobs := rfl
@[simp] theorem stCell_cvus (s : State) (m : MemId) (a : Nat) (v : Byte) : (s.stCell m a v).cvus = s.cvus := rfl
@[simp] theorem stCell_bports (s : State) (m : MemId) (a : Nat) (v : Byte) : (s.stCell m a v).bports = s.bports := rfl
@[simp] theorem stCell_entry (s : State) (m : MemId) (a : Nat) (v : Byte) : (s.stCell m a v).entry = s.entry := rfl
@[simp] theorem stCell_entryTurn (s : State) (m : MemId) (a : Nat) (v : Byte) : (s.stCell m a v).entryTurn = s.entryTurn := rfl
@[simp] theorem stCell_period (s : State) (m : MemId) (a : Nat) (v : Byte) : (s.stCell m a v).period = s.period := rfl
@[simp] theorem stCell_evt (s : State) (m : MemId) (a : Nat) (v : Byte) : (s.stCell m a v).evt = s.evt := rfl
@[simp] theorem stCell_spire (s : State) (m : MemId) (a : Nat) (v : Byte) : (s.stCell m a v).spire = s.spire := rfl
@[simp] theorem stCell_dmcs (s : State) (m : MemId) (a : Nat) (v : Byte) : (s.stCell m a v).dmcs = s.dmcs := rfl
@[simp] theorem stCell_dmcg (s : State) (m : MemId) (a : Nat) (v : Byte) : (s.stCell m a v).dmcg = s.dmcg := rfl
@[simp] theorem stCell_org (s : State) (m : MemId) (a : Nat) (v : Byte) : (s.stCell m a v).org = s.org := rfl
@[simp] theorem stCell_keep (s : State) (m : MemId) (a : Nat) (v : Byte) : (s.stCell m a v).keep = s.keep := rfl
@[simp] theorem stCell_dome (s : State) (m : MemId) (a : Nat) (v : Byte) : (s.stCell m a v).dome = s.dome := rfl
@[simp] theorem stCell_gaz (s : State) (m : MemId) (a : Nat) (v : Byte) : (s.stCell m a v).gaz = s.gaz := rfl
@[simp] theorem stCell_clk (s : State) (m : MemId) (a : Nat) (v : Byte) : (s.stCell m a v).clk = s.clk := rfl
@[simp] theorem stCell_pwr (s : State) (m : MemId) (a : Nat) (v : Byte) : (s.stCell m a v).pwr = s.pwr := rfl
@[simp] theorem stCell_glb (s : State) (m : MemId) (a : Nat) (v : Byte) : (s.stCell m a v).glb = s.glb := rfl
@[simp] theorem stCell_caps (s : State) (m : MemId) (a : Nat) (v : Byte) : (s.stCell m a v).caps = s.caps := rfl
@[simp] theorem stCell_ceRaised (s : State) (m : MemId) (a : Nat) (v : Byte) : (s.stCell m a v).ceRaised = s.ceRaised := rfl
@[simp] theorem stCell_tx (s : State) (m : MemId) (a : Nat) (v : Byte) : (s.stCell m a v).tx = s.tx := rfl
@[simp] theorem stCell_freeCount (s : State) (m : MemId) (a : Nat) (v : Byte) : (s.stCell m a v).freeCount = s.freeCount := rfl
@[simp] theorem stCell_arrived (s : State) (m : MemId) (a : Nat) (v : Byte) : (s.stCell m a v).arrived = s.arrived := rfl

/-! ### Updates within a Pavilion -/

@[simp] theorem modSq_get (s : State) (p : Fin 64) (q : Fin 8) (f : Sq → Sq) : ((s.modSq p q f).pavs[p.val]) = { s.pavs[p.val] with sqs := upd s.pavs[p.val].sqs q f } := by
  simp [State.modSq, State.modPav]
@[simp] theorem modSq_pending (s : State) (p : Fin 64) (q : Fin 8) (f : Sq → Sq) : (s.modSq p q f).pending = s.pending := rfl
@[simp] theorem modSq_img (s : State) (p : Fin 64) (q : Fin 8) (f : Sq → Sq) : (s.modSq p q f).img = s.img := rfl
@[simp] theorem modSq_stores (s : State) (p : Fin 64) (q : Fin 8) (f : Sq → Sq) : (s.modSq p q f).stores = s.stores := rfl
@[simp] theorem modSq_poison (s : State) (p : Fin 64) (q : Fin 8) (f : Sq → Sq) : (s.modSq p q f).poison = s.poison := rfl
@[simp] theorem modSq_flips (s : State) (p : Fin 64) (q : Fin 8) (f : Sq → Sq) : (s.modSq p q f).flips = s.flips := rfl
@[simp] theorem modSq_ports (s : State) (p : Fin 64) (q : Fin 8) (f : Sq → Sq) : (s.modSq p q f).ports = s.ports := rfl
@[simp] theorem modSq_flrDone (s : State) (p : Fin 64) (q : Fin 8) (f : Sq → Sq) : (s.modSq p q f).flrDone = s.flrDone := rfl
@[simp] theorem modSq_zeroQ (s : State) (p : Fin 64) (q : Fin 8) (f : Sq → Sq) : (s.modSq p q f).zeroQ = s.zeroQ := rfl
@[simp] theorem modSq_orphanExts (s : State) (p : Fin 64) (q : Fin 8) (f : Sq → Sq) : (s.modSq p q f).orphanExts = s.orphanExts := rfl
@[simp] theorem modSq_slots (s : State) (p : Fin 64) (q : Fin 8) (f : Sq → Sq) : (s.modSq p q f).slots = s.slots := rfl
@[simp] theorem modSq_groups (s : State) (p : Fin 64) (q : Fin 8) (f : Sq → Sq) : (s.modSq p q f).groups = s.groups := rfl
@[simp] theorem modSq_doneQ (s : State) (p : Fin 64) (q : Fin 8) (f : Sq → Sq) : (s.modSq p q f).doneQ = s.doneQ := rfl
@[simp] theorem modSq_groupDefs (s : State) (p : Fin 64) (q : Fin 8) (f : Sq → Sq) : (s.modSq p q f).groupDefs = s.groupDefs := rfl
@[simp] theorem modSq_nextId (s : State) (p : Fin 64) (q : Fin 8) (f : Sq → Sq) : (s.modSq p q f).nextId = s.nextId := rfl
@[simp] theorem modSq_comps (s : State) (p : Fin 64) (q : Fin 8) (f : Sq → Sq) : (s.modSq p q f).comps = s.comps := rfl
@[simp] theorem modSq_outs (s : State) (p : Fin 64) (q : Fin 8) (f : Sq → Sq) : (s.modSq p q f).outs = s.outs := rfl
@[simp] theorem modSq_belvs (s : State) (p : Fin 64) (q : Fin 8) (f : Sq → Sq) : (s.modSq p q f).belvs = s.belvs := rfl
@[simp] theorem modSq_ltn (s : State) (p : Fin 64) (q : Fin 8) (f : Sq → Sq) : (s.modSq p q f).ltn = s.ltn := rfl
@[simp] theorem modSq_ageSel (s : State) (p : Fin 64) (q : Fin 8) (f : Sq → Sq) : (s.modSq p q f).ageSel = s.ageSel := rfl
@[simp] theorem modSq_staleCount (s : State) (p : Fin 64) (q : Fin 8) (f : Sq → Sq) : (s.modSq p q f).staleCount = s.staleCount := rfl
@[simp] theorem modSq_jobs (s : State) (p : Fin 64) (q : Fin 8) (f : Sq → Sq) : (s.modSq p q f).jobs = s.jobs := rfl
@[simp] theorem modSq_cvus (s : State) (p : Fin 64) (q : Fin 8) (f : Sq → Sq) : (s.modSq p q f).cvus = s.cvus := rfl
@[simp] theorem modSq_bports (s : State) (p : Fin 64) (q : Fin 8) (f : Sq → Sq) : (s.modSq p q f).bports = s.bports := rfl
@[simp] theorem modSq_entry (s : State) (p : Fin 64) (q : Fin 8) (f : Sq → Sq) : (s.modSq p q f).entry = s.entry := rfl
@[simp] theorem modSq_entryTurn (s : State) (p : Fin 64) (q : Fin 8) (f : Sq → Sq) : (s.modSq p q f).entryTurn = s.entryTurn := rfl
@[simp] theorem modSq_period (s : State) (p : Fin 64) (q : Fin 8) (f : Sq → Sq) : (s.modSq p q f).period = s.period := rfl
@[simp] theorem modSq_evt (s : State) (p : Fin 64) (q : Fin 8) (f : Sq → Sq) : (s.modSq p q f).evt = s.evt := rfl
@[simp] theorem modSq_spire (s : State) (p : Fin 64) (q : Fin 8) (f : Sq → Sq) : (s.modSq p q f).spire = s.spire := rfl
@[simp] theorem modSq_dmcs (s : State) (p : Fin 64) (q : Fin 8) (f : Sq → Sq) : (s.modSq p q f).dmcs = s.dmcs := rfl
@[simp] theorem modSq_dmcg (s : State) (p : Fin 64) (q : Fin 8) (f : Sq → Sq) : (s.modSq p q f).dmcg = s.dmcg := rfl
@[simp] theorem modSq_org (s : State) (p : Fin 64) (q : Fin 8) (f : Sq → Sq) : (s.modSq p q f).org = s.org := rfl
@[simp] theorem modSq_keep (s : State) (p : Fin 64) (q : Fin 8) (f : Sq → Sq) : (s.modSq p q f).keep = s.keep := rfl
@[simp] theorem modSq_dome (s : State) (p : Fin 64) (q : Fin 8) (f : Sq → Sq) : (s.modSq p q f).dome = s.dome := rfl
@[simp] theorem modSq_gaz (s : State) (p : Fin 64) (q : Fin 8) (f : Sq → Sq) : (s.modSq p q f).gaz = s.gaz := rfl
@[simp] theorem modSq_clk (s : State) (p : Fin 64) (q : Fin 8) (f : Sq → Sq) : (s.modSq p q f).clk = s.clk := rfl
@[simp] theorem modSq_pwr (s : State) (p : Fin 64) (q : Fin 8) (f : Sq → Sq) : (s.modSq p q f).pwr = s.pwr := rfl
@[simp] theorem modSq_glb (s : State) (p : Fin 64) (q : Fin 8) (f : Sq → Sq) : (s.modSq p q f).glb = s.glb := rfl
@[simp] theorem modSq_caps (s : State) (p : Fin 64) (q : Fin 8) (f : Sq → Sq) : (s.modSq p q f).caps = s.caps := rfl
@[simp] theorem modSq_ceRaised (s : State) (p : Fin 64) (q : Fin 8) (f : Sq → Sq) : (s.modSq p q f).ceRaised = s.ceRaised := rfl
@[simp] theorem modSq_tx (s : State) (p : Fin 64) (q : Fin 8) (f : Sq → Sq) : (s.modSq p q f).tx = s.tx := rfl
@[simp] theorem modSq_freeCount (s : State) (p : Fin 64) (q : Fin 8) (f : Sq → Sq) : (s.modSq p q f).freeCount = s.freeCount := rfl
@[simp] theorem modSq_arrived (s : State) (p : Fin 64) (q : Fin 8) (f : Sq → Sq) : (s.modSq p q f).arrived = s.arrived := rfl

@[simp] theorem modCq_get (s : State) (p : Fin 64) (f : Cq → Cq) : ((s.modCq p f).pavs[p.val]) = { s.pavs[p.val] with cq := f s.pavs[p.val].cq } := by
  simp [State.modCq, State.modPav]
@[simp] theorem modCq_pending (s : State) (p : Fin 64) (f : Cq → Cq) : (s.modCq p f).pending = s.pending := rfl
@[simp] theorem modCq_img (s : State) (p : Fin 64) (f : Cq → Cq) : (s.modCq p f).img = s.img := rfl
@[simp] theorem modCq_stores (s : State) (p : Fin 64) (f : Cq → Cq) : (s.modCq p f).stores = s.stores := rfl
@[simp] theorem modCq_poison (s : State) (p : Fin 64) (f : Cq → Cq) : (s.modCq p f).poison = s.poison := rfl
@[simp] theorem modCq_flips (s : State) (p : Fin 64) (f : Cq → Cq) : (s.modCq p f).flips = s.flips := rfl
@[simp] theorem modCq_ports (s : State) (p : Fin 64) (f : Cq → Cq) : (s.modCq p f).ports = s.ports := rfl
@[simp] theorem modCq_flrDone (s : State) (p : Fin 64) (f : Cq → Cq) : (s.modCq p f).flrDone = s.flrDone := rfl
@[simp] theorem modCq_zeroQ (s : State) (p : Fin 64) (f : Cq → Cq) : (s.modCq p f).zeroQ = s.zeroQ := rfl
@[simp] theorem modCq_orphanExts (s : State) (p : Fin 64) (f : Cq → Cq) : (s.modCq p f).orphanExts = s.orphanExts := rfl
@[simp] theorem modCq_slots (s : State) (p : Fin 64) (f : Cq → Cq) : (s.modCq p f).slots = s.slots := rfl
@[simp] theorem modCq_groups (s : State) (p : Fin 64) (f : Cq → Cq) : (s.modCq p f).groups = s.groups := rfl
@[simp] theorem modCq_doneQ (s : State) (p : Fin 64) (f : Cq → Cq) : (s.modCq p f).doneQ = s.doneQ := rfl
@[simp] theorem modCq_groupDefs (s : State) (p : Fin 64) (f : Cq → Cq) : (s.modCq p f).groupDefs = s.groupDefs := rfl
@[simp] theorem modCq_nextId (s : State) (p : Fin 64) (f : Cq → Cq) : (s.modCq p f).nextId = s.nextId := rfl
@[simp] theorem modCq_comps (s : State) (p : Fin 64) (f : Cq → Cq) : (s.modCq p f).comps = s.comps := rfl
@[simp] theorem modCq_outs (s : State) (p : Fin 64) (f : Cq → Cq) : (s.modCq p f).outs = s.outs := rfl
@[simp] theorem modCq_belvs (s : State) (p : Fin 64) (f : Cq → Cq) : (s.modCq p f).belvs = s.belvs := rfl
@[simp] theorem modCq_ltn (s : State) (p : Fin 64) (f : Cq → Cq) : (s.modCq p f).ltn = s.ltn := rfl
@[simp] theorem modCq_ageSel (s : State) (p : Fin 64) (f : Cq → Cq) : (s.modCq p f).ageSel = s.ageSel := rfl
@[simp] theorem modCq_staleCount (s : State) (p : Fin 64) (f : Cq → Cq) : (s.modCq p f).staleCount = s.staleCount := rfl
@[simp] theorem modCq_jobs (s : State) (p : Fin 64) (f : Cq → Cq) : (s.modCq p f).jobs = s.jobs := rfl
@[simp] theorem modCq_cvus (s : State) (p : Fin 64) (f : Cq → Cq) : (s.modCq p f).cvus = s.cvus := rfl
@[simp] theorem modCq_bports (s : State) (p : Fin 64) (f : Cq → Cq) : (s.modCq p f).bports = s.bports := rfl
@[simp] theorem modCq_entry (s : State) (p : Fin 64) (f : Cq → Cq) : (s.modCq p f).entry = s.entry := rfl
@[simp] theorem modCq_entryTurn (s : State) (p : Fin 64) (f : Cq → Cq) : (s.modCq p f).entryTurn = s.entryTurn := rfl
@[simp] theorem modCq_period (s : State) (p : Fin 64) (f : Cq → Cq) : (s.modCq p f).period = s.period := rfl
@[simp] theorem modCq_evt (s : State) (p : Fin 64) (f : Cq → Cq) : (s.modCq p f).evt = s.evt := rfl
@[simp] theorem modCq_spire (s : State) (p : Fin 64) (f : Cq → Cq) : (s.modCq p f).spire = s.spire := rfl
@[simp] theorem modCq_dmcs (s : State) (p : Fin 64) (f : Cq → Cq) : (s.modCq p f).dmcs = s.dmcs := rfl
@[simp] theorem modCq_dmcg (s : State) (p : Fin 64) (f : Cq → Cq) : (s.modCq p f).dmcg = s.dmcg := rfl
@[simp] theorem modCq_org (s : State) (p : Fin 64) (f : Cq → Cq) : (s.modCq p f).org = s.org := rfl
@[simp] theorem modCq_keep (s : State) (p : Fin 64) (f : Cq → Cq) : (s.modCq p f).keep = s.keep := rfl
@[simp] theorem modCq_dome (s : State) (p : Fin 64) (f : Cq → Cq) : (s.modCq p f).dome = s.dome := rfl
@[simp] theorem modCq_gaz (s : State) (p : Fin 64) (f : Cq → Cq) : (s.modCq p f).gaz = s.gaz := rfl
@[simp] theorem modCq_clk (s : State) (p : Fin 64) (f : Cq → Cq) : (s.modCq p f).clk = s.clk := rfl
@[simp] theorem modCq_pwr (s : State) (p : Fin 64) (f : Cq → Cq) : (s.modCq p f).pwr = s.pwr := rfl
@[simp] theorem modCq_glb (s : State) (p : Fin 64) (f : Cq → Cq) : (s.modCq p f).glb = s.glb := rfl
@[simp] theorem modCq_caps (s : State) (p : Fin 64) (f : Cq → Cq) : (s.modCq p f).caps = s.caps := rfl
@[simp] theorem modCq_ceRaised (s : State) (p : Fin 64) (f : Cq → Cq) : (s.modCq p f).ceRaised = s.ceRaised := rfl
@[simp] theorem modCq_tx (s : State) (p : Fin 64) (f : Cq → Cq) : (s.modCq p f).tx = s.tx := rfl
@[simp] theorem modCq_freeCount (s : State) (p : Fin 64) (f : Cq → Cq) : (s.modCq p f).freeCount = s.freeCount := rfl
@[simp] theorem modCq_arrived (s : State) (p : Fin 64) (f : Cq → Cq) : (s.modCq p f).arrived = s.arrived := rfl

@[simp] theorem modEq_get (s : State) (p : Fin 64) (f : Evq → Evq) : ((s.modEq p f).pavs[p.val]) = { s.pavs[p.val] with eq := f s.pavs[p.val].eq } := by
  simp [State.modEq, State.modPav]
@[simp] theorem modEq_pending (s : State) (p : Fin 64) (f : Evq → Evq) : (s.modEq p f).pending = s.pending := rfl
@[simp] theorem modEq_img (s : State) (p : Fin 64) (f : Evq → Evq) : (s.modEq p f).img = s.img := rfl
@[simp] theorem modEq_stores (s : State) (p : Fin 64) (f : Evq → Evq) : (s.modEq p f).stores = s.stores := rfl
@[simp] theorem modEq_poison (s : State) (p : Fin 64) (f : Evq → Evq) : (s.modEq p f).poison = s.poison := rfl
@[simp] theorem modEq_flips (s : State) (p : Fin 64) (f : Evq → Evq) : (s.modEq p f).flips = s.flips := rfl
@[simp] theorem modEq_ports (s : State) (p : Fin 64) (f : Evq → Evq) : (s.modEq p f).ports = s.ports := rfl
@[simp] theorem modEq_flrDone (s : State) (p : Fin 64) (f : Evq → Evq) : (s.modEq p f).flrDone = s.flrDone := rfl
@[simp] theorem modEq_zeroQ (s : State) (p : Fin 64) (f : Evq → Evq) : (s.modEq p f).zeroQ = s.zeroQ := rfl
@[simp] theorem modEq_orphanExts (s : State) (p : Fin 64) (f : Evq → Evq) : (s.modEq p f).orphanExts = s.orphanExts := rfl
@[simp] theorem modEq_slots (s : State) (p : Fin 64) (f : Evq → Evq) : (s.modEq p f).slots = s.slots := rfl
@[simp] theorem modEq_groups (s : State) (p : Fin 64) (f : Evq → Evq) : (s.modEq p f).groups = s.groups := rfl
@[simp] theorem modEq_doneQ (s : State) (p : Fin 64) (f : Evq → Evq) : (s.modEq p f).doneQ = s.doneQ := rfl
@[simp] theorem modEq_groupDefs (s : State) (p : Fin 64) (f : Evq → Evq) : (s.modEq p f).groupDefs = s.groupDefs := rfl
@[simp] theorem modEq_nextId (s : State) (p : Fin 64) (f : Evq → Evq) : (s.modEq p f).nextId = s.nextId := rfl
@[simp] theorem modEq_comps (s : State) (p : Fin 64) (f : Evq → Evq) : (s.modEq p f).comps = s.comps := rfl
@[simp] theorem modEq_outs (s : State) (p : Fin 64) (f : Evq → Evq) : (s.modEq p f).outs = s.outs := rfl
@[simp] theorem modEq_belvs (s : State) (p : Fin 64) (f : Evq → Evq) : (s.modEq p f).belvs = s.belvs := rfl
@[simp] theorem modEq_ltn (s : State) (p : Fin 64) (f : Evq → Evq) : (s.modEq p f).ltn = s.ltn := rfl
@[simp] theorem modEq_ageSel (s : State) (p : Fin 64) (f : Evq → Evq) : (s.modEq p f).ageSel = s.ageSel := rfl
@[simp] theorem modEq_staleCount (s : State) (p : Fin 64) (f : Evq → Evq) : (s.modEq p f).staleCount = s.staleCount := rfl
@[simp] theorem modEq_jobs (s : State) (p : Fin 64) (f : Evq → Evq) : (s.modEq p f).jobs = s.jobs := rfl
@[simp] theorem modEq_cvus (s : State) (p : Fin 64) (f : Evq → Evq) : (s.modEq p f).cvus = s.cvus := rfl
@[simp] theorem modEq_bports (s : State) (p : Fin 64) (f : Evq → Evq) : (s.modEq p f).bports = s.bports := rfl
@[simp] theorem modEq_entry (s : State) (p : Fin 64) (f : Evq → Evq) : (s.modEq p f).entry = s.entry := rfl
@[simp] theorem modEq_entryTurn (s : State) (p : Fin 64) (f : Evq → Evq) : (s.modEq p f).entryTurn = s.entryTurn := rfl
@[simp] theorem modEq_period (s : State) (p : Fin 64) (f : Evq → Evq) : (s.modEq p f).period = s.period := rfl
@[simp] theorem modEq_evt (s : State) (p : Fin 64) (f : Evq → Evq) : (s.modEq p f).evt = s.evt := rfl
@[simp] theorem modEq_spire (s : State) (p : Fin 64) (f : Evq → Evq) : (s.modEq p f).spire = s.spire := rfl
@[simp] theorem modEq_dmcs (s : State) (p : Fin 64) (f : Evq → Evq) : (s.modEq p f).dmcs = s.dmcs := rfl
@[simp] theorem modEq_dmcg (s : State) (p : Fin 64) (f : Evq → Evq) : (s.modEq p f).dmcg = s.dmcg := rfl
@[simp] theorem modEq_org (s : State) (p : Fin 64) (f : Evq → Evq) : (s.modEq p f).org = s.org := rfl
@[simp] theorem modEq_keep (s : State) (p : Fin 64) (f : Evq → Evq) : (s.modEq p f).keep = s.keep := rfl
@[simp] theorem modEq_dome (s : State) (p : Fin 64) (f : Evq → Evq) : (s.modEq p f).dome = s.dome := rfl
@[simp] theorem modEq_gaz (s : State) (p : Fin 64) (f : Evq → Evq) : (s.modEq p f).gaz = s.gaz := rfl
@[simp] theorem modEq_clk (s : State) (p : Fin 64) (f : Evq → Evq) : (s.modEq p f).clk = s.clk := rfl
@[simp] theorem modEq_pwr (s : State) (p : Fin 64) (f : Evq → Evq) : (s.modEq p f).pwr = s.pwr := rfl
@[simp] theorem modEq_glb (s : State) (p : Fin 64) (f : Evq → Evq) : (s.modEq p f).glb = s.glb := rfl
@[simp] theorem modEq_caps (s : State) (p : Fin 64) (f : Evq → Evq) : (s.modEq p f).caps = s.caps := rfl
@[simp] theorem modEq_ceRaised (s : State) (p : Fin 64) (f : Evq → Evq) : (s.modEq p f).ceRaised = s.ceRaised := rfl
@[simp] theorem modEq_tx (s : State) (p : Fin 64) (f : Evq → Evq) : (s.modEq p f).tx = s.tx := rfl
@[simp] theorem modEq_freeCount (s : State) (p : Fin 64) (f : Evq → Evq) : (s.modEq p f).freeCount = s.freeCount := rfl
@[simp] theorem modEq_arrived (s : State) (p : Fin 64) (f : Evq → Evq) : (s.modEq p f).arrived = s.arrived := rfl

@[simp] theorem modMbox_get (s : State) (p : Fin 64) (i : Fin 2) (f : MboxSlot → MboxSlot) : ((s.modMbox p i f).pavs[p.val]) = { s.pavs[p.val] with mbox := upd s.pavs[p.val].mbox i f } := by
  simp [State.modMbox, State.modPav]
@[simp] theorem modMbox_pending (s : State) (p : Fin 64) (i : Fin 2) (f : MboxSlot → MboxSlot) : (s.modMbox p i f).pending = s.pending := rfl
@[simp] theorem modMbox_img (s : State) (p : Fin 64) (i : Fin 2) (f : MboxSlot → MboxSlot) : (s.modMbox p i f).img = s.img := rfl
@[simp] theorem modMbox_stores (s : State) (p : Fin 64) (i : Fin 2) (f : MboxSlot → MboxSlot) : (s.modMbox p i f).stores = s.stores := rfl
@[simp] theorem modMbox_poison (s : State) (p : Fin 64) (i : Fin 2) (f : MboxSlot → MboxSlot) : (s.modMbox p i f).poison = s.poison := rfl
@[simp] theorem modMbox_flips (s : State) (p : Fin 64) (i : Fin 2) (f : MboxSlot → MboxSlot) : (s.modMbox p i f).flips = s.flips := rfl
@[simp] theorem modMbox_ports (s : State) (p : Fin 64) (i : Fin 2) (f : MboxSlot → MboxSlot) : (s.modMbox p i f).ports = s.ports := rfl
@[simp] theorem modMbox_flrDone (s : State) (p : Fin 64) (i : Fin 2) (f : MboxSlot → MboxSlot) : (s.modMbox p i f).flrDone = s.flrDone := rfl
@[simp] theorem modMbox_zeroQ (s : State) (p : Fin 64) (i : Fin 2) (f : MboxSlot → MboxSlot) : (s.modMbox p i f).zeroQ = s.zeroQ := rfl
@[simp] theorem modMbox_orphanExts (s : State) (p : Fin 64) (i : Fin 2) (f : MboxSlot → MboxSlot) : (s.modMbox p i f).orphanExts = s.orphanExts := rfl
@[simp] theorem modMbox_slots (s : State) (p : Fin 64) (i : Fin 2) (f : MboxSlot → MboxSlot) : (s.modMbox p i f).slots = s.slots := rfl
@[simp] theorem modMbox_groups (s : State) (p : Fin 64) (i : Fin 2) (f : MboxSlot → MboxSlot) : (s.modMbox p i f).groups = s.groups := rfl
@[simp] theorem modMbox_doneQ (s : State) (p : Fin 64) (i : Fin 2) (f : MboxSlot → MboxSlot) : (s.modMbox p i f).doneQ = s.doneQ := rfl
@[simp] theorem modMbox_groupDefs (s : State) (p : Fin 64) (i : Fin 2) (f : MboxSlot → MboxSlot) : (s.modMbox p i f).groupDefs = s.groupDefs := rfl
@[simp] theorem modMbox_nextId (s : State) (p : Fin 64) (i : Fin 2) (f : MboxSlot → MboxSlot) : (s.modMbox p i f).nextId = s.nextId := rfl
@[simp] theorem modMbox_comps (s : State) (p : Fin 64) (i : Fin 2) (f : MboxSlot → MboxSlot) : (s.modMbox p i f).comps = s.comps := rfl
@[simp] theorem modMbox_outs (s : State) (p : Fin 64) (i : Fin 2) (f : MboxSlot → MboxSlot) : (s.modMbox p i f).outs = s.outs := rfl
@[simp] theorem modMbox_belvs (s : State) (p : Fin 64) (i : Fin 2) (f : MboxSlot → MboxSlot) : (s.modMbox p i f).belvs = s.belvs := rfl
@[simp] theorem modMbox_ltn (s : State) (p : Fin 64) (i : Fin 2) (f : MboxSlot → MboxSlot) : (s.modMbox p i f).ltn = s.ltn := rfl
@[simp] theorem modMbox_ageSel (s : State) (p : Fin 64) (i : Fin 2) (f : MboxSlot → MboxSlot) : (s.modMbox p i f).ageSel = s.ageSel := rfl
@[simp] theorem modMbox_staleCount (s : State) (p : Fin 64) (i : Fin 2) (f : MboxSlot → MboxSlot) : (s.modMbox p i f).staleCount = s.staleCount := rfl
@[simp] theorem modMbox_jobs (s : State) (p : Fin 64) (i : Fin 2) (f : MboxSlot → MboxSlot) : (s.modMbox p i f).jobs = s.jobs := rfl
@[simp] theorem modMbox_cvus (s : State) (p : Fin 64) (i : Fin 2) (f : MboxSlot → MboxSlot) : (s.modMbox p i f).cvus = s.cvus := rfl
@[simp] theorem modMbox_bports (s : State) (p : Fin 64) (i : Fin 2) (f : MboxSlot → MboxSlot) : (s.modMbox p i f).bports = s.bports := rfl
@[simp] theorem modMbox_entry (s : State) (p : Fin 64) (i : Fin 2) (f : MboxSlot → MboxSlot) : (s.modMbox p i f).entry = s.entry := rfl
@[simp] theorem modMbox_entryTurn (s : State) (p : Fin 64) (i : Fin 2) (f : MboxSlot → MboxSlot) : (s.modMbox p i f).entryTurn = s.entryTurn := rfl
@[simp] theorem modMbox_period (s : State) (p : Fin 64) (i : Fin 2) (f : MboxSlot → MboxSlot) : (s.modMbox p i f).period = s.period := rfl
@[simp] theorem modMbox_evt (s : State) (p : Fin 64) (i : Fin 2) (f : MboxSlot → MboxSlot) : (s.modMbox p i f).evt = s.evt := rfl
@[simp] theorem modMbox_spire (s : State) (p : Fin 64) (i : Fin 2) (f : MboxSlot → MboxSlot) : (s.modMbox p i f).spire = s.spire := rfl
@[simp] theorem modMbox_dmcs (s : State) (p : Fin 64) (i : Fin 2) (f : MboxSlot → MboxSlot) : (s.modMbox p i f).dmcs = s.dmcs := rfl
@[simp] theorem modMbox_dmcg (s : State) (p : Fin 64) (i : Fin 2) (f : MboxSlot → MboxSlot) : (s.modMbox p i f).dmcg = s.dmcg := rfl
@[simp] theorem modMbox_org (s : State) (p : Fin 64) (i : Fin 2) (f : MboxSlot → MboxSlot) : (s.modMbox p i f).org = s.org := rfl
@[simp] theorem modMbox_keep (s : State) (p : Fin 64) (i : Fin 2) (f : MboxSlot → MboxSlot) : (s.modMbox p i f).keep = s.keep := rfl
@[simp] theorem modMbox_dome (s : State) (p : Fin 64) (i : Fin 2) (f : MboxSlot → MboxSlot) : (s.modMbox p i f).dome = s.dome := rfl
@[simp] theorem modMbox_gaz (s : State) (p : Fin 64) (i : Fin 2) (f : MboxSlot → MboxSlot) : (s.modMbox p i f).gaz = s.gaz := rfl
@[simp] theorem modMbox_clk (s : State) (p : Fin 64) (i : Fin 2) (f : MboxSlot → MboxSlot) : (s.modMbox p i f).clk = s.clk := rfl
@[simp] theorem modMbox_pwr (s : State) (p : Fin 64) (i : Fin 2) (f : MboxSlot → MboxSlot) : (s.modMbox p i f).pwr = s.pwr := rfl
@[simp] theorem modMbox_glb (s : State) (p : Fin 64) (i : Fin 2) (f : MboxSlot → MboxSlot) : (s.modMbox p i f).glb = s.glb := rfl
@[simp] theorem modMbox_caps (s : State) (p : Fin 64) (i : Fin 2) (f : MboxSlot → MboxSlot) : (s.modMbox p i f).caps = s.caps := rfl
@[simp] theorem modMbox_ceRaised (s : State) (p : Fin 64) (i : Fin 2) (f : MboxSlot → MboxSlot) : (s.modMbox p i f).ceRaised = s.ceRaised := rfl
@[simp] theorem modMbox_tx (s : State) (p : Fin 64) (i : Fin 2) (f : MboxSlot → MboxSlot) : (s.modMbox p i f).tx = s.tx := rfl
@[simp] theorem modMbox_freeCount (s : State) (p : Fin 64) (i : Fin 2) (f : MboxSlot → MboxSlot) : (s.modMbox p i f).freeCount = s.freeCount := rfl
@[simp] theorem modMbox_arrived (s : State) (p : Fin 64) (i : Fin 2) (f : MboxSlot → MboxSlot) : (s.modMbox p i f).arrived = s.arrived := rfl

@[simp] theorem modView_get (s : State) (p : Fin 64) (v : Fin 8) (f : View → View) : ((s.modView p v f).pavs[p.val]) = { s.pavs[p.val] with views := upd s.pavs[p.val].views v f } := by
  simp [State.modView, State.modPav]
@[simp] theorem modView_pending (s : State) (p : Fin 64) (v : Fin 8) (f : View → View) : (s.modView p v f).pending = s.pending := rfl
@[simp] theorem modView_img (s : State) (p : Fin 64) (v : Fin 8) (f : View → View) : (s.modView p v f).img = s.img := rfl
@[simp] theorem modView_stores (s : State) (p : Fin 64) (v : Fin 8) (f : View → View) : (s.modView p v f).stores = s.stores := rfl
@[simp] theorem modView_poison (s : State) (p : Fin 64) (v : Fin 8) (f : View → View) : (s.modView p v f).poison = s.poison := rfl
@[simp] theorem modView_flips (s : State) (p : Fin 64) (v : Fin 8) (f : View → View) : (s.modView p v f).flips = s.flips := rfl
@[simp] theorem modView_ports (s : State) (p : Fin 64) (v : Fin 8) (f : View → View) : (s.modView p v f).ports = s.ports := rfl
@[simp] theorem modView_flrDone (s : State) (p : Fin 64) (v : Fin 8) (f : View → View) : (s.modView p v f).flrDone = s.flrDone := rfl
@[simp] theorem modView_zeroQ (s : State) (p : Fin 64) (v : Fin 8) (f : View → View) : (s.modView p v f).zeroQ = s.zeroQ := rfl
@[simp] theorem modView_orphanExts (s : State) (p : Fin 64) (v : Fin 8) (f : View → View) : (s.modView p v f).orphanExts = s.orphanExts := rfl
@[simp] theorem modView_slots (s : State) (p : Fin 64) (v : Fin 8) (f : View → View) : (s.modView p v f).slots = s.slots := rfl
@[simp] theorem modView_groups (s : State) (p : Fin 64) (v : Fin 8) (f : View → View) : (s.modView p v f).groups = s.groups := rfl
@[simp] theorem modView_doneQ (s : State) (p : Fin 64) (v : Fin 8) (f : View → View) : (s.modView p v f).doneQ = s.doneQ := rfl
@[simp] theorem modView_groupDefs (s : State) (p : Fin 64) (v : Fin 8) (f : View → View) : (s.modView p v f).groupDefs = s.groupDefs := rfl
@[simp] theorem modView_nextId (s : State) (p : Fin 64) (v : Fin 8) (f : View → View) : (s.modView p v f).nextId = s.nextId := rfl
@[simp] theorem modView_comps (s : State) (p : Fin 64) (v : Fin 8) (f : View → View) : (s.modView p v f).comps = s.comps := rfl
@[simp] theorem modView_outs (s : State) (p : Fin 64) (v : Fin 8) (f : View → View) : (s.modView p v f).outs = s.outs := rfl
@[simp] theorem modView_belvs (s : State) (p : Fin 64) (v : Fin 8) (f : View → View) : (s.modView p v f).belvs = s.belvs := rfl
@[simp] theorem modView_ltn (s : State) (p : Fin 64) (v : Fin 8) (f : View → View) : (s.modView p v f).ltn = s.ltn := rfl
@[simp] theorem modView_ageSel (s : State) (p : Fin 64) (v : Fin 8) (f : View → View) : (s.modView p v f).ageSel = s.ageSel := rfl
@[simp] theorem modView_staleCount (s : State) (p : Fin 64) (v : Fin 8) (f : View → View) : (s.modView p v f).staleCount = s.staleCount := rfl
@[simp] theorem modView_jobs (s : State) (p : Fin 64) (v : Fin 8) (f : View → View) : (s.modView p v f).jobs = s.jobs := rfl
@[simp] theorem modView_cvus (s : State) (p : Fin 64) (v : Fin 8) (f : View → View) : (s.modView p v f).cvus = s.cvus := rfl
@[simp] theorem modView_bports (s : State) (p : Fin 64) (v : Fin 8) (f : View → View) : (s.modView p v f).bports = s.bports := rfl
@[simp] theorem modView_entry (s : State) (p : Fin 64) (v : Fin 8) (f : View → View) : (s.modView p v f).entry = s.entry := rfl
@[simp] theorem modView_entryTurn (s : State) (p : Fin 64) (v : Fin 8) (f : View → View) : (s.modView p v f).entryTurn = s.entryTurn := rfl
@[simp] theorem modView_period (s : State) (p : Fin 64) (v : Fin 8) (f : View → View) : (s.modView p v f).period = s.period := rfl
@[simp] theorem modView_evt (s : State) (p : Fin 64) (v : Fin 8) (f : View → View) : (s.modView p v f).evt = s.evt := rfl
@[simp] theorem modView_spire (s : State) (p : Fin 64) (v : Fin 8) (f : View → View) : (s.modView p v f).spire = s.spire := rfl
@[simp] theorem modView_dmcs (s : State) (p : Fin 64) (v : Fin 8) (f : View → View) : (s.modView p v f).dmcs = s.dmcs := rfl
@[simp] theorem modView_dmcg (s : State) (p : Fin 64) (v : Fin 8) (f : View → View) : (s.modView p v f).dmcg = s.dmcg := rfl
@[simp] theorem modView_org (s : State) (p : Fin 64) (v : Fin 8) (f : View → View) : (s.modView p v f).org = s.org := rfl
@[simp] theorem modView_keep (s : State) (p : Fin 64) (v : Fin 8) (f : View → View) : (s.modView p v f).keep = s.keep := rfl
@[simp] theorem modView_dome (s : State) (p : Fin 64) (v : Fin 8) (f : View → View) : (s.modView p v f).dome = s.dome := rfl
@[simp] theorem modView_gaz (s : State) (p : Fin 64) (v : Fin 8) (f : View → View) : (s.modView p v f).gaz = s.gaz := rfl
@[simp] theorem modView_clk (s : State) (p : Fin 64) (v : Fin 8) (f : View → View) : (s.modView p v f).clk = s.clk := rfl
@[simp] theorem modView_pwr (s : State) (p : Fin 64) (v : Fin 8) (f : View → View) : (s.modView p v f).pwr = s.pwr := rfl
@[simp] theorem modView_glb (s : State) (p : Fin 64) (v : Fin 8) (f : View → View) : (s.modView p v f).glb = s.glb := rfl
@[simp] theorem modView_caps (s : State) (p : Fin 64) (v : Fin 8) (f : View → View) : (s.modView p v f).caps = s.caps := rfl
@[simp] theorem modView_ceRaised (s : State) (p : Fin 64) (v : Fin 8) (f : View → View) : (s.modView p v f).ceRaised = s.ceRaised := rfl
@[simp] theorem modView_tx (s : State) (p : Fin 64) (v : Fin 8) (f : View → View) : (s.modView p v f).tx = s.tx := rfl
@[simp] theorem modView_freeCount (s : State) (p : Fin 64) (v : Fin 8) (f : View → View) : (s.modView p v f).freeCount = s.freeCount := rfl
@[simp] theorem modView_arrived (s : State) (p : Fin 64) (v : Fin 8) (f : View → View) : (s.modView p v f).arrived = s.arrived := rfl

/-! ### Two updates of one element -/

theorem modPav_modPav (s : State) (p : Fin 64) (f g : Pav → Pav) : (s.modPav p f).modPav p g = s.modPav p fun x => g (f x) := by
  simp [State.modPav, upd_upd]
theorem modPort_modPort (s : State) (p : Fin 4) (f g : Port → Port) : (s.modPort p f).modPort p g = s.modPort p fun x => g (f x) := by
  simp [State.modPort, upd_upd]
theorem modSlot_modSlot (s : State) (p : Fin 256) (f g : Slot → Slot) : (s.modSlot p f).modSlot p g = s.modSlot p fun x => g (f x) := by
  simp [State.modSlot, upd_upd]
theorem modOut_modOut (s : State) (p : Fin 8) (f g : Out → Out) : (s.modOut p f).modOut p g = s.modOut p fun x => g (f x) := by
  simp [State.modOut, upd_upd]
theorem modComp_modComp (s : State) (p : Fin 8) (f g : Comp → Comp) : (s.modComp p f).modComp p g = s.modComp p fun x => g (f x) := by
  simp [State.modComp, upd_upd]
theorem modBelv_modBelv (s : State) (p : Fin 8) (f g : Belv → Belv) : (s.modBelv p f).modBelv p g = s.modBelv p fun x => g (f x) := by
  simp [State.modBelv, upd_upd]
theorem modCvu_modCvu (s : State) (p : Fin 16) (f g : Cvu → Cvu) : (s.modCvu p f).modCvu p g = s.modCvu p fun x => g (f x) := by
  simp [State.modCvu, upd_upd]
theorem modDmc_modDmc (s : State) (p : Fin 8) (f g : Dmc → Dmc) : (s.modDmc p f).modDmc p g = s.modDmc p fun x => g (f x) := by
  simp [State.modDmc, upd_upd]
theorem modPav_congr {s : State} {p : Fin 64} {f g : Pav → Pav} (h : f s.pavs[p.val] = g s.pavs[p.val]) : s.modPav p f = s.modPav p g := by
  simp [State.modPav, upd_congr h]
theorem modPav_id {s : State} {p : Fin 64} {f : Pav → Pav} (h : f s.pavs[p.val] = s.pavs[p.val]) : s.modPav p f = s := by
  simp [State.modPav, upd_id _ _ _ h]
theorem modPort_congr {s : State} {p : Fin 4} {f g : Port → Port} (h : f s.ports[p.val] = g s.ports[p.val]) : s.modPort p f = s.modPort p g := by
  simp [State.modPort, upd_congr h]
theorem modPort_id {s : State} {p : Fin 4} {f : Port → Port} (h : f s.ports[p.val] = s.ports[p.val]) : s.modPort p f = s := by
  simp [State.modPort, upd_id _ _ _ h]
theorem modSlot_congr {s : State} {p : Fin 256} {f g : Slot → Slot} (h : f s.slots[p.val] = g s.slots[p.val]) : s.modSlot p f = s.modSlot p g := by
  simp [State.modSlot, upd_congr h]
theorem modSlot_id {s : State} {p : Fin 256} {f : Slot → Slot} (h : f s.slots[p.val] = s.slots[p.val]) : s.modSlot p f = s := by
  simp [State.modSlot, upd_id _ _ _ h]
theorem modOut_congr {s : State} {p : Fin 8} {f g : Out → Out} (h : f s.outs[p.val] = g s.outs[p.val]) : s.modOut p f = s.modOut p g := by
  simp [State.modOut, upd_congr h]
theorem modOut_id {s : State} {p : Fin 8} {f : Out → Out} (h : f s.outs[p.val] = s.outs[p.val]) : s.modOut p f = s := by
  simp [State.modOut, upd_id _ _ _ h]
theorem modComp_congr {s : State} {p : Fin 8} {f g : Comp → Comp} (h : f s.comps[p.val] = g s.comps[p.val]) : s.modComp p f = s.modComp p g := by
  simp [State.modComp, upd_congr h]
theorem modComp_id {s : State} {p : Fin 8} {f : Comp → Comp} (h : f s.comps[p.val] = s.comps[p.val]) : s.modComp p f = s := by
  simp [State.modComp, upd_id _ _ _ h]
theorem modBelv_congr {s : State} {p : Fin 8} {f g : Belv → Belv} (h : f s.belvs[p.val] = g s.belvs[p.val]) : s.modBelv p f = s.modBelv p g := by
  simp [State.modBelv, upd_congr h]
theorem modBelv_id {s : State} {p : Fin 8} {f : Belv → Belv} (h : f s.belvs[p.val] = s.belvs[p.val]) : s.modBelv p f = s := by
  simp [State.modBelv, upd_id _ _ _ h]
theorem modCvu_congr {s : State} {p : Fin 16} {f g : Cvu → Cvu} (h : f s.cvus[p.val] = g s.cvus[p.val]) : s.modCvu p f = s.modCvu p g := by
  simp [State.modCvu, upd_congr h]
theorem modCvu_id {s : State} {p : Fin 16} {f : Cvu → Cvu} (h : f s.cvus[p.val] = s.cvus[p.val]) : s.modCvu p f = s := by
  simp [State.modCvu, upd_id _ _ _ h]
theorem modDmc_congr {s : State} {p : Fin 8} {f g : Dmc → Dmc} (h : f s.dmcs[p.val] = g s.dmcs[p.val]) : s.modDmc p f = s.modDmc p g := by
  simp [State.modDmc, upd_congr h]
theorem modDmc_id {s : State} {p : Fin 8} {f : Dmc → Dmc} (h : f s.dmcs[p.val] = s.dmcs[p.val]) : s.modDmc p f = s := by
  simp [State.modDmc, upd_id _ _ _ h]
theorem modSq_modSq (s : State) (p q) (f g : Sq → Sq) : (s.modSq p q f).modSq p q g = s.modSq p q fun r => g (f r) := by
  simp [State.modSq, State.modPav, upd_upd]
theorem modCq_modCq (s : State) (p) (f g : Cq → Cq) : (s.modCq p f).modCq p g = s.modCq p fun r => g (f r) := by
  simp [State.modCq, State.modPav, upd_upd]
theorem modEq_modEq (s : State) (p) (f g : Evq → Evq) : (s.modEq p f).modEq p g = s.modEq p fun r => g (f r) := by
  simp [State.modEq, State.modPav, upd_upd]
theorem modSq_congr {s : State} {p : Fin 64} {q : Fin 8} {f g : Sq → Sq} (h : f (s.pavs[p.val].sqs[q.val]) = g (s.pavs[p.val].sqs[q.val])) :
    s.modSq p q f = s.modSq p q g := modPav_congr (by simp [upd_congr h])

end Sys2Proof.Machine
end

