-- ==== Sys2Proof/Laws/Steps.lean ====
section
/-!
SUPPORT. What a command does in a good state, beside its own effect: nothing. How a descriptor begins at once.
-/
set_option maxHeartbeats 400000
set_option linter.all false
set_option exponentiation.threshold 3000
namespace Sys2Proof.Machine
open Sys2Proof

/-- An effect that stores nothing leaves exactly the state it computes. -/
theorem run_plain {s : State} {f : State → State} (h : s.stores = []) (h1 : (f s).stores = s.stores) (h2 : (f s).img = s.img)
    (h3 : (f s).pending = s.pending) : s.run f = f s := by
  simp only [State.run]
  rw [h1, h, ← h2, ← h3, ← h, ← h1]
  simp only [h1, h]
  generalize f s = t at *
  cases t
  simp_all [Images.applyAll]

/-- A command that keeps the core and stores nothing, in a good state: the state its effect computes. -/
theorem act_plain {s : State} {f : State → State} (h : s.Good) (hc : (f s).core = s.core) (h1 : (f s).stores = s.stores)
    (h2 : (f s).img = s.img) (h3 : (f s).pending = s.pending) : act f s = .next (f s) := by
  rw [act_steady h.2 hc, run_plain h.1.2 h1 h2 h3]

theorem actAon_plain {s : State} {f : State → State} (h : s.Inv) (hk : s.calm = true) (hc : (f s).core = s.core) (h1 : (f s).stores = s.stores)
    (h2 : (f s).img = s.img) (h3 : (f s).pending = s.pending) : actAon f s = .next (f s) := by
  rw [actAon_calm hk hc, run_plain h.2 h1 h2 h3]

/-- A host request that reaches a Pavilion has its effect. -/
theorem hostAcc_on {s : State} {p : Fin 64} (h : s.HostTo p) (f : State → State) : s.hostAcc p f = f s := by
  obtain ⟨h1, h2, h3, h4, h5, h6⟩ := h
  have h6 : s.clk.run.getLsbD (islHost (portOf p).val) = true := h6
  have hw : s.wakeIsland (islHost (portOf p).val) = s := by unfold State.wakeIsland; rw [if_pos h6]
  unfold State.hostAcc
  simp only [h1, h2, h3, h4, h5, hw]
  rfl

/-- A configuration request that reaches a Pavilion has its effect. -/
theorem cfgReach_on {s : State} {p : Fin 64} (h : s.ConfigTo p) (f : State → State) : s.cfgReach p f = f s := by
  obtain ⟨h1, h2, h3, h4⟩ := h
  have h4 : s.clk.run.getLsbD (islHost (portOf p).val) = true := h4
  have hw : s.wakeIsland (islHost (portOf p).val) = s := by unfold State.wakeIsland; rw [if_pos h4]
  simp only [State.reach, Bool.and_eq_true] at h1
  simp [State.cfgReach, State.present, h1.1, h1.2, h2, h3, hw]

/-! ### Descriptors -/

theorem orders_quiet {s : State} (h : s.quiet = true) (p : Fin 64) : (s.pavs[p.val]).order = [] := by
  simp only [State.quiet, List.all_eq_true] at h
  have := h s.pavs[p.val] (Vector.mem_toList_iff.2 (Vector.getElem_mem p.isLt))
  simpa using this

theorem quiet_of_orders {s : State} (h : ∀ p : Fin 64, (s.pavs[p.val]).order = []) : s.quiet = true := by
  simp only [State.quiet, List.all_eq_true]
  intro v hv
  rw [Vector.mem_toList_iff, Vector.mem_iff_getElem] at hv
  obtain ⟨i, hi, rfl⟩ := hv
  simpa using h ⟨i, hi⟩

theorem findSome_at {α β : Type} {f : α → Option β} {l : List α} {a : α} {b : β} (ha : a ∈ l) (h : f a = some b)
    (ho : ∀ x, x ≠ a → f x = none) [DecidableEq α] : l.findSome? f = some b := by
  induction l with
  | nil => simp at ha
  | cons x l ih =>
    rw [List.findSome?_cons]
    by_cases e : x = a
    · subst e; rw [h]
    · rw [ho x e]
      rcases List.mem_cons.1 ha with r | r
      · exact absurd r.symm e
      · exact ih r

theorem nextBegin_none {s : State} {p : Fin 64} (h : (s.pavs[p.val]).order = []) : s.nextBegin p = none := by
  unfold State.nextBegin
  dsimp only
  rw [h]
  split <;> simp [State.pick]

theorem mem_turns {n : Fin 4} {t : Nat} {q : Fin 64} : q ∈ turns n t ↔ portOf q = n := by
  unfold turns
  rw [List.mem_map]
  constructor
  · rintro ⟨i, _, rfl⟩
    apply Fin.ext
    have := n.isLt
    simp only [portOf, fp, f4, Fin.val_ofNat]
    omega
  · intro h
    have h := congrArg Fin.val h
    have := q.isLt
    refine ⟨(q.val % 16 + 16 - t % 16) % 16, List.mem_range.2 (Nat.mod_lt _ (by decide)), Fin.ext ?_⟩
    simp only [portOf, fp, f4, Fin.val_ofNat] at h ⊢
    omega

/-- The one Pavilion that may begin a descriptor begins it, whichever Pavilion's turn it is. -/
theorem findSome_turns {f : Fin 64 → Option Waiting} {t : Fin 4 → Nat} {p : Fin 64} {w : Waiting} (h : f p = some w) (ho : ∀ q, q ≠ p → f q = none) :
    ((idx 4).findSome? fun n => (turns n (t n)).findSome? f) = some w := by
  refine findSome_at (a := portOf p) (by simp [idx]) (findSome_at (a := p) (mem_turns.2 rfl) h ho) fun n hn => ?_
  refine List.findSome?_eq_none_iff.2 fun q hq => ho q fun e => hn ?_
  rw [← mem_turns.1 hq, e]

theorem beginNext_none {s : State} (h : s.quiet = true) : s.beginNext = none := by
  unfold State.beginNext
  rw [List.findSome?_eq_none_iff.2 fun n _ => List.findSome?_eq_none_iff.2 fun p _ => nextBegin_none (orders_quiet h p)]

theorem begins_quiet (n : Nat) {s : State} (h : s.quiet = true) : State.begins n s = s := by
  cases n with
  | zero => rfl
  | succ n => unfold State.begins; rw [beginNext_none h]

theorem markHeld_map {s : State} (h : s.quiet = true) : s.pavs.map markHeld = s.pavs := by
  ext i hi
  have := orders_quiet h ⟨i, hi⟩
  simp only [Vector.getElem_map]
  have : s.pavs[i].order = [] := this
  generalize s.pavs[i] = v at this ⊢
  unfold markHeld
  split
  · cases v; simp_all
  · rfl

/-- What begins does not depend on the BAR2 writes it waited for. -/
theorem begin1_after (s : State) (op : BitVec 8) (d : Desc) (n : Nat) : s.begin1 { op, d, after := n } = s.begin1 { op, d } := by
  have hb : ∀ t : State, t.beginOp { op, d, after := n } = t.beginOp { op, d } := by
    intro t
    unfold State.beginOp
    rfl
  unfold State.begin1
  dsimp only
  split
  · rfl
  · exact hb _

/-- A descriptor that begins at once, and whose effect leaves nothing waiting: counted, judged and done in the same step, and nothing else
happens. -/
theorem act_join {s : State} {op : BitVec 8} {d : Desc} (h : s.BeginsAtOnce op d)
    (hk : ((s.modSq d.pav d.sq fun q => { q with live := q.live + 1 }).begin1 { op, d }).core = s.core) :
    act (fun s => s.join op d) s = .next (s.run fun s => (s.modSq d.pav d.sq fun q => { q with live := q.live + 1 }).begin1 { op, d }) := by
  obtain ⟨⟨_, hrun, hcalm⟩, hpres, hready, hquota, hbar, hctx⟩ := h
  have hc := hcalm
  obtain ⟨c1, c2, c2a, c3, c4, c5, c6, c7, c8, c9, c10⟩ := calm_parts hc
  obtain ⟨w, hw⟩ : ∃ w : Waiting, w = { op, d, after := (s.pavs[d.pav.val].sqs[d.sq.val]).bell } := ⟨_, rfl⟩
  obtain ⟨s0, hs0⟩ : ∃ t, t = s.modSq d.pav d.sq fun q => { q with live := q.live + 1 } := ⟨_, rfl⟩
  have hc0 : s0.core = s.core := by rw [hs0]; simp
  have hq0 : s0.quiet = true := by
    exact (calm_parts ((calm_of_core hc0).trans hcalm)).2.2.2.2.2.2.2.1
  obtain ⟨s1, hs1⟩ : ∃ t, t = s0.modPav d.pav fun v => { v with order := v.order ++ [w] } := ⟨_, rfl⟩
  have hj : s.join op d = s1 := by
    unfold State.join
    simp [hpres, hready, hs1, hs0, hw]
  have ho : (s1.pavs[d.pav.val]).order = [w] := by
    simp only [hs1, State.modPav, upd_same]
    rw [orders_quiet hq0]; rfl
  have hother : ∀ q, q ≠ d.pav → (s1.pavs[q.val]).order = [] := by
    intro q e
    simp only [hs1, State.modPav]
    rw [upd_other _ _ _ _ e]
    exact orders_quiet hq0 q
  have hv1 : s1.pavs[d.pav.val] = { s0.pavs[d.pav.val] with order := s0.pavs[d.pav.val].order ++ [w] } := by
    simp only [hs1, State.modPav, upd_same]
  have hv0 : s0.pavs[d.pav.val] = { s.pavs[d.pav.val] with sqs := upd s.pavs[d.pav.val].sqs d.sq fun q => { q with live := q.live + 1 } } := by
    simp only [hs0, State.modSq, State.modPav, upd_same]
  have hnb : s1.nextBegin d.pav = some w := by
    unfold State.nextBegin
    dsimp only
    have e1 : (s1.pavs[d.pav.val]).present = true := by rw [hv1, hv0]; exact hpres
    have e2 : (s1.pavs[d.pav.val]).ready = true := by rw [hv1, hv0]; exact hready
    have e3 : quotaUp s1.pavs[d.pav.val] 0 = false := by rw [hv1, hv0]; exact hquota
    rw [e1, e2, e3, ho]
    simp only [Bool.not_true, Bool.or_self, Bool.false_eq_true, if_false]
    unfold State.pick
    have e4 : barrierHolds s1.pavs[d.pav.val] w = false := by
      unfold barrierHolds waitingOn
      rw [ho]
      rcases hbar with hb | hl
      · have : w.d.flags.getLsbD 7 = false := by rw [hw]; exact hb
        rw [this]; rfl
      · have : ((s1.pavs[d.pav.val]).sqs[w.d.sq.val]).live = 1 := by
          rw [hv1, hv0]
          simp only [hw, upd_same]
          rw [hl]
        rw [this]
        simp
    have e5 : s1.contextHolds w = false := by rw [hs1, hs0, hw]; exact hctx
    have e6 : s1.bellHolds w = false := by
      have hp : s1.ports = s.ports := by rw [hs1, hs0]; rfl
      unfold State.bellHolds
      rw [hp, c6]
      rfl
    rw [e4, e5, e6]
    simp
  have hbn : s1.beginNext = some (s0.begin1 w) := by
    unfold State.beginNext
    rw [findSome_turns (t := fun n => (s1.ports[n.val]).beginTurn) hnb fun q e => nextBegin_none (hother q e)]
    have : (s1.modPav d.pav fun v => { v with order := v.order.erase w }) = s0 := by
      simp only [hs1, State.modPav, upd_upd]
      rw [upd_id]
      have e := orders_quiet hq0 d.pav
      generalize s0.pavs[d.pav.val] = v at e ⊢
      cases v
      simp only at e
      simp [e]
    show some ((s1.modPav w.d.pav fun v => { v with order := v.order.erase w }).begin1 w) = _
    rw [show w.d.pav = d.pav by rw [hw], this]
  obtain ⟨t, ht⟩ : ∃ t, t = s0.begin1 w := ⟨_, rfl⟩
  have hct : t.core = s.core := by rw [ht, hs0, hw, begin1_after]; exact hk
  have hcalmt : t.calm = true := by rw [calm_of_core hct]; exact hcalm
  obtain ⟨k1, k2, k2a, k3, k4, k5, k6, hqt, k8, k9, k10⟩ := calm_parts hcalmt
  have hset : s1.settle = t := by
    unfold State.settle
    have hnq : s1.quiet = false := by
      rw [Bool.eq_false_iff]
      intro e
      have := orders_quiet e d.pav
      rw [ho] at this
      simp at this
    rw [hnq]
    simp only [Bool.false_eq_true, if_false]
    have hn : ∃ n, (s1.pavs.toList.map fun v => v.order.length).sum = n + 1 := by
      have hm : (s1.pavs[d.pav.val]).order.length ∈ s1.pavs.toList.map fun v => v.order.length :=
        List.mem_map.2 ⟨_, Vector.mem_toList_iff.2 (Vector.getElem_mem d.pav.isLt), rfl⟩
      have hle : ∀ (l : List Nat) (a : Nat), a ∈ l → a ≤ l.sum := by
        intro l
        induction l with
        | nil => intro a h; simp at h
        | cons b l ih =>
          intro a h
          rw [List.sum_cons]
          rcases List.mem_cons.1 h with r | r
          · omega
          · have := ih a r; omega
      have := hle _ _ hm
      rw [ho] at this
      simp only [List.length_singleton] at this
      exact ⟨_, (Nat.succ_pred_eq_of_pos this).symm⟩
    obtain ⟨n, hn⟩ := hn
    rw [hn]
    have : State.begins (n + 1) s1 = t := by
      conv => lhs; unfold State.begins
      rw [hbn]
      rw [← ht]
      exact begins_quiet n hqt
    rw [this, markHeld_map hqt]
  have hafter : s1.after = t := by
    have a0 : State.wipeDue 3 s1 = s1 := by
      have : s1.keep = s.keep := by rw [hs1, hs0]; rfl
      simp [State.wipeDue, this, c1]
    have hd : s1.dome = s.dome := by rw [hs1, hs0]; rfl
    have a : s1.domeBack = s1 := by unfold State.domeBack; simp [hd, c2]
    have b : s1.alarmsGo = s1 := by unfold State.alarmsGo; rw [hd, c2a, c3]; rfl
    have f : s1.fabricGo = s1 :=
      fabricGo_idle (by rw [hs1, hs0]; exact c5) fun n => by
        have : s1.ports = s.ports := by rw [hs1, hs0]; rfl
        rw [this]; exact c6 n
    have q : t.settle = t := by unfold State.settle; simp [hqt]
    have n : t.noteReady = t := by unfold State.noteReady; simp [k10]
    unfold State.after
    rw [a0, a, b, f, hset, serveJobs_idle k8, q, faultGo_idle k9, n]
  have hb : (if s.pwr.reset == .running then (s.join op d).after else s) = t := by
    rw [hrun]; simp only [beq_self_eq_true, if_true]; rw [hj, hafter]
  simp only [act, runOk, State.run]
  rw [hb, ht, hs0, hw, begin1_after]

theorem run_congr {s : State} {f g : State → State} (h : f s = g s) : s.run f = s.run g := by simp [State.run, h]
/-- A descriptor that passes steps 1 to 4 of the validation does what its opcode says, where that leaves nothing waiting. -/
theorem act_accepts {s : State} {op : BitVec 8} {d : Desc} (h : s.Accepts op d) {f : State → State} (hf : (s.started d).beginOp { op, d } = f (s.started d))
    (hk : (f (s.started d)).core = s.core) :
    act (fun s => s.join op d) s = .next (s.doing d f) := by
  have hb : (s.modSq d.pav d.sq fun q => { q with live := q.live + 1 }).begin1 { op, d } = f (s.started d) := by
    have hc := h.2
    unfold State.started at hc hf ⊢
    unfold State.begin1
    dsimp only
    rw [hc]
    exact hf
  rw [act_join h.1 (by rw [hb]; exact hk)]
  congr 1
  exact run_congr hb
/-- A descriptor that fails one of them is refused. -/
theorem act_refuses {s : State} {op : BitVec 8} {d : Desc} (h : s.BeginsAtOnce op d) {st fb : Nat}
    (hb : (s.started d).commonChecks op.toNat d = some (st, fb, 0)) :
    act (fun s => s.join op d) s = .next (s.doing d fun t => t.bad op d st (fieldByte st fb)) := by
  have hr : (s.modSq d.pav d.sq fun q => { q with live := q.live + 1 }).begin1 { op, d } = (s.started d).bad op d st (fieldByte st fb) := by
    unfold State.started at hb ⊢
    unfold State.begin1
    dsimp only
    rw [hb]
    rfl
  rw [act_join h (by rw [hr]; unfold State.bad State.started; simp)]
  have e : s.run (fun s => (s.modSq d.pav d.sq fun q => { q with live := q.live + 1 }).begin1 { op, d })
      = s.doing d fun t => t.bad op d st (fieldByte st fb) := by
    unfold State.doing State.run
    dsimp only
    rw [hr]
  rw [e]

/-! ### Commands that store nothing, by the state they compute -/

theorem plain {s t : State} {f : State → State} (h : s.Good) (e : f s = t) (hc : t.core = s.core) (h1 : t.stores = s.stores) (h2 : t.img = s.img)
    (h3 : t.pending = s.pending) : act f s = .next t := by
  subst e; exact act_plain h hc h1 h2 h3

theorem msi_same (s : State) (p : Fin 64) (v : Nat) :
    (s.msi p v).stores = s.stores ∧ (s.msi p v).img = s.img ∧ (s.msi p v).pending = s.pending := by
  unfold State.msi; dsimp only; split <;> exact ⟨rfl, rfl, rfl⟩

theorem plain_msi {s t : State} {f : State → State} {p v} (h : s.Good) (e : f s = t.msi p v) (hc : t.core = s.core) (h1 : t.stores = s.stores)
    (h2 : t.img = s.img) (h3 : t.pending = s.pending) : act f s = .next (t.msi p v) := by
  have m := msi_same t p v
  rw [act_plain h (by rw [e, msi_core, hc]) (by rw [e, m.1, h1]) (by rw [e, m.2.1, h2]) (by rw [e, m.2.2, h3]), e]

end Sys2Proof.Machine
end

