-- ==== Sys2Proof/Laws/Spire.lean ====
section
/-!
SUPPORT. Receipt of a flit on an UP link, said once: what of it depends on the flit's class and type, and what its own effect adds.
-/
set_option linter.all false
namespace Sys2Proof.Machine
open Sys2Proof

/-- A flit takes the class and type that its row gives it. -/
theorem cls_asType (f : BitVec 256) (cls ty : Nat) (h : cls < 4) (h2 : ty < 16) : fClass (asType cls ty f) = cls ∧ fType (asType cls ty f) = ty := by
  have hf := f.isLt
  unfold fClass fType asType fU uAt bits
  simp only [BitVec.toNat_ofNat]
  simp [Nat.shiftRight_eq_div_pow]
  omega

/-- A flit that is not sequenced, on an UP link: its effect follows its ACK and NAK. -/
theorem rx_unsequenced {s : State} {l : Fin 12} (hu : s.linkUp l = true) (cls ty : Nat) (f : BitVec 256) (g : BitVec 256 → State → State)
    (hc : cls < 4) (ht : ty < 16) (hq : isSeq cls ty = false) :
    s.rx l cls ty f g = (g (asType cls ty f) (s.heard l (asType cls ty f))).exportsGo := by
  obtain ⟨e1, e2⟩ := cls_asType f cls ty hc ht
  unfold State.rx
  dsimp only
  generalize asType cls ty f = f at e1 e2 ⊢
  subst e1 e2
  have hu' : ((s.spire.links[l.val]).st == .up) = true := hu
  unfold State.rxFlit
  simp [hu', hq, State.heard]

/-- A sequenced flit on an UP link: accepted in order, discarded out of order. -/
theorem rx_sequenced {s : State} {l : Fin 12} (hu : s.linkUp l = true) (cls ty : Nat) (f : BitVec 256) (g : BitVec 256 → State → State)
    (hc : cls < 4) (ht : ty < 16) (hq : isSeq cls ty = true) :
    s.rx l cls ty f g = (if fSeq (asType cls ty f) = ((s.heard l (asType cls ty f)).spire.links[l.val]).seqRx
      then g (asType cls ty f) ((s.heard l (asType cls ty f)).inOrder l cls) else (s.heard l (asType cls ty f)).rxDiscard l).exportsGo := by
  obtain ⟨e1, e2⟩ := cls_asType f cls ty hc ht
  unfold State.rx
  dsimp only
  generalize asType cls ty f = f at e1 e2 ⊢
  subst e1 e2
  have hu' : ((s.spire.links[l.val]).st == .up) = true := hu
  unfold State.rxFlit
  simp only [hu', hq, Bool.true_or, Bool.not_true, Bool.false_eq_true, if_false]
  congr 1
  by_cases e : fSeq f = ((s.heard l f).spire.links[l.val]).seqRx
  · rw [if_pos e, if_neg (by simpa [State.heard] using e)]; rfl
  · rw [if_neg e, if_pos (by simpa [State.heard] using e)]; rfl

end Sys2Proof.Machine
end

