-- ==== Sys2Proof/WellFormed.lean ====
section
/-!
DEFINITION. Which operands a command may carry: what the row of the table it stands for, and the layouts of the spec, admit. A
command whose operands are not well formed is one that no sender can send as that row.
-/
namespace Sys2Proof

/-- The listed opcodes (03, Opcodes). -/
def listedOpcodes : List Nat :=
  [0x01, 0x02, 0x03, 0x04, 0x05, 0x06, 0x07, 0x08, 0x09, 0x0A, 0x0B, 0x0C, 0x0D, 0x0E, 0x20, 0x21, 0x22, 0x23, 0x24]

/-- The SUBOP of a descriptor: its byte 8. -/
def Desc.subop (d : Desc) : Nat := d.payload.toNat % 256

/-- How many SUBOP codes an opcode's layout lists, from 0 on (03, Layouts); none for an opcode without SUBOP. -/
def subopsOf (op : Nat) : Nat :=
  match op with
  | 0x0B => 7
  | 0x21 => 6
  | 0x24 => 3
  | _ => 0

/-- The listed types of a flit class (R300). -/
def listedType (cls ty : Nat) : Bool :=
  match cls with
  | 0 => ty != 3 && decide (ty ≤ 7)
  | 1 => ty == 0
  | 2 => ty != 4 && decide (ty ≤ 5)
  | _ => decide (ty ≤ 3)

/-- CLASS of a flit: byte 0, bits 1:0 (R299). -/
def flitClass (f : BitVec 256) : Nat := f.toNat % 4

/-- TYPE of a flit: byte 0, bits 5:2 (R299). -/
def flitType (f : BitVec 256) : Nat := f.toNat / 4 % 16

/-- Whether a flit has a class and type. -/
def isFlit (cls ty : Nat) (f : BitVec 256) : Bool := flitClass f == cls && flitType f == ty

/-- KIND of a STREAM flit: byte 12 (R300). -/
def flitKind (f : BitVec 256) : Nat := f.toNat >>> 96 % 256

/-- Whether a code names a block that can change worlds (12, block codes): 0x00 to 0x51, and proof windows 1 to 3 of each output at 0x60 on. -/
def isBlock (b : Nat) : Bool := decide (b ≤ 0x51) || (decide (0x60 ≤ b) && decide (b < 0x80) && b % 4 != 0)

/-- The banks of an on-chip memory and the bits of its word with its check bits (11, Organisation; R415): 0 Orangery, 1 line-buffer pool,
2 Dome SRAM. -/
def MarchFail.wf (m : MarchFail) : Bool :=
  match m.mem.val with
  | 0 => decide (m.bank.val < 16) && decide (m.bit.val < 288)
  | 1 => decide (m.bank.val < 24) && decide (m.bit.val < 288)
  | _ => decide (m.bank.val < 4) && decide (m.bit.val < 72)

/-- Bytes of a word of an on-chip memory (11, Organisation). -/
def SramMem.word : SramMem → Nat
  | .orangery | .lineBuffer _ => 32
  | .dome | .keep => 8

/-- A request of DRAM lies within one atom of 64 bytes; only a BAR2 access, at a port from 16 to 79, has a TLP (R378). -/
def MemReq.wf (r : MemReq) : Bool :=
  decide (1 ≤ r.len) && decide (r.addr % 64 + r.len ≤ 64) && (r.tlp.isNone || (decide (16 ≤ r.port.val) && decide (r.port.val < 80)))

/-- An access lies within one word; a write carries its bytes and meets no error. -/
def SramReq.wf (a : SramReq) : Bool :=
  decide (1 ≤ a.len) && decide (a.off % a.mem.word + a.len ≤ a.mem.word)
    && (match a.write with | some w => w.length == a.len && a.ecc == .clean | none => true)

/-- A fetch asks for 1 to 16 entries (R66). -/
def fetchSize (n : Nat) : Bool := decide (1 ≤ n) && decide (n ≤ 16)

/-- The commands whose operands their rows admit. -/
def instrWf : Instr → Bool
  | .reservedOpcode op _ => !listedOpcodes.contains op.toNat
  | .unlistedSubop op d => decide (0 < subopsOf op.toNat) && decide (subopsOf op.toNat ≤ d.subop)
  | .descriptorFetch _ _ n => fetchSize n
  | .fetchDataArrival _ _ _ es => fetchSize es.length
  | .sqEnable _ _ v => v.getLsbD 0
  | .sqDisable _ _ v => !v.getLsbD 0
  | .configRequest _ (.read off) => decide (off < 4096)
  | .configRequest _ (.write off _) => decide (off < 4096)
  | .bar2Write _ _ data => decide (1 ≤ data.length) && decide (data.length ≤ 4096)
  | .bar2Read _ _ len => decide (1 ≤ len) && decide (len ≤ 4096)
  | .registerWrite _ _ off size _ => decide (off < 0x1000000) && decide (1 ≤ size) && decide (size ≤ 4)
  | .readClear _ _ off size => decide (off < 0x1000000) && decide (1 ≤ size) && decide (size ≤ 4096)
  | .multiwordLowRead _ _ off => decide (off < 0x1000000) && off % 4 == 0
  | .keepApertureWrite off _ => decide (off < 65536) && off % 4 == 0
  | .edidReadDone _ (.data bytes) => bytes.length == 128
  | .jtagMemAccess a => match a with | .readReg _ | .writeReg _ _ | .readMem _ _ | .writeMem _ _ => true | _ => false
  | .jtagDomeDebug a => match a with | .readDome _ _ | .writeDome _ _ | .readFuses => true | _ => false
  | .handoverQuiesceDone b => isBlock b.toNat
  | .handoverQuiesceTimeout b => isBlock b.toNat
  | .linkTrainingComplete _ r => r.tries.all fun t => t.pattern != 0
  | .marchRunDone fails => fails.all MarchFail.wf
  | .boot e => e.march.all MarchFail.wf && e.dies.toList.all fun d => d.attempts.all fun c => c != 3
  | .sync _ f _ => isFlit 0 0 f
  | .delayReq _ f => isFlit 0 1 f
  | .delayResp _ f => isFlit 0 2 f
  | .report _ f => isFlit 0 4 f
  | .decide _ f => isFlit 0 5 f
  | .adopt _ f => isFlit 0 6 f
  | .master _ f => isFlit 0 7 f
  | .alarm _ f => isFlit 1 0 f
  | .idle _ f => isFlit 2 0 f
  | .ident _ f => isFlit 2 1 f
  | .presence _ f => isFlit 2 2 f
  | .streamAlive _ f => isFlit 2 3 f && flitKind f == 0
  | .streamNak _ f => isFlit 2 3 f && flitKind f == 1
  | .streamTsUpdate _ f => isFlit 2 3 f && flitKind f == 2
  | .credit _ f => isFlit 2 5 f
  | .xferBegin _ f => isFlit 3 0 f
  | .dataHead _ f => isFlit 3 1 f
  | .data _ f => isFlit 3 2 f
  | .xferEnd _ f => isFlit 3 3 f
  | .flitUnlisted _ f => !listedType (flitClass f) (flitType f)
  | .dramRead r _ => r.wf
  | .dramWrite r data same => r.wf && data.length == r.len && (match same with | some (q, _) => q.wf | none => true)
  | .sramAccess l => l.all SramReq.wf
  | .monitorWindow count refs => decide (count < 2 ^ 32) && refs.all fun n => decide (n < 2 ^ 32)
  | .scanComplete raw => decide (raw.length ≤ 512) && raw.all fun c => decide (c < 65536)
  | .hapticHalfCycle _ b => decide (b.mv < 65536)
  | _ => true

end Sys2Proof
end

