-- ==== Sys2Proof/Tests/Slice0.lean ====
section
/-!
SUPPORT. Tests. Commands with ill-formed operands; the spec's worked examples; and, for each statement, states and operands that meet the
hypotheses of each of its clauses (one conjunct of `test_witness_<statement>` per clause; a clause whose witness needs its own proof has a
theorem beside it). Without a witness that can be evaluated: what rests on firmware signed under the key whose digest is in the ROM
(`Config.romDigest` has no value: an install of good firmware, a boot that reaches it, a restart of the Dome), an accepted policy and an
accepted safe frame (hashes over 2 KiB and 520 KiB are out of the kernel's reach).
-/
namespace Sys2Proof.Tests
set_option linter.all false
set_option maxRecDepth 100000
set_option maxHeartbeats 400000
set_option exponentiation.threshold 3000
set_option Elab.async false
open Sys2Proof Sys2Proof.Machine

/-! ### Sample states: a device that runs, with two Pavilions, and pieces of it -/

def pav1 : Pav := { fn := { msixEn := true }, present := true, ready := true, bme := true, mse := true, exts := [⟨0, 0x10000⟩] }
def live : State := { State.reset with
  pavs := (State.reset.pavs.set 0 pav1).set 1 pav1
  ports := Vector.replicate 4 { enabled := true, linkUp := true, vfEnable := true, numVfs := 3 }
  dome := { State.reset.dome with st := .run, watermark := Vector.replicate 3 0 }
  dmcs := Vector.replicate 8 { trained := true }
  dmcg := { valid := true, clearDone := true }
  clk := { xinOk := true, run := BitVec.allOnes 45, refclkOk := 0xF, pllLock := BitVec.allOnes 48, monTrack := 32768 * 256 }
  pwr := { booted := true, stage := 11 } }
def img1 : Image := { wallId := 5, gen := 1, myId := 7, masterId := 3, backupId := 7, devices := [(3, 0), (7, 0), (9, 0)], propNs := 1000, safeNs := 5000, marginNs := 1000, maxHops := 4, groups := Vector.replicate 4 {}, parents := #v[1, 2, 15, 15], pairings := [{ link := 1, serial := 0x11, id := 3, nbLink := 2, maxDelay := 100 }, { link := 2, serial := 0x12, id := 9, nbLink := 2, maxDelay := 100, nbParent := true, nbBParent := true }], runs := [(0, 1, 15), (7, 12, 12), (8, 2, 15)] }
def mk (pav sq flags seq handle : Nat) (fs : List (Nat × Nat × Nat)) : Desc :=
  { pav := fp pav, sq := f8 sq, flags := BitVec.ofNat 8 flags, seq := BitVec.ofNat 16 seq, handle := BitVec.ofNat 32 handle,
    payload := BitVec.ofNat 448 (fs.foldl (fun a x => a + x.2.2 * 2 ^ (8 * (x.1 - 8))) 0) }
def rectL (o x0 y0 x1 y1 : Nat) : List (Nat × Nat × Nat) := [(o, 2, x0), (o+2, 2, y0), (o+4, 2, x1), (o+6, 2, y1)]
def lay : List (Nat × Nat × Nat) := [(10, 1, 1), (11, 1, 1), (12, 2, 4095), (14, 1, 0x12)] ++ rectL 16 0 0 64 64 ++ rectL 24 0 0 64 64 ++ [(32, 4, 1000)]
def dLayer := mk 1 0 0 5 3 lay
def dAtt := mk 1 0 0 5 3 [(8, 8, 0x400), (16, 4, 256), (20, 2, 64), (22, 2, 64), (24, 8, 1000)]
def dReaff1 := mk 1 0 1 5 3 [(8, 8, 2000), (16, 8, 0x400)]
def dCommit (pav : Nat := 1) := mk pav 0 0 5 0 [(18, 1, 2), (24, 1, 8)]
def dArmL := mk 1 0 0 5 0 [(8, 1, 2), (24, 1, 4), (40, 1, 0x80), (42, 2, 9)]
def dFence := mk 1 0 0 5 7 [(8, 8, 2300)]
def dWb := mk 1 0 0 5 0 [(8, 8, 0x400), (16, 4, 256), (20, 4, 1), (24, 8, 0x40), (32, 2, 1)]
def dCopy := mk 1 0 0 5 0 [(8, 8, 0x400), (16, 8, 0x800), (24, 4, 64)]
def dCheck := mk 1 0 0 5 0 [(8, 8, 0x400), (16, 4, 9)]
def dExp := mk 1 0 0 5 3 [(8, 2, 9), (10, 2, 4)]
def dHap := mk 1 0 0 5 0 [(9, 1, 2), (10, 1, 5), (11, 1, 3), (12, 1, 50)]
def dHap0 := mk 1 0 0 5 0 [(8, 1, 1), (9, 1, 2), (10, 1, 1)]
def dVoice := mk 1 0 0 5 0 [(8, 1, 2), (9, 1, 2), (10, 1, 1), (12, 2, 440), (16, 2, 100), (18, 1, 9), (19, 1, 3)]
def dVoiceS := mk 1 0 0 5 0 [(8, 1, 3), (9, 1, 2)]
def dPcm := mk 1 0 0 5 0 [(8, 1, 4), (9, 1, 2), (16, 8, 0x400), (24, 4, 64), (28, 1, 3)]
def dRef := mk 1 0 0 5 0 [(8, 1, 5), (9, 1, 2), (10, 1, 4), (11, 1, 5), (12, 1, 3)]
def dUnref := mk 1 0 0 5 0 [(8, 1, 6), (9, 1, 2)]
def dMap := mk 0 0 0 5 0x101 ([(8, 1, 2), (9, 1, 1), (10, 1, 4)] ++ rectL 12 0 0 64 64)
def dUnmap := mk 0 0 1 5 0x001 []
def lease (sub : Nat) (fs) (h := 1) := mk 0 0 0 5 h ((8, 1, sub) :: fs)
def dBud (l : List (Nat × Nat × Nat)) := mk 0 0 0 5 1 ((List.range 4).flatMap fun i => match l[i]? with | some (k, t, v) => [(8 + 12 * i, 1, k), (9 + 12 * i, 1, t), (12 + 12 * i, 8, v)] | none => [(8 + 12 * i, 1, 0xFF)])
def dMode := mk 0 0 1 5 1 [(8, 1, 0), (10, 1, 4), (11, 1, 3)]
def dDis := mk 0 0 0 5 1 []
def dWallP := mk 0 0 0 5 1 [(8, 1, 0), (10, 2, 9)]
def dWallG := mk 0 0 0 5 0 [(8, 1, 1), (12, 2, 0x8001), (14, 1, 2), (16, 1, 1), (18, 1, 1), (19, 1, 2)]
def dWallD := mk 0 0 0 5 0 [(8, 1, 2), (12, 2, 0x8002)]
def at1 : Attach := { id := 1, addr := 0x400, off := 0x400, pitch := 256, width := 64, height := 64, time := 1000 }
def fencedS (s : State) : State := { (s.modPav 1 fun v => { v with fences := upd v.fences 7 fun _ => 2300 }) with comps := s.comps.set 1 { winOpen := true, winFrame := 7 }, groupDefs := [{ gid := 0x8002, members := [] }] }
def mapd : State := fencedS ((((({ live with spire := { live.spire with now := 1000000000 } }.modView 1 0 fun v => { v with cur := some { out := 1, zBase := 0, zDepth := 8, rect := { x0 := 0, y0 := 0, x1 := 64, y1 := 64 } } }).modSlot 3 fun q =>
  { q with lease := .held 1 3, granules := 100, staged := some (layerOf dLayer), att := some at1 }).modOut 1 fun u => { u with enabled := true, set := modeSetOf dMode }).modSlot 10 fun q => { q with lease := .orphan }))
def job1 : Job := { pav := 1, sq := 0, seq := 5, op := 8, deferred := false, waiting := true, fenceCell := 7, fenceVal := 3000 }
def job2 : Job := { pav := 1, sq := 0, seq := 5, op := 8, deferred := false, src := 0x400, dst := 0x800, len := 9 }
def dCopyF := mk 1 0 16 5 0 [(8, 8, 0x400), (16, 8, 0x800), (24, 4, 64), (44, 1, 7), (46, 2, 9), (48, 8, 3000)]
def job2b : Job := { pav := 1, sq := 0, seq := 5, op := 8, deferred := false, src := 0x400, dst := 0x800, len := 9, srcHost := true }
def job3 : Job := { pav := 1, sq := 0, seq := 5, op := 9, deferred := false, src := 0x400, dst := 0x400, len := 9, chan := some (2, .report, {}), reg := crcStart {} }
def exp1 : Export := { pav := 1, sq := 0, seq := 3, deferred := false, handle := 3, dest := 9, expId := 4 }

/-! ### Ill-formed operands: one for each check -/

/-- Descriptors and rings: a listed opcode as reserved; a SUBOP that is listed, or of an opcode without SUBOP; fetches of 0 and of 17
entries; an enable without bit 0 and a disable with it. -/
theorem test_ill_formed_rings :
    ([.reservedOpcode 5 (mk 1 0 0 5 0 []), .unlistedSubop 0x0B (mk 1 0 0 5 0 [(8, 1, 6)]), .unlistedSubop 1 (mk 1 0 0 5 0 [(8, 1, 200)]),
      .descriptorFetch 1 0 0, .descriptorFetch 1 0 17, .fetchDataArrival 1 0 0 [], .sqEnable 1 0 0, .sqDisable 1 0 1] : List Instr).all
      (fun c => !instrWf c) = true := by decide +kernel
/-- Host accesses: past the configuration space, past BAR0, of no byte or more than 4, off a word. -/
theorem test_ill_formed_accesses :
    ([.configRequest 1 (.read 4096), .configRequest 1 (.write 4096 0), .bar2Write 1 0 [], .bar2Read 1 0 0, .bar2Read 1 0 4097,
      .registerWrite .host 1 0x1000000 4 0, .registerWrite .host 1 0 0 0, .registerWrite .host 1 0 5 0, .readClear .host 1 0x1000000 4,
      .readClear .host 1 0 0, .multiwordLowRead .host 1 2, .multiwordLowRead .host 1 0x1000000, .keepApertureWrite 65536 0, .keepApertureWrite 2 0] :
      List Instr).all (fun c => !instrWf c) = true := by decide +kernel
/-- The Dome, JTAG, training and boot: a short EDID block, an access of the other JTAG row, codes that name no block, a try without a
pattern, a march failure past its memory, a die with an outcome that is none. -/
theorem test_ill_formed_system :
    ([.edidReadDone 0 (.data [1]), .jtagMemAccess .readFuses, .jtagDomeDebug (.readReg 0), .handoverQuiesceDone 0x60, .handoverQuiesceTimeout 0x52,
      .marchRunDone [⟨0, 16, 0, 0⟩], .marchRunDone [⟨2, 0, 0, 72⟩],
      .boot { xinStable := true, refclk := 15, flash := [], dies := Vector.replicate 8 { gb := 8, width := 16, ranks2 := false, attempts := [3] }, march := [] },
      .monitorWindow (2 ^ 32) #v[0, 0, 0, 0], .scanComplete [65536], .hapticHalfCycle 0 ⟨none, 65536⟩] : List Instr).all (fun c => !instrWf c) = true := by
  decide +kernel
/-- Flits: each row with the flit of another class or type, and a listed type as unlisted. -/
theorem test_ill_formed_flits :
    ([.sync 1 (mkFlit 0 1 []) 0, .delayReq 1 (mkFlit 0 0 []), .delayResp 1 (mkFlit 0 1 []), .report 1 (mkFlit 0 5 []), .decide 1 (mkFlit 0 4 []),
      .adopt 1 (mkFlit 0 7 []), .master 1 (mkFlit 0 6 []), .alarm 1 (mkFlit 0 0 []), .idle 1 (mkFlit 2 1 []), .ident 1 (mkFlit 2 0 []),
      .presence 1 (mkFlit 2 3 []), .streamAlive 1 (mkFlit 2 3 [(12, 1, 1)]), .streamNak 1 (mkFlit 2 3 []), .streamTsUpdate 1 (mkFlit 2 3 []),
      .credit 1 (mkFlit 2 0 []), .xferBegin 1 (mkFlit 3 1 []), .dataHead 1 (mkFlit 3 2 []), .data 1 (mkFlit 3 1 []), .xferEnd 1 (mkFlit 3 0 []),
      .flitUnlisted 1 (mkFlit 2 0 [])] : List Instr).all (fun c => !instrWf c) = true := by decide +kernel
/-- Memories: a request of no byte, one across two atoms, a write of fewer bytes than it says, an access across two words. -/
theorem test_ill_formed_memories :
    ([.dramRead ⟨0, 0, 0, none⟩ .clean, .dramRead ⟨0, 60, 8, none⟩ .clean, .dramWrite ⟨0, 0, 4, none⟩ [1] none,
      .sramAccess [⟨.orangery, 2, 30, none, 4, .clean⟩], .sramAccess [⟨.orangery, 2, 0, some [1], 2, .clean⟩]] : List Instr).all
      (fun c => !instrWf c) = true := by decide +kernel
/-- No word spells a command: the table gives no row any bits. -/
theorem test_no_word : decodeTableWord 32 0xFFFFFFFF = none := rfl

/-! ### Worked examples of the spec -/

/-- 13_check_values.md, parameter examples: the check column, over the nine bytes 0x31 to 0x39. -/
theorem test_crc_check_column :
    let m : List Byte := [0x31, 0x32, 0x33, 0x34, 0x35, 0x36, 0x37, 0x38, 0x39]
    crcOf { width := 8, poly := 0x07, init := 0, refin := false, refout := false, xorout := 0 } m = 0xF4 ∧ crcOf crc16 m = 0x29B1
      ∧ crcOf { width := 32, poly := 0x04C11DB7, init := 0xFFFFFFFF, refin := true, refout := true, xorout := 0xFFFFFFFF } m = 0xCBF43926
      ∧ crcOf { width := 32, poly := 0x1EDC6F41, init := 0xFFFFFFFF, refin := true, refout := true, xorout := 0xFFFFFFFF } m = 0xE3069283 := by
  decide +kernel
/-- 10_dram.md: the address 0x0C83_5A40 lies on DMC0. -/
theorem test_dram_channel : chanOf 0x0C835A40 = 0 := by decide
/-- 04_composition.md: a 2:1 upscale reads destination pixel 0 at base −1, phase 48. -/
theorem test_scaler_position : srcPos 960 1920 0 = (-1, 48) := by decide
/-- 04_composition.md: granules of a 3,840-wide layer, upscaled with 6 taps, downscaled 4:1, unscaled. -/
theorem test_granules :
    let r (w h : Nat) : Rect := { x0 := 0, y0 := 0, x1 := w, y1 := h }
    ({ vTaps := 6, src := r 3840 540, dst := r 3840 1080 : Layer }).granules = 8 ∧ ({ vTaps := 6, src := r 3840 2160, dst := r 3840 540 : Layer }).granules = 10
      ∧ ({ src := r 3840 1080, dst := r 3840 1080 : Layer }).granules = 2 := by decide
/-- 07_freshness.md: a palette entry A 0xFF, R 0xC0, G 0xFF, B 0x00 gives (771, 1,023, 0) and the word 0xF03F_FC00. -/
theorem test_formatter_word :
    unpack8888 0xFFC0FF00 = ⟨4095, 3084, 4095, 0⟩ ∧ format1 false 0 0 3084 = 771 ∧ format1 false 0 0 4095 = 1023 ∧ packWord 771 1023 0 = 0xF03FFC00 := by decide
/-- 03_descriptors.md, the BUF_ATTACH: its record reads 2A 00 00 01 03 FF 00 00. -/
theorem test_completion_record : cqRecord 42 0 1 false false false 3 0xFF 0 = 0xFF030100002A := by decide

/-! ### Witnesses of the statements about every command -/

/-- A queue with a command in front, and an empty one; a step that answers next. -/
theorem test_witness_StepRunsFrontCommand : (∃ (s : State) (c : Instr) (rest : List Instr), s.pending = c :: rest) ∧ ∃ s : State, s.pending = [] :=
  ⟨⟨{ live with pending := [.jtagIdcode] }, _, _, rfl⟩, live, rfl⟩
theorem test_witness_StepKeepsInvariant : ∃ s t : State, s.Inv ∧ step s = .next t :=
  ⟨{ live with pending := [.jtagIdcode] }, _, by unfold State.Inv; decide, rfl⟩
theorem test_witness_EveryCommandAnswers : ∃ (c : Instr) (s : State), s.Inv ∧ s.pwr.reset ≠ .running ∧ aonCommand c = false :=
  ⟨.syncTimer, { live with pwr := { live.pwr with reset := .warm } }, by unfold State.Inv; decide, by decide, rfl⟩
/-- A claim of every place of the log ring (4,096 records) holds of each place a record can take. -/
theorem all4096 {P : Nat → Prop} [DecidablePred P] (h : ∀ a b : Fin 64, P (a.val * 64 + b.val)) (k : Nat) : P (k % 4096) := by
  have := h ⟨k % 4096 / 64, by omega⟩ ⟨k % 64, by omega⟩
  rwa [show k % 4096 / 64 * 64 + k % 64 = k % 4096 by omega] at this

/-! ### Requests of the safety Pavilion, sealed under key 5 -/

def sealed0 : BitVec 2048 := 0x3d27712ec3ea5eba9e6afdbaf1c2b04c7f99cf1eda49956a5deeac2814801fc0000000000000000000000000000000000000000000000000000000000000000000000000000000000000000000000000000000000000000000000000000000000000000000000000000000000000000000000000000000000000000000000000000000000000000000000000000000000000000000000000000000000000000000000000000000000000000000000000000000000000000000000000bb37ec28ab2a63253b7a31ecf73c6d6f28d26cd575c89e97d59d71f7ff0847370000004000000000000000000000000000030d4000000000000000010000000700000010
def sealed1 : BitVec 2048 := 0xc6d138187e0a522421cce60089139e73984c74f9ca8a8014c5e99b0d4476e846000000000000000000000000000000000000000000000000000000000000000000000000000000000000000000000000000000000000000000000000000000000000000000000000000000000000000000000000000000000000000000000000000000000000000000000000000000000000000000000000000000000000000000000000000000000000000000000000000000000000000000000000bb37ec28ab2a63253b7a31ecf73c6d6f28d26cd575c89e97d59d71f7ff08473700000040000000000000000000000000000001f400000000000000010000000700000010
def sealed2 : BitVec 2048 := 0xd75b67faabd0123f6fa451a5a62f731b0169256f88d18d7912a73a966802d5ef000000000000000000000000000000000000000000000000000000000000000000000000000000000000000000000000000000000000000000000000000000000000000000000000000000000000000000000000000000000000000000000000000000000000000000000000000000000000000000000000000000000000000000000000000000000000000000000000000000000000000000000000000000000000000000000000000000000000000000000000000000000000004d00000000000000000000000000000000000001f400000000000000010000000700000011
def sealed3 : BitVec 2048 := 0x368560f0ec99e531de12b9a82c895a05b8bfebbded02ab49f3d1b94a82c7f039000000000000000000000000000000000000000000000000000000000000000000000000000000000000000000000000000000000000000000000000000000000000000000000000000000000000000000000000000000000000000000000000000000000000000000000000000000000000000000000000000000000000000000000000000000000000000000000000000000000000000000000000000000000000000000000000000000000000000000000000000000000000004e0000000000000000000000000000000002faf08000000000000000010000000700000011
def sealed4 : BitVec 2048 := 0xa97e70525c666ad5214a98a73deab5074d026f2efb23c168f42e61405bdb0b0f0000000000000000000000000000000000000000000000000000000000000000000000000000000000000000000000000000000000000000000000000000000000000000000000000000000000000000000000000000000000000000000000000000000000000000000000000000000000000000000000000000000100000000000000000000000000000000000000000000000000000000000000000000000000000000000000000000000000000000000000000000000000000000000000000000000000000000000000000000000000000000000000000000000700000012
def sealed5 : BitVec 2048 := 0x4e8f9e086a43b23821a5d1cf6615b9fd6b06cdadcb7fdbdf35f92377dfc90b10000000000000000000000000000000000000000000000000000000000000000000000000000000000000000000000000000000000000000000000000000000000000000000000000000000000000000000000000000000000000000000000000000000000000000000000000000000000000000000000000000000000000000000000000000000000000000000000000000000000000000000000000000000000000000000000000000000000000000000000000000000000000000000000000000000000000000000000000000000000000000000000010000000700000012
def sealed6 : BitVec 2048 := 0xc4c9ad0109cc7b284a323bba0a889e35b1a9c119d67589d54ac64e5444572f160000000000000000000000000000000000000000000000000000000000000000000000000000000000000000000000000000000000000000000000000000000000000000000000000000000000000000000000000000000000000000000000000000000000000000000000000000000000000000000000000000000000000000000000000000000000000000000000000000000000000000000000000000000000000000000000000000000000000000000000000000000000000000000000000000000000000000000000000000007700000000000000010000000700000014
def sealed7 : BitVec 2048 := 0xd3310b4213a6861470b86eab61ab5ee0458cd4ebd3ea91f9456f1ab86b4df81f0000000000000000000000000000000000000000000000000000000000000000000000000000000000000000000000000000000000000000000000000000000000000000000000000000000000000000000000000000000000000000000000000000000000000000000000000000000000000000000000000000000000000000000000000000000000000000000000000000000000000000000000000000000000000000000000000000000000000000000000000000000000000000000000000000000000000000000000000001020100000000000000010000000000000017
def sealed8 : BitVec 2048 := 0x45a04b9b4e1801fb569d2709ad98957fd6fbcf34bef5fa3d4625688dea3409000000000000000000000000000000000000000000000000000000000000000000000000000000000000000000000000000000000000000000000000000000000000000000000000000000000000000000000000000000000000000000000000000000000000000000000000000000000000000000000000000000000000000000000000000000000000000000000000000000000000000000000000000000000000000000000000000000000000000000000000000000000000000000000000000000000000000000000000000000000100000000000000010000000700000013
def sealed9 : BitVec 2048 := 0xb96359f20f6a6e4559df4106f09ff6fb250859e4acd8a328508794a61ceaf64b0000000000000000000000000000000000000000000000000000000000000000000000000000000000000000000000000000000000000000000000000000000000000000000000000000000000000000000000000000000000000000000000000000000000000000000000000000000000000000000000000000000000000000000000000000000000000000000000000000000000000000000000000000000000000000000000000000000000000000000000000000000000000000000000000000000000000000000000000000000300000000000000010000000700000015
theorem check_ok {s : State} {p : Fin 64} {m : BitVec 2048} (ht : hmac (leBytes 32 5) (mBytes m 0 224) = mBytes m 224 32)
    (h : let b := s.belvs[(f8 (mU m 1 1)).val]
      s.dome.tamperKeys = false ∧ ¬ (b.safety ≠ p ∨ (if mU m 0 1 < 0x13 then !b.cfg.getLsbD 0 else !b.hasKey) ∨ !reservedZero m
        ∨ (mU m 0 1 = 0x10 ∧ (s.staging p b m).isNone)) ∧ b.key.toNat = 5 ∧ ¬ mU m 8 8 ≤ b.seq.toNat) : s.safetyCheck p m = 0 := by
  obtain ⟨h1, h2, h3, h4⟩ := h
  unfold State.safetyCheck
  dsimp only
  rw [h1, if_neg (by decide), if_neg h2, h3, if_neg (fun h => h ht), if_neg h4]
theorem tag_sealed0 : hmac (leBytes 32 5) (mBytes sealed0 0 224) = mBytes sealed0 224 32 := by decide +kernel
theorem tag_sealed1 : hmac (leBytes 32 5) (mBytes sealed1 0 224) = mBytes sealed1 224 32 := by decide +kernel
theorem tag_sealed2 : hmac (leBytes 32 5) (mBytes sealed2 0 224) = mBytes sealed2 224 32 := by decide +kernel
theorem tag_sealed3 : hmac (leBytes 32 5) (mBytes sealed3 0 224) = mBytes sealed3 224 32 := by decide +kernel
theorem tag_sealed4 : hmac (leBytes 32 5) (mBytes sealed4 0 224) = mBytes sealed4 224 32 := by decide +kernel
theorem tag_sealed5 : hmac (leBytes 32 5) (mBytes sealed5 0 224) = mBytes sealed5 224 32 := by decide +kernel
theorem tag_sealed6 : hmac (leBytes 32 5) (mBytes sealed6 0 224) = mBytes sealed6 224 32 := by decide +kernel
theorem tag_sealed7 : hmac (leBytes 32 5) (mBytes sealed7 0 224) = mBytes sealed7 224 32 := by decide +kernel
theorem tag_sealed8 : hmac (leBytes 32 5) (mBytes sealed8 0 224) = mBytes sealed8 224 32 := by decide +kernel
theorem tag_sealed9 : hmac (leBytes 32 5) (mBytes sealed9 0 224) = mBytes sealed9 224 32 := by decide +kernel

/-! ### Rings -/

namespace B

theorem test_witness_SqDoorbellTakesTail :
    (∃ (s : State) (p : Fin 64) (q : Fin 8) (tail : BitVec 16), (s.Good) ∧ (s.HostTo p)) := by
  refine ⟨live, 0, 0, 0x0, ?_⟩ <;>
    first | decide +kernel | (simp only [State.Good, State.Inv, State.Steady, State.HostTo, State.HostRuns, State.ConfigTo, State.BeginsAtOnce, State.Accepts, State.Asked]; decide +kernel)
theorem test_witness_SubmissionRingStates :
    (∃ (s : State) (p : Fin 64) (q : Fin 8) (v : Word), (s.Good) ∧ (s.HostTo p) ∧ (s.pavs[p.val].sqs[q.val].st = SqSt.disabled) ∧ (ringOk (bits (BitVec.toNat v) 8 4) s.pavs[p.val].sqs[q.val].base 64 = true))
    ∧ (∃ (s : State) (p : Fin 64) (q : Fin 8) (v : Word), (s.Good) ∧ (s.HostTo p) ∧ (s.pavs[p.val].sqs[q.val].st = SqSt.disabled) ∧ (ringOk (bits (BitVec.toNat v) 8 4) s.pavs[p.val].sqs[q.val].base 64 = false))
    ∧ (∃ (s : State) (p : Fin 64) (q : Fin 8) (v : Word), (s.Good) ∧ (s.HostTo p) ∧ (s.pavs[p.val].sqs[q.val].st = SqSt.draining))
    ∧ (∃ (s : State) (p : Fin 64) (q : Fin 8) (v : Word), (s.Good) ∧ (s.HostTo p) ∧ (s.pavs[p.val].sqs[q.val].st = SqSt.running ∨ s.pavs[p.val].sqs[q.val].st = SqSt.stopped))
    ∧ (∃ (s : State) (p : Fin 64) (q : Fin 8) (v : Word), (s.Good) ∧ (s.pavs[p.val].sqs[q.val].st = SqSt.draining) ∧ (s.pavs[p.val].sqs[q.val].fetch = []) ∧ (s.pavs[p.val].sqs[q.val].live = 0) ∧ (s.pavs[p.val].sqs[q.val].keep = false))
    ∧ (∃ (s : State) (p : Fin 64) (q : Fin 8) (v : Word), (s.Good) ∧ (s.pavs[p.val].sqs[q.val].st = SqSt.draining) ∧ (s.pavs[p.val].sqs[q.val].fetch = []) ∧ (s.pavs[p.val].sqs[q.val].live = 0) ∧ (s.pavs[p.val].sqs[q.val].keep = true) ∧ (ringOk s.pavs[p.val].sqs[q.val].size s.pavs[p.val].sqs[q.val].base 64 = true)) := by
  refine ⟨⟨live, 0, 0, 0x41, ?_⟩,
    ⟨live, 0, 0, 0x0, ?_⟩,
    ⟨live.modSq 0 1 fun q => { q with st := .draining }, 0, 1, 0x0, ?_⟩,
    ⟨live.modSq 0 1 fun q => { q with st := .running, size := 4, base := 0x1000, tail := 5, head := 2 }, 0, 1, 0x0, ?_⟩,
    ⟨live.modSq 0 1 fun q => { q with st := .draining }, 0, 1, 0x0, ?_⟩,
    ⟨live.modSq 0 1 fun q => { q with st := .draining, keep := true, size := 4, base := 0x1000 }, 0, 1, 0x0, ?_⟩⟩ <;>
    first | decide +kernel | (simp only [State.Good, State.Inv, State.Steady, State.HostTo, State.HostRuns, State.ConfigTo, State.BeginsAtOnce, State.Accepts, State.Asked]; decide +kernel)
theorem test_witness_CompletionAndEventRings :
    (∃ (s : State) (p : Fin 64) (v : Word), (s.Good) ∧ (s.HostTo p) ∧ (s.pavs[p.val].cq.held = []) ∧ (s.pavs[p.val].eq.owed = false) ∧ (BitVec.getLsbD v 0 = true) ∧ (s.pavs[p.val].cq.enable = false))
    ∧ (∃ (s : State) (p : Fin 64) (v : Word), (s.Good) ∧ (s.HostTo p) ∧ (s.pavs[p.val].cq.held = []) ∧ (s.pavs[p.val].eq.owed = false) ∧ (BitVec.getLsbD v 0 = true) ∧ (s.pavs[p.val].eq.enable = false))
    ∧ (∃ (s : State) (p : Fin 64) (head : BitVec 16), (s.Good) ∧ (s.HostTo p) ∧ (s.pavs[p.val].cq.held = []) ∧ (s.pavs[p.val].eq.owed = false)) := by
  refine ⟨⟨live, 0, 0x1, ?_⟩,
    ⟨live, 0, 0x1, ?_⟩,
    ⟨live, 0, 0x0, ?_⟩⟩ <;>
    first | decide +kernel | (simp only [State.Good, State.Inv, State.Steady, State.HostTo, State.HostRuns, State.ConfigTo, State.BeginsAtOnce, State.Accepts, State.Asked]; decide +kernel)
theorem test_witness_FetchedDescriptors :
    (∃ (s : State) (p : Fin 64) (q : Fin 8) (n : Nat), (s.Good) ∧ (0 < fetchable s.pavs[p.val] q n) ∧ (s.inRecovery = false) ∧ (s.fetcher (portOf p) = some (p, q)) ∧ ((s.pavs[p.val].sqs[q.val].head.toNat + s.pavs[p.val].sqs[q.val].asked) % 2 ^ s.pavs[p.val].sqs[q.val].size +     fetchable s.pavs[p.val] q n ≤   2 ^ s.pavs[p.val].sqs[q.val].size))
    ∧ (∃ (s : State) (p : Fin 64) (q : Fin 8) (n : Nat), (s.Good) ∧ (fetchable s.pavs[p.val] q n = 0 ∨ s.fetcher (portOf p) ≠ some (p, q)))
    ∧ (∃ (s : State) (p : Fin 64) (q : Fin 8), (s.Good) ∧ (s.pavs[p.val].sqs[q.val].fetch ≠ []) ∧ (s.pavs[p.val].sqs[q.val].st = SqSt.running))
    ∧ (∃ (s : State) (p : Fin 64) (q : Fin 8) (e : FetchErr), (s.Good) ∧ (s.pavs[p.val].sqs[q.val].fetch ≠ []) ∧ (s.pavs[p.val].sqs[q.val].st = SqSt.running))
    ∧ (∃ (s : State) (p : Fin 64) (q : Fin 8) (e : FetchErr), (s.Good) ∧ (s.pavs[p.val].sqs[q.val].fetch ≠ []) ∧ (s.pavs[p.val].sqs[q.val].st = SqSt.draining))
    ∧ (∃ (s : State) (p : Fin 64) (q : Fin 8) (e : FetchErr), (s.Good) ∧ (s.ConfigTo p) ∧ (s.pavs[p.val].sqs[q.val].fetch ≠ []))
    ∧ (∃ (s : State) (p : Fin 64) (q : Fin 8) (f : FetchReq) (rest : List FetchReq) (e : BitVec 512), (s.Good) ∧ (s.pavs[p.val].sqs[q.val].fetch = f :: rest) ∧ (f.got = []) ∧ (1 < f.left) ∧ ((s.modSq p q fun x =>       { base := x.base, size := x.size, weight := x.weight, head := x.head + 1, tail := x.tail, st := x.st,         err := x.err, errFlag := x.errFlag, keep := x.keep,         fetch := { tag := f.tag, left := f.left - 1, got := f.got : FetchReq } :: rest,         nextTag := x.nextTag, live := x.live, bell := x.bell : Sq }).BeginsAtOnce   (entryOp e) (entryDesc p q e)))
    ∧ (∃ (s : State) (p : Fin 64) (q : Fin 8) (f : FetchReq) (rest : List FetchReq) (e : BitVec 512), (s.Good) ∧ (s.pavs[p.val].sqs[q.val].fetch = f :: rest) ∧ (f.got = []) ∧ (f.left = 1) ∧ (rest = []) ∧ ((s.modSq p q fun x =>       { base := x.base, size := x.size, weight := x.weight, head := x.head + 1, tail := x.tail, st := x.st,         err := x.err, errFlag := x.errFlag, keep := x.keep, nextTag := x.nextTag, live := x.live, bell := x.bell :         Sq }).BeginsAtOnce   (entryOp e) (entryDesc p q e)))
    ∧ (∃ (s : State) (p : Fin 64) (q : Fin 8) (f : FetchReq) (rest : List FetchReq) (e : BitVec 512) (g : FetchReq), (s.Good) ∧ (s.pavs[p.val].sqs[q.val].fetch = f :: rest) ∧ (f.got = []) ∧ (rest = [g]) ∧ (0 < f.left) ∧ (f.tag ≠ g.tag) ∧ (0 < g.left))
    ∧ (∃ (s : State) (p : Fin 64) (q : Fin 8) (tag : Nat) (es : List (BitVec 512)), (s.Good) ∧ ((s.pavs[p.val].sqs[q.val].fetch.any fun f => f.tag == tag) = false))
    ∧ (∃ (s : State) (p : Fin 64) (q : Fin 8) (e : BitVec 512), (s.Good)) := by
  refine ⟨⟨((live.modSq 0 1 fun q => { q with st := .running, size := 4, base := 0x1000, tail := 5, head := 2, fetch := [{ tag := 4, left := 1 }] }).modCq 0 fun c => { c with enable := true, size := 8 }), 0, 1, 1, ?_⟩,
    ⟨live, 0, 0, 0, ?_⟩,
    ⟨((live.modSq 0 1 fun q => { q with st := .running, size := 4, base := 0x1000, tail := 5, head := 2, fetch := [{ tag := 4, left := 2 }, { tag := 5, left := 1 }] }).modCq 0 fun c => { c with enable := true, size := 8 }), 0, 1, ?_⟩,
    ⟨((live.modSq 0 1 fun q => { q with st := .running, size := 4, base := 0x1000, tail := 5, head := 2, fetch := [{ tag := 4, left := 2 }, { tag := 5, left := 1 }] }).modCq 0 fun c => { c with enable := true, size := 8 }), 0, 1, .timeout, ?_⟩,
    ⟨live.modSq 0 1 fun q => { q with st := .draining, fetch := [{ tag := 4, left := 2 }] }, 0, 1, .timeout, ?_⟩,
    ⟨((live.modSq 0 1 fun q => { q with st := .running, size := 4, base := 0x1000, tail := 5, head := 2, fetch := [{ tag := 4, left := 2 }, { tag := 5, left := 1 }] }).modCq 0 fun c => { c with enable := true, size := 8 }), 0, 1, .timeout, ?_⟩,
    ⟨((live.modSq 0 1 fun q => { q with st := .running, size := 4, base := 0x1000, tail := 5, head := 2, fetch := [{ tag := 4, left := 2 }, { tag := 5, left := 1 }] }).modCq 0 fun c => { c with enable := true, size := 8 }), 0, 1, { tag := 4, left := 2 }, [{ tag := 5, left := 1 }], 0x11110002_00000000_00070001 % 2^512, ?_⟩,
    ⟨((live.modSq 0 1 fun q => { q with st := .running, size := 4, base := 0x1000, tail := 5, head := 2, fetch := [{ tag := 4, left := 1 }] }).modCq 0 fun c => { c with enable := true, size := 8 }), 0, 1, { tag := 4, left := 1 }, [], 0x11110002_00000000_00070001 % 2^512, ?_⟩,
    ⟨((live.modSq 0 1 fun q => { q with st := .running, size := 4, base := 0x1000, tail := 5, head := 2, fetch := [{ tag := 4, left := 2 }, { tag := 5, left := 1 }] }).modCq 0 fun c => { c with enable := true, size := 8 }), 0, 1, { tag := 4, left := 2 }, [{ tag := 5, left := 1 }], 0x11110002_00000000_00070001 % 2^512, { tag := 5, left := 1 }, ?_⟩,
    ⟨live, 0, 0, 0, [], ?_⟩,
    ⟨live, 0, 0, 0x11110002_00000000_00070001 % 2^512, ?_⟩⟩ <;>
    first | decide +kernel | (simp only [State.Good, State.Inv, State.Steady, State.HostTo, State.HostRuns, State.ConfigTo, State.BeginsAtOnce, State.Accepts, State.Asked]; decide +kernel)
theorem test_witness_Interrupts :
    (∃ (s : State) (p : Fin 64) (vec : Fin 32), (s.Good) ∧ (s.HostTo p) ∧ (s.pavs[p.val].msix[vec.val].pend = true) ∧ (s.pavs[p.val].bme = true))
    ∧ (∃ (s : State) (p : Fin 64) (vec : Fin 32), (s.Good) ∧ (s.HostTo p) ∧ (s.pavs[p.val].msix[vec.val].pend = false))
    ∧ (∃ (s : State) (p : Fin 64), (s.Good) ∧ (0 < s.pavs[p.val].cq.unsig) ∧ (s.pavs[p.val].cq.timer = true) ∧ (bits (BitVec.toNat s.pavs[p.val].cq.mod) 31 16 ≠ 0))
    ∧ (∃ (s : State) (p : Fin 64), (s.Good) ∧ (0 < s.pavs[p.val].eq.unsig) ∧ (s.pavs[p.val].eq.timer = true) ∧ (bits (BitVec.toNat s.pavs[p.val].eq.mod) 31 16 ≠ 0))
    ∧ (∃ (s : State) (p : Fin 64), (s.Good) ∧ (s.pavs[p.val].cq.unsig = 0 ∨   bits (BitVec.toNat s.pavs[p.val].cq.mod) 31 16 = 0))
    ∧ (∃ (s : State) (p : Fin 64), (s.Good) ∧ (s.pavs[p.val].eq.unsig = 0 ∨   bits (BitVec.toNat s.pavs[p.val].eq.mod) 31 16 = 0)) := by
  refine ⟨⟨live.modPav 0 fun v => { v with msix := upd v.msix 1 fun m => { m with pend := true, addr := 0x4000, data := 9 } }, 0, 1, ?_⟩,
    ⟨live, 0, 0, ?_⟩,
    ⟨live.modCq 0 fun c => { c with enable := true, base := 0x1000, size := 4, unsig := 1, timer := true, mod := 0x50002, tail := 5, head := 2 }, 0, ?_⟩,
    ⟨live.modEq 0 fun c => { c with enable := true, base := 0x1000, size := 4, unsig := 1, unsigGroups := 1, timer := true, mod := 0x50002, tail := 5, head := 2 }, 0, ?_⟩,
    ⟨live, 0, ?_⟩,
    ⟨live, 0, ?_⟩⟩ <;>
    first | decide +kernel | (simp only [State.Good, State.Inv, State.Steady, State.HostTo, State.HostRuns, State.ConfigTo, State.BeginsAtOnce, State.Accepts, State.Asked]; decide +kernel)
end B

/-! ### Registers -/

namespace C
def live2 : State := { live with spire := { live.spire with image := some img1 } }
theorem test_witness_FenceRegisterWrites :
    (∃ (s : State) (p : Fin 64) (c : Fin 256) (v : Word), (s.Good) ∧ (s.HostTo p))
    ∧ (∃ (s : State) (p : Fin 64) (c : Fin 256) (v : Word), (s.Good) ∧ (s.HostTo p) ∧ (BitVec.toNat s.pavs[p.val].fences[c.val] ≤   BitVec.toNat s.pavs[p.val].fenceHi[c.val] * 2 ^ 32 + BitVec.toNat v))
    ∧ (∃ (s : State) (p : Fin 64) (c : Fin 256) (v : Word), (s.Good) ∧ (s.HostTo p) ∧ (BitVec.toNat s.pavs[p.val].fenceHi[c.val] * 2 ^ 32 + BitVec.toNat v <   BitVec.toNat s.pavs[p.val].fences[c.val])) := by
  refine ⟨⟨live, 0, 0, 0x0, ?_⟩,
    ⟨live, 0, 0, 0x0, ?_⟩,
    ⟨live.modPav 1 fun v => { v with fences := upd v.fences 1 fun _ => 0x500000003, fenceHi := upd v.fenceHi 1 fun _ => 5, bar2Miss := 77 }, 1, 1, 0x0, ?_⟩⟩ <;>
    first | decide +kernel | (simp only [State.Good, State.Inv, State.Steady, State.HostTo, State.HostRuns, State.ConfigTo, State.BeginsAtOnce, State.Accepts, State.Asked]; decide +kernel)
theorem test_witness_SpireTimeWritesAndTimeIn :
    (∃ (s : State) (v : Word), (s.Good) ∧ (s.HostTo (0 : Fin 64)) ∧ (s.spire.master = true ∨ s.standAlone = true))
    ∧ (∃ (s : State) (v : Word), (s.Good) ∧ (s.HostTo (0 : Fin 64)) ∧ (s.spire.master = false) ∧ (s.standAlone = false))
    ∧ (∃ (s : State) (t : Nat), (s.Good) ∧ (s.spire.tiEn = true) ∧ (s.timeMaster = true) ∧ (s.spire.tiFirst = true))
    ∧ (∃ (s : State) (t : Nat), (s.Good) ∧ (s.spire.tiEn = true) ∧ (s.timeMaster = true) ∧ (s.spire.tiFirst = false) ∧ (500000 <   ((t : Int) - ((t + 500000000) / 1000000000 * 1000000000 : Nat)).natAbs))
    ∧ (∃ (s : State) (t : Nat), (s.Good) ∧ (s.spire.tiEn = true) ∧ (s.timeMaster = true) ∧ (s.spire.tiFirst = false) ∧ (((t : Int) - ((t + 500000000) / 1000000000 * 1000000000 : Nat)).natAbs ≤   500000))
    ∧ (∃ (s : State) (t : Nat), (s.Good) ∧ (s.spire.tiEn = true) ∧ (s.timeMaster = true) ∧ (s.arrived.contains Awaited.timeIn = false))
    ∧ (∃ (s : State) (t : Nat), (s.Good) ∧ (s.spire.tiEn = true) ∧ (s.timeMaster = true) ∧ (s.arrived.contains Awaited.timeIn = true))
    ∧ (∃ (s : State) (t : Nat), (s.Good) ∧ (s.spire.tiEn = false ∨ s.timeMaster = false)) := by
  refine ⟨⟨live, 0x0, ?_⟩,
    ⟨live2, 0x0, ?_⟩,
    ⟨{ live with spire := { live.spire with tiEn := true, tiFirst := true, now := 900000000 } }, 0, ?_⟩,
    ⟨{ live with spire := { live.spire with tiEn := true, now := 900000000 } }, 1000500001, ?_⟩,
    ⟨{ live with spire := { live.spire with tiEn := true, now := 900000000 } }, 0, ?_⟩,
    ⟨{ live with spire := { live.spire with tiEn := true, tiFirst := true, now := 900000000 } }, 0, ?_⟩,
    ⟨{ live with arrived := [.timeIn], spire := { live.spire with tiEn := true, now := 900000000 } }, 900000000, ?_⟩,
    ⟨live, 0, ?_⟩⟩ <;>
    first | decide +kernel | (simp only [State.Good, State.Inv, State.Steady, State.HostTo, State.HostRuns, State.ConfigTo, State.BeginsAtOnce, State.Accepts, State.Asked]; decide +kernel)
theorem test_witness_ManagerRegisterWrites :
    (∃ (s : State) (o : Fin 8), (s.Good) ∧ (s.HostTo (0 : Fin 64)) ∧ (bits (BitVec.toNat s.outs[o.val].recover) 15 0 = 0) ∧ (s.outs[o.val].cause1 = true))
    ∧ (∃ (s : State) (o : Fin 8), (s.Good) ∧ (s.HostTo (0 : Fin 64)) ∧ (bits (BitVec.toNat s.outs[o.val].recover) 15 0 ≠ 0 ∨   s.outs[o.val].cause1 = false))
    ∧ (∃ (s : State) (o : Fin 8) (b : BitVec 8), (s.Good) ∧ (s.HostTo (0 : Fin 64)) ∧ (s.outs[o.val].edidBusy = false))
    ∧ (∃ (s : State) (o : Fin 8) (b : BitVec 8), (s.Good) ∧ (s.HostTo (0 : Fin 64)) ∧ (s.outs[o.val].edidBusy = true))
    ∧ (∃ (s : State) (v : Word), (s.Good) ∧ (s.HostTo (0 : Fin 64)) ∧ (gap s.evt.tail (BitVec.setWidth 16 v) ≤ gap s.evt.tail s.evt.head) ∧ (BitVec.getLsbD v 16 = false))
    ∧ (∃ (s : State) (v : Word), (s.Good) ∧ (s.HostTo (0 : Fin 64)) ∧ (gap s.evt.tail s.evt.head < gap s.evt.tail (BitVec.setWidth 16 v)))
    ∧ (∃ (s : State) (l : Fin 12), (s.Good) ∧ (s.HostTo (0 : Fin 64)) ∧ (s.spire.links[l.val].st = LinkSt.disabled))
    ∧ (∃ (s : State) (l : Fin 12), (s.Good) ∧ (s.HostTo (0 : Fin 64)) ∧ (s.spire.links[l.val].st ≠ LinkSt.disabled))
    ∧ (∃ (s : State) (l : Fin 12), (s.Good) ∧ (s.HostTo (0 : Fin 64)) ∧ (s.spire.links[l.val].enable = false) ∧ (s.spire.links[l.val].st = LinkSt.off) ∧ ((s.spire.pairing l).isSome = true) ∧ (s.clk.gated.getLsbD (23 + l.val) = false))
    ∧ (∃ (s : State) (l : Fin 12), (s.Good) ∧ (s.HostTo (0 : Fin 64)) ∧ (s.spire.links[l.val].enable = true) ∧ (s.spire.links[l.val].st = LinkSt.train) ∧ (s.linkUp l = false)) := by
  refine ⟨⟨live.modOut 1 fun u => { u with cause1 := true, recover := 0, edidBusy := true }, 1, ?_⟩,
    ⟨live, 0, ?_⟩,
    ⟨live, 0, 0x0, ?_⟩,
    ⟨live.modOut 1 fun u => { u with cause1 := true, recover := 0, edidBusy := true }, 1, 0x0, ?_⟩,
    ⟨live, 0x0, ?_⟩,
    ⟨live, 0x1, ?_⟩,
    ⟨live2.modLink 1 fun k => { k with st := .disabled }, 1, ?_⟩,
    ⟨live, 0, ?_⟩,
    ⟨live2.modLink 1 fun k => { k with st := .off, enable := false }, 1, ?_⟩,
    ⟨live2.modLink 1 fun k => { k with st := .train }, 1, ?_⟩⟩ <;>
    first | decide +kernel | (simp only [State.Good, State.Inv, State.Steady, State.HostTo, State.HostRuns, State.ConfigTo, State.BeginsAtOnce, State.Accepts, State.Asked]; decide +kernel)
theorem test_witness_RegisterWordsAndReads :
    (∃ (s : State) (p : Fin 64) (off : Nat) (size : Nat) (v : Word), (s.Good) ∧ (s.HostTo p) ∧ (size ≠ 4 ∨ off % 4 ≠ 0))
    ∧ (∃ (s : State) (p : Fin 64) (v : Word), (s.Good) ∧ (s.HostTo p))
    ∧ (∃ (s : State) (p : Fin 64) (c : Fin 256) (v : Word), (s.Good) ∧ (s.reach p = true) ∧ (s.pavs[p.val].present = true) ∧ (s.pavs[p.val].ready = true) ∧ (s.pavs[p.val].mse = true) ∧ (s.pavs[p.val].fn.d3 = false) ∧ (s.clk.run.getLsbD (islHost (portOf p).val) = false))
    ∧ (∃ (s : State) (p : Fin 64) (off : Nat) (size : Nat), (s.Good) ∧ (s.reach p = true) ∧ (s.pavs[p.val].present = false ∨ s.pavs[p.val].ready = false ∨ s.pavs[p.val].mse = false ∨ s.pavs[p.val].fn.d3 = true))
    ∧ (∃ (s : State) (p : Fin 64), (s.Good) ∧ (s.HostTo p) ∧ (p ≠ (0 : Fin 64)))
    ∧ (∃ (s : State), (s.Good) ∧ (s.HostTo (0 : Fin 64)))
    ∧ (∃ (s : State) (w : Word), (s.Good) ∧ (s.HostTo (0 : Fin 64)) ∧ (List.find? (fun c => c.fst == 64 && c.snd.fst == 7340048) s.caps =   some (64, 7340048, w))) := by
  refine ⟨⟨live, 0, 0, 0, 0x0, ?_⟩,
    ⟨live, 0, 0x0, ?_⟩,
    ⟨{ live with clk := { live.clk with run := 0 } }, 0, 0, 0x0, ?_⟩,
    ⟨live, 17, 0, 0, ?_⟩,
    ⟨live, 1, ?_⟩,
    ⟨live, ?_⟩,
    ⟨{ live with caps := [(64, 0x700010, 9)] }, 9, ?_⟩⟩ <;>
    first | decide +kernel | (simp only [State.Good, State.Inv, State.Steady, State.HostTo, State.HostRuns, State.ConfigTo, State.BeginsAtOnce, State.Accepts, State.Asked]; decide +kernel)
end C

/-! ### Functions and BAR2 -/

namespace D

theorem test_witness_FunctionsOfAPort :
    (∃ (s : State) (p : Fin 64) (c : CfgOp), (s.Good) ∧ (s.ports[(portOf p).val].enabled = false))
    ∧ (∃ (s : State) (p : Fin 64) (c : CfgOp), (s.Good) ∧ (s.reach p = true) ∧ (s.pavs[p.val].present = false))
    ∧ (∃ (s : State) (p : Fin 64) (c : CfgOp), (s.Good) ∧ (s.reach p = true) ∧ (s.pavs[p.val].present = true) ∧ (s.pavs[p.val].ready = false))
    ∧ (∃ (s : State) (p : Fin 64), (s.Good) ∧ (s.ConfigTo p))
    ∧ (∃ (s : State) (p : Fin 64) (en : Bool), (s.Good) ∧ (s.ConfigTo p))
    ∧ (∃ (s : State) (p : Fin 64) (v : Word), (s.Good) ∧ (s.ConfigTo p))
    ∧ (∃ (s : State) (p : Fin 64) (v : Word), (s.Good) ∧ (s.ConfigTo p) ∧ (bits (BitVec.toNat v) 1 0 = 3))
    ∧ (∃ (s : State) (p : Fin 64) (c : Instr), (s.Good) ∧ (s.ConfigTo p) ∧ (p.val % 16 ≠ 0) ∧ (c = Instr.flr p ∨ c = Instr.d3hotToD0 p ∧ s.pavs[p.val].fn.d3 = true))
    ∧ (∃ (s : State) (p : Fin 64), (s.Good) ∧ (s.ConfigTo p) ∧ (s.pavs[p.val].fn.d3 = false))
    ∧ (∃ (s : State) (p : Fin 64) (c : CfgOp), (s.Inv) ∧ (s.pwr.reset = ResetSt.warm) ∧ (s.calm = true) ∧ (s.ports[(portOf p).val].enabled = false)) := by
  refine ⟨⟨live.modPort 0 fun t => { t with enabled := false }, 1, .read 0, ?_⟩,
    ⟨live.modPav 1 fun v => { v with present := false }, 1, .read 0, ?_⟩,
    ⟨live.modPav 1 fun v => { v with ready := false }, 1, .read 0, ?_⟩,
    ⟨live, 1, ?_⟩,
    ⟨live, 1, false, ?_⟩,
    ⟨live, 1, 0x0, ?_⟩,
    ⟨live, 1, 0x3, ?_⟩,
    ⟨live, 1, .flr 1, ?_⟩,
    ⟨live, 1, ?_⟩,
    ⟨{ live with pwr := { live.pwr with reset := .warm }, ports := Vector.replicate 4 {} }, 1, .read 0, ?_⟩⟩ <;>
    first | decide +kernel | (simp only [State.Good, State.Inv, State.Steady, State.HostTo, State.HostRuns, State.ConfigTo, State.BeginsAtOnce, State.Accepts, State.Asked]; decide +kernel)
theorem test_witness_PortEvents :
    (∃ (s : State) (n : Fin 4) (k : Fin 16), (s.Good) ∧ (s.ConfigTo (fp (n.val * 16))) ∧ (s.ports[n.val].vfEnable = true))
    ∧ (∃ (s : State) (n : Fin 4) (k : Fin 16), (s.Good) ∧ (s.ConfigTo (fp (n.val * 16))) ∧ (s.ports[n.val].vfEnable = false))
    ∧ (∃ (s : State) (n : Fin 4), (s.Good) ∧ (s.ConfigTo (fp (n.val * 16))))
    ∧ (∃ (s : State) (n : Fin 4) (c : Instr), (s.Good) ∧ ((c = Instr.hotReset n ∨ c = Instr.pcieLinkDown n) ∧ s.ports[n.val].linkUp = true ∨   c = Instr.hpPerst n ∧ s.ports[n.val].enabled = true))
    ∧ (∃ (s : State) (n : Fin 4) (c : Instr), (s.Good) ∧ (c = Instr.hotReset n ∨ c = Instr.pcieLinkDown n) ∧ (s.ports[n.val].linkUp = false))
    ∧ (∃ (s : State) (n : Fin 4), (s.Good) ∧ (s.ports[n.val].enabled = false))
    ∧ (∃ (s : State) (n : Fin 4) (speed : Fin 5) (width : Fin 4), (s.Good)) := by
  refine ⟨⟨live, 0, 0, ?_⟩,
    ⟨live.modPort 0 fun t => { t with vfEnable := false }, 0, 3, ?_⟩,
    ⟨live, 0, ?_⟩,
    ⟨live, 0, .hotReset 0, ?_⟩,
    ⟨live.modPort 0 fun t => { t with linkUp := false }, 0, .hotReset 0, ?_⟩,
    ⟨live.modPort 0 fun t => { t with enabled := false }, 0, ?_⟩,
    ⟨live, 0, 0, 0, ?_⟩⟩ <;>
    first | decide +kernel | (simp only [State.Good, State.Inv, State.Steady, State.HostTo, State.HostRuns, State.ConfigTo, State.BeginsAtOnce, State.Accepts, State.Asked]; decide +kernel)
theorem test_witness_Bar2AndMemory :
    (∃ (s : State) (p : Fin 64) (off : Nat) (data : List Byte) (m : MemId) (a : Nat) (o : Nat), (s.Good) ∧ (s.HostTo p) ∧ (pieces s.pavs[p.val].exts 0 off data.length = [(a, 0, data.length)]) ∧ (off + data.length ≤ extTotal s.pavs[p.val].exts) ∧ (s.locate a = some (m, o)) ∧ (m ≠ MemId.dram) ∧ (s.permit (masterP p) false m o data.length true = true))
    ∧ (∃ (s : State) (p : Fin 64) (off : Nat) (data : List Byte) (a : Nat) (o : Nat), (s.Good) ∧ (s.HostTo p) ∧ (pieces s.pavs[p.val].exts 0 off data.length = [(a, 0, data.length)]) ∧ (off + data.length ≤ extTotal s.pavs[p.val].exts) ∧ (s.locate a = some (MemId.dram, o)) ∧ (s.permit (masterP p) false MemId.dram o data.length true = true) ∧ (s.dramGone = false) ∧ (s.admits (portP p) o data.length = true))
    ∧ (∃ (s : State) (p : Fin 64) (off : Nat) (data : List Byte) (a : Nat) (o : Nat), (s.Good) ∧ (s.HostTo p) ∧ (pieces s.pavs[p.val].exts 0 off data.length = [(a, 0, data.length)]) ∧ (off + data.length ≤ extTotal s.pavs[p.val].exts) ∧ (s.locate a = some (MemId.dram, o)) ∧ (data ≠ []) ∧ (s.admits (portP p) o data.length = false))
    ∧ (∃ (s : State) (p : Fin 64) (off : Nat) (data : List Byte), (s.Good) ∧ (s.HostTo p) ∧ (extTotal s.pavs[p.val].exts ≤ off) ∧ (data ≠ []))
    ∧ (∃ (s : State) (p : Fin 64) (off : Nat) (len : Nat) (m : MemId) (a : Nat) (o : Nat), (s.Good) ∧ (s.HostTo p) ∧ (pieces s.pavs[p.val].exts 0 off len = [(a, 0, len)]) ∧ (off + len ≤ extTotal s.pavs[p.val].exts) ∧ (s.locate a = some (m, o)) ∧ (m ≠ MemId.dram) ∧ (s.permit (masterP p) false m o len false = true) ∧ (s.poisoned m o len = false) ∧ (errIn s.flips m o len = []))
    ∧ (∃ (s : State) (p : Fin 64) (off : Nat) (len : Nat) (a : Nat) (o : Nat), (s.Good) ∧ (s.HostTo p) ∧ (pieces s.pavs[p.val].exts 0 off len = [(a, 0, len)]) ∧ (off + len ≤ extTotal s.pavs[p.val].exts) ∧ (s.locate a = some (MemId.dram, o)) ∧ (s.permit (masterP p) false MemId.dram o len false = true) ∧ (s.dramGone = false) ∧ (s.admits (portP p) o len = true) ∧ (s.poisoned MemId.dram o len = false))
    ∧ (∃ (s : State) (p : Fin 64) (off : Nat) (len : Nat), (s.Good) ∧ (s.HostTo p) ∧ (extTotal s.pavs[p.val].exts < off + len))
    ∧ (∃ (s : State) (m : MemId) (a : Nat) (l : List Byte), (m ≠ MemId.dram) ∧ (m ≠ MemId.keep))
    ∧ (∃ (s : State) (m : MemId) (a : Nat) (l : List Byte) (n : MemId) (b : Nat), (m ≠ MemId.dram) ∧ (m ≠ MemId.keep) ∧ (n ≠ m ∨ b < a ∨ a + l.length ≤ b))
    ∧ (∃ (s : State) (hint : Bool) (a : Nat) (l : List Byte), (l ≠ []) ∧ (∀ (c : Fin 8), s.dmcs[c.val].wq.length + l.length ≤ 64))
    ∧ (∃ (s : State) (hint : Bool) (a : Nat) (l : List Byte) (n : MemId) (b : Nat), (l ≠ []) ∧ (∀ (c : Fin 8), s.dmcs[c.val].wq.length + l.length ≤ 64) ∧ (n ≠ MemId.dram ∨ b < a ∨ a + l.length ≤ b))
    ∧ (∃ (s : State) (a : Nat) (l : List Byte), (s.keep.used + wordsOf a l.length ≤ 16) ∧ (s.keep.buf = []))
    ∧ (∃ (s : State) (a : Nat) (l : List Byte) (n : MemId) (b : Nat), (s.keep.used + wordsOf a l.length ≤ 16) ∧ (s.keep.buf = []) ∧ (n ≠ MemId.keep ∨ b < a ∨ a + l.length ≤ b))
    ∧ (∃ (s : State) (f : State → State) (m : MemId) (a : Nat), (s.Inv) ∧ ((f s).img = s.img)) := by
  refine ⟨⟨live, 1, 0, [1, 2, 3], .org, 0, 0, ?_⟩,
    ⟨{ live with pavs := live.pavs.map fun v => { v with exts := [⟨0x1000000000, 0x10000⟩] }, bports := live.bports.map fun x => { x with bucket := 100000000000, cfg := 0 } }, 1, 0, [1, 2, 3], 0x1000000000, 0, ?_⟩,
    ⟨{ live with pavs := live.pavs.map fun v => { v with exts := [⟨0x1000000000, 0x10000⟩] }, bports := live.bports.map fun x => { x with bucket := 0, cfg := 0 } }, 1, 0, [1, 2, 3], 0x1000000000, 0, ?_⟩,
    ⟨live, 1, 65536, [1, 2, 3], ?_⟩,
    ⟨live, 1, 0, 3, .org, 0, 0, ?_⟩,
    ⟨{ live with pavs := live.pavs.map fun v => { v with exts := [⟨0x1000000000, 0x10000⟩] }, bports := live.bports.map fun x => { x with bucket := 100000000000, cfg := 0 } }, 1, 0, 3, 0x1000000000, 0, ?_⟩,
    ⟨live, 1, 3, 65536, ?_⟩,
    ⟨live, .org, 0, [], ?_⟩,
    ⟨live, .org, 0, [], .org, 0, ?_⟩,
    ⟨live, false, 0, [1, 2, 3], ?_⟩,
    ⟨live, false, 0, [1, 2, 3], .org, 0, ?_⟩,
    ⟨live, 0, [], ?_⟩,
    ⟨live, 0, [], .org, 0, ?_⟩,
    ⟨live, id, .org, 0, ?_⟩⟩ <;>
    first | decide +kernel | (simp only [State.Good, State.Inv, State.Steady, State.HostTo, State.HostRuns, State.ConfigTo, State.BeginsAtOnce, State.Accepts, State.Asked]; decide +kernel)
end D

/-! ### Layers, buffers, fences, events -/

namespace E

theorem test_witness_DescriptorChecksAndResults :
    (∃ (s : State) (d : Desc), (s.Accepts 1 d))
    ∧ (∃ (s : State) (d : Desc), (s.Accepts 12 d))
    ∧ (∃ (s : State) (d : Desc), (s.Accepts 14 d) ∧ (s.pavs[d.pav.val].views[(dView d).val].cur = none))
    ∧ (∃ (s : State) (d : Desc) (m : VMap), (s.Accepts 14 d) ∧ (s.pavs[d.pav.val].views[(dView d).val].cur = some m))
    ∧ (∃ (s : State) (d : Desc) (op : BitVec 8), (s.BeginsAtOnce op d) ∧ (opcodes.contains op.toNat = false))
    ∧ (∃ (s : State) (d : Desc) (op : BitVec 8), (s.BeginsAtOnce op d) ∧ (op = 34) ∧ (d.pav ≠ (0 : Fin 64)))
    ∧ (∃ (s : State) (d : Desc) (op : BitVec 8), (s.BeginsAtOnce op d) ∧ (op = 1) ∧ ((reservedByte (OfNat.ofNat 1) d).any fun k => decide (True)) = true)
    ∧ (∃ (s : State) (d : Desc) (op : BitVec 8), (s.BeginsAtOnce op d) ∧ (op = 11 ∨ (op = 33 ∨ op = 36) ∧ d.pav = (0 : Fin 64)) ∧ (reservedByte op.toNat d = none) ∧ (subopListed op.toNat (dU d 8 1) = false))
    ∧ (∃ (s : State) (d : Desc), (reservedByte 2 d = none) ∧ (dHandle d ≤ 247) ∧ ((s.started d).slotOf d.pav (dHandle d) = none) ∧ (s.BeginsAtOnce 2 d)) := by
  refine ⟨⟨mapd, mk 1 0 0 5 0 [(8, 8, 0x1234)], ?_⟩,
    ⟨mapd, mk 0 0 0 5 0 [], ?_⟩,
    ⟨mapd, mk 0 0 0 5 0 [], ?_⟩,
    ⟨mapd, mk 1 0 0 5 0 [], { out := 1, zBase := 0, zDepth := 8, rect := { x0 := 0, y0 := 0, x1 := 64, y1 := 64 } }, ?_⟩,
    ⟨mapd, mk 1 0 0 5 0 [(8, 8, 0x1234)], 0x0, ?_⟩,
    ⟨mapd, mk 1 0 0 5 0 [(8, 8, 0x1234)], 0x22, ?_⟩,
    ⟨mapd, mk 1 0 0 5 0 [(20, 1, 4)], 0x1, ?_⟩,
    ⟨mapd, mk 1 0 0 5 0 [(8, 8, 0x1234)], 0xb, ?_⟩,
    ⟨mapd, mk 1 0 0 5 0 [(20, 1, 4)], ?_⟩⟩ <;>
    first | decide +kernel | (simp only [State.Good, State.Inv, State.Steady, State.HostTo, State.HostRuns, State.ConfigTo, State.BeginsAtOnce, State.Accepts, State.Asked]; decide +kernel)
theorem test_witness_LayerDescriptors :
    (∃ (s : State) (d : Desc), (s.Accepts 2 d) ∧ (firstBad ((s.started d).layerChecks d.pav d) = none) ∧ (((s.started d).slotOf d.pav (dHandle d)).any fun i => decide (True)) = true)
    ∧ (∃ (s : State) (d : Desc) (a : Nat), (s.Accepts 3 d) ∧ (firstBad ((s.started d).attachChecks d.pav d) = none) ∧ (d.flags.getLsbD 1 = false) ∧ ((s.started d).xlate d.pav (dU d 8 8) (attachBytes d) = some a) ∧ (((s.started d).slotOf d.pav (dHandle d)).any fun i => decide (True)) = true)
    ∧ (∃ (s : State) (d : Desc) (a : Attach), (s.Accepts 4 d) ∧ (firstBad ((s.started d).reaffirmChecks d.pav d) = none) ∧ (s.spire.exports = []) ∧ (((s.started d).slotOf d.pav (dHandle d)).any fun i => decide (((s.started d).reaffirmed i (d.flags.getLsbD 0) = some a))) = true)
    ∧ (∃ (s : State) (d : Desc) (a : Attach), (s.Accepts 4 d) ∧ (firstBad ((s.started d).reaffirmChecks d.pav d) = none) ∧ (a.time ≠ w64 (dU d 8 8)) ∧ (((s.started d).slotOf d.pav (dHandle d)).any fun i => decide (((s.started d).reaffirmed i (d.flags.getLsbD 0) = some a))) = true) := by
  refine ⟨⟨mapd, dLayer, ?_⟩,
    ⟨mapd, dAtt, 1024, ?_⟩,
    ⟨mapd, dReaff1, at1, ?_⟩,
    ⟨mapd, dReaff1, at1, ?_⟩⟩ <;>
    first | decide +kernel | (simp only [State.Good, State.Inv, State.Steady, State.HostTo, State.HostRuns, State.ConfigTo, State.BeginsAtOnce, State.Accepts, State.Asked]; decide +kernel)
theorem test_witness_FencesAndEvents :
    (∃ (s : State) (d : Desc), (s.Accepts 6 d) ∧ (BitVec.toNat s.pavs[d.pav.val].fences[(f256 (dHandle d)).val] ≤ dU d 8 8))
    ∧ (∃ (s : State) (d : Desc), (s.Accepts 6 d) ∧ (dU d 8 8 < BitVec.toNat s.pavs[d.pav.val].fences[(f256 (dHandle d)).val]))
    ∧ (∃ (s : State) (d : Desc), (s.Accepts 10 d) ∧ (firstBad ((s.started d).armChecks d.pav d) = none) ∧ (dBits d 40 1 7 7 ≠ 1))
    ∧ (∃ (s : State) (d : Desc), (s.Accepts 10 d) ∧ (firstBad ((s.started d).armChecks d.pav d) = none) ∧ (dBits d 40 1 7 7 = 1)) := by
  refine ⟨⟨mapd, mk 1 0 0 5 0 [(8, 8, 0x1234)], ?_⟩,
    ⟨mapd.modPav 1 fun v => { v with fences := upd v.fences 7 fun _ => 3300 }, dFence, ?_⟩,
    ⟨mapd, mk 1 0 0 5 0 [(20, 1, 4)], ?_⟩,
    ⟨mapd, dArmL, ?_⟩⟩ <;>
    first | decide +kernel | (simp only [State.Good, State.Inv, State.Steady, State.HostTo, State.HostRuns, State.ConfigTo, State.BeginsAtOnce, State.Accepts, State.Asked]; decide +kernel)
end E

/-! ### COMMIT -/

namespace E1

theorem test_witness_Commit :
    (∃ (s : State) (d : Desc) (m : VMap) (st : Nat) (fb : Nat), (s.Accepts 5 d) ∧ (s.pavs[d.pav.val].views[(dView d).val].cur = some m) ∧ (firstBad ((s.started d).commitChecks d.pav d) = some (st, fb, 0)) ∧ (st = 17)) := by
  refine ⟨mapd, mk 1 0 0 5 0 [(8, 8, 0x1234)], { out := 1, zBase := 0, zDepth := 8, rect := { x0 := 0, y0 := 0, x1 := 64, y1 := 64 } }, 17, 18, ?_⟩ <;>
    first | decide +kernel | (simp only [State.Good, State.Inv, State.Steady, State.HostTo, State.HostRuns, State.ConfigTo, State.BeginsAtOnce, State.Accepts, State.Asked]; decide +kernel)
theorem test_witness_Commit_b :
    (∃ (s : State) (d : Desc) (m : VMap) (u : State) (caps : List (Fin 256 × Latched)), (s.Accepts 5 d) ∧ (s.pavs[d.pav.val].views[(dView d).val].cur = some m) ∧ ((s.started d).readAll m.out (List.filterMap ((s.started d).capture d.pav) (commitHandles d)) = (u, some caps)) ∧ (firstBad ((s.started d).commitChecks d.pav d) = none) ∧ ((s.started d).stagedFail d.pav d = none) ∧ ((caps.any fun c => c.snd.layer.enable && decide (u.slots[c.fst.val].granules < c.snd.layer.granules)) = false) ∧ (u.admission d.pav (dView d) (u.commitOuts d.pav m.out caps) caps = none) ∧ (d.flags.getLsbD 0 = false) ∧ (d.flags.getLsbD 1 = false)) := by
  refine ⟨mapd, dCommit, { out := 1, zBase := 0, zDepth := 8, rect := { x0 := 0, y0 := 0, x1 := 64, y1 := 64 } }, ((mapd.started dCommit).readAll 1 (List.filterMap ((mapd.started dCommit).capture 1) (commitHandles dCommit))).1, (((mapd.started dCommit).readAll 1 (List.filterMap ((mapd.started dCommit).capture 1) (commitHandles dCommit))).2).getD [], ?_⟩
  · refine ⟨?_, ?_, Prod.ext rfl ?_, ?_⟩ <;> (first | decide +kernel | (simp only [State.Good, State.Inv, State.Steady, State.HostTo, State.HostRuns, State.ConfigTo, State.BeginsAtOnce, State.Accepts, State.Asked]; decide +kernel))
theorem test_witness_Commit_c :
    (∃ (s : State) (d : Desc) (m : VMap) (u : State) (caps : List (Fin 256 × Latched)) (q : Fin 8) (st : Nat), (s.Accepts 5 d) ∧ (s.pavs[d.pav.val].views[(dView d).val].cur = some m) ∧ ((s.started d).readAll m.out (List.filterMap ((s.started d).capture d.pav) (commitHandles d)) = (u, some caps)) ∧ (firstBad ((s.started d).commitChecks d.pav d) = none) ∧ ((s.started d).stagedFail d.pav d = none) ∧ ((caps.any fun c => c.snd.layer.enable && decide (u.slots[c.fst.val].granules < c.snd.layer.granules)) = false) ∧ (u.admission d.pav (dView d) (u.commitOuts d.pav m.out caps) caps = some (q, st))) := by
  refine ⟨(mapd.modView 1 0 fun v => { v with share := 1 }), dCommit, { out := 1, zBase := 0, zDepth := 8, rect := { x0 := 0, y0 := 0, x1 := 64, y1 := 64 } }, (((mapd.modView 1 0 fun v => { v with share := 1 }).started dCommit).readAll 1 (List.filterMap (((mapd.modView 1 0 fun v => { v with share := 1 }).started dCommit).capture 1) (commitHandles dCommit))).1, ((((mapd.modView 1 0 fun v => { v with share := 1 }).started dCommit).readAll 1 (List.filterMap (((mapd.modView 1 0 fun v => { v with share := 1 }).started dCommit).capture 1) (commitHandles dCommit))).2).getD [], 1, stLbufShort, ?_⟩
  · refine ⟨?_, ?_, Prod.ext rfl ?_, ?_⟩ <;> (first | decide +kernel | (simp only [State.Good, State.Inv, State.Steady, State.HostTo, State.HostRuns, State.ConfigTo, State.BeginsAtOnce, State.Accepts, State.Asked]; decide +kernel))
end E1

/-! ### WRITEBACK and EXPORT -/

namespace E2

theorem test_witness_WritebackAndExport :
    (∃ (s : State) (d : Desc) (m : VMap), (s.Accepts 7 (setFlag d 0 false)) ∧ (firstBad ((s.started (setFlag d 0 false)).writebackChecks d.pav (setFlag d 0 false)) = none) ∧ (s.pavs[d.pav.val].views[(f8 d.handle.toNat).val].cur = some m))
    ∧ (∃ (s : State) (d : Desc), (s.Accepts 7 (setFlag d 0 true)) ∧ (firstBad ((s.started (setFlag d 0 true)).writebackChecks d.pav (setFlag d 0 true)) = none))
    ∧ (∃ (s : State) (d : Desc), (s.Accepts 13 (setFlag d 0 false)) ∧ (dU d 8 2 ≠ s.spire.myId) ∧ ((s.started (setFlag d 0 false)).latchedBuf d.pav (dHandle d) = none))
    ∧ (∃ (s : State) (d : Desc), (s.Accepts 13 (setFlag d 0 false)) ∧ (dU d 8 2 = s.spire.myId))
    ∧ (∃ (s : State) (d : Desc) (e : Export), (s.Accepts 13 (setFlag d 0 true)) ∧ (List.find?     (fun e => e.is d.pav (dHandle d) (dU d 8 2) (dU d 10 2))     s.spire.exports =   some e))
    ∧ (∃ (s : State) (d : Desc), (s.Accepts 13 (setFlag d 0 true)) ∧ (List.find?     (fun e => e.is d.pav (dHandle d) (dU d 8 2) (dU d 10 2))     s.spire.exports =   none)) := by
  refine ⟨⟨mapd, dWb, { out := 1, zBase := 0, zDepth := 8, rect := { x0 := 0, y0 := 0, x1 := 64, y1 := 64 } }, ?_⟩,
    ⟨mapd.modOut 1 fun u => { u with caps := [{ pav := 1, sq := 0, seq := 0, view := 0, deferred := false, dest := 0, pitch := 0, frames := 1, ring := 1, record := 0, rect := {} }] }, mk 1 0 0 5 0 [], ?_⟩,
    ⟨mapd, dExp, ?_⟩,
    ⟨mapd, mk 1 0 0 5 3 [], ?_⟩,
    ⟨{ mapd with spire := { mapd.spire with exports := [exp1] } }, dExp, exp1, ?_⟩,
    ⟨mapd, mk 1 0 0 5 3 [], ?_⟩⟩ <;>
    first | decide +kernel | (simp only [State.Good, State.Inv, State.Steady, State.HostTo, State.HostRuns, State.ConfigTo, State.BeginsAtOnce, State.Accepts, State.Asked]; decide +kernel)
end E2

/-! ### Completions and events -/

namespace E3
def armS : State := mapd.modPav 1 fun v => { v with armed := 8, cq := { v.cq with enable := true, size := 4, base := 0x1000, shadow := 0x2000, mod := 0x50005, head := 2, tail := 2 }, eq := { v.eq with enable := true, size := 4, base := 0x3000, shadow := 0x2008, mod := 0x50005, head := 2, tail := 2 } }
theorem test_witness_CompletionRecords :
    (∃ (s : State) (p : Fin 64) (r : BitVec 128), (s.pavs[p.val].cq.enable = true) ∧ (s.pavs[p.val].bme = true) ∧ (s.pavs[p.val].cq.held = []) ∧ (0 < cqFree s.pavs[p.val].cq) ∧ (s.pavs[p.val].cq.unsig + 1 < modCount s.pavs[p.val].cq.mod))
    ∧ (∃ (s : State) (p : Fin 64) (r : BitVec 128), (s.pavs[p.val].cq.enable = false ∨ s.pavs[p.val].bme = false ∨ cqFree s.pavs[p.val].cq = 0))
    ∧ (∃ (seq : BitVec 16) (st : Nat) (sq : Fin 8) (d : Bool) (l : Bool) (h : Bool) (op : BitVec 8) (f : Nat) (x : Nat), (st < 256) ∧ (f < 256) ∧ (x < 2 ^ 64)) := by
  refine ⟨⟨armS, 1, 0x0, ?_⟩,
    ⟨armS, 0, 0x0, ?_⟩,
    ⟨0x0, 0, 0, false, false, false, 0x0, 0, 0, ?_⟩⟩ <;>
    first | decide +kernel | (simp only [State.Good, State.Inv, State.Steady, State.HostTo, State.HostRuns, State.ConfigTo, State.BeginsAtOnce, State.Accepts, State.Asked]; decide +kernel)
theorem test_witness_EventDelivery :
    (∃ (s : State) (p : Fin 64) (e : Ev), (isNmi e.code = false) ∧ (s.pavs[p.val].armed.getLsbD e.code = false))
    ∧ (∃ (s : State) (p : Fin 64) (e : Ev), (isNmi e.code = false) ∧ (s.pavs[p.val].armed.getLsbD e.code = true) ∧ (s.pavs[p.val].present = true) ∧ (s.pavs[p.val].ready = true) ∧ (quotaUp s.pavs[p.val] (3 : Fin 4) = false) ∧ (s.pavs[p.val].eq.owed = false) ∧ (s.pavs[p.val].bme = true) ∧ (2 ≤ eqFree s.pavs[p.val].eq))
    ∧ (∃ (s : State) (p : Fin 64) (e : Ev), (isNmi e.code = false) ∧ (s.pavs[p.val].armed.getLsbD e.code = true) ∧ (s.pavs[p.val].present = true) ∧ (s.pavs[p.val].ready = true) ∧ (quotaUp s.pavs[p.val] (3 : Fin 4) = false) ∧ (eqFree s.pavs[p.val].eq < 2))
    ∧ (∃ (s : State) (p : Fin 64) (e : Ev), (isNmi e.code = true) ∧ (s.pavs[p.val].present = true)) := by
  refine ⟨⟨armS, 0, { code := 3 }, ?_⟩,
    ⟨armS, 1, { code := 3 }, ?_⟩,
    ⟨armS.modPav 1 fun v => { v with cq := { v.cq with tail := 18 }, eq := { v.eq with tail := 17 } }, 1, { code := 3 }, ?_⟩,
    ⟨armS, 0, { code := 0x40, detail := 5 }, ?_⟩⟩ <;>
    first | decide +kernel | (simp only [State.Good, State.Inv, State.Steady, State.HostTo, State.HostRuns, State.ConfigTo, State.BeginsAtOnce, State.Accepts, State.Asked]; decide +kernel)
theorem test_witness_EventLog :
    (∃ (s : State) (e : Ev), (notLogged e = false) ∧ (gap s.evt.tail s.evt.head ≠ 4096))
    ∧ (∃ (s : State) (e : Ev), (notLogged e = false) ∧ (gap s.evt.tail s.evt.head = 4096))
    ∧ (∃ (s : State) (e : Ev) (k : Nat), (notLogged e = false) ∧ (s.permit 1 false MemId.org (33423360 + k % 4096 * 32) 32     true =   true))
    ∧ (∃ (s : State) (e : Ev), (notLogged e = false)) := by
  refine ⟨⟨armS, { code := 0x40, detail := 5 }, ?_⟩,
    ⟨{ armS with evt := { armS.evt with head := 3, tail := 61443, lost := 0xFFFFFFFF } }, { code := 0x40, detail := 5 }, ?_⟩,
    ⟨armS, { code := 0x40, detail := 5 }, 0, ?_⟩,
    ⟨armS, { code := 0x40, detail := 5 }, ?_⟩⟩ <;>
    first | decide +kernel | (simp only [State.Good, State.Inv, State.Steady, State.HostTo, State.HostRuns, State.ConfigTo, State.BeginsAtOnce, State.Accepts, State.Asked]; decide +kernel)
end E3

/-! ### COPY and CHECK -/

namespace X1

theorem test_witness_CopiesAndChecks :
    (∃ (s : State) (d : Desc), (s.Accepts 8 d) ∧ (firstBad ((s.started d).copyChecks d.pav d) = none) ∧ (d.flags.getLsbD 4 = false))
    ∧ (∃ (s : State) (d : Desc), (s.Accepts 8 d) ∧ (firstBad ((s.started d).copyChecks d.pav d) = none) ∧ (d.flags.getLsbD 4 = true) ∧ (BitVec.toNat s.pavs[d.pav.val].fences[(f256 (dU d 44 1)).val] <   dU d 48 8))
    ∧ (∃ (s : State) (d : Desc), (s.Accepts 9 d) ∧ (firstBad ((s.started d).checkChecks d.pav d) = none) ∧ (((s.started d).xlate d.pav (dU d (OfNat.ofNat 8) (OfNat.ofNat 8)) (dU d (OfNat.ofNat 16) (OfNat.ofNat 4))).any fun a => decide (True)) = true)
    ∧ (∃ (s : State) (p : Fin 64) (sq : Fin 8) (seq : BitVec 16) (j : Job), (({ s with jobs := s.jobs.erase j } : State).Good) ∧ (List.filter (fun x => x.engine == j.engine) s.jobs = [j]) ∧ (j.is 8 p sq seq = true) ∧ (j.waiting = true) ∧ (j.fin = none) ∧ (BitVec.toNat s.pavs[j.pav.val].fences[(f256 j.fenceCell).val] < BitVec.toNat j.fenceVal))
    ∧ (∃ (s : State) (p : Fin 64) (sq : Fin 8) (seq : BitVec 16) (j : Job) (l : List Byte) (e : Bool), (({ s with jobs := s.jobs.erase j } : State).Good) ∧ (List.filter (fun x => x.engine == j.engine) s.jobs = [j]) ∧ (j.is 8 p sq seq = true) ∧ (j.waiting = true) ∧ (j.fin = none) ∧ (BitVec.toNat s.pavs[j.pav.val].fences[(f256 j.fenceCell).val] < BitVec.toNat j.fenceVal))
    ∧ (∃ (s : State) (p : Fin 64) (sq : Fin 8) (seq : BitVec 16) (j : Job), (({ s with jobs := s.jobs.erase j } : State).Good) ∧ (List.filter (fun x => x.engine == j.engine) s.jobs = [j]) ∧ (j.is 8 p sq seq = true) ∧ (j.waiting = false) ∧ (j.fin = none))
    ∧ (∃ (s : State) (p : Fin 64) (sq : Fin 8) (seq : BitVec 16) (j : Job), (({ s with jobs := s.jobs.erase j } : State).Good) ∧ (List.filter (fun x => x.engine == j.engine) s.jobs = [j]) ∧ (j.is 8 p sq seq = true) ∧ (j.waiting = false) ∧ (j.fin = none) ∧ (j.srcHost = false) ∧ (j.dstHost = false) ∧ (j.chan = none) ∧ (j.rows = 0) ∧ (j.bad = false) ∧ (j.moved = 0) ∧ (j.paused = false) ∧ (0 < j.len) ∧ (j.len ≤ 4096) ∧ (s.inRecovery = false) ∧ (s.locate j.src = some (MemId.org, j.src)) ∧ (s.locate j.dst = some (MemId.org, j.dst)) ∧ (s.permit 1 false MemId.org j.src j.len false = true) ∧ (s.permit 1 false MemId.org j.dst j.len true = true) ∧ (s.poisoned MemId.org j.src j.len = false))
    ∧ (∃ (s : State) (p : Fin 64) (sq : Fin 8) (seq : BitVec 16) (j : Job) (l : List Byte), (({ s with jobs := s.jobs.erase j } : State).Good) ∧ (List.filter (fun x => x.engine == j.engine) s.jobs = [j]) ∧ (j.is 8 p sq seq = true) ∧ (j.waiting = false) ∧ (j.fin = none) ∧ (j.srcHost = true))
    ∧ (∃ (s : State) (p : Fin 64) (sq : Fin 8) (seq : BitVec 16) (j : Job) (l : List Byte) (o : Nat), (({ s with jobs := s.jobs.erase j } : State).Good) ∧ (List.filter (fun x => x.engine == j.engine) s.jobs = [j]) ∧ (j.is 8 p sq seq = true) ∧ (j.waiting = false) ∧ (j.fin = none) ∧ (j.srcHost = false) ∧ (s.locate j.src = some (MemId.org, o)))
    ∧ (∃ (s : State) (p : Fin 64) (sq : Fin 8) (seq : BitVec 16) (j : Job) (c : Fin 16) (crc : Crc), (({ s with jobs := s.jobs.erase j } : State).Good) ∧ (List.filter (fun x => x.engine == j.engine) s.jobs = [j]) ∧ (j.is 9 p sq seq = true) ∧ (j.waiting = false) ∧ (j.fin = none) ∧ (j.srcHost = false) ∧ (j.chan = some (c, CheckMode.report, crc)) ∧ (j.rows = 0) ∧ (j.bad = false) ∧ (j.moved = 0) ∧ (j.paused = false) ∧ (j.reg = crcStart crc) ∧ (0 < j.len) ∧ (j.len ≤ 4096) ∧ (s.pavs[j.pav.val].limits[2] = BitVec.allOnes 64) ∧ (s.locate j.src = some (MemId.org, j.src)) ∧ (s.permit 1 false MemId.org j.src j.len false = true) ∧ (s.poisoned MemId.org j.src j.len = false)) := by
  refine ⟨⟨mapd, dCopy, ?_⟩,
    ⟨mapd, dCopyF, ?_⟩,
    ⟨mapd, dCheck, ?_⟩,
    ⟨{ mapd with jobs := [job1] }, 1, 0, 0x5, job1, ?_⟩,
    ⟨{ mapd with jobs := [job1] }, 1, 0, 0x5, job1, [], false, ?_⟩,
    ⟨{ mapd with jobs := [job2] }, 1, 0, 0x5, job2, ?_⟩,
    ⟨{ mapd with jobs := [job2] }, 1, 0, 0x5, job2, ?_⟩,
    ⟨{ mapd with jobs := [job2b] }, 1, 0, 0x5, job2b, [], ?_⟩,
    ⟨{ mapd with jobs := [job2] }, 1, 0, 0x5, job2, [], 1024, ?_⟩,
    ⟨{ mapd with jobs := [job3] }, 1, 0, 0x5, job3, 2, {}, ?_⟩⟩ <;>
    first | decide +kernel | (simp only [State.Good, State.Inv, State.Steady, State.HostTo, State.HostRuns, State.ConfigTo, State.BeginsAtOnce, State.Accepts, State.Asked]; decide +kernel)
end X1

/-! ### Console descriptors -/

namespace X2

theorem test_witness_ConsoleDescriptors :
    (∃ (s : State) (d : Desc) (e : Desc), (s.Accepts 11 e) ∧ (firstBad ((s.started e).consoleChecks e.pav e false) = none) ∧ (e = setByte d 8 0) ∧ (dU e 10 1 ≠ 0))
    ∧ (∃ (s : State) (d : Desc) (e : Desc), (s.Accepts 11 e) ∧ (firstBad ((s.started e).consoleChecks e.pav e false) = none) ∧ (e = setByte d 8 0) ∧ (dU e 10 1 = 0))
    ∧ (∃ (s : State) (d : Desc) (e : Desc), (s.Accepts 11 e) ∧ (firstBad ((s.started e).consoleChecks e.pav e false) = none) ∧ (e = setByte d 8 1))
    ∧ (∃ (s : State) (d : Desc) (e : Desc), (s.Accepts 11 e) ∧ (firstBad ((s.started e).consoleChecks e.pav e false) = none) ∧ (e = setByte d 8 2) ∧ ((s.arrived.any fun a =>     match a with     | Awaited.voice x q => x == f16 (dU e 9 1) && decide (e.pav.val < q.val)     | x => false) =   false))
    ∧ (∃ (s : State) (d : Desc) (e : Desc), (s.Accepts 11 e) ∧ (firstBad ((s.started e).consoleChecks e.pav e false) = none) ∧ (e = setByte d 8 3))
    ∧ (∃ (s : State) (d : Desc) (e : Desc), (s.Accepts 11 e) ∧ (firstBad ((s.started e).consoleChecks e.pav e false) = none) ∧ (e = setByte d 8 2) ∧ ((s.arrived.any fun a =>     match a with     | Awaited.voice x q => x == f16 (dU e 9 1) && decide (e.pav.val < q.val)     | x => false) =   true))
    ∧ (∃ (s : State) (d : Desc) (e : Desc) (a : Nat), (s.Accepts 11 e) ∧ (firstBad ((s.started e).consoleChecks e.pav e false) = none) ∧ (e = setByte d 8 4) ∧ ((s.started e).xlate e.pav (dU e 16 8) (dU e 24 4) = some a))
    ∧ (∃ (s : State) (d : Desc) (e : Desc), (s.Accepts 11 e) ∧ (firstBad ((s.started e).consoleChecks e.pav e false) = none) ∧ (e = setByte d 8 5))
    ∧ (∃ (s : State) (d : Desc) (e : Desc), (s.Accepts 11 e) ∧ (firstBad ((s.started e).consoleChecks e.pav e false) = none) ∧ (e = setByte d 8 6))
    ∧ (∃ (s : State) (h : Fin 16) (src : HapSrc) (effect : Nat) (prio : Nat) (amp : Nat) (reflex : Bool), (s.hapRival h (hapRank src reflex) src = none) ∧ (s.gaz.haps[h.val].st ≠ HapSt.idle) ∧ (prio < s.gaz.haps[h.val].prio))
    ∧ (∃ (s : State) (h : Fin 16) (src : HapSrc) (effect : Nat) (prio : Nat) (amp : Nat) (reflex : Bool), (s.hapRival h (hapRank src reflex) src = none) ∧ (s.gaz.haps[h.val].st = HapSt.idle ∨ s.gaz.haps[h.val].prio ≤ prio)) := by
  refine ⟨⟨mapd, dHap, dHap, ?_⟩,
    ⟨mapd, mk 1 0 0 5 0 [(9, 1, 2), (10, 1, 0), (12, 1, 50)], setByte (mk 1 0 0 5 0 [(9, 1, 2), (10, 1, 0), (12, 1, 50)]) 8 0, ?_⟩,
    ⟨mapd, dHap0, dHap0, ?_⟩,
    ⟨mapd, dVoice, dVoice, ?_⟩,
    ⟨mapd, dVoiceS, dVoiceS, ?_⟩,
    ⟨{ mapd with arrived := [.voice 2 17] }, dVoice, setByte dVoice 8 2, ?_⟩,
    ⟨mapd, dPcm, dPcm, 1024, ?_⟩,
    ⟨mapd, dRef, dRef, ?_⟩,
    ⟨mapd, dVoiceS, dUnref, ?_⟩,
    ⟨mapd.modHap 2 fun v => { v with st := .drive, prio := 2 }, 2, .pav 1, 0, 0, 0, false, ?_⟩,
    ⟨mapd, 0, .pav 1, 0, 0, 0, false, ?_⟩⟩ <;>
    first | decide +kernel | (simp only [State.Good, State.Inv, State.Steady, State.HostTo, State.HostRuns, State.ConfigTo, State.BeginsAtOnce, State.Accepts, State.Asked]; decide +kernel)
end X2

/-! ### Viewports -/

namespace X3

theorem test_witness_ViewportDescriptors :
    (∃ (s : State) (d : Desc) (e : Desc) (v : Fin 8) (m : VMap), (v = f8 (bits d.handle.toNat 10 8)) ∧ (m =   { out := f8 (dU d 8 1), zBase := dU d 9 1,     zDepth := dU d 10 1, rect := dRect d 12 : VMap }) ∧ (e = setFlag d 0 false) ∧ (s.Accepts 32 e) ∧ (firstBad ((s.started e).mapChecks e) = none) ∧ (s.pavs[(tgtPav d).val].views[v.val].cur = none) ∧ (s.outs[m.out.val].enabled = false) ∧ ((s.started e).ceilingsHold m.out     (fun p' v' => if p' = tgtPav d ∧ v' = v then [m] else (s.started e).viewsOn m.out p' v') (s.started e).shareOf     s.bports[(f83 m.out.val).val].grant =   true) ∧ ((s.started e).viewCarries (tgtPav d) v = false))
    ∧ (∃ (s : State) (d : Desc) (e : Desc) (v : Fin 8) (m : VMap) (c : VMap), (v = f8 (bits d.handle.toNat 10 8)) ∧ (m =   { out := f8 (dU d 8 1), zBase := dU d 9 1,     zDepth := dU d 10 1, rect := dRect d 12 : VMap }) ∧ (e = setFlag d 0 true) ∧ (s.Accepts 32 e) ∧ (firstBad ((s.started e).mapChecks e) = none) ∧ (s.pavs[(tgtPav d).val].views[v.val].cur = some c) ∧ (s.outs[c.out.val].enabled = true)) := by
  refine ⟨⟨mapd, dMap, dMap, 1, { out := 2, zBase := 1, zDepth := 4, rect := { x0 := 0, y0 := 0, x1 := 64, y1 := 64 } }, ?_⟩,
    ⟨mapd, dUnmap, dUnmap, 0, { out := 0, zBase := 0, zDepth := 0, rect := {} }, { out := 1, zBase := 0, zDepth := 8, rect := { x0 := 0, y0 := 0, x1 := 64, y1 := 64 } }, ?_⟩⟩ <;>
    first | decide +kernel | (simp only [State.Good, State.Inv, State.Steady, State.HostTo, State.HostRuns, State.ConfigTo, State.BeginsAtOnce, State.Accepts, State.Asked]; decide +kernel)
end X3

/-! ### Leases -/

namespace X4

theorem test_witness_LeaseDescriptors :
    (∃ (s : State) (d : Desc) (e : Desc) (i : Fin 256), (i = f256 (dU e 10 1)) ∧ (s.Accepts 33 e) ∧ (firstBad ((s.started e).leaseChecks e) = none) ∧ (e = setByte d 8 0))
    ∧ (∃ (s : State) (d : Desc) (e : Desc) (i : Fin 256), (i = f256 (dU e 10 1)) ∧ (s.Accepts 33 e) ∧ (firstBad ((s.started e).leaseChecks e) = none) ∧ (e = setByte d 8 1) ∧ (s.slots[i.val].cur = none))
    ∧ (∃ (s : State) (d : Desc) (e : Desc) (i : Fin 256), (i = f256 (dU e 10 1)) ∧ (s.Accepts 33 e) ∧ (firstBad ((s.started e).leaseChecks e) = none) ∧ (e = setByte d 8 2))
    ∧ (∃ (s : State) (d : Desc) (e : Desc) (i : Fin 256), (i = f256 (dU e 10 1)) ∧ (s.Accepts 33 e) ∧ (firstBad ((s.started e).leaseChecks e) = none) ∧ (e = setByte d 8 3))
    ∧ (∃ (s : State) (d : Desc) (e : Desc) (i : Fin 256), (i = f256 (dU e 10 1)) ∧ (s.Accepts 33 e) ∧ (firstBad ((s.started e).leaseChecks e) = none) ∧ (e = setByte d 8 4))
    ∧ (∃ (s : State) (d : Desc) (e : Desc) (i : Fin 256) (x : Ext), (i = f256 (dU e 10 1)) ∧ (s.Accepts 33 e) ∧ (firstBad ((s.started e).leaseChecks e) = none) ∧ (e = setByte d 8 5) ∧ (List.find? (fun q => q.base == dU e 16 8) s.pavs[(tgtPav d).val].exts = some x))
    ∧ (∃ (s : State), (s.Good) ∧ (s.zeroQ = []))
    ∧ (∃ (s : State) (e : Ext) (rest : List Ext), (s.Good) ∧ (s.zeroQ = e :: rest) ∧ (s.locate e.base = some (MemId.org, e.base)) ∧ (s.permit 1 false MemId.org e.base (min 4096 e.len) true = true)) := by
  refine ⟨⟨mapd, lease 0 [(10, 1, 9), (12, 1, 7)], lease 0 [(10, 1, 9), (12, 1, 7)], 9, ?_⟩,
    ⟨mapd, lease 1 [(10, 1, 3)], lease 1 [(10, 1, 3)], 3, ?_⟩,
    ⟨mapd, lease 2 [(10, 1, 3), (14, 2, 5)], lease 2 [(10, 1, 3), (14, 2, 5)], 3, ?_⟩,
    ⟨mapd, lease 2 [(10, 1, 3), (14, 2, 5)], lease 3 [(10, 1, 3), (14, 2, 5)], 3, ?_⟩,
    ⟨mapd, lease 4 [(16, 8, 0x20000), (24, 8, 0x1000)], lease 4 [(16, 8, 0x20000), (24, 8, 0x1000)], 0, ?_⟩,
    ⟨mapd, lease 5 [(16, 8, 0)], lease 5 [(16, 8, 0)], 0, ⟨0, 0x10000⟩, ?_⟩,
    ⟨mapd, ?_⟩,
    ⟨{ mapd with zeroQ := [⟨0x100000, 0x1000⟩] }, ⟨0x100000, 0x1000⟩, [], ?_⟩⟩ <;>
    first | decide +kernel | (simp only [State.Good, State.Inv, State.Steady, State.HostTo, State.HostRuns, State.ConfigTo, State.BeginsAtOnce, State.Accepts, State.Asked]; decide +kernel)
end X4

/-! ### Budgets -/

namespace X5

theorem test_witness_Budgets :
    (∃ (s : State) (d : Desc), (s.Accepts 34 d) ∧ (firstBad ((s.started d).budgetChecks d) = none))
    ∧ (∃ (s : State) (d : Desc) (p : Fin 64) (b : Nat) (k : Nat) (target : Nat) (v : Nat), (k < 4))
    ∧ (∃ (s : State) (k : Nat), (s.Good) ∧ (s.period < k))
    ∧ (∃ (s : State) (k : Nat), (s.Good) ∧ (k ≤ s.period)) := by
  refine ⟨⟨mapd, dBud [(0, 0, 9), (5, 9, 100)], ?_⟩,
    ⟨mapd, dBud [(0, 0, 9), (5, 9, 100)], 0, 0, 0, 0, 0, ?_⟩,
    ⟨mapd, 3, ?_⟩,
    ⟨mapd, 0, ?_⟩⟩ <;>
    first | decide +kernel | (simp only [State.Good, State.Inv, State.Steady, State.HostTo, State.HostRuns, State.ConfigTo, State.BeginsAtOnce, State.Accepts, State.Asked]; decide +kernel)
end X5

/-! ### Outputs -/

namespace X6

theorem test_witness_OutputDescriptors :
    (∃ (s : State) (d : Desc) (e : Desc) (o : Fin 8), (o = f8 d.handle.toNat) ∧ (e = setFlag d 0 true) ∧ (s.Accepts 35 e) ∧ (firstBad ((s.started e).modeChecks o e) = none) ∧ (s.pwr.xinFail = false) ∧ (s.outs[o.val].enabled = true) ∧ (s.outs[o.val].set.mode = (modeSetOf e).mode) ∧ (s.outs[o.val].set.lanes = (modeSetOf e).lanes) ∧ (s.outs[o.val].set.rate = (modeSetOf e).rate) ∧ (s.outs[o.val].set.ssc = (modeSetOf e).ssc) ∧ (s.outs[o.val].set.rg = (modeSetOf e).rg))
    ∧ (∃ (s : State) (d : Desc) (e : Desc) (o : Fin 8), (o = f8 d.handle.toNat) ∧ (e = setFlag d 0 true) ∧ (s.Accepts 35 e) ∧ (firstBad ((s.started e).modeChecks o e) = none) ∧ (s.pwr.xinFail = false) ∧ (s.outs[o.val].enabled = false))
    ∧ (∃ (s : State) (d : Desc) (e : Desc) (o : Fin 8), (o = f8 d.handle.toNat) ∧ (e = setFlag d 0 false) ∧ (s.Accepts 35 e) ∧ (s.outs[o.val].job = none) ∧ (s.outs[o.val].enabled = false))
    ∧ (∃ (s : State) (d : Desc) (e : Desc) (o : Fin 8), (o = f8 d.handle.toNat) ∧ (e = setFlag d 0 false) ∧ (s.Accepts 35 e) ∧ (s.outs[o.val].job = none) ∧ (s.outs[o.val].enabled = true) ∧ (BitVec.getLsbD s.belvs[o.val].cfg 0 = false)) := by
  refine ⟨⟨mapd, dMode, dMode, 1, ?_⟩,
    ⟨live, dMode, dMode, 1, ?_⟩,
    ⟨live, dDis, dDis, 1, ?_⟩,
    ⟨mapd, dDis, dDis, 1, ?_⟩⟩ <;>
    first | decide +kernel | (simp only [State.Good, State.Inv, State.Steady, State.HostTo, State.HostRuns, State.ConfigTo, State.BeginsAtOnce, State.Accepts, State.Asked]; decide +kernel)
end X6

/-! ### Wall configuration -/

namespace X7

theorem test_witness_WallDescriptors :
    (∃ (s : State) (d : Desc) (e : Desc), (s.Accepts 36 e) ∧ (firstBad ((s.started e).wallChecks e) = none) ∧ (e = setByte d 8 0))
    ∧ (∃ (s : State) (d : Desc) (e : Desc), (s.Accepts 36 e) ∧ (firstBad ((s.started e).wallChecks e) = none) ∧ (e = setByte d 8 1))
    ∧ (∃ (s : State) (d : Desc) (e : Desc), (s.Accepts 36 e) ∧ (firstBad ((s.started e).wallChecks e) = none) ∧ (e = setByte d 8 2)) := by
  refine ⟨⟨mapd, dWallP, dWallP, ?_⟩,
    ⟨mapd, dWallG, dWallG, ?_⟩,
    ⟨mapd, dWallD, dWallD, ?_⟩⟩ <;>
    first | decide +kernel | (simp only [State.Good, State.Inv, State.Steady, State.HostTo, State.HostRuns, State.ConfigTo, State.BeginsAtOnce, State.Accepts, State.Asked]; decide +kernel)
end X7

/-! ### Clocks -/

namespace G1
def gj : ModeJob := { sq := 0, seq := 5, deferred := false, set := modeSetOf dMode, wait := .gate }
def gate : State := { live with clk := { live.clk with gateReq := 2, gateWait := 1 <<< 24 }, spire := { live.spire with links := live.spire.links.set 1 { enable := false } } }
def gateO : State := { (live.modOut 1 fun u => { u with enabled := true, scanning := true, job := some gj, pvalid := true }) with clk := { live.clk with gateWait := 1 <<< 16 } }
theorem test_witness_GateRequests :
    (∃ (s : State) (l : Fin 12) (i : Fin 45), (s.Good) ∧ (i.val = 23 + l.val) ∧ (s.HostTo (0 : Fin 64)) ∧ (s.clk.gateReq.getLsbD l.val = false))
    ∧ (∃ (s : State) (l : Fin 12) (i : Fin 45), (s.Good) ∧ (i.val = 23 + l.val) ∧ (s.HostTo (0 : Fin 64)) ∧ (s.clk.gateReq.getLsbD l.val = true))
    ∧ (∃ (s : State) (l : Fin 12) (i : Fin 45), (s.Good) ∧ (i.val = 23 + l.val) ∧ (s.HostTo (0 : Fin 64)) ∧ (s.clk.gateReq.getLsbD l.val = true) ∧ (s.spire.links[l.val].enable = false))
    ∧ (∃ (s : State) (l : Fin 12) (i : Fin 45), (s.Good) ∧ (i.val = 23 + l.val) ∧ (s.HostTo (0 : Fin 64)) ∧ (s.clk.gateReq.getLsbD l.val = true) ∧ (s.spire.links[l.val].enable = true) ∧ (s.spire.links[l.val].st = LinkSt.off) ∧ ((s.spire.pairing l).isSome = true))
    ∧ (∃ (s : State) (l : Fin 12) (i : Fin 45), (s.Good) ∧ (i.val = 23 + l.val) ∧ (s.clk.gateWait.getLsbD i.val = true) ∧ (s.spire.links[l.val].st = LinkSt.off) ∧ (s.spire.links[l.val].waiting = []))
    ∧ (∃ (s : State) (l : Fin 12) (i : Fin 45), (s.Good) ∧ (i.val = 23 + l.val) ∧ (s.clk.gateWait.getLsbD i.val = true) ∧ (s.spire.links[l.val].st ≠ LinkSt.off ∨ s.spire.links[l.val].waiting ≠ []))
    ∧ (∃ (s : State) (o : Fin 8) (i : Fin 45) (j : ModeJob) (c : Instr), (s.Good) ∧ (i.val = 15 + o.val) ∧ (c = Instr.gateIdle i ∨ c = Instr.gateTimeout i ∧ s.clk.gateWait.getLsbD i.val = true) ∧ (s.outs[o.val].job = some j) ∧ (j.wait = ModeWait.gate) ∧ (BitVec.getLsbD s.belvs[o.val].cfg 0 = false) ∧ (s.outs[o.val].auxBusy = false))
    ∧ (∃ (s : State) (o : Fin 8) (i : Fin 45) (j : ModeJob), (s.Good) ∧ (i.val = 15 + o.val) ∧ (s.outs[o.val].job = some j) ∧ (j.wait = ModeWait.gate) ∧ (BitVec.getLsbD s.belvs[o.val].cfg 0 = false) ∧ (s.outs[o.val].auxBusy = true) ∧ (s.clk.gateWait.getLsbD i.val = true))
    ∧ (∃ (s : State) (o : Fin 8) (i : Fin 45) (j : ModeJob) (k : Fin 45), (s.Good) ∧ (i.val = 15 + o.val) ∧ (s.islandWork k.val = false))
    ∧ (∃ (s : State) (o : Fin 8) (i : Fin 45) (j : ModeJob) (k : Fin 45), (s.Good) ∧ (i.val = 15 + o.val) ∧ (s.islandWork k.val = true)) := by
  refine ⟨⟨live, 0, 23, ?_⟩,
    ⟨gate.modLink 1 fun k => { k with st := .train }, 1, 24, ?_⟩,
    ⟨gate.modLink 1 fun k => { k with st := .train }, 1, 24, ?_⟩,
    ⟨{ (gate.modLink 1 fun k => { k with enable := true }) with spire := { (gate.modLink 1 fun k => { k with enable := true }).spire with image := some img1 } }, 1, 24, ?_⟩,
    ⟨{ (gate.modLink 1 fun k => { k with enable := true }) with spire := { (gate.modLink 1 fun k => { k with enable := true }).spire with image := some img1 } }, 1, 24, ?_⟩,
    ⟨gate.modLink 1 fun k => { k with st := .train }, 1, 24, ?_⟩,
    ⟨gateO, 1, 16, gj, .gateIdle 16, ?_⟩,
    ⟨gateO.modOut 1 fun u => { u with edidBusy := true }, 1, 16, gj, ?_⟩,
    ⟨live, 0, 15, gj, 8, ?_⟩,
    ⟨live, 0, 15, gj, 0, ?_⟩⟩ <;>
    first | decide +kernel | (simp only [State.Good, State.Inv, State.Steady, State.HostTo, State.HostRuns, State.ConfigTo, State.BeginsAtOnce, State.Accepts, State.Asked]; decide +kernel)
theorem test_witness_ClocksAndPlls :
    (∃ (s : State), (s.Good) ∧ (s.clk.xinOk = false))
    ∧ (∃ (s : State), (s.Good) ∧ (s.clk.xinOk = true) ∧ (s.clk.onRco = false))
    ∧ (∃ (s : State) (n : Fin 4), (s.Good) ∧ (s.clk.refclkOk.getLsbD n.val = true))
    ∧ (∃ (s : State) (i : Fin 45), (s.Good))
    ∧ (∃ (s : State) (count : Nat) (refs : Vector Nat 4), (s.Good) ∧ (s.clk.rcoFail = false) ∧ (s.clk.xinOk = true) ∧ (s.clk.monWindows < 63))
    ∧ (∃ (s : State) (count : Nat) (refs : Vector Nat 4), (s.Good) ∧ (s.clk.rcoFail = false) ∧ (s.clk.xinOk = true) ∧ (s.clk.monWindows = 63))
    ∧ (∃ (s : State) (count : Nat) (refs : Vector Nat 4), (s.Good) ∧ (s.clk.rcoFail = false) ∧ (s.clk.xinOk = true) ∧ (64 ≤ s.clk.monWindows) ∧ (s.clk.monBad = 0) ∧ ((((count * 256 : Nat) : Int) - (s.clk.monTrack : Int)).natAbs * 100 ≤ s.clk.monTrack))
    ∧ (∃ (s : State) (count : Nat) (refs : Vector Nat 4), (s.Good) ∧ (s.clk.rcoFail = false) ∧ (s.clk.xinOk = true) ∧ (64 ≤ s.clk.monWindows) ∧ (s.clk.monBad ≠ 0) ∧ (s.clk.onRco = false) ∧ (s.clk.aonOnXin = false))
    ∧ (∃ (s : State) (n : Fin 48), (s.Good) ∧ (s.clk.pllLock.getLsbD n.val = true))
    ∧ (∃ (s : State) (n : Fin 48), (s.Good) ∧ (s.clk.pllCoast.getLsbD n.val = true) ∧ (xinPll n.val = false ∨ s.clk.onRco = false))
    ∧ (∃ (s : State) (n : Fin 48), (s.Good) ∧ (s.clk.pllCoast.getLsbD n.val = true) ∧ (xinPll n.val = true) ∧ (s.clk.onRco = true))
    ∧ (∃ (s : State), (s.Good) ∧ (s.clk.onRco = false) ∧ (s.clk.rcoFail = false))
    ∧ (∃ (s : State), (s.Inv) ∧ (s.pwr.reset = ResetSt.running ∨ s.pwr.reset = ResetSt.warm ∨ s.pwr.reset = ResetSt.tripped) ∧ (s.clk.onRco = true)) := by
  refine ⟨⟨{ live with clk := { live.clk with xinOk := false } }, ?_⟩,
    ⟨live, ?_⟩,
    ⟨live, 0, ?_⟩,
    ⟨live, 0, ?_⟩,
    ⟨live, 0, #v[0, 0, 0, 0], ?_⟩,
    ⟨{ live with clk := { live.clk with monWindows := 63, monSum := 63 * 32768 } }, 0, #v[0, 0, 0, 0], ?_⟩,
    ⟨{ live with clk := { live.clk with monWindows := 64 } }, 32700, #v[0, 0, 0, 0], ?_⟩,
    ⟨{ live with clk := { live.clk with monWindows := 64, monBad := 1 } }, 32768, #v[0, 0, 0, 0], ?_⟩,
    ⟨live, 0, ?_⟩,
    ⟨{ live with clk := { live.clk with pllLock := 0, pllCoast := BitVec.allOnes 48 } }, 0, ?_⟩,
    ⟨{ live with clk := { live.clk with onRco := true, pllLock := 0, pllCoast := BitVec.allOnes 48 } }, 40, ?_⟩,
    ⟨live, ?_⟩,
    ⟨{ live with clk := { live.clk with onRco := true, pllLock := 0, pllCoast := BitVec.allOnes 48 } }, ?_⟩⟩ <;>
    first | decide +kernel | (simp only [State.Good, State.Inv, State.Steady, State.HostTo, State.HostRuns, State.ConfigTo, State.BeginsAtOnce, State.Accepts, State.Asked]; decide +kernel)
end G1

/-! ### Frames -/

namespace G2
def lat3 : Latched := { pav := 1, handle := 3, layer := layerOf dLayer, buf := some at1 }
def mem1 : Member := { no := 1, pav := 1, sq := 0, seq := 5, view := 0, out := 1, deferred := false, caps := [] }
def grp (f : Nat := 7) (e : Nat := 2) (caps := ([] : List (Fin 256 × Latched))) : Group := { owner := some 1, gid := 0, size := 1, expiry := e, wall := false, wallFrame := 0, rg := 0, first := f, target := f, members := [{ mem1 with caps := caps }] }
def latW : Latched := { lat3 with buf := some { at1 with fenceWait := true, cell := 7, fenceVal := 5000 } }
def scan : State := mapd.modOut 1 fun u => { u with scanning := true, frame := 7 }
def lined : State := { scan with pavs := live.pavs }.modOut 1 fun u => { u with lineMatch := 0x80000003 }
def safeS : State := { (scan.modOut 1 fun u => { u with safe := true }) with keep := { live.keep with sfVerified := 0xFF } }
def shown : State := scan.modSlot 3 fun q => { q with cur := some lat3 }
def vm1 : VMap := { out := 1, zBase := 0, zDepth := 8, rect := { x0 := 0, y0 := 0, x1 := 64, y1 := 64 } }
theorem test_witness_FrameStart :
    (∃ (s : State) (o : Fin 8) (f : Nat) (err : Int), (s.Good) ∧ (s.outs[o.val].enabled = true) ∧ (s.outs[o.val].coast = false) ∧ (s.outs[o.val].job = none) ∧ (err.natAbs * 1000 ≤ s.outs[o.val].mode.linePs))
    ∧ (∃ (s : State) (o : Fin 8) (f : Nat) (err : Int), (s.Good) ∧ (s.outs[o.val].enabled = true) ∧ (s.outs[o.val].coast = false) ∧ (s.outs[o.val].job = none) ∧ (s.outs[o.val].mode.linePs < err.natAbs * 1000))
    ∧ (∃ (s : State) (o : Fin 8) (f : Nat) (err : Int), (s.Good) ∧ (s.outs[o.val].enabled = false ∨ s.outs[o.val].coast = true))
    ∧ (∃ (s : State) (o : Fin 8) (j : ModeJob), (s.Good) ∧ (s.outs[o.val].job = some j) ∧ (j.wait = ModeWait.sequence)) := by
  refine ⟨⟨mapd, 1, 0, 0, ?_⟩,
    ⟨mapd, 1, 0, -10000000, ?_⟩,
    ⟨live, 0, 0, 0, ?_⟩,
    ⟨live.modOut 1 fun u => { u with job := some { sq := 0, seq := 5, deferred := false, set := modeSetOf dMode, wait := .sequence } }, 1, { sq := 0, seq := 5, deferred := false, set := modeSetOf dMode, wait := .sequence }, ?_⟩⟩ <;>
    first | decide +kernel | (simp only [State.Good, State.Inv, State.Steady, State.HostTo, State.HostRuns, State.ConfigTo, State.BeginsAtOnce, State.Accepts, State.Asked]; decide +kernel)
theorem test_witness_CutOffAndLatch :
    (∃ (s : State) (o : Fin 8) (f : Nat), (s.Good) ∧ (s.outs[o.val].enabled = true) ∧ (s.comps[o.val].lastCut < f))
    ∧ (∃ (s : State) (o : Fin 8) (f : Nat), (s.Good) ∧ (s.outs[o.val].enabled = false ∨ f ≤ s.comps[o.val].lastCut))
    ∧ (∃ (s : State) (o : Fin 8) (f : Nat), (s.Good) ∧ (s.outs[o.val].enabled = true) ∧ (s.comps[o.val].winOpen = false) ∧ (s.comps[o.val].winFrame = f))
    ∧ (∃ (s : State) (o : Fin 8) (f : Nat), (s.Good) ∧ (s.outs[o.val].enabled = false ∨ s.comps[o.val].winOpen = true))
    ∧ (∃ (s : State) (o : Fin 8) (f : Nat) (g : Group), (s.groups = [g]) ∧ (g.wall = false) ∧ (g.st ≠ GState.latchWait) ∧ (g.target ≤ f) ∧ (g.first ≤ f) ∧ (g.outs.contains o = true) ∧ (s.groupReady g f = true) ∧ (s.cutTaken g f = false))
    ∧ (∃ (s : State) (o : Fin 8) (f : Nat) (g : Group), (s.groups = [g]) ∧ (g.wall = false) ∧ (g.st ≠ GState.latchWait) ∧ (g.target ≤ f) ∧ (g.first ≤ f) ∧ (g.outs.contains o = true) ∧ (s.groupReady g f = false ∨ s.cutTaken g f = true) ∧ (f + 1 < g.first + g.expiry))
    ∧ (∃ (s : State) (o : Fin 8) (f : Nat) (g : Group), (s.groups = [g]) ∧ (g.wall = false) ∧ (g.st ≠ GState.latchWait) ∧ (g.target ≤ f) ∧ (g.first ≤ f) ∧ (g.outs.contains o = true) ∧ (s.groupReady g f = false ∨ s.cutTaken g f = true) ∧ (g.first + g.expiry ≤ f + 1)) := by
  refine ⟨⟨mapd, 1, 7, ?_⟩,
    ⟨live, 0, 0, ?_⟩,
    ⟨{ scan with comps := scan.comps.set 1 { winOpen := false, winFrame := 7, bg := 5 } }, 1, 7, ?_⟩,
    ⟨live, 0, 0, ?_⟩,
    ⟨{ scan with groups := [grp] }, 1, 7, grp, ?_⟩,
    ⟨{ scan with groups := [grp 7 2 [(3, latW)]] }, 1, 7, grp 7 2 [(3, latW)], ?_⟩,
    ⟨{ scan with groups := [grp 7 2 [(3, latW)]] }, 1, 8, grp 7 2 [(3, latW)], ?_⟩⟩ <;>
    first | decide +kernel | (simp only [State.Good, State.Inv, State.Steady, State.HostTo, State.HostRuns, State.ConfigTo, State.BeginsAtOnce, State.Accepts, State.Asked]; decide +kernel)
theorem test_witness_FrameEndAndUnderrun :
    (∃ (s : State) (o : Fin 8) (f : Nat), (s.Good) ∧ (s.outs[o.val].enabled = true) ∧ (s.outs[o.val].scanning = true) ∧ (s.outs[o.val].vblank = false) ∧ (s.outs[o.val].frame = w64 f))
    ∧ (∃ (s : State) (o : Fin 8) (f : Nat), (s.Good) ∧ (s.outs[o.val].enabled = true) ∧ (s.outs[o.val].scanning = false ∨ s.outs[o.val].vblank = true ∨ s.outs[o.val].frame ≠ w64 f))
    ∧ (∃ (s : State) (o : Fin 8) (f : Nat), (s.Good) ∧ (s.outs[o.val].enabled = false))
    ∧ (∃ (s : State) (o : Fin 8) (line : Nat), (s.Good) ∧ (s.outs[o.val].scanning = true) ∧ (s.outs[o.val].vblank = false) ∧ (s.outs[o.val].underrunAt = none) ∧ (s.outs[o.val].discardFail = false) ∧ (line < s.outs[o.val].mode.h))
    ∧ (∃ (s : State) (o : Fin 8) (line : Nat), (s.Good) ∧ (s.outs[o.val].scanning = false ∨   s.outs[o.val].vblank = true ∨     s.outs[o.val].underrunAt ≠ none ∨ s.outs[o.val].discardFail = true ∨ s.outs[o.val].mode.h ≤ line)) := by
  refine ⟨⟨scan, 1, 7, ?_⟩,
    ⟨mapd, 1, 0, ?_⟩,
    ⟨live, 0, 0, ?_⟩,
    ⟨scan, 1, 0, ?_⟩,
    ⟨live, 0, 0, ?_⟩⟩ <;>
    first | decide +kernel | (simp only [State.Good, State.Inv, State.Steady, State.HostTo, State.HostRuns, State.ConfigTo, State.BeginsAtOnce, State.Accepts, State.Asked]; decide +kernel)
theorem test_witness_LinesAndFreshness :
    (∃ (s : State) (o : Fin 8) (line : Nat), (s.Good) ∧ (s.outs[o.val].scanning = true) ∧ (line < s.outs[o.val].mode.vTotal) ∧ (s.mapped o = []) ∧ (BitVec.getLsbD s.outs[o.val].lineMatch 31 = true) ∧ (bits (BitVec.toNat s.outs[o.val].lineMatch) 15 0 = line))
    ∧ (∃ (s : State) (o : Fin 8) (line : Nat), (s.Good) ∧ (s.outs[o.val].scanning = true) ∧ (line < s.outs[o.val].mode.vTotal) ∧ (s.mapped o = []) ∧ (bits (BitVec.toNat s.outs[o.val].lineMatch) 15 0 ≠ line))
    ∧ (∃ (s : State) (o : Fin 8) (p : Fin 64) (v : Fin 8) (m : VMap) (l : Nat), (s.Good) ∧ (s.outs[o.val].scanning = true) ∧ (m.rect.y0 + l < s.outs[o.val].mode.vTotal) ∧ (s.mapped o = [(p, v, m)]) ∧ (s.pavs[p.val].views[v.val].lmLine = some l) ∧ (BitVec.getLsbD s.outs[o.val].lineMatch 31 = false))
    ∧ (∃ (s : State) (o : Fin 8) (line : Nat), (s.Good) ∧ (s.outs[o.val].scanning = true) ∧ (line < s.outs[o.val].mode.vTotal))
    ∧ (∃ (s : State) (o : Fin 8) (line : Nat), (s.Good) ∧ (s.outs[o.val].scanning = false ∨ s.outs[o.val].mode.vTotal ≤ line))
    ∧ (∃ (s : State) (o : Fin 8) (line : Nat) (p : Fin 64) (v : Fin 8), (s.Good))
    ∧ (∃ (s : State) (o : Fin 8) (line : Nat), (s.Good) ∧ (s.outs[o.val].scanning = true) ∧ (s.outs[o.val].safe = true) ∧ (s.keep.sfVerified.getLsbD o.val = true) ∧ (line < 539) ∧ (s.permit 9 true MemId.keep (sfBase o + 2048 + line * 960) 960     false =   true) ∧ (s.poisoned MemId.keep (sfBase o + 2048 + line * 960) 960 = false) ∧ (errIn s.flips MemId.keep (sfBase o + 2048 + line * 960) 960 = []) ∧ (line ≠ 0))
    ∧ (∃ (s : State) (o : Fin 8) (line : Nat), (s.Good) ∧ (s.outs[o.val].scanning = true) ∧ (s.outs[o.val].safe = true) ∧ (s.keep.sfVerified.getLsbD o.val = true) ∧ (line < 539) ∧ (s.permit 9 true MemId.keep (sfBase o + 2048 + line * 960) 960     false =   true) ∧ (s.poisoned MemId.keep (sfBase o + 2048 + line * 960) 960 = true))
    ∧ (∃ (s : State) (o : Fin 8) (f : Nat) (i : Fin 256) (q : Placed) (a : Attach), (s.Good) ∧ (s.outs[o.val].enabled = true) ∧ (s.checkable o i = some q) ∧ (q.lat.buf = some a) ∧ (¬(248 ≤ i.val ∧ s.belvs[(f8 (i.val - 248)).val].cur = none)))
    ∧ (∃ (s : State) (o : Fin 8) (f : Nat) (i : Fin 256) (q : Placed), (s.Good) ∧ (s.outs[o.val].enabled = true) ∧ (s.checkable o i = some q) ∧ (248 ≤ i.val) ∧ (s.belvs[(f8 (i.val - 248)).val].cur = none))
    ∧ (∃ (s : State) (o : Fin 8) (f : Nat) (i : Fin 256), (s.Good) ∧ (s.outs[o.val].enabled = false ∨ s.checkable o i = none)) := by
  refine ⟨⟨lined, 1, 3, ?_⟩,
    ⟨lined, 1, 0, ?_⟩,
    ⟨mapd.modOut 1 (fun u => { u with scanning := true, frame := 7 }) |>.modView 1 0 fun x => { x with lmLine := some 3 }, 1, 1, 0, vm1, 3, ?_⟩,
    ⟨scan, 1, 0, ?_⟩,
    ⟨live, 0, 0, ?_⟩,
    ⟨live, 0, 0, 0, 0, ?_⟩,
    ⟨safeS, 1, 3, ?_⟩,
    ⟨{ safeS with poison := [(.keep, sfBase 1 + 0x800 + 3 * 960 + 5)] }, 1, 3, ?_⟩,
    ⟨{ shown with slots := shown.slots }, 1, 0, 3, (shown.checkable 1 3).get (by decide), at1, ?_⟩,
    ⟨{ scan with belvs := live.belvs.map fun b => { b with cfg := 1, size := 0x00020002 } }, 1, 7, 249, (({ scan with belvs := live.belvs.map fun b => { b with cfg := 1, size := 0x00020002 } } : State).checkable 1 249).get (by decide +kernel), ?_⟩,
    ⟨live, 0, 0, 0, ?_⟩⟩ <;>
    first | decide +kernel | (simp only [State.Good, State.Inv, State.Steady, State.HostTo, State.HostRuns, State.ConfigTo, State.BeginsAtOnce, State.Accepts, State.Asked]; decide +kernel)
end G2

/-! ### Training, scans, the Gazebo -/

namespace H
def holdS (s : State) (b : Nat) : State := { s with dome := { s.dome with held := s.dome.held ||| (1 <<< b) } }
def og (f : Out → Out) : State := mapd.modOut 1 f
def gz (g : Gaz) : State := { live with gaz := g }
def c3 : Control := { cfg := 0x02000081, liveCfg := 0x02000081, measured := true, elems := (Vector.replicate 16 ({ base := 65536 * 100 } : Elem)) }
def gzC (c : Control) : Gaz := { live.gaz with scanEn := true, scanning := true, controls := live.gaz.controls.set 3 c }
def caps1 : BitVec 128 := BitVec.ofNat 128 (0x12 + 0x1E * 2^8 + 0xC4 * 2^16 + 0x1 * 2^24)
theorem test_witness_LinkTraining :
    (∃ (s : State) (o : Fin 8), (s.Good) ∧ (s.outs[o.val].hpd = false))
    ∧ (∃ (s : State) (o : Fin 8), (s.Good) ∧ (s.outs[o.val].hpd = true))
    ∧ (∃ (s : State) (o : Fin 8) (st : Option (BitVec 64)), (s.Good) ∧ (s.outs[o.val].hpd = false))
    ∧ (∃ (s : State) (o : Fin 8) (status : Option (BitVec 64)), (s.Good) ∧ (s.outs[o.val].hpd = true))
    ∧ (∃ (s : State) (o : Fin 8) (status : BitVec 64), (s.Good) ∧ (s.outs[o.val].hpd = true) ∧ (s.outs[o.val].on = true) ∧ (s.outs[o.val].trained = true) ∧ (s.outs[o.val].training = false))
    ∧ (∃ (s : State) (o : Fin 8) (why : AuxMiss) (run : TrainRun), (s.Good) ∧ (s.outs[o.val].auxRetries < 7) ∧ ((s.outs[o.val].auxLast).any fun x => decide ((s.outs[o.val].training = true ∧ isTrainAcc x = true ∨   s.outs[o.val].edidBusy = true ∧ x = edidAcc s.outs[o.val].edidBlock ∨ s.outs[o.val].auxOp = some x))) = true)
    ∧ (∃ (s : State) (o : Fin 8) (x : AuxAcc) (why : AuxMiss) (run : TrainRun) (i : Nat), (s.Good) ∧ (s.outs[o.val].training = true) ∧ (isTrainAcc x = true) ∧ (s.outs[o.val].auxLast ≠ some x) ∧ (List.findIdx? (fun x_1 => x_1 == x) (List.drop s.outs[o.val].auxDone (trainPlan run s.outs[o.val].set)) = some i))
    ∧ (∃ (s : State) (o : Fin 8) (x : AuxAcc) (why : AuxMiss) (run : TrainRun), (s.Good) ∧ (s.outs[o.val].auxLast = some x) ∧ (s.outs[o.val].auxRetries = 7) ∧ (s.outs[o.val].training = true) ∧ (isTrainAcc x = true) ∧ (s.outs[o.val].edidBusy = false))
    ∧ (∃ (s : State) (o : Fin 8) (why : AuxMiss) (run : TrainRun), (s.Good) ∧ (s.outs[o.val].edidBusy = true) ∧ (s.outs[o.val].auxLast = some (edidAcc s.outs[o.val].edidBlock)) ∧ (s.outs[o.val].auxRetries = 7))
    ∧ (∃ (s : State) (o : Fin 8) (x : AuxAcc) (why : AuxMiss) (run : TrainRun), (s.Good) ∧ (s.outs[o.val].auxLast = some x) ∧ (s.outs[o.val].auxRetries = 7) ∧ (s.outs[o.val].training = false) ∧ (s.outs[o.val].edidBusy = false) ∧ (s.outs[o.val].auxOp = some x))
    ∧ (∃ (s : State) (o : Fin 8) (r : TrainRun), (s.Good) ∧ (s.outs[o.val].training = true) ∧ (r.stage = (0 : Fin 6)) ∧ (capFits r s.outs[o.val].set.rate s.outs[o.val].set.lanes = true))
    ∧ (∃ (s : State) (o : Fin 8) (r : TrainRun) (n : Nat), (s.Good) ∧ (s.outs[o.val].training = true) ∧ (n = 1 ∧ r.stage.val = 1 ∨   n = 2 ∧       r.stage.val ≠ 1 ∧         (r.stage.val = 2 ∨ capFits r s.outs[o.val].set.rate s.outs[o.val].set.lanes = false) ∨     n = r.stage.val ∧ 3 ≤ n ∧ capFits r s.outs[o.val].set.rate s.outs[o.val].set.lanes = true))
    ∧ (∃ (s : State) (o : Fin 8) (r : TrainRun), (s.Good) ∧ (s.outs[o.val].training = false))
    ∧ (∃ (s : State) (o : Fin 8), (s.Good) ∧ (s.outs[o.val].hpd = true) ∧ (s.outs[o.val].on = true) ∧ (s.outs[o.val].trained = false) ∧ (s.outs[o.val].training = false) ∧ (bits (BitVec.toNat s.outs[o.val].trainRetry) 15 0 ≠ 0))
    ∧ (∃ (s : State) (o : Fin 8), (s.Good) ∧ (s.outs[o.val].hpd = false ∨   s.outs[o.val].trained = true ∨     bits (BitVec.toNat s.outs[o.val].trainRetry) 15 0 = 0))
    ∧ (∃ (s : State) (o : Fin 8), (s.Good) ∧ (s.outs[o.val].edidBusy = true))
    ∧ (∃ (s : State) (o : Fin 8) (l : List Byte), (s.Good) ∧ (l.length = 128) ∧ (s.outs[o.val].edidBusy = true)) := by
  refine ⟨⟨live, 0, ?_⟩,
    ⟨og fun u => { u with hpd := true, failStage := 2 }, 1, ?_⟩,
    ⟨live, 0, none, ?_⟩,
    ⟨og fun u => { u with hpd := true, failStage := 2 }, 1, none, ?_⟩,
    ⟨og fun u => { u with hpd := true, trained := true, pvalid := true }, 1, 0x0, ?_⟩,
    ⟨og fun u => { u with hpd := true, training := true, auxLast := some (.read 0 16), auxRetries := 3 }, 1, .timeout, { caps := caps1, ext := 0, rates := 0, tries := [{ pattern := 0x21, drive := 0 }], stage := 0 }, ?_⟩,
    ⟨og fun u => { u with hpd := true, training := true }, 1, .read 0 16, .timeout, { caps := caps1, ext := 0, rates := 0, tries := [{ pattern := 0x21, drive := 0 }], stage := 0 }, 0, ?_⟩,
    ⟨og fun u => { u with hpd := true, training := true, auxLast := some (.read 0 16), auxRetries := 7 }, 1, .read 0 16, .timeout, { caps := caps1, ext := 0, rates := 0, tries := [{ pattern := 0x21, drive := 0 }], stage := 0 }, ?_⟩,
    ⟨og fun u => { u with hpd := true, edidBusy := true, auxLast := some (.i2c 0 0), auxRetries := 7 }, 1, .timeout, { caps := caps1, ext := 0, rates := 0, tries := [{ pattern := 0x21, drive := 0 }], stage := 0 }, ?_⟩,
    ⟨og fun u => { u with hpd := true, auxOp := some (.read 0x200 8), auxLast := some (.read 0x200 8), auxRetries := 7 }, 1, .read 0x200 8, .timeout, { caps := caps1, ext := 0, rates := 0, tries := [{ pattern := 0x21, drive := 0 }], stage := 0 }, ?_⟩,
    ⟨og fun u => { u with hpd := true, training := true }, 1, { caps := caps1, ext := 0, rates := 0, tries := [{ pattern := 0x21, drive := 0 }], stage := 0 }, ?_⟩,
    ⟨og fun u => { u with hpd := true, training := true }, 1, { caps := caps1, ext := 0, rates := 0, tries := [], stage := 1 }, 1, ?_⟩,
    ⟨live, 0, { caps := caps1, ext := 0, rates := 0, tries := [{ pattern := 0x21, drive := 0 }], stage := 0 }, ?_⟩,
    ⟨og fun u => { u with hpd := true, failStage := 2 }, 1, ?_⟩,
    ⟨live, 0, ?_⟩,
    ⟨og fun u => { u with hpd := true, edidBusy := true, auxLast := some (.i2c 0 0), auxRetries := 7 }, 1, ?_⟩,
    ⟨og fun u => { u with hpd := true, edidBusy := true, auxLast := some (.i2c 0 0), auxRetries := 7 }, 1, (List.range 128).map (BitVec.ofNat 8), ?_⟩⟩ <;>
    first | decide +kernel | (simp only [State.Good, State.Inv, State.Steady, State.HostTo, State.HostRuns, State.ConfigTo, State.BeginsAtOnce, State.Accepts, State.Asked]; decide +kernel)
theorem test_witness_ControlScans :
    (∃ (s : State) (c : Fin 32), (s.Good) ∧ (s.HostTo (0 : Fin 64)) ∧ (s.isHeld (32 + c.val) = false))
    ∧ (∃ (s : State) (c : Fin 32), (s.Good) ∧ (s.HostTo (0 : Fin 64)) ∧ (s.isHeld (32 + c.val) = true))
    ∧ (∃ (s : State), (s.Good) ∧ (s.gaz.scanEn = true) ∧ (s.gaz.scanning = false))
    ∧ (∃ (s : State), (s.Good) ∧ (s.gaz.scanEn = false ∨ s.gaz.scanning = true))
    ∧ (∃ (s : State) (raw : List Nat), (s.Good) ∧ (s.gaz.scanning = true))
    ∧ (∃ (s : State) (raw : List Nat), (s.Good) ∧ (s.gaz.scanning = false))
    ∧ (∃ (s : State), (s.Good) ∧ (s.gaz.scanEn = true) ∧ (s.gaz.level < 3) ∧ (s.arrived.contains Awaited.touch = false) ∧ ((s.gaz.controls.toList.any fun c => c.touched) = false))
    ∧ (∃ (s : State), (s.Good) ∧ (s.gaz.scanEn = false ∨   3 ≤ s.gaz.level ∨     s.arrived.contains Awaited.touch = true ∨ (s.gaz.controls.toList.any fun c => c.touched) = true)) := by
  refine ⟨⟨live, 0, ?_⟩,
    ⟨holdS live 0x23, 3, ?_⟩,
    ⟨{ (gz { live.gaz with scanEn := true }) with arrived := [.touch] }, ?_⟩,
    ⟨live, ?_⟩,
    ⟨gz (gzC c3), [], ?_⟩,
    ⟨live, [], ?_⟩,
    ⟨gz { live.gaz with scanEn := true }, ?_⟩,
    ⟨live, ?_⟩⟩ <;>
    first | decide +kernel | (simp only [State.Good, State.Inv, State.Steady, State.HostTo, State.HostRuns, State.ConfigTo, State.BeginsAtOnce, State.Accepts, State.Asked]; decide +kernel)
theorem test_witness_GazeboDrive :
    (∃ (s : State) (h : Fin 16) (b : Bemf), (s.Good) ∧ (s.gaz.haps[h.val].st = HapSt.idle))
    ∧ (∃ (s : State) (h : Fin 16) (b : Bemf), (s.Good) ∧ (s.gaz.haps[h.val].st = HapSt.brake) ∧ (7 ≤ s.gaz.haps[h.val].brakes))
    ∧ (∃ (s : State) (n : Fin 8) (h : Fin 16), (s.Good) ∧ (bit (BitVec.toNat s.gaz.trig[n.val]) 0 = true) ∧ (∀ (k : Fin 16), bit (BitVec.toNat s.gaz.trig[n.val]) (16 + k.val) = decide (k = h)) ∧ (s.heldFromNormal (16 + h.val) = false) ∧ (s.gaz.haps[h.val].st = HapSt.idle))
    ∧ (∃ (s : State) (n : Fin 8) (e : Bool), (s.Good) ∧ (bit (BitVec.toNat s.gaz.trig[n.val]) 0 = false))
    ∧ (∃ (s : State), (s.Good) ∧ (s.dome.haltTone = false) ∧ (∀ (v : Fin 16), s.gaz.voices[v.val].phase = VoPhase.idle) ∧ (∀ (p : Fin 64) (i : Fin 8), s.pavs[p.val].pcm[i.val].queue = []))
    ∧ (∃ (s : State) (v : Fin 16), (s.Good) ∧ (s.gaz.voices[v.val].phase = VoPhase.sustain)) := by
  refine ⟨⟨live, 0, ⟨none, 0⟩, ?_⟩,
    ⟨(live.modHap 2 fun c => { c with st := .brake, brakes := 7 }), 2, ⟨none, 0⟩, ?_⟩,
    ⟨gz { live.gaz with trig := live.gaz.trig.set 1 0x00040511 }, 1, 2, ?_⟩,
    ⟨live, 0, false, ?_⟩,
    ⟨live, ?_⟩,
    ⟨live.modVoice 2 fun x => { x with phase := .sustain }, 2, ?_⟩⟩ <;>
    first | decide +kernel | (simp only [State.Good, State.Inv, State.Steady, State.HostTo, State.HostRuns, State.ConfigTo, State.BeginsAtOnce, State.Accepts, State.Asked]; decide +kernel)
theorem test_witness_GazeboDrive_b :
    (∃ (s : State) (h : Fin 16) (u : Nat) (mv : Nat), (s.Good) ∧ (s.gaz.haps[h.val].st = HapSt.drive) ∧ (s.gaz.haps[h.val].halves + 1 <   2 *     max 1       (bits (effectWord s.gaz.haps[h.val].effect (s.gaz.haps[h.val].seg + 1)) 15         8))) := by
  refine ⟨live.modHap 2 fun c => { c with st := .drive, effect := 5 }, 2, 0, 0, ?_⟩
  · refine ⟨?_, ?_, ?_⟩
    case refine_3 =>
      have e : ((live.modHap 2 fun c => { c with st := .drive, effect := 5 }).gaz.haps[(2 : Fin 16).val]).halves = 0 := by decide +kernel
      rw [e]; omega
    all_goals (first | decide +kernel | (simp only [State.Good, State.Inv, State.Steady, State.HostTo, State.HostRuns, State.ConfigTo, State.BeginsAtOnce, State.Accepts, State.Asked]; decide +kernel))
end H

/-! ### DRAM accesses -/

namespace K1
def wqd (l : List WAtom) (s : State) : State := { s with dmcs := s.dmcs.map fun d => { d with wq := l } }
def rg (s : State) (m : Nat) (rd wr : Nat) : State := { s with dome := { s.dome with wmMode := false, regions := s.dome.regions.map fun v => v.set 0 { en := true, base := 0, limit := 0xFFFFFFF, read := BitVec.ofNat 16 rd, write := BitVec.ofNat 16 wr } } }
theorem test_witness_DramAccesses :
    (∃ (s : State) (r : MemReq) (data : List Byte), (s.Good) ∧ (s.dramGone = false) ∧ (r.addr + r.len ≤ s.memSize MemId.dram) ∧ (0 < r.len) ∧ (r.addr % 64 + r.len ≤ 64) ∧ (data.length = r.len) ∧ (∀ (c : Fin 8), s.dmcs[c.val].wq.length + r.len ≤ 64) ∧ (s.admits r.port r.addr r.len = true) ∧ (s.permit (portMaster r.port) ((fun q => s.secureTag (portMaster q.port) (68719476736 + q.addr) q.len) r)     MemId.dram r.addr r.len true =   true))
    ∧ (∃ (s : State) (r : MemReq) (data : List Byte) (q : MemReq) (e : Ecc), (s.Good) ∧ (s.dramGone = false) ∧ (r.addr + r.len ≤ s.memSize MemId.dram) ∧ (0 < r.len) ∧ (r.addr % 64 + r.len ≤ 64) ∧ (data.length = r.len) ∧ (∀ (c : Fin 8), s.dmcs[c.val].wq.length + r.len ≤ 64) ∧ (s.admits r.port r.addr r.len = true) ∧ (s.permit (portMaster r.port) ((fun q => s.secureTag (portMaster q.port) (68719476736 + q.addr) q.len) r)     MemId.dram r.addr r.len true =   true) ∧ (q.addr = r.addr) ∧ (q.len = r.len) ∧ (q.port ≠ r.port) ∧ (s.admits q.port q.addr q.len = true) ∧ (s.permit (portMaster q.port) ((fun q => s.secureTag (portMaster q.port) (68719476736 + q.addr) q.len) q)     MemId.dram q.addr q.len false =   true) ∧ (s.dmcs[(chanOf r.addr).val].rq = []))
    ∧ (∃ (s : State) (r : MemReq) (e : Ecc), (s.Good) ∧ (s.dramGone = false) ∧ (r.addr + r.len ≤ s.memSize MemId.dram) ∧ (0 < r.len) ∧ (r.addr % 64 + r.len ≤ 64) ∧ (s.admits r.port r.addr r.len = true) ∧ (s.permit (portMaster r.port) ((fun q => s.secureTag (portMaster q.port) (68719476736 + q.addr) q.len) r)     MemId.dram r.addr r.len false =   true) ∧ (s.dmcs[(chanOf r.addr).val].covers (r.addr / 64 * 64) (r.addr % 64)     (r.addr % 64 + r.len) =   true))
    ∧ (∃ (s : State) (r : MemReq) (e : Ecc), (s.Good) ∧ (s.dramGone = false) ∧ (r.addr + r.len ≤ s.memSize MemId.dram) ∧ (0 < r.len) ∧ (r.addr % 64 + r.len ≤ 64) ∧ (s.admits r.port r.addr r.len = true) ∧ (s.permit (portMaster r.port) ((fun q => s.secureTag (portMaster q.port) (68719476736 + q.addr) q.len) r)     MemId.dram r.addr r.len false =   true) ∧ (s.dmcs[(chanOf r.addr).val].covers (r.addr / 64 * 64) (r.addr % 64)     (r.addr % 64 + r.len) =   false) ∧ (s.dmcs[(chanOf r.addr).val].rq = []))
    ∧ (∃ (s : State) (r : MemReq) (e : Ecc), (s.Good) ∧ (s.dramGone = false) ∧ (r.addr + r.len ≤ s.memSize MemId.dram) ∧ (0 < r.len) ∧ (r.addr % 64 + r.len ≤ 64) ∧ (s.admits r.port r.addr r.len = false)) := by
  refine ⟨⟨live, { port := 0, addr := 0, len := 4 }, [9, 8, 7, 6], ?_⟩,
    ⟨live, { port := 0, addr := 0, len := 4 }, [9, 8, 7, 6], { port := 9, addr := 0, len := 4 }, .clean, ?_⟩,
    ⟨wqd [⟨0, [(0, 1), (1, 2), (2, 3), (3, 4)], true, 0, 0⟩] live, { port := 0, addr := 0, len := 4 }, .clean, ?_⟩,
    ⟨live, { port := 0, addr := 0, len := 4 }, .clean, ?_⟩,
    ⟨{ live with bports := live.bports.map fun b => { b with bucket := 0, cfg := 0 } }, { port := 9, addr := 0, len := 4 }, .clean, ?_⟩⟩ <;>
    first | decide +kernel | (simp only [State.Good, State.Inv, State.Steady, State.HostTo, State.HostRuns, State.ConfigTo, State.BeginsAtOnce, State.Accepts, State.Asked]; decide +kernel)
theorem test_witness_DramAccesses_b :
    (∃ (s : State) (r : MemReq) (e : Ecc), (s.Good) ∧ (s.dramGone = false) ∧ (r.addr + r.len ≤ s.memSize MemId.dram) ∧ (0 < r.len) ∧ (r.addr % 64 + r.len ≤ 64) ∧ (s.admits r.port r.addr r.len = true) ∧ (s.permit (portMaster r.port) ((fun q => s.secureTag (portMaster q.port) (68719476736 + q.addr) q.len) r)     MemId.dram r.addr r.len false =   false) ∧ (∀ (k : Nat),   s.permit 1 false MemId.org (33423360 + k % 4096 * 32)       32 true =     true)) := by
  refine ⟨rg live 0 2 2, { port := 0, addr := 0, len := 4 }, .clean, ?_, ?_, ?_, ?_, ?_, ?_, ?_, ?_⟩
  all_goals first | decide +kernel | (simp only [State.Good, State.Inv, State.Steady, State.HostTo, State.HostRuns, State.ConfigTo, State.BeginsAtOnce, State.Accepts, State.Asked]; decide +kernel) | exact fun k => all4096 (P := fun x => (rg live 0 2 2 : State).permit 1 false MemId.org (33423360 + x * 32) 32 true = true) (by decide +kernel) k
theorem test_witness_DramAccesses_c :
    (∃ (s : State) (r : MemReq) (data : List Byte), (s.Good) ∧ (s.dramGone = false) ∧ (r.addr + r.len ≤ s.memSize MemId.dram) ∧ (0 < r.len) ∧ (r.addr % 64 + r.len ≤ 64) ∧ (data.length = r.len) ∧ (s.admits r.port r.addr r.len = true) ∧ (s.permit (portMaster r.port) ((fun q => s.secureTag (portMaster q.port) (68719476736 + q.addr) q.len) r)     MemId.dram r.addr r.len true =   false) ∧ (∀ (k : Nat),   s.permit 1 false MemId.org (33423360 + k % 4096 * 32)       32 true =     true)) := by
  refine ⟨rg live 0 2 2, { port := 0, addr := 0, len := 4 }, [9, 8, 7, 6], ?_, ?_, ?_, ?_, ?_, ?_, ?_, ?_, ?_⟩
  all_goals first | decide +kernel | (simp only [State.Good, State.Inv, State.Steady, State.HostTo, State.HostRuns, State.ConfigTo, State.BeginsAtOnce, State.Accepts, State.Asked]; decide +kernel) | exact fun k => all4096 (P := fun x => (rg live 0 2 2 : State).permit 1 false MemId.org (33423360 + x * 32) 32 true = true) (by decide +kernel) k
end K1

/-! ### DRAM upkeep -/

namespace K2
def dm (s : State) (f : Dmc → Dmc) : State := { s with dmcs := s.dmcs.map f }
def rgs (s : State) : State := { s with dome := { s.dome with wmMode := false, regions := s.dome.regions.map fun v => v.set 0 { en := true, secure := true, base := 0, limit := 0xFFFFFFF } } }
def ecg (s : State) : State := { s with dmcg := { s.dmcg with scrubPeriod := 5, eccRegion := s.dmcg.eccRegion.set 0 0x80080000 } }
def ra : RAtom := { req := { port := 0, addr := 0, len := 4 }, since := 0, no := 0 }
theorem test_witness_DramUpkeep :
    (∃ (s : State) (c : Fin 8), (s.Good) ∧ (s.dmcLive c = true) ∧ (s.dmcs[c.val].rtBurst = false))
    ∧ (∃ (s : State) (c : Fin 8), (s.Good) ∧ (s.dmcLive c = true) ∧ (s.dmcs[c.val].rtBurst = true) ∧ (s.dmcs[c.val].debt + 8 < 8 * s.dmcs[c.val].limit))
    ∧ (∃ (s : State) (c : Fin 8), (s.Good) ∧ (s.dmcLive c = true) ∧ (s.dmcs[c.val].rtBurst = true) ∧ (8 * s.dmcs[c.val].limit ≤ s.dmcs[c.val].debt + 8) ∧ (s.dmcs[c.val].retrain = none))
    ∧ (∃ (s : State) (c : Fin 8), (s.Good) ∧ (s.dmcLive c = true) ∧ (s.dmcs[c.val].retrainDue = false) ∧ ((s.dmcs[c.val].rq.any fun x => isRt x.req) = false))
    ∧ (∃ (s : State) (c : Fin 8), (s.Good) ∧ (s.dmcLive c = true) ∧ ((s.dmcs[c.val].rq.any fun x => isRt x.req) = true))
    ∧ (∃ (s : State) (c : Fin 8) (drift : Bool), (s.Good) ∧ (s.dmcLive c = true))
    ∧ (∃ (s : State) (c : Fin 8) (drift : Bool), (s.Good) ∧ (s.dmcLive c = true) ∧ (s.dmcs[c.val].retrain = some drift) ∧ (s.dmcs[c.val].rtBurst = true))
    ∧ (∃ (s : State) (c : Fin 8) (drift : Bool), (s.Good) ∧ (s.dmcLive c = true) ∧ (s.dmcs[c.val].retrain = some drift) ∧ (s.dmcs[c.val].rtBurst = false))
    ∧ (∃ (s : State) (c : Fin 8), (s.Good) ∧ (s.dmcs[c.val].retrain = none))
    ∧ (∃ (s : State) (c : Fin 8) (bank : Nat), (s.Good))
    ∧ (∃ (s : State) (c : Fin 8) (i : Instr) (drift : Bool), (s.Good) ∧ (s.dmcLive c = false) ∧ (i = Instr.refreshTick c ∨ i = Instr.rtBurstEnd c ∨ i = Instr.retrainRefabDue c ∨ i = Instr.dqRetrain c drift))
    ∧ (∃ (s : State) (c : Fin 8) (r : Fin 32), (s.Good) ∧ (s.dmcLive c = true) ∧ (r.val < 10))
    ∧ (∃ (s : State) (c : Fin 8) (r : Fin 32), (s.Good) ∧ (s.dmcLive c = true) ∧ (10 ≤ r.val) ∧ (s.dmcs[c.val].hot = true ∨ s.dmcs[c.val].debt < 8))
    ∧ (∃ (s : State) (c : Fin 8) (r : Fin 32), (s.Good) ∧ (s.dmcLive c = true) ∧ (10 ≤ r.val) ∧ (s.dmcs[c.val].hot = false) ∧ (8 ≤ s.dmcs[c.val].debt))
    ∧ (∃ (s : State) (c : Fin 8) (e : Ecc), (s.Good) ∧ (s.dmcLive c = true) ∧ (s.dmcg.scrubPeriod = 0))
    ∧ (∃ (s : State) (c : Fin 8) (a : Nat), (s.Good) ∧ (s.dmcLive c = true) ∧ (s.dmcg.scrubPeriod ≠ 0) ∧ (s.nextScrub c s.dmcs[c.val].scrubAt = some a) ∧ (s.dmcs[c.val].wq = []) ∧ (s.poisoned MemId.dram a 64 = false))
    ∧ (∃ (s : State) (c : Fin 8) (a : Nat), (s.Good) ∧ (s.dmcLive c = true) ∧ (s.dmcg.scrubPeriod ≠ 0) ∧ (s.nextScrub c s.dmcs[c.val].scrubAt = some a) ∧ (s.dmcs[c.val].wq = []))
    ∧ (∃ (s : State), (s.Good) ∧ (s.HostTo (0 : Fin 64)) ∧ (s.pwr.standby = false) ∧ (s.pwr.entering = false) ∧ ((s.outs.toList.any fun u => u.enabled) = true))
    ∧ (∃ (s : State), (s.Good) ∧ (s.HostTo (0 : Fin 64)) ∧ (s.pwr.standby = false) ∧ (s.pwr.entering = false) ∧ ((s.outs.toList.any fun u => u.enabled) = false) ∧ ((s.dome.regions[0].toList.any fun r => r.en && r.secure) = true))
    ∧ (∃ (s : State), (s.Good) ∧ (s.HostTo (0 : Fin 64)) ∧ (s.pwr.standby = false) ∧ (s.pwr.entering = false) ∧ ((s.outs.toList.any fun u => u.enabled) = false) ∧ ((s.dome.regions[0].toList.any fun r => r.en && r.secure) = false))
    ∧ (∃ (s : State), (s.Good) ∧ (s.HostTo (0 : Fin 64)) ∧ (s.pwr.standby = false) ∧ (s.pwr.entering = false))
    ∧ (∃ (s : State), (s.Good) ∧ (s.HostTo (0 : Fin 64)) ∧ (s.pwr.standby ≠ s.pwr.entering))
    ∧ (∃ (s : State), (s.Good) ∧ (s.pending = []) ∧ (s.pwr.entering = true) ∧ (∀ (c : Fin 8), s.dmcs[c.val].rq = [] ∧ s.dmcs[c.val].wq = [] ∧ s.dmcs[c.val].debt = 0)) := by
  refine ⟨⟨live, 0, ?_⟩,
    ⟨dm live fun d => { d with rtBurst := true, debt := 5, retrain := some true }, 0, ?_⟩,
    ⟨dm live fun d => { d with rtBurst := true, debt := 56 }, 0, ?_⟩,
    ⟨live, 0, ?_⟩,
    ⟨dm live fun d => { d with rq := [ra], rtBurst := true }, 0, ?_⟩,
    ⟨live, 0, false, ?_⟩,
    ⟨dm live fun d => { d with rtBurst := true, debt := 5, retrain := some true }, 0, true, ?_⟩,
    ⟨dm live fun d => { d with debt := 20, retrain := some false }, 0, false, ?_⟩,
    ⟨live, 0, ?_⟩,
    ⟨live, 0, 0, ?_⟩,
    ⟨dm live fun d => { d with trained := false }, 0, .refreshTick 0, false, ?_⟩,
    ⟨live, 0, 0, ?_⟩,
    ⟨live, 0, 10, ?_⟩,
    ⟨dm live fun d => { d with rtBurst := true, debt := 56 }, 0, 10, ?_⟩,
    ⟨live, 0, .clean, ?_⟩,
    ⟨ecg live, 0, 64, ?_⟩,
    ⟨ecg live, 0, 64, ?_⟩,
    ⟨live.modOut 1 fun u => { u with enabled := true }, ?_⟩,
    ⟨rgs live, ?_⟩,
    ⟨live, ?_⟩,
    ⟨live, ?_⟩,
    ⟨{ dm live Dmc.sleep with pwr := { live.pwr with standby := true } }, ?_⟩,
    ⟨{ live with pwr := { live.pwr with entering := true } }, ?_⟩⟩ <;>
    first | decide +kernel | (simp only [State.Good, State.Inv, State.Steady, State.HostTo, State.HostRuns, State.ConfigTo, State.BeginsAtOnce, State.Accepts, State.Asked]; decide +kernel)
end K2

/-! ### On-chip memories -/

namespace K3
def kp (s : State) (f : Keep → Keep) : State := { s with keep := f s.keep }
def rg (s : State) (rd wr : Nat) : State := { s with dome := { s.dome with wmMode := false, regions := s.dome.regions.map fun v => v.set 0 { en := true, base := 0, limit := 0xFFFFFFF, read := BitVec.ofNat 16 rd, write := BitVec.ofNat 16 wr } } }
def ask (s : State) (p : Nat) (m : BitVec 2048) : State := s.modMbox (fp p) 0 fun x => { x with busy := true, inp := m }
def mreq (b1 : Nat) : BitVec 2048 := BitVec.ofNat 2048 (2 + b1 * 2 ^ 8 + 5 * 2 ^ 64 + 9 * 2 ^ 80)
def org (s : State) (f : Org → Org) : State := { s with org := f s.org }
theorem test_witness_SramAndKeep :
    (∃ (s : State) (a : SramReq) (m : MemId), (s.Good) ∧ (sramMem a.mem = m) ∧ (a.mem = SramMem.orangery ∨ a.mem = SramMem.keep ∧ s.keep.buf = []) ∧ (a.off + a.len ≤ s.memSize m) ∧ (s.sramPermit a = true) ∧ ((a.write).any fun l => decide ((l.length = a.len))) = true)
    ∧ (∃ (s : State) (a : SramReq) (m : MemId) (b : SramReq), (s.Good) ∧ (sramMem a.mem = m) ∧ (a.mem = SramMem.orangery ∨ a.mem = SramMem.keep ∧ s.keep.buf = []) ∧ (a.off + a.len ≤ s.memSize m) ∧ (s.sramPermit a = true) ∧ (a.mem = SramMem.orangery) ∧ (b.mem = a.mem) ∧ (b.off = a.off) ∧ (b.len = a.len) ∧ (b.write = none) ∧ (b.ecc = Ecc.clean) ∧ (onPort0 a = false) ∧ (onPort0 b = true) ∧ (s.sramPermit b = true) ∧ (s.poisoned m a.off a.len = false) ∧ (errIn s.flips m a.off a.len = []) ∧ ((a.write).any fun l => decide ((l.length = a.len))) = true)
    ∧ (∃ (s : State) (a : SramReq) (m : MemId), (s.Good) ∧ (sramMem a.mem = m) ∧ (a.mem = SramMem.orangery ∨ a.mem = SramMem.keep ∧ s.keep.buf = []) ∧ (a.off + a.len ≤ s.memSize m) ∧ (a.write = none) ∧ (a.ecc = Ecc.clean) ∧ (s.sramPermit a = true) ∧ (s.poisoned m a.off a.len = false) ∧ (errIn s.flips m a.off a.len = []))
    ∧ (∃ (s : State) (a : SramReq) (m : MemId), (s.Good) ∧ (a.mem = SramMem.dome) ∧ (a.master.val ≠ 0) ∧ (a.master.val ≠ 10))
    ∧ (∃ (s : State) (a : SramReq) (m : MemId) (c : Fin 8), (s.Good) ∧ (a.mem = SramMem.lineBuffer c) ∧ (a.master = (8 : Fin 16)) ∧ (a.off + a.len ≤ s.memSize MemId.pool) ∧ (0 < a.len) ∧ (a.off % 8 + a.len ≤ 8) ∧ (errIn s.flips MemId.pool a.off a.len = []) ∧ (errIn s.poison MemId.pool a.off a.len = []) ∧ ((a.write).any fun l => decide ((l.length = a.len))) = true)
    ∧ (∃ (s : State) (a : SramReq) (m : MemId) (c : Fin 8), (s.Good) ∧ (a.mem = SramMem.lineBuffer c) ∧ (a.master = (8 : Fin 16)) ∧ (a.off + a.len ≤ s.memSize MemId.pool) ∧ (0 < a.len) ∧ (a.off % 8 + a.len ≤ 8) ∧ (errIn s.flips MemId.pool a.off a.len = []) ∧ (errIn s.poison MemId.pool a.off a.len = []) ∧ (a.write = none) ∧ (a.ecc = Ecc.clean))
    ∧ (∃ (s : State) (a : SramReq) (m : MemId) (c : Fin 8), (s.Good) ∧ (a.mem = SramMem.lineBuffer c) ∧ (a.master = (8 : Fin 16)) ∧ (a.off + a.len ≤ s.memSize MemId.pool) ∧ (0 < a.len) ∧ (a.off % 8 + a.len ≤ 8) ∧ (errIn s.flips MemId.pool a.off a.len = []) ∧ (errIn s.poison MemId.pool a.off a.len = []) ∧ (a.write = none) ∧ (a.ecc = Ecc.corrected))
    ∧ (∃ (s : State) (a : SramReq) (m : MemId) (c : Fin 8), (s.Good) ∧ (a.mem = SramMem.lineBuffer c) ∧ (a.master = (8 : Fin 16)) ∧ (a.off + a.len ≤ s.memSize MemId.pool) ∧ (0 < a.len) ∧ (a.off % 8 + a.len ≤ 8) ∧ (errIn s.flips MemId.pool a.off a.len = []) ∧ (errIn s.poison MemId.pool a.off a.len = []) ∧ (a.write = none) ∧ (a.ecc = Ecc.uncorrectable))
    ∧ (∃ (s : State) (off : Nat) (v : Word), (s.Good) ∧ (s.HostTo (0 : Fin 64)) ∧ (off % 4 = 0) ∧ (off < 65536) ∧ (s.apertureOk = true) ∧ (s.permit 4 false MemId.keep (s.apertureAt off) 4 true = true))
    ∧ (∃ (s : State), (s.Good) ∧ (s.pending = []) ∧ (0 < s.keep.used))
    ∧ (∃ (s : State) (v : Word), (s.Good) ∧ (s.dome.st = DomeSt.run) ∧ (s.org.marchRun = false) ∧ (BitVec.getLsbD v 31 = true) ∧ (BitVec.getLsbD v 4 = true) ∧ (bits (BitVec.toNat v) 1 0 = 0))
    ∧ (∃ (s : State) (v : Word), (s.Good) ∧ (s.dome.st = DomeSt.run) ∧ (s.org.marchRun = false) ∧ (BitVec.getLsbD v 31 = true) ∧ (BitVec.getLsbD v 4 = false) ∧ (s.dome.wmMode = false))
    ∧ (∃ (s : State) (v : Word), (s.Good) ∧ (s.org.marchRun = true))
    ∧ (∃ (s : State), (s.Good) ∧ (s.org.marchRun = true) ∧ (s.org.marchPreserve = true) ∧ (s.org.marchReply = none))
    ∧ (∃ (s : State) (l : List MarchFail), (s.Good) ∧ (s.org.marchRun = false))
    ∧ (∃ (s : State) (p : Fin 64) (i : Fin 2) (m : BitVec 2048), (s.Good) ∧ (s.Asked p i m) ∧ (mU m 0 1 = 2) ∧ (p ≠ (0 : Fin 64)))
    ∧ (∃ (s : State) (p : Fin 64) (i : Fin 2) (m : BitVec 2048), (s.Good) ∧ (s.Asked p i m) ∧ (mU m 0 1 = 2) ∧ (p = (0 : Fin 64)) ∧ (bit (mU m 1 1) 4 = false) ∧ (bits (mU m 1 1) 1 0 ≠ 1) ∧ (bits (mU m 1 1) 1 0 ≠ 2) ∧ (mU m 8 2 ≤ 8191) ∧ (mU m 10 2 ≤ 8191) ∧ (s.org.marchRun = false))
    ∧ (∃ (s : State) (p : Fin 64) (i : Fin 2) (m : BitVec 2048), (s.Good) ∧ (s.Asked p i m) ∧ (mU m 0 1 = 2) ∧ (p = (0 : Fin 64)) ∧ (bit (mU m 1 1) 4 = false) ∧ (bits (mU m 1 1) 1 0 ≠ 1) ∧ (bits (mU m 1 1) 1 0 ≠ 2) ∧ (mU m 8 2 ≤ 8191) ∧ (mU m 10 2 ≤ 8191) ∧ (s.org.marchRun = true))
    ∧ (∃ (s : State) (p : Fin 64) (i : Fin 2) (m : BitVec 2048), (s.Good) ∧ (s.Asked p i m) ∧ (mU m 0 1 = 2) ∧ (p = (0 : Fin 64)) ∧ (bit (mU m 1 1) 4 = true) ∧ (lcOf s.dome.lcFuse = 1) ∧ ((s.outs.toList.all fun u => !u.enabled) = true)) := by
  refine ⟨⟨live, ⟨.orangery, 2, 5, some [1, 2], 2, .clean⟩, .org, ?_⟩,
    ⟨live, ⟨.orangery, 2, 5, some [1, 2], 2, .clean⟩, .org, ⟨.orangery, 8, 5, none, 2, .clean⟩, ?_⟩,
    ⟨live, ⟨.orangery, 2, 5, none, 4, .clean⟩, .org, ?_⟩,
    ⟨live, ⟨.dome, 2, 5, none, 4, .clean⟩, .org, ?_⟩,
    ⟨live, ⟨.lineBuffer 3, 8, 40, some [1, 2], 2, .clean⟩, .org, 3, ?_⟩,
    ⟨live, ⟨.lineBuffer 3, 8, 40, none, 8, .clean⟩, .org, 3, ?_⟩,
    ⟨live, ⟨.lineBuffer 3, 8, 40, none, 2, .corrected⟩, .org, 3, ?_⟩,
    ⟨live, ⟨.lineBuffer 3, 8, 40, none, 2, .uncorrectable⟩, .org, 3, ?_⟩,
    ⟨kp live fun k => { k with aperture := 0xA1 }, 4, 9, ?_⟩,
    ⟨kp live fun k => { k with aperture := 0xA5, buf := [(0xA50000, [1, 2, 3, 4])] }, ?_⟩,
    ⟨live, 0x80000010, ?_⟩,
    ⟨rg live 0xFFFF 0xFFFF, 0x80000000, ?_⟩,
    ⟨org live fun o => { o with marchRun := true, marchPreserve := true }, 9, ?_⟩,
    ⟨org live fun o => { o with marchRun := true, marchPreserve := true }, ?_⟩,
    ⟨live, [], ?_⟩,
    ⟨ask live 1 (mreq 0), 1, 0, mreq 0, ?_⟩,
    ⟨ask live 0 (mreq 0), 0, 0, mreq 0, ?_⟩,
    ⟨org (ask live 0 (mreq 0)) fun o => { o with marchRun := true }, 0, 0, mreq 0, ?_⟩,
    ⟨{ ask live 0 (mreq 16) with dome := { live.dome with lcFuse := 1 } }, 0, 0, mreq 16, ?_⟩⟩ <;>
    first | decide +kernel | (simp only [State.Good, State.Inv, State.Steady, State.HostTo, State.HostRuns, State.ConfigTo, State.BeginsAtOnce, State.Accepts, State.Asked]; decide +kernel)
theorem test_witness_SramAndKeep_b :
    (∃ (s : State) (a : SramReq) (m : MemId), (s.Good) ∧ (sramMem a.mem = m) ∧ (a.mem = SramMem.orangery ∨ a.mem = SramMem.keep ∧ s.keep.buf = []) ∧ (a.off + a.len ≤ s.memSize m) ∧ (s.sramPermit a = false) ∧ (∀ (k : Nat),   s.permit 1 false MemId.org (33423360 + k % 4096 * 32)       32 true =     true)) := by
  refine ⟨rg live 2 2, ⟨.orangery, 2, 5, none, 4, .clean⟩, .org, ?_, ?_, ?_, ?_, ?_, ?_⟩
  all_goals first | decide +kernel | (simp only [State.Good, State.Inv, State.Steady, State.HostTo, State.HostRuns, State.ConfigTo, State.BeginsAtOnce, State.Accepts, State.Asked]; decide +kernel) | exact fun k => all4096 (P := fun x => (rg live 2 2 : State).permit 1 false MemId.org (33423360 + x * 32) 32 true = true) (by decide +kernel) k
theorem test_witness_SramAndKeep_c :
    (∃ (s : State) (off : Nat) (v : Word), (s.Good) ∧ (s.HostTo (0 : Fin 64)) ∧ (off % 4 = 0) ∧ (off < 65536) ∧ (s.apertureOk = false ∨ s.permit 4 false MemId.keep (s.apertureAt off) 4 true = false) ∧ (∀ (k : Nat),   s.permit 1 false MemId.org (33423360 + k % 4096 * 32)       32 true =     true)) := by
  refine ⟨kp live fun k => { k with aperture := 0 }, 4, 9, ?_, ?_, ?_, ?_, ?_, ?_⟩
  all_goals first | decide +kernel | (simp only [State.Good, State.Inv, State.Steady, State.HostTo, State.HostRuns, State.ConfigTo, State.BeginsAtOnce, State.Accepts, State.Asked]; decide +kernel) | exact fun k => all4096 (P := fun x => (kp live fun k => { k with aperture := 0 } : State).permit 1 false MemId.org (33423360 + x * 32) 32 true = true) (by decide +kernel) k
end K3

/-! ### Sideband and JTAG -/

namespace K3a
def ask (s : State) (p : Nat) (m : BitVec 2048) : State := s.modMbox (fp p) 0 fun x => { x with busy := true, inp := m }
def mreq (b1 : Nat) : BitVec 2048 := BitVec.ofNat 2048 (2 + b1 * 2 ^ 8 + 5 * 2 ^ 64 + 9 * 2 ^ 80)
def org (s : State) (f : Org → Org) : State := { s with org := f s.org }
theorem test_witness_SidebandAndJtag :
    (∃ (s : State) (a : BitVec 7) (v : Byte), (s.Inv) ∧ (s.calm = true) ∧ (s.sbAnswers a = true))
    ∧ (∃ (s : State) (a : BitVec 7), (s.Inv) ∧ (s.calm = true) ∧ (s.sbAnswers a = true) ∧ (s.glb.sbPtr ≠ 64) ∧ (s.glb.jtagIr ≠ 3))
    ∧ (∃ (s : State) (a : BitVec 7), (s.Inv) ∧ (s.calm = true) ∧ (s.sbAnswers a = true) ∧ (s.glb.sbPtr = 64) ∧ (s.glb.jtagIr ≠ 3))
    ∧ (∃ (s : State) (a : BitVec 7) (v : Byte), (s.Inv) ∧ (s.calm = true) ∧ (s.sbAnswers a = false))
    ∧ (∃ (s : State), (s.Inv) ∧ (s.calm = true))
    ∧ (∃ (s : State) (l : List Bool), (s.Inv) ∧ (s.calm = true))
    ∧ (∃ (s : State), (s.Inv) ∧ (s.calm = true) ∧ (s.jtagExt = true))
    ∧ (∃ (s : State) (off : Nat) (n : Nat), (s.Inv) ∧ (s.calm = true) ∧ (s.jtagMem = true))
    ∧ (∃ (s : State) (x : Nat) (l : List Byte), (s.Inv) ∧ (s.calm = true) ∧ (s.jtagMem = true) ∧ (s.pwr.reset = ResetSt.running) ∧ (s.locate x = some (MemId.org, x)) ∧ (s.permit 4 false MemId.org x l.length true = true) ∧ (x + l.length ≤ s.memSize MemId.org))
    ∧ (∃ (s : State) (off : Nat) (n : Nat), (s.Inv) ∧ (s.calm = true) ∧ (s.lcCode = 0) ∧ (s.pwr.reset = ResetSt.running))
    ∧ (∃ (s : State) (a : JtagAccess), (s.Inv) ∧ (s.calm = true) ∧ (s.lcCode ≠ 0)) := by
  refine ⟨⟨live, 0x58, 0x58, ?_⟩,
    ⟨live, 0x58, ?_⟩,
    ⟨{ live with glb := { live.glb with sbPtr := 0x40 } }, 0x58, ?_⟩,
    ⟨live, 0x5a, 0x58, ?_⟩,
    ⟨live, ?_⟩,
    ⟨live, [], ?_⟩,
    ⟨live, ?_⟩,
    ⟨live, 0, 0, ?_⟩,
    ⟨live, 0, [], ?_⟩,
    ⟨live, 0, 0, ?_⟩,
    ⟨{ ask live 0 (mreq 16) with dome := { live.dome with lcFuse := 1 } }, .readDome 4 2, ?_⟩⟩ <;>
    first | decide +kernel | (simp only [State.Good, State.Inv, State.Steady, State.HostTo, State.HostRuns, State.ConfigTo, State.BeginsAtOnce, State.Accepts, State.Asked]; decide +kernel)
end K3a

/-! ### Flits, votes, masters -/

namespace J1
def lk (s : State) (l : Fin 12) (f : Link → Link) : State := s.modLink l f
def sp (s : State) (f : Spire → Spire) : State := { s with spire := f s.spire }
def upL (s : State) (l : Fin 12) (id : Nat) : State := lk s l fun k => { k with st := .up, nbId := id, nbLink := 2, delay := 160, credCtrl := 10, credPix := 100 }
def up : State := sp (upL (upL { live with spire := { live.spire with image := some img1 } } 1 3) 2 9) fun x => { x with parent := some 1, children := [2], now := 100000, inWall := true, masterId := 3, term := 4 }
def upM : State := sp up fun x => { x with master := true, masterId := 7, parent := none, children := [1, 2], reported := x.reported.set 0 (some 5), image := some { img1 with myId := 3 } }
def vot (own : Option Bool) (ch : List (Nat × Bool × Nat × Nat)) : State := sp upM fun x => { x with votes := [{ g := 0, frame := 5, own := own, children := ch }] }
def fSync : BitVec 256 := mkFlit 0 0 [(4, 8, 100100)]
def fSyncFar : BitVec 256 := mkFlit 0 0 [(4, 8, 2000100)]
def fRep : BitVec 256 := mkFlit 0 4 [(4, 1, 0x80), (5, 8, 5)]
def fRepN : BitVec 256 := mkFlit 0 4 [(4, 1, 0), (5, 8, 5), (13, 2, 9)]
def fResp : BitVec 256 := mkFlit 0 2 [(4, 4, 7), (8, 8, 90100), (17, 8, 90200)]
def fMas (t : Nat) : BitVec 256 := mkFlit 0 7 [(4, 2, 3), (6, 4, t)]
def fAl (o q j : Nat) : BitVec 256 := mkFlit 1 0 [(4, 2, o), (6, 4, q), (14, 8, 50), (22, 8, j)]
theorem test_witness_FlitsReceived_b :
    (∃ (s : State) (l : Fin 12) (f : BitVec 256) (c : Instr) (cls : Nat) (ty : Nat) (g : BitVec 256 → State → State), (s.Good) ∧ (s.linkUp l = true) ∧ ((c, cls, ty, g) ∈   [(Instr.delayReq l f, 0, 1, fun f s => s.delayReqIn l f),     (Instr.delayResp l f, 0, 2, fun f s => s.delayRespIn l f),     (Instr.idle l f, 2, 0, fun x s => s),     (Instr.credit l f, 2, 5, fun f s => s.creditIn l f)])) := by
  refine ⟨up, 1, fSync, .delayReq 1 fSync, 0, 1, fun f s => s.delayReqIn 1 f, ?_⟩
  · refine ⟨?_, ?_, List.Mem.head _⟩ <;> (first | decide +kernel | (simp only [State.Good, State.Inv, State.Steady, State.HostTo, State.HostRuns, State.ConfigTo, State.BeginsAtOnce, State.Accepts, State.Asked]; decide +kernel))
theorem test_witness_FlitsReceived_c :
    (∃ (s : State) (l : Fin 12) (f : BitVec 256) (c : Instr) (cls : Nat) (ty : Nat) (h : BitVec 256) (g : BitVec 256 → State → State), (s.Good) ∧ (s.linkUp l = true) ∧ ((c, cls, ty, h, g) ∈   [(Instr.report l f, 0, 4, f, fun f s => s.reportIn l f),     (Instr.decide l f, 0, 5, f, fun f s => s.decideIn l f),     (Instr.adopt l f, 0, 6, f, fun x s => s.adoptIn l),     (Instr.master l f, 0, 7, f, fun f s => s.masterIn l f),     (Instr.alarm l f, 1, 0, f, fun f s => s.alarmIn l f),     (Instr.presence l f, 2, 2, f, fun f s => s.routeFlit f [] fun s => s.presenceIn f),     (Instr.streamAlive l f, 2, 3, asKind 0 f, fun f s =>       s.routeFlit f [] fun s => s.aliveIn f),     (Instr.streamNak l f, 2, 3, asKind 1 f, fun f s =>       s.routeFlit f [] fun s => s.nakIn f),     (Instr.streamTsUpdate l f, 2, 3, asKind 2 f, fun f s =>       s.routeFlit f [] fun s => s.tsUpdateIn f),     (Instr.xferBegin l f, 3, 0, f, fun f s => s.routeFlit f [] fun s => s.xferBeginIn f),     (Instr.dataHead l f, 3, 1, f, fun f s => s.dataHeadIn l f),     (Instr.data l f, 3, 2, f, fun f s => s.dataIn l f),     (Instr.xferEnd l f, 3, 3, f, fun f s => s.routeFlit f [] fun s => s.xferEndIn f)]) ∧ (fSeq (asType cls ty h) = (s.heard l (asType cls ty h)).spire.links[l.val].seqRx)) := by
  refine ⟨up, 1, fRep, .report 1 fRep, 0, 4, fRep, fun f s => s.reportIn 1 f, ?_⟩
  · refine ⟨?_, ?_, List.Mem.head _, ?_⟩ <;> (first | decide +kernel | (simp only [State.Good, State.Inv, State.Steady, State.HostTo, State.HostRuns, State.ConfigTo, State.BeginsAtOnce, State.Accepts, State.Asked]; decide +kernel))
theorem test_witness_FlitsReceived_d :
    (∃ (s : State) (l : Fin 12) (f : BitVec 256) (c : Instr) (cls : Nat) (ty : Nat) (h : BitVec 256) (g : BitVec 256 → State → State), (s.Good) ∧ (s.linkUp l = true) ∧ ((c, cls, ty, h, g) ∈   [(Instr.report l f, 0, 4, f, fun f s => s.reportIn l f),     (Instr.decide l f, 0, 5, f, fun f s => s.decideIn l f),     (Instr.adopt l f, 0, 6, f, fun x s => s.adoptIn l),     (Instr.master l f, 0, 7, f, fun f s => s.masterIn l f),     (Instr.alarm l f, 1, 0, f, fun f s => s.alarmIn l f),     (Instr.presence l f, 2, 2, f, fun f s => s.routeFlit f [] fun s => s.presenceIn f),     (Instr.streamAlive l f, 2, 3, asKind 0 f, fun f s =>       s.routeFlit f [] fun s => s.aliveIn f),     (Instr.streamNak l f, 2, 3, asKind 1 f, fun f s =>       s.routeFlit f [] fun s => s.nakIn f),     (Instr.streamTsUpdate l f, 2, 3, asKind 2 f, fun f s =>       s.routeFlit f [] fun s => s.tsUpdateIn f),     (Instr.xferBegin l f, 3, 0, f, fun f s => s.routeFlit f [] fun s => s.xferBeginIn f),     (Instr.dataHead l f, 3, 1, f, fun f s => s.dataHeadIn l f),     (Instr.data l f, 3, 2, f, fun f s => s.dataIn l f),     (Instr.xferEnd l f, 3, 3, f, fun f s => s.routeFlit f [] fun s => s.xferEndIn f)]) ∧ (fSeq (asType cls ty h) ≠ (s.heard l (asType cls ty h)).spire.links[l.val].seqRx)) := by
  refine ⟨lk up 1 fun k => { k with seqRx := 77 }, 1, fRep, .report 1 fRep, 0, 4, fRep, fun f s => s.reportIn 1 f, ?_⟩
  · refine ⟨?_, ?_, List.Mem.head _, ?_⟩ <;> (first | decide +kernel | (simp only [State.Good, State.Inv, State.Steady, State.HostTo, State.HostRuns, State.ConfigTo, State.BeginsAtOnce, State.Accepts, State.Asked]; decide +kernel))
theorem test_witness_WallVotes :
    (∃ (s : State) (l : Fin 12) (f : BitVec 256), (s.Good) ∧ (s.spire.master = true) ∧ (s.linkUp l = true) ∧ (fNak f = false) ∧ (fSeq f = s.spire.links[l.val].seqRx) ∧ (l ∈ s.spire.children) ∧ (s.decision (f4 (bits (fU f 4 1) 1 0))     (fU f 5 8) =   none) ∧ (bit (fU f 4 1) 7 = false) ∧ ((s.vote (f4 (bits (fU f (OfNat.ofNat 4) (OfNat.ofNat 1)) (OfNat.ofNat 1) (OfNat.ofNat 0)))   (fU f (OfNat.ofNat 5) (OfNat.ofNat 8))).any fun v => decide (((v.children.any fun c => c.fst == l.val) = false) ∧ (v.own ≠ some false) ∧ (∀ (c : Nat × Bool × Nat × Nat), c ∈ v.children → c.snd.fst = true))) = true)
    ∧ (∃ (s : State) (l : Fin 12) (f : BitVec 256), (s.Good) ∧ (s.spire.master = true) ∧ (s.linkUp l = true) ∧ (fNak f = false) ∧ (fSeq f = s.spire.links[l.val].seqRx) ∧ (l ∈ s.spire.children) ∧ (s.decision (f4 (bits (fU f 4 1) 1 0))     (fU f 5 8) =   none) ∧ (bit (fU f 4 1) 7 = true) ∧ ((s.vote (f4 (bits (fU f (OfNat.ofNat 4) (OfNat.ofNat 1)) (OfNat.ofNat 1) (OfNat.ofNat 0)))   (fU f (OfNat.ofNat 5) (OfNat.ofNat 8))).any fun v => decide (((v.children.any fun c => c.fst == l.val) = false) ∧ (v.own = some true) ∧ (∀ (c : Nat × Bool × Nat × Nat), c ∈ v.children → c.snd.fst = true) ∧ (∀ (k : Fin 12), k ∈ s.spire.children → k = l ∨ (v.children.any fun c => c.fst == k.val) = true))) = true)
    ∧ (∃ (s : State) (l : Fin 12) (f : BitVec 256), (s.Good) ∧ (s.spire.master = true) ∧ (s.linkUp l = true) ∧ (fNak f = false) ∧ (fSeq f = s.spire.links[l.val].seqRx) ∧ (l ∈ s.spire.children) ∧ (s.decision (f4 (bits (fU f 4 1) 1 0))     (fU f 5 8) =   none) ∧ (s.vote (f4 (bits (fU f 4 1) 1 0))     (fU f 5 8) =   none) ∧ (bit (fU f 4 1) 7 = false))
    ∧ (∃ (s : State) (l : Fin 12) (f : BitVec 256) (g : Fin 4) (n : Nat) (r : Nat) (x : Nat) (i : Image), (s.Good) ∧ (s.spire.master = true) ∧ (s.spire.image = some i) ∧ (s.decision g n = none) ∧ (s.spire.reported[g.val] = some r) ∧ (n ≤ r) ∧ ((List.map (fun k => s.spire.links[k.val].nbId)       (List.filter         (fun k =>           !(match s.vote g n with                 | some v => List.map Prod.fst v.children                 | none => []).contains               k.val)         s.spire.children)).min? =   some x))
    ∧ (∃ (s : State) (l : Fin 12) (f : BitVec 256) (g : Fin 4) (n : Nat), (s.Good) ∧ (s.spire.master = false ∨ (s.decision g n).isSome = true))
    ∧ (∃ (s : State) (g : Fin 4) (n : Nat), (s.Good) ∧ (s.standAlone = false) ∧ (∀ (r : Nat), s.spire.reported[g.val] = some r → r < n))
    ∧ (∃ (s : State) (g : Fin 4) (n : Nat), (s.Good) ∧ (s.standAlone = true ∨ ∃ r, s.spire.reported[g.val] = some r ∧ n ≤ r))
    ∧ (∃ (s : State) (l : Fin 12) (f : BitVec 256), (s.Good) ∧ (s.linkUp l = true) ∧ (fNak f = false) ∧ (fSeq f = s.spire.links[l.val].seqRx)) := by
  refine ⟨⟨vot (some true) [(1, true, 0, 0)], 2, fRepN, ?_⟩,
    ⟨vot (some true) [(1, true, 0, 0)], 2, fRep, ?_⟩,
    ⟨upM, 1, fSync, ?_⟩,
    ⟨upM, 0, fSync, 0, 0, 5, 3, { img1 with myId := 3 }, ?_⟩,
    ⟨live, 0, fSync, 0, 0, ?_⟩,
    ⟨up, 0, 0, ?_⟩,
    ⟨live, 0, 0, ?_⟩,
    ⟨up, 1, fSync, ?_⟩⟩ <;>
    first | decide +kernel | (simp only [State.Good, State.Inv, State.Steady, State.HostTo, State.HostRuns, State.ConfigTo, State.BeginsAtOnce, State.Accepts, State.Asked]; decide +kernel)
theorem test_witness_MastersAndAlarms :
    (∃ (s : State) (i : Image) (l : Fin 12) (f : BitVec 256), (s.Good) ∧ (s.spire.image = some i) ∧ (s.linkUp l = true) ∧ (fNak f = false) ∧ (fSeq f = s.spire.links[l.val].seqRx) ∧ (BitVec.toNat s.spire.term < fU f 6 4))
    ∧ (∃ (s : State) (i : Image) (l : Fin 12) (f : BitVec 256), (s.Good) ∧ (s.spire.image = some i) ∧ (s.linkUp l = true) ∧ (fNak f = false) ∧ (fSeq f = s.spire.links[l.val].seqRx) ∧ (BitVec.toNat s.spire.term = fU f 6 4) ∧ (s.spire.masterId = bits (fU f 4 2) 13 0) ∧ (s.spire.master = false))
    ∧ (∃ (s : State) (i : Image) (l : Fin 12) (f : BitVec 256), (s.Good) ∧ (s.spire.image = some i) ∧ (s.linkUp l = true) ∧ (fNak f = false) ∧ (fSeq f = s.spire.links[l.val].seqRx) ∧ (fU f 6 4 < BitVec.toNat s.spire.term))
    ∧ (∃ (s : State) (i : Image), (s.Good) ∧ (s.spire.image = some i) ∧ (s.spire.master = true))
    ∧ (∃ (s : State) (i : Image), (s.Good) ∧ (s.spire.image = some i) ∧ (s.spire.master = false))
    ∧ (∃ (s : State) (i : Image), (s.Good) ∧ (s.spire.image = some i) ∧ (s.spire.master = false) ∧ (s.arrived.contains Awaited.beat = false) ∧ (i.myId ≠ i.backupId))
    ∧ (∃ (s : State) (i : Image), (s.Good) ∧ (s.spire.image = some i) ∧ (s.spire.master = false) ∧ (s.arrived.contains Awaited.beat = false) ∧ (i.myId = i.backupId))
    ∧ (∃ (s : State) (i : Image), (s.Good) ∧ (s.spire.image = some i) ∧ (s.spire.master = true ∨ s.arrived.contains Awaited.beat = true)) := by
  refine ⟨⟨up, img1, 1, fSyncFar, ?_⟩,
    ⟨up, img1, 1, fMas 4, ?_⟩,
    ⟨up, img1, 1, fSync, ?_⟩,
    ⟨upM, { img1 with myId := 3 }, ?_⟩,
    ⟨up, img1, ?_⟩,
    ⟨sp up fun x => { x with image := some { img1 with backupId := 9 } }, { img1 with backupId := 9 }, ?_⟩,
    ⟨up, img1, ?_⟩,
    ⟨upM, { img1 with myId := 3 }, ?_⟩⟩ <;>
    first | decide +kernel | (simp only [State.Good, State.Inv, State.Steady, State.HostTo, State.HostRuns, State.ConfigTo, State.BeginsAtOnce, State.Accepts, State.Asked]; decide +kernel)
theorem test_witness_MastersAndAlarms_b :
    (∃ (s : State) (l : Fin 12) (f : BitVec 256) (i : Image), (s.Good) ∧ (s.linkUp l = true) ∧ (fNak f = false) ∧ (fSeq f = s.spire.links[l.val].seqRx) ∧ (s.spire.image = some i) ∧ (fU f 4 2 = i.myId ∨   ∃ j q,     List.lookup (fU f 4 2) s.spire.alarmsSeen = some (j, q) ∧       (fU f 22 8 < BitVec.toNat j ∨         fU f 22 8 = BitVec.toNat j ∧ fU f 6 4 ≤ BitVec.toNat q))) := by
  refine ⟨up, 1, fAl 7 1 5, { img1 with myId := 7 }, ?_⟩
  · refine ⟨?_, ?_, ?_, ?_, ?_, Or.inl ?_⟩ <;> (first | decide +kernel | (simp only [State.Good, State.Inv, State.Steady, State.HostTo, State.HostRuns, State.ConfigTo, State.BeginsAtOnce, State.Accepts, State.Asked]; decide +kernel))
theorem test_witness_MastersAndAlarms_c :
    (∃ (s : State) (l : Fin 12) (f : BitVec 256) (i : Image), (s.Good) ∧ (s.linkUp l = true) ∧ (fNak f = false) ∧ (fSeq f = s.spire.links[l.val].seqRx) ∧ (s.spire.image = some i) ∧ (fU f 4 2 ≠ i.myId) ∧ (∀ (j : DWord) (q : Word),   List.lookup (fU f 4 2) s.spire.alarmsSeen = some (j, q) →     BitVec.toNat j < fU f 22 8 ∨       BitVec.toNat j = fU f 22 8 ∧ BitVec.toNat q < fU f 6 4)) := by
  refine ⟨up, 1, fAl 9 1 5, img1, ?_⟩
  · refine ⟨?_, ?_, ?_, ?_, ?_, ?_, ?_⟩
    case refine_7 =>
      intro j q h
      have e : up.spire.alarmsSeen = [] := rfl
      rw [e] at h; cases h
    all_goals (first | decide +kernel | (simp only [State.Good, State.Inv, State.Steady, State.HostTo, State.HostRuns, State.ConfigTo, State.BeginsAtOnce, State.Accepts, State.Asked]; decide +kernel))
theorem test_witness_PresenceAndRouting :
    (∃ (s : State) (l : Fin 12) (f : BitVec 256), (s.Good) ∧ (s.linkUp l = true) ∧ (fNak f = false) ∧ (fSeq f = s.spire.links[l.val].seqRx) ∧ (s.route (fU f 4 2) = 12) ∧ (s.spire.master = true))
    ∧ (∃ (s : State) (l : Fin 12) (f : BitVec 256), (s.Good) ∧ (s.linkUp l = true) ∧ (fNak f = false) ∧ (fSeq f = s.spire.links[l.val].seqRx) ∧ (s.route (fU f 4 2) = 12) ∧ (s.spire.master = false))
    ∧ (∃ (s : State), (s.Good) ∧ (s.spire.inWall = true) ∧ (s.spire.master = false))
    ∧ (∃ (s : State), (s.Good) ∧ (s.spire.inWall = false ∨ s.spire.master = true))
    ∧ (∃ (s : State) (id : BitVec 14), (s.Good) ∧ (s.spire.master = true) ∧ (s.spire.absent.contains id.toNat = false) ∧ (s.arrived.contains (Awaited.presence id.toNat) = false) ∧ ((s.spire.image).any fun i => decide (((i.devices.any fun d => d.fst == id.toNat) = true) ∧ (id.toNat ≠ i.myId))) = true)
    ∧ (∃ (s : State) (id : BitVec 14), (s.Good) ∧ (s.spire.master = false ∨ s.arrived.contains (Awaited.presence id.toNat) = true))
    ∧ (∃ (s : State) (f : BitVec 256) (body : List (BitVec 256)) (g : State → State), (s.route (fU f 4 2) = 12))
    ∧ (∃ (s : State) (f : BitVec 256) (body : List (BitVec 256)) (g : State → State), (s.route (fU f 4 2) < 12) ∧ (fU f 6 2 ≤ 1))
    ∧ (∃ (s : State) (f : BitVec 256) (body : List (BitVec 256)) (g : State → State), (12 < s.route (fU f 4 2)))
    ∧ (∃ (s : State) (f : BitVec 256) (body : List (BitVec 256)) (g : State → State), (s.route (fU f 4 2) < 12) ∧ (1 < fU f 6 2))
    ∧ (∃ (s : State) (f : BitVec 256) (body : List (BitVec 256)) (g : State → State), (s.spire.image = none)) := by
  refine ⟨⟨upM, 1, fResp, ?_⟩,
    ⟨up, 1, fResp, ?_⟩,
    ⟨up, ?_⟩,
    ⟨live, ?_⟩,
    ⟨upM, 0x7, ?_⟩,
    ⟨live, 0x0, ?_⟩,
    ⟨up, fResp, [], id, ?_⟩,
    ⟨up, fSync, [], id, ?_⟩,
    ⟨live, fSync, [], id, ?_⟩,
    ⟨up, fSyncFar, [], id, ?_⟩,
    ⟨live, fSync, [], id, ?_⟩⟩ <;>
    first | decide +kernel | (simp only [State.Good, State.Inv, State.Steady, State.HostTo, State.HostRuns, State.ConfigTo, State.BeginsAtOnce, State.Accepts, State.Asked]; decide +kernel)
end J1

/-! ### Spire time -/

namespace J2
def lk (s : State) (l : Fin 12) (f : Link → Link) : State := s.modLink l f
def sp (s : State) (f : Spire → Spire) : State := { s with spire := f s.spire }
def upL (s : State) (l : Fin 12) (id : Nat) : State := lk s l fun k => { k with st := .up, nbId := id, nbLink := 2, delay := 160, credCtrl := 10, credPix := 100 }
def up : State := sp (upL (upL { live with spire := { live.spire with image := some img1 } } 1 3) 2 9) fun x => { x with parent := some 1, children := [2], now := 100000, inWall := true, masterId := 3, term := 4 }
def upM : State := sp up fun x => { x with master := true, masterId := 7, parent := none, children := [1, 2], reported := x.reported.set 0 (some 5), image := some { img1 with myId := 3 } }
def fSync : BitVec 256 := mkFlit 0 0 [(4, 8, 100100)]
def fSyncFar : BitVec 256 := mkFlit 0 0 [(4, 8, 2000100)]
def fResp : BitVec 256 := mkFlit 0 2 [(4, 4, 7), (8, 8, 90100), (17, 8, 90200)]
theorem test_witness_SpireTime :
    (∃ (s : State) (l : Fin 12) (f : BitVec 256) (arr : Nat), (s.Good) ∧ (s.linkUp l = true) ∧ (fNak f = false) ∧ (s.spire.master = false) ∧ (s.spire.parent = some l) ∧ (s.fine ≤ arr) ∧ (arr < 2 ^ 88) ∧ (((fU f 4 8 * 2 ^ 24 +             fU f 12 1 * 2 ^ 16 +           s.spire.links[l.val].delay * 2 ^ 20 : Nat) - (arr : Int)).natAbs ≤   1000 * 2 ^ 24))
    ∧ (∃ (s : State) (l : Fin 12) (f : BitVec 256) (arr : Nat), (s.Good) ∧ (s.linkUp l = true) ∧ (fNak f = false) ∧ (s.spire.master = false) ∧ (s.spire.parent = some l) ∧ (s.fine ≤ arr) ∧ (arr < 2 ^ 88) ∧ (1000 * 2 ^ 24 <   ((fU f 4 8 * 2 ^ 24 +             fU f 12 1 * 2 ^ 16 +           s.spire.links[l.val].delay * 2 ^ 20 : Nat) - (arr : Int)).natAbs))
    ∧ (∃ (s : State) (l : Fin 12) (f : BitVec 256) (arr : Nat), (s.Good) ∧ (s.linkUp l = true) ∧ (fNak f = false) ∧ (s.spire.master = true ∨ s.spire.parent ≠ some l))
    ∧ (∃ (s : State) (l : Fin 12) (f : BitVec 256) (id : Word) (t1 : Nat), (s.Good) ∧ (s.linkUp l = true) ∧ (fNak f = false) ∧ (s.spire.links[l.val].req = some (id, t1)) ∧ (fU f 4 4 = BitVec.toNat id))
    ∧ (∃ (s : State), (s.Good) ∧ (s.standAlone = false) ∧ ((s.spire.children ++ s.spire.newChildren).Nodup))
    ∧ (∃ (s : State), (s.Good) ∧ (s.standAlone = true))
    ∧ (∃ (s : State), (s.Good) ∧ ((s.spire.parent).any fun l => decide (True)) = true)
    ∧ (∃ (s : State), (s.Good) ∧ (s.spire.parent = none))
    ∧ (∃ (s : State), (s.Good) ∧ (s.spire.holdover = false) ∧ (s.timeMaster = false) ∧ (s.arrived.contains Awaited.sync = false))
    ∧ (∃ (s : State), (s.Good) ∧ (s.spire.holdover = true ∨ s.timeMaster = true ∨ s.arrived.contains Awaited.sync = true)) := by
  refine ⟨⟨up, 1, fSync, 100110 * 2 ^ 24, ?_⟩,
    ⟨up, 1, fSyncFar, 100110 * 2 ^ 24, ?_⟩,
    ⟨upM, 1, fSync, 0, ?_⟩,
    ⟨lk up 1 fun k => { k with req := some (7, 90000) }, 1, fResp, 7, 90000, ?_⟩,
    ⟨up, ?_⟩,
    ⟨live, ?_⟩,
    ⟨up, ?_⟩,
    ⟨upM, ?_⟩,
    ⟨up, ?_⟩,
    ⟨upM, ?_⟩⟩ <;>
    first | decide +kernel | (simp only [State.Good, State.Inv, State.Steady, State.HostTo, State.HostRuns, State.ConfigTo, State.BeginsAtOnce, State.Accepts, State.Asked]; decide +kernel)
end J2

/-! ### Streams -/

namespace J3
def lk (s : State) (l : Fin 12) (f : Link → Link) : State := s.modLink l f
def sp (s : State) (f : Spire → Spire) : State := { s with spire := f s.spire }
def upL (s : State) (l : Fin 12) (id : Nat) : State := lk s l fun k => { k with st := .up, nbId := id, nbLink := 2, delay := 160, credCtrl := 10, credPix := 100 }
def up : State := sp (upL (upL { live with spire := { live.spire with image := some img1 } } 1 3) 2 9) fun x => { x with parent := some 1, children := [2], now := 100000, inWall := true, masterId := 3, term := 4 }
def fRt (d : Nat) (fs := ([] : List (Nat × Nat × Nat))) : BitVec 256 := mkFlit 2 3 ([(4, 2, d), (6, 2, 4), (8, 2, 9), (10, 2, 4)] ++ fs)
def imp1 : Import := { attId := 1, pav := 1, handle := 3, srcId := 9, expId := 4, addr := 0x400, pitch := 256, width := 2, height := 2 }
def impO : Import := { imp1 with curSeq := some 6, curBpp := 4, got := 16 }
def impP : Import := { imp1 with curSeq := some 6, curBpp := 4, got := 0 }
def hd1 : BitVec 256 := mkFlit 3 1 [(4, 2, 7), (8, 2, 9), (10, 2, 4), (12, 4, 6), (16, 4, 0), (20, 2, 1)]
def hd2 : BitVec 256 := mkFlit 3 1 [(4, 2, 7), (8, 2, 9), (10, 2, 4), (12, 4, 6), (16, 4, 0), (20, 2, 3)]
def latI : Latched := { pav := 1, handle := 3, layer := layerOf dLayer, buf := some { at1 with import_ := true, srcId := 9, expId := 4 } }
def withImp (i : Import) : State := (sp up fun x => { x with imports := [i] }).modSlot 3 fun q => { q with lease := .held 1 3, cur := some latI }
def withHead (i : Import) (h : BitVec 256) : State := lk (withImp i) 1 fun k => { k with head := some (h, []) }
def upE : State := (sp up fun x => { x with exports := [exp1] }).modSlot 3 fun q => { q with lease := .held 1 3, cur := some { latI with buf := some at1 } }
def impL : Import := { imp1 with live := some (0, 5), lost := true }
theorem test_witness_Streams :
    (∃ (s : State) (l : Fin 12) (f : BitVec 256), (s.Good) ∧ ((List.map Import.attId s.spire.imports).Nodup) ∧ (s.linkUp l = true) ∧ (fNak f = false) ∧ (fSeq f = s.spire.links[l.val].seqRx) ∧ (s.route (fU f 4 2) = 12))
    ∧ (∃ (s : State) (l : Fin 12) (f : BitVec 256) (i : Import), (s.Good) ∧ ((List.map Import.attId s.spire.imports).Nodup) ∧ (s.linkUp l = true) ∧ (fNak f = false) ∧ (fSeq f = s.spire.links[l.val].seqRx) ∧ (s.route (fU f 4 2) = 12) ∧ (i ∈ s.spire.imports) ∧ ((fun i => i.srcId == fU f 8 2 && i.expId == fU f 10 2) i = true) ∧ (∀ (j : Import),   j ∈ s.spire.imports →     (fun i => i.srcId == fU f 8 2 && i.expId == fU f 10 2) j =         true →       j = i) ∧ (i.curSeq ≠ some (w32 (fU f 12 4)) ∨   i.curBad = true ∨     i.got ≠ i.width * i.curBpp * i.height ∨ fU f 16 4 ≠ crcFinish { : Crc } i.crc))
    ∧ (∃ (s : State) (l : Fin 12) (f : BitVec 256), (s.Good) ∧ ((List.map Import.attId s.spire.imports).Nodup) ∧ (s.linkUp l = true) ∧ (fNak f = false) ∧ (fSeq f = s.spire.links[l.val].seqRx))
    ∧ (∃ (s : State) (l : Fin 12) (f : BitVec 256) (h : BitVec 256) (body : List (BitVec 256)), (s.Good) ∧ ((List.map Import.attId s.spire.imports).Nodup) ∧ (s.linkUp l = true) ∧ (fNak f = false) ∧ (fSeq f = s.spire.links[l.val].seqRx) ∧ (s.spire.links[l.val].head = some (h, body)) ∧ (body.length + 1 < fU h 20 2))
    ∧ (∃ (s : State) (l : Fin 12) (f : BitVec 256) (h : BitVec 256) (body : List (BitVec 256)) (i : Import), (s.Good) ∧ ((List.map Import.attId s.spire.imports).Nodup) ∧ (s.linkUp l = true) ∧ (fNak f = false) ∧ (fSeq f = s.spire.links[l.val].seqRx) ∧ (s.spire.links[l.val].head = some (h, body)) ∧ (fU h 20 2 ≤ body.length + 1) ∧ (s.route (fU h 4 2) = 12) ∧ (i ∈ s.spire.imports) ∧ (i.srcId = fU h 8 2) ∧ (i.expId = fU h 10 2) ∧ (i.curSeq = some (w32 (fU h 12 4))) ∧ (i.curBad = false) ∧ (fU h 16 4 = i.got) ∧ (i.got < i.width * i.curBpp * i.height))
    ∧ (∃ (s : State) (l : Fin 12) (f : BitVec 256) (k : Fin 256), (s.Good) ∧ ((List.map Import.attId s.spire.imports).Nodup) ∧ ((s.silentImport k).any fun i => decide (True)) = true)
    ∧ (∃ (s : State) (l : Fin 12) (f : BitVec 256) (k : Fin 256), (s.Good) ∧ ((List.map Import.attId s.spire.imports).Nodup) ∧ (s.silentImport k = none))
    ∧ (∃ (s : State), (s.Good)) := by
  refine ⟨⟨withImp imp1, 1, fRt 7, ?_⟩,
    ⟨withImp impO, 1, mkFlit 3 3 [(4, 2, 7), (8, 2, 9), (10, 2, 4), (12, 4, 6), (16, 4, 1)], impO, ?_⟩,
    ⟨withImp imp1, 1, fRt 7, ?_⟩,
    ⟨withHead impO hd2, 1, mkFlit 3 2 [], hd2, [], ?_⟩,
    ⟨withHead impP hd1, 1, fRt 7, hd1, [], impP, ?_⟩,
    ⟨withImp imp1, 0, fRt 7, 3, ?_⟩,
    ⟨withImp imp1, 0, fRt 7, 0, ?_⟩,
    ⟨withImp imp1, ?_⟩⟩ <;>
    first | decide +kernel | (simp only [State.Good, State.Inv, State.Steady, State.HostTo, State.HostRuns, State.ConfigTo, State.BeginsAtOnce, State.Accepts, State.Asked]; decide +kernel)
theorem test_witness_Streams_b :
    (∃ (s : State) (l : Fin 12) (f : BitVec 256) (i : Import) (h : Nat) (k : Fin 256) (c : Latched) (a : Attach), (s.Good) ∧ ((List.map Import.attId s.spire.imports).Nodup) ∧ (s.linkUp l = true) ∧ (fNak f = false) ∧ (fSeq f = s.spire.links[l.val].seqRx) ∧ (s.route (fU f 4 2) = 12) ∧ (i ∈ s.spire.imports) ∧ ((fun i => i.srcId == fU f 8 2 && i.expId == fU f 10 2) i = true) ∧ (∀ (j : Import),   j ∈ s.spire.imports →     (fun i => i.srcId == fU f 8 2 && i.expId == fU f 10 2) j =         true →       j = i) ∧ (i.live = some (h, w32 (fU f 13 4))) ∧ (s.slots[k.val].cur = some c) ∧ (c.buf = some a) ∧ (a.id = i.attId) ∧ (∀ (j : Fin 256) (d : Latched) (b : Attach),   s.slots[j.val].cur = some d → d.buf = some b → b.id = i.attId → b.time = a.time)) := by
  refine ⟨withImp impL, 1, fRt 7 [(13, 4, 5)], impL, 0, 3, latI, { at1 with import_ := true, srcId := 9, expId := 4 }, ?_⟩
  · have e : ∀ j : Fin 256, ((withImp impL).slots[j.val]).cur = none ∨ ((withImp impL).slots[j.val]).cur = some latI := by decide +kernel
    refine ⟨?_, ?_, ?_, ?_, ?_, ?_, ?_, ?_, ?_, ?_, ?_, ?_, ?_, ?_⟩
    case refine_14 =>
      intro j d b h1 h2 _
      rcases e j with e | e
      · rw [e] at h1; cases h1
      · rw [e] at h1; cases h1; cases h2; rfl
    all_goals (first | decide +kernel | (simp only [State.Good, State.Inv, State.Steady, State.HostTo, State.HostRuns, State.ConfigTo, State.BeginsAtOnce, State.Accepts, State.Asked]; decide +kernel))
theorem test_witness_Streams_c :
    (∃ (s : State) (l : Fin 12) (f : BitVec 256) (k : Nat) (e : Export), (s.Good) ∧ (s.linkUp l = true) ∧ (fNak f = false) ∧ (fSeq f = s.spire.links[l.val].seqRx) ∧ (s.route (fU f 4 2) = 12) ∧ (s.spire.exports[k]? = some e) ∧ (e.expId = fU f 10 2) ∧ (e.dest = fU f 8 2) ∧ (e.cur = none) ∧ ((s.latchedBuf e.pav e.handle).isSome = true) ∧ (s.route e.dest < 12) ∧ (∀ (j : Nat) (x : Export),   j ≠ k →     s.spire.exports[j]? = some x →       ¬(x.expId = fU f 10 2 ∧ x.dest = fU f 8 2))) := by
  refine ⟨upE, 1, fRt 7, 0, exp1, ?_⟩
  · refine ⟨?_, ?_, ?_, ?_, ?_, ?_, ?_, ?_, ?_, ?_, ?_, ?_⟩
    case refine_12 =>
      intro j x hj h
      have e : upE.spire.exports = [exp1] := rfl
      rw [e] at h
      cases j with
      | zero => exact absurd rfl hj
      | succ j => simp at h
    all_goals (first | decide +kernel | (simp only [State.Good, State.Inv, State.Steady, State.HostTo, State.HostRuns, State.ConfigTo, State.BeginsAtOnce, State.Accepts, State.Asked]; decide +kernel))
end J3

/-! ### Links -/

namespace J4
def lk (s : State) (l : Fin 12) (f : Link → Link) : State := s.modLink l f
def sp (s : State) (f : Spire → Spire) : State := { s with spire := f s.spire }
def upL (s : State) (l : Fin 12) (id : Nat) : State := lk s l fun k => { k with st := .up, nbId := id, nbLink := 2, delay := 160, credCtrl := 10, credPix := 100 }
def up : State := sp (upL (upL { live with spire := { live.spire with image := some img1 } } 1 3) 2 9) fun x => { x with parent := some 1, children := [2], now := 100000, inWall := true, masterId := 3, term := 4 }
def fRep : BitVec 256 := mkFlit 0 4 [(4, 1, 0x80), (5, 8, 5)]
def fIdA : BitVec 256 := mkFlit 2 1 [(5, 16, 0x11), (21, 2, 3), (23, 1, 2)]
def fIdB : BitVec 256 := mkFlit 2 1 [(4, 1, 1), (5, 8, 5), (13, 8, 1), (21, 4, 4)]
def ln (f : Link → Link) : State := lk up 1 f
def goodCrc (f : BitVec 256) : BitVec 256 := BitVec.ofNat 256 (f.toNat % 2^240 + flitCrc f * 2^240)
theorem test_witness_SpireLinks :
    (∃ (s : State) (l : Fin 12), (s.Good) ∧ (s.spire.links[l.val].st = LinkSt.train) ∧ (s.spire.links[l.val].retrain = false) ∧ ((s.spire.image).any fun i => decide (True)) = true)
    ∧ (∃ (s : State) (l : Fin 12), (s.Good) ∧ (s.spire.links[l.val].st ≠ LinkSt.train))
    ∧ (∃ (s : State) (l : Fin 12), (s.Good) ∧ (s.spire.links[l.val].st = LinkSt.train))
    ∧ (∃ (s : State) (l : Fin 12), (s.Good) ∧ (s.linkUp l = true) ∧ (s.arrived.contains (Awaited.flit l) = false))
    ∧ (∃ (s : State) (l : Fin 12), (s.Good) ∧ (s.linkUp l = false ∨ s.arrived.contains (Awaited.flit l) = true))
    ∧ (∃ (s : State) (l : Fin 12) (f : BitVec 256) (a : BitVec 256) (q : Pairing) (i : Image), (s.Good) ∧ (s.spire.links[l.val].st = LinkSt.ident) ∧ (fNak f = false) ∧ (bit (fU f 4 1) 0 = true) ∧ (s.spire.links[l.val].identA = some a) ∧ (s.spire.pairing l = some q) ∧ (s.spire.image = some i) ∧ (fU a 5 16 = q.serial.toNat ∧   fU a 21 2 = q.id ∧     fU a 23 1 = q.nbLink ∧       fU f 5 8 = BitVec.toNat i.wallId ∧         fU f 13 8 = BitVec.toNat i.gen) ∧ (fU f 21 4 ≤ BitVec.toNat s.spire.term))
    ∧ (∃ (s : State) (l : Fin 12) (f : BitVec 256) (a : BitVec 256) (q : Pairing) (i : Image), (s.Good) ∧ (s.spire.links[l.val].st = LinkSt.ident) ∧ (fNak f = false) ∧ (bit (fU f 4 1) 0 = true) ∧ (s.spire.links[l.val].identA = some a) ∧ (s.spire.pairing l = some q) ∧ (s.spire.image = some i) ∧ (¬(fU a 5 16 = q.serial.toNat ∧     fU a 21 2 = q.id ∧       fU a 23 1 = q.nbLink ∧         fU f 5 8 = BitVec.toNat i.wallId ∧           fU f 13 8 = BitVec.toNat i.gen)))
    ∧ (∃ (s : State) (l : Fin 12) (d : Nat) (q : Pairing), (s.Good) ∧ (s.spire.links[l.val].st = LinkSt.measure) ∧ (s.spire.pairing l = some q) ∧ (s.spire.links[l.val].exchanges + 1 < 16))
    ∧ (∃ (s : State) (l : Fin 12) (d : Nat) (q : Pairing), (s.Good) ∧ (s.spire.links[l.val].st = LinkSt.measure) ∧ (s.spire.pairing l = some q) ∧ (16 ≤ s.spire.links[l.val].exchanges + 1) ∧ (medianNat (List.take 8 (d :: s.spire.links[l.val].samples)) % 2 ^ 24 ≤   q.maxDelay * 16))
    ∧ (∃ (s : State) (l : Fin 12) (d : Nat) (q : Pairing), (s.Good) ∧ (s.spire.links[l.val].st = LinkSt.measure) ∧ (s.spire.pairing l = some q) ∧ (16 ≤ s.spire.links[l.val].exchanges + 1) ∧ (q.maxDelay * 16 <   medianNat (List.take 8 (d :: s.spire.links[l.val].samples)) % 2 ^ 24))
    ∧ (∃ (s : State) (l : Fin 12) (f : BitVec 256), (s.Good) ∧ (s.linkUp l = true) ∧ (crcGood f = false))
    ∧ (∃ (s : State) (l : Fin 12) (f : BitVec 256), (s.Good) ∧ (s.linkUp l = true) ∧ (fNak f = false) ∧ (crcGood f = true) ∧ (isSeq (fClass f) (fType f) = true) ∧ (fSeq f ≠ s.spire.links[l.val].seqRx))
    ∧ (∃ (s : State) (l : Fin 12) (f : BitVec 256), (s.Good) ∧ (s.linkUp l = true))
    ∧ (∃ (s : State) (l : Fin 12) (f : BitVec 256), (s.Good) ∧ (s.spire.links[l.val].st = LinkSt.off ∨   s.spire.links[l.val].st = LinkSt.train ∨ s.spire.links[l.val].st = LinkSt.disabled))
    ∧ (∃ (s : State) (l : Fin 12) (f : BitVec 256), (s.Good) ∧ (s.linkUp l = true) ∧ (s.arrived.contains (Awaited.ack l) = false) ∧ (s.spire.links[l.val].unacked ≠ []) ∧ (s.spire.links[l.val].stalls < 7))
    ∧ (∃ (s : State) (l : Fin 12) (f : BitVec 256), (s.Good) ∧ (s.linkUp l = true) ∧ (s.arrived.contains (Awaited.ack l) = false) ∧ (s.spire.links[l.val].unacked ≠ []) ∧ (7 ≤ s.spire.links[l.val].stalls))
    ∧ (∃ (s : State) (l : Fin 12) (f : BitVec 256), (s.Good) ∧ (s.linkUp l = false ∨ s.arrived.contains (Awaited.ack l) = true ∨ s.spire.links[l.val].unacked = []))
    ∧ (∃ (s : State) (l : Fin 12) (f : BitVec 256), (s.Good) ∧ (s.spire.links[l.val].waiting = [])) := by
  refine ⟨⟨ln fun k => { k with st := .train }, 1, ?_⟩,
    ⟨up, 0, ?_⟩,
    ⟨ln fun k => { k with st := .train }, 1, ?_⟩,
    ⟨up, 1, ?_⟩,
    ⟨up, 0, ?_⟩,
    ⟨ln fun k => { k with st := .ident, identA := some fIdA }, 1, fIdB, fIdA, (img1.pairings.head (by decide)), img1, ?_⟩,
    ⟨ln fun k => { k with st := .ident, identA := some fIdA }, 1, mkFlit 2 5 [(4,2,1)], fIdA, (img1.pairings.head (by decide)), img1, ?_⟩,
    ⟨ln fun k => { k with st := .measure, exchanges := 3, samples := [160] }, 1, 0, (img1.pairings.head (by decide)), ?_⟩,
    ⟨ln fun k => { k with st := .measure, exchanges := 15, samples := [160] }, 1, 0, (img1.pairings.head (by decide)), ?_⟩,
    ⟨ln fun k => { k with st := .measure, exchanges := 15, samples := [160] }, 1, 999999, (img1.pairings.head (by decide)), ?_⟩,
    ⟨up, 1, fIdA, ?_⟩,
    ⟨up, 1, goodCrc (BitVec.ofNat 256 (fRep.toNat + 2 ^ 8 * 5)), ?_⟩,
    ⟨up, 1, fIdA, ?_⟩,
    ⟨up, 0, fIdA, ?_⟩,
    ⟨ln fun k => { k with unacked := [fRep] }, 1, fIdA, ?_⟩,
    ⟨ln fun k => { k with unacked := [fRep], stalls := 7 }, 1, fIdA, ?_⟩,
    ⟨up, 0, fIdA, ?_⟩,
    ⟨up, 0, fIdA, ?_⟩⟩ <;>
    first | decide +kernel | (simp only [State.Good, State.Inv, State.Steady, State.HostTo, State.HostRuns, State.ConfigTo, State.BeginsAtOnce, State.Accepts, State.Asked]; decide +kernel)
end J4

/-! ### Mailboxes -/

namespace L1
def mbx (bytes : List (Nat × Nat × Nat)) : BitVec 2048 := BitVec.ofNat 2048 (bytes.foldl (fun a x => a + x.2.2 * 2 ^ (8 * x.1)) 0)
def mb (s : State) (p : Nat) (f : MboxSlot → MboxSlot) : State := s.modMbox (fp p) 0 f
def ask (p : Nat) (m : BitVec 2048) (s : State := live) : State := mb s p fun x => { x with busy := true, inp := m }
def dst (d : DomeSt) : State := { live with dome := { live.dome with st := d } }
def mInfo := mbx [(0,1,1),(1,1,3),(4,4,0x12345678)]
def mCh := mbx [(0,1,4),(4,4,7)]
def mBad := mbx [(0,1,9),(4,4,7)]
theorem test_witness_Mailboxes :
    (∃ (s : State) (p : Fin 64) (i : Fin 2) (v : Word), (s.Good) ∧ (s.HostTo p) ∧ (BitVec.getLsbD v i.val = true) ∧ (∀ (j : Fin 2), j ≠ i → BitVec.getLsbD v j.val = false) ∧ (s.pavs[p.val].mbox[i.val].busy = false) ∧ (s.pavs[p.val].mbox[i.val].full = false) ∧ (s.dome.st = DomeSt.run ∨ s.dome.st = DomeSt.boot))
    ∧ (∃ (s : State) (p : Fin 64) (i : Fin 2) (v : Word), (s.Good) ∧ (s.HostTo p) ∧ (BitVec.getLsbD v i.val = true) ∧ (∀ (j : Fin 2), j ≠ i → BitVec.getLsbD v j.val = false) ∧ (s.pavs[p.val].mbox[i.val].busy = false) ∧ (s.pavs[p.val].mbox[i.val].full = false) ∧ (s.dome.st = DomeSt.down))
    ∧ (∃ (s : State) (p : Fin 64) (i : Fin 2) (v : Word), (s.Good) ∧ (s.HostTo p) ∧ (BitVec.getLsbD v i.val = true) ∧ (∀ (j : Fin 2), j ≠ i → BitVec.getLsbD v j.val = false) ∧ (s.pavs[p.val].mbox[i.val].busy = true ∨ s.pavs[p.val].mbox[i.val].full = true))
    ∧ (∃ (s : State) (p : Fin 64) (i : Fin 2) (v : Word), (s.Good) ∧ (s.HostTo p) ∧ (BitVec.getLsbD v i.val = true) ∧ (∀ (j : Fin 2), j ≠ i → BitVec.getLsbD v j.val = false))
    ∧ (∃ (s : State) (p : Fin 64) (i : Fin 2), (s.Good) ∧ (s.pavs[p.val].mbox[i.val].busy = true))
    ∧ (∃ (s : State) (p : Fin 64) (i : Fin 2), (s.Good) ∧ (s.pavs[p.val].mbox[i.val].busy = false))
    ∧ (∃ (s : State) (p : Fin 64) (i : Fin 2) (m : BitVec 2048), (s.Good) ∧ (s.Asked p i m) ∧ (mbxTypes.contains (mU m 0 1) = false))
    ∧ (∃ (s : State) (p : Fin 64) (i : Fin 2) (m : BitVec 2048) (st : Nat), (s.Good) ∧ (s.pavs[p.val].mbox[i.val].busy = true) ∧ (st < 256))
    ∧ (∃ (s : State) (p : Fin 64) (i : Fin 2) (r : BitVec 2048), (s.Good) ∧ (s.pavs[p.val].mbox[i.val].busy = false))
    ∧ (∃ (s : State) (p : Fin 64) (i : Fin 2) (m : BitVec 2048), (s.Good) ∧ (s.Asked p i m) ∧ (mU m 0 1 = 1))
    ∧ (∃ (s : State) (p : Fin 64) (i : Fin 2) (m : BitVec 2048), (s.Good) ∧ (s.Asked p i m) ∧ (mU m 0 1 = 4) ∧ (p = (0 : Fin 64)))
    ∧ (∃ (s : State) (p : Fin 64) (i : Fin 2) (m : BitVec 2048), (s.Good) ∧ (s.Asked p i m) ∧ (mU m 0 1 = 4) ∧ (p ≠ (0 : Fin 64))) := by
  refine ⟨⟨live, 0, 0, 0x1, ?_⟩,
    ⟨dst .down, 0, 0, 0x1, ?_⟩,
    ⟨ask 1 mInfo, 1, 0, 0x1, ?_⟩,
    ⟨live, 0, 0, 0x1, ?_⟩,
    ⟨ask 1 mInfo, 1, 0, ?_⟩,
    ⟨live, 0, 0, ?_⟩,
    ⟨ask 1 mBad, 1, 0, mBad, ?_⟩,
    ⟨ask 0 mCh, 0, 0, mInfo, 0, ?_⟩,
    ⟨live, 0, 0, mInfo, ?_⟩,
    ⟨ask 1 mInfo, 1, 0, mInfo, ?_⟩,
    ⟨ask 0 mCh, 0, 0, mCh, ?_⟩,
    ⟨ask 1 mCh, 1, 0, mCh, ?_⟩⟩ <;>
    first | decide +kernel | (simp only [State.Good, State.Inv, State.Steady, State.HostTo, State.HostRuns, State.ConfigTo, State.BeginsAtOnce, State.Accepts, State.Asked]; decide +kernel)
end L1

/-! ### Installs and the life cycle -/

namespace L2
def mbx (bytes : List (Nat × Nat × Nat)) : BitVec 2048 := BitVec.ofNat 2048 (bytes.foldl (fun a x => a + x.2.2 * 2 ^ (8 * x.1)) 0)
def mb (s : State) (p : Nat) (f : MboxSlot → MboxSlot) : State := s.modMbox (fp p) 0 f
def ask (p : Nat) (m : BitVec 2048) (s : State := live) : State := mb s p fun x => { x with busy := true, inp := m }
def mL := mbx [(0,1,5),(1,1,1),(4,4,0x12345678),(40,64,0x55),(104,32,0x66)]
def mL2 := mbx [(0,1,5),(1,1,2),(4,4,0x12345678)]
def mI (k : Nat) := mbx [(0,1,3),(1,1,k),(4,4,7),(8,8,0),(16,4,128)]
def rgd (s : State) : State := { s with bports := s.bports.map fun b => { b with bucket := 10000000000000 } }
def key1 : Nat := 0x4fe342e2fe1a7f9b8ee7eb4a7c0f9e162bce33576b315ececbb6406837bf51f56b17d1f2e12c4247f8bce6e563a440f277037d812deb33a0f4a13945d898c296
def obj1 : List Byte := leBytes 144 0xe18c5fd8c76238b100c6da03213f5e61c34882b2200140b7816639967dfdffeb7cf27b188d034f7e8a52380304b51ac3c08969e277f21b35a60b48fc476699784fe342e2fe1a7f9b8ee7eb4a7c0f9e162bce33576b315ececbb6406837bf51f56b17d1f2e12c4247f8bce6e563a440f277037d812deb33a0f4a13945d898c29600000000000000000000000000000000
def token : BitVec 2048 := 0xb2525778b914e88e03d7239e7f771eaf42e1882936fbb3470c304c28954440a57cf27b188d034f7e8a52380304b51ac3c08969e277f21b35a60b48fc4766997800000000000000000000000000000000000000000000000000000000000000000000000000000000000000000000000000000000000000000000000000000000000000000000000000000000000000000000000000000000000000000000000000000000000000000000000000000000000000000000000000000000000000000000000000000000000000000000000000000000000000000000000700000205
theorem signed1 : signedBy (leBytes 64 key1) obj1 = true := by decide +kernel
def obj2 : List Byte := leBytes 272 0x2275d95b8310d9a71dc895d0b21b2d5a169d8a8507083b73022e5e2461dab8687cf27b188d034f7e8a52380304b51ac3c08969e277f21b35a60b48fc4766997800330000000000000000000100000000ffff000700000000000000000000000000000000000000cc000000ac000000ac0000000000000000000000000000000000000000000000ff0000000000000000000000000000000000000000000000ff0000000000000000000000000000000000000000000000ff0000000000000000000000000000000000000000000000ff0000000000000004000003e800001388000000640007000700000000000000010000000000000001000000000000000500000000000001100000000153505431
theorem signed2 : signedBy (leBytes 64 key1) obj2 = true := by decide +kernel
theorem test_witness_InstallsAndLifeCycle :
    (∃ (s : State) (p : Fin 64) (i : Fin 2) (m : BitVec 2048), (s.Good) ∧ (s.Asked p i m) ∧ (mU m 0 1 = 3) ∧ (p ≠ (0 : Fin 64)) ∧ (mU m 1 1 = 0))
    ∧ (∃ (s : State) (p : Fin 64) (i : Fin 2) (m : BitVec 2048), (s.Good) ∧ (s.Asked p i m) ∧ (mU m 0 1 = 3) ∧ (p ≠ (0 : Fin 64)) ∧ (mU m 1 1 = 1))
    ∧ (∃ (s : State) (p : Fin 64) (i : Fin 2) (m : BitVec 2048), (s.Good) ∧ (s.Asked p i m) ∧ (mU m 0 1 = 3) ∧ (p ≠ (0 : Fin 64)) ∧ (mU m 1 1 = 2))
    ∧ (∃ (s : State) (p : Fin 64) (i : Fin 2) (m : BitVec 2048), (s.Good) ∧ (s.Asked p i m) ∧ (mU m 0 1 = 3) ∧ (p ≠ (0 : Fin 64)) ∧ (mU m 1 1 = 3))
    ∧ (∃ (s : State) (i : Fin 2) (m : BitVec 2048), (s.Good) ∧ (s.Asked (0 : Fin 64) i m) ∧ (mU m 0 1 = 3) ∧ (3 < mU m 1 1))
    ∧ (∃ (s : State) (l : List Byte), (signedBy (List.take 64 (List.drop 16 l)) l = false))
    ∧ (∃ (s : State) (l : List Byte), (s.policyCheck (if s.pendingGen = 0 then s.inForceGen else s.pendingGen) l = 1))
    ∧ (∃ (s : State) (l : List Byte), (s.safeFrameCheck l = 1))
    ∧ (∃ (s : State) (p : Fin 64) (i : Fin 2) (m : BitVec 2048) (stuck : Word), (s.Good) ∧ (s.Asked p i m) ∧ (mU m 0 1 = 5) ∧ (p ≠ (0 : Fin 64)))
    ∧ (∃ (s : State) (p : Fin 64) (i : Fin 2) (m : BitVec 2048) (stuck : Word), (s.Good) ∧ (s.Asked p i m) ∧ (mU m 0 1 = 5) ∧ (p = (0 : Fin 64)) ∧ (lcOf s.dome.lcFuse = 0) ∧ (bits (mU m 1 1) 1 0 = 1) ∧ ((s.dome.lcFuse ||| lcNext s.dome.lcFuse &&& ~~~stuck == lcNext s.dome.lcFuse) = true))
    ∧ (∃ (s : State) (p : Fin 64) (i : Fin 2) (m : BitVec 2048) (stuck : Word), (s.Good) ∧ (s.Asked p i m) ∧ (mU m 0 1 = 5) ∧ (p = (0 : Fin 64)) ∧ (lcOf s.dome.lcFuse = 3 ∨   lcOf s.dome.lcFuse = 0 ∧       bits (mU m 1 1) 1 0 ≠ 1 ∨     0 < lcOf s.dome.lcFuse ∧       s.dome.nonce ≠ some (BitVec.ofNat 256 (mU m 8 32))))
    ∧ (∃ (s : State) (p : Fin 64) (i : Fin 2) (m : BitVec 2048) (stuck : Word), (s.Good) ∧ (s.Asked p i m) ∧ (mU m 0 1 = 5) ∧ (p = (0 : Fin 64)) ∧ (lcOf s.dome.lcFuse = 0) ∧ (bits (mU m 1 1) 1 0 = 1) ∧ ((s.dome.lcFuse ||| lcNext s.dome.lcFuse &&& ~~~stuck == lcNext s.dome.lcFuse) = false))
    ∧ (∃ (s : State) (p : Fin 64) (i : Fin 2) (m : BitVec 2048) (stuck : Word), (s.Good) ∧ (s.Asked p i m) ∧ (mU m 0 1 = 5) ∧ (p = (0 : Fin 64)) ∧ (lcOf s.dome.lcFuse = 1) ∧ (bits (mU m 1 1) 1 0 = 2) ∧ ((s.dome.lcFuse ||| lcNext s.dome.lcFuse &&& ~~~stuck == lcNext s.dome.lcFuse) = true) ∧ (s.dome.nonce = some (BitVec.ofNat 256 (mU m 8 32))) ∧ (signedBy s.custKey     (mBytes m 0 160 ++ leBytes 16 s.dome.serial.toNat ++       mBytes m 160 64) =   true)) := by
  refine ⟨⟨ask 1 (mI 0), 1, 0, mI 0, ?_⟩,
    ⟨ask 1 (mI 1), 1, 0, mI 1, ?_⟩,
    ⟨ask 1 (mI 2), 1, 0, mI 2, ?_⟩,
    ⟨ask 1 (mI 3), 1, 0, mI 3, ?_⟩,
    ⟨ask 0 (mI 9), 0, mI 9, ?_⟩,
    ⟨live, [], ?_⟩,
    ⟨live, [], ?_⟩,
    ⟨live, [], ?_⟩,
    ⟨ask 1 mL, 1, 0, mL, 0, ?_⟩,
    ⟨ask 0 mL, 0, 0, mL, 0, ?_⟩,
    ⟨ask 0 mL2, 0, 0, mL2, 0, ?_⟩,
    ⟨ask 0 mL, 0, 0, mL, 0xFFFFFFFF, ?_⟩,
    ⟨{ ask 0 token with dome := { live.dome with lcFuse := 1, nonce := some 0, custKey := 0x4fe342e2fe1a7f9b8ee7eb4a7c0f9e162bce33576b315ececbb6406837bf51f56b17d1f2e12c4247f8bce6e563a440f277037d812deb33a0f4a13945d898c296 } }, 0, 0, token, 0, ?_⟩⟩ <;>
    first | decide +kernel | (simp only [State.Good, State.Inv, State.Steady, State.HostTo, State.HostRuns, State.ConfigTo, State.BeginsAtOnce, State.Accepts, State.Asked]; decide +kernel)
theorem test_witness_InstallsAndLifeCycle_b :
    (∃ (s : State) (i : Fin 2) (m : BitVec 2048) (k : Nat) (c : Instr) (f : State → List Byte → State × Nat) (u : State), (s.Good) ∧ (s.Asked (0 : Fin 64) i m) ∧ (mU m 0 1 = 3) ∧ (mU m 1 1 = k) ∧ ((k, c, f) ∈   [(0, Instr.installFirmware (0 : Fin 64) i, State.takeFirmware),     (1, Instr.installPolicy (0 : Fin 64) i, State.takePolicy),     (2, Instr.installTopology (0 : Fin 64) i, State.takeTopology),     (3, Instr.installSafeFrame (0 : Fin 64) i, State.takeSafeFrame)]) ∧ (s.installObj (0 : Fin 64) m = (u, none))) := by
  refine ⟨ask 0 (mbx [(0,1,3),(1,1,0),(4,4,7),(8,8,0),(16,4,0x20000)]), 0, mbx [(0,1,3),(1,1,0),(4,4,7),(8,8,0),(16,4,0x20000)], 0, .installFirmware 0 0, State.takeFirmware, ((ask 0 (mbx [(0,1,3),(1,1,0),(4,4,7),(8,8,0),(16,4,0x20000)])).installObj 0 (mbx [(0,1,3),(1,1,0),(4,4,7),(8,8,0),(16,4,0x20000)])).1, ?_⟩
  · refine ⟨?_, ?_, ?_, ?_, List.Mem.head _, Prod.ext rfl ?_⟩ <;> (first | decide +kernel | (simp only [State.Good, State.Inv, State.Steady, State.HostTo, State.HostRuns, State.ConfigTo, State.BeginsAtOnce, State.Accepts, State.Asked]; decide +kernel))
theorem test_witness_InstallsAndLifeCycle_c :
    (∃ (s : State) (i : Fin 2) (m : BitVec 2048) (k : Nat) (c : Instr) (f : State → List Byte → State × Nat) (u : State) (l : List Byte), (s.Good) ∧ (s.Asked (0 : Fin 64) i m) ∧ (mU m 0 1 = 3) ∧ (mU m 1 1 = k) ∧ ((k, c, f) ∈   [(0, Instr.installFirmware (0 : Fin 64) i, State.takeFirmware),     (1, Instr.installPolicy (0 : Fin 64) i, State.takePolicy),     (2, Instr.installTopology (0 : Fin 64) i, State.takeTopology),     (3, Instr.installSafeFrame (0 : Fin 64) i, State.takeSafeFrame)]) ∧ (s.installObj (0 : Fin 64) m = (u, some l))) := by
  refine ⟨rgd (ask 0 (mI 0)), 0, mI 0, 0, .installFirmware 0 0, State.takeFirmware, ((rgd (ask 0 (mI 0))).installObj 0 (mI 0)).1, ((rgd (ask 0 (mI 0))).installObj 0 (mI 0)).2.getD [], ?_⟩
  · refine ⟨?_, ?_, ?_, ?_, List.Mem.head _, Prod.ext rfl ?_⟩ <;> (first | decide +kernel | (simp only [State.Good, State.Inv, State.Steady, State.HostTo, State.HostRuns, State.ConfigTo, State.BeginsAtOnce, State.Accepts, State.Asked]; decide +kernel))
theorem test_witness_InstallsAndLifeCycle_d :
    (∃ (s : State) (l : List Byte), (signedBy (List.take 64 (List.drop 16 l)) l = true) ∧ (s.fwFields l = false)) := by
  refine ⟨live, obj1, ?_⟩
  · refine ⟨?_, ?_⟩
    · rw [show List.take 64 (List.drop 16 obj1) = leBytes 64 key1 by decide +kernel]; exact signed1
    · (first | decide +kernel | (simp only [State.Good, State.Inv, State.Steady, State.HostTo, State.HostRuns, State.ConfigTo, State.BeginsAtOnce, State.Accepts, State.Asked]; decide +kernel))
theorem test_witness_InstallsAndLifeCycle_e :
    (∃ (s : State) (l : List Byte) (c : Nat), (2 ≤ c) ∧ (s.policyCheck (if s.pendingGen = 0 then s.inForceGen else s.pendingGen) l = c)) := by
  refine ⟨{ live with dome := { live.dome with custKey := 0x4fe342e2fe1a7f9b8ee7eb4a7c0f9e162bce33576b315ececbb6406837bf51f56b17d1f2e12c4247f8bce6e563a440f277037d812deb33a0f4a13945d898c296 } }, obj1, 2, ?_⟩
  · refine ⟨?_, ?_⟩
    · (first | decide +kernel | (simp only [State.Good, State.Inv, State.Steady, State.HostTo, State.HostRuns, State.ConfigTo, State.BeginsAtOnce, State.Accepts, State.Asked]; decide +kernel))
    · have e : signedBy (State.custKey ({ live with dome := { live.dome with custKey := 0x4fe342e2fe1a7f9b8ee7eb4a7c0f9e162bce33576b315ececbb6406837bf51f56b17d1f2e12c4247f8bce6e563a440f277037d812deb33a0f4a13945d898c296 } })) obj1 = true := by
        rw [show State.custKey ({ live with dome := { live.dome with custKey := 0x4fe342e2fe1a7f9b8ee7eb4a7c0f9e162bce33576b315ececbb6406837bf51f56b17d1f2e12c4247f8bce6e563a440f277037d812deb33a0f4a13945d898c296 } }) = leBytes 64 key1 by decide +kernel]; exact signed1
      unfold State.policyCheck
      rw [e, if_neg (by decide), if_pos (by decide +kernel)]
theorem test_witness_InstallsAndLifeCycle_f :
    (∃ (s : State) (l : List Byte) (i : Option Image), (imgCheck s.custKey s.wallRecord s.dome.serial.toNat l = (0, i))) := by
  refine ⟨{ live with dome := { live.dome with custKey := 0x4fe342e2fe1a7f9b8ee7eb4a7c0f9e162bce33576b315ececbb6406837bf51f56b17d1f2e12c4247f8bce6e563a440f277037d812deb33a0f4a13945d898c296 } }, obj2, some (imgOf obj2 ⟨0, 7, 0xFF, 0xFF, 0, 1⟩), ?_⟩
  · have e : signedBy (State.custKey ({ live with dome := { live.dome with custKey := 0x4fe342e2fe1a7f9b8ee7eb4a7c0f9e162bce33576b315ececbb6406837bf51f56b17d1f2e12c4247f8bce6e563a440f277037d812deb33a0f4a13945d898c296 } })) obj2 = true := by
      rw [show State.custKey ({ live with dome := { live.dome with custKey := 0x4fe342e2fe1a7f9b8ee7eb4a7c0f9e162bce33576b315ececbb6406837bf51f56b17d1f2e12c4247f8bce6e563a440f277037d812deb33a0f4a13945d898c296 } }) = leBytes 64 key1 by decide +kernel]; exact signed2
    unfold imgCheck
    rw [e, if_neg (by decide)]
    decide +kernel
theorem test_witness_InstallsAndLifeCycle_g :
    (∃ (s : State) (l : List Byte), (1 < s.safeFrameCheck l)) := by
  refine ⟨{ live with dome := { live.dome with custKey := 0x4fe342e2fe1a7f9b8ee7eb4a7c0f9e162bce33576b315ececbb6406837bf51f56b17d1f2e12c4247f8bce6e563a440f277037d812deb33a0f4a13945d898c296 } }, obj1, ?_⟩
  · have e : signedBy (State.custKey ({ live with dome := { live.dome with custKey := 0x4fe342e2fe1a7f9b8ee7eb4a7c0f9e162bce33576b315ececbb6406837bf51f56b17d1f2e12c4247f8bce6e563a440f277037d812deb33a0f4a13945d898c296 } })) obj1 = true := by
      rw [show State.custKey ({ live with dome := { live.dome with custKey := 0x4fe342e2fe1a7f9b8ee7eb4a7c0f9e162bce33576b315ececbb6406837bf51f56b17d1f2e12c4247f8bce6e563a440f277037d812deb33a0f4a13945d898c296 } }) = leBytes 64 key1 by decide +kernel]; exact signed1
    unfold State.safeFrameCheck
    rw [e, if_neg (by decide)]
    decide +kernel
end L2

/-! ### Belvedere and safety requests -/

namespace L4
def mbx (bytes : List (Nat × Nat × Nat)) : BitVec 2048 := BitVec.ofNat 2048 (bytes.foldl (fun a x => a + x.2.2 * 2 ^ (8 * x.1)) 0)
def mb (s : State) (p : Nat) (f : MboxSlot → MboxSlot) : State := s.modMbox (fp p) 0 f
def base : State := { ({ live with spire := { live.spire with now := 100000 } }) with belvs := (live.belvs.set 0 { cfg := 0x101, hasKey := true, key := 5, size := 0x00020002, bufBase := 0x80000 }).set 1 { cfg := 0x001, hasKey := true, key := 5 } , bports := live.bports.map fun b => { b with bucket := 10000000000000 } }
def cur1 : BelvBuf := { half := 0, time := 100, digest := 77, expected := 5, reply := none }
def bl (s : State) (f : Belv → Belv) : State := s.modBelv 0 f
def aw : BelvAwait := { frame := 5, result := 5, compared := true, half := 0, expected := 5 }
def ub : State := mb base 1 fun x => { x with busy := true, inp := sealed1 }
theorem test_witness_Belvedere :
    (∃ (s : State) (p : Fin 64) (i : Fin 2) (m : BitVec 2048), (s.Good) ∧ (s.Asked p i m) ∧ (s.safetyCheck p m = 0) ∧ (mU m 0 1 = 16) ∧ (s.belvTimeOk s.belvs[(f8 (mU m 1 1)).val] (mU m 16 8) = true) ∧ (s.belvs[(f8 (mU m 1 1)).val].next.isSome = true))
    ∧ (∃ (s : State) (p : Fin 64) (i : Fin 2) (m : BitVec 2048), (s.Good) ∧ (s.Asked p i m) ∧ (s.safetyCheck p m = 0) ∧ (mU m 0 1 = 16) ∧ (s.belvTimeOk s.belvs[(f8 (mU m 1 1)).val] (mU m 16 8) = false))
    ∧ (∃ (s : State) (p : Fin 64) (i : Fin 2) (m : BitVec 2048), (s.Good) ∧ (s.Asked p i m) ∧ (s.safetyCheck p m = 0) ∧ (mU m 0 1 = 17) ∧ (s.belvTimeOk s.belvs[(f8 (mU m 1 1)).val] (mU m 16 8) = true) ∧ ((s.belvs[(f8 (mU m (OfNat.ofNat 1) (OfNat.ofNat 1))).val].cur).any fun k => decide ((k.digest.toNat = mU m 36 32))) = true)
    ∧ (∃ (s : State) (p : Fin 64) (i : Fin 2) (m : BitVec 2048), (s.Good) ∧ (s.Asked p i m) ∧ (s.safetyCheck p m = 0) ∧ (mU m 0 1 = 17) ∧ (s.belvTimeOk s.belvs[(f8 (mU m 1 1)).val] (mU m 16 8) = true) ∧ (s.belvs[(f8 (mU m 1 1)).val].cur = none ∨   ∃ k,     s.belvs[(f8 (mU m 1 1)).val].cur = some k ∧       k.digest.toNat ≠ mU m 36 32))
    ∧ (∃ (s : State) (p : Fin 64) (i : Fin 2) (m : BitVec 2048), (s.Good) ∧ (s.Asked p i m) ∧ (s.safetyCheck p m = 0) ∧ (mU m 0 1 = 17) ∧ (s.belvTimeOk s.belvs[(f8 (mU m 1 1)).val] (mU m 16 8) = false))
    ∧ (∃ (s : State) (p : Fin 64) (i : Fin 2) (m : BitVec 2048), (s.Good) ∧ (s.Asked p i m) ∧ (s.safetyCheck p m = 0) ∧ (mU m 0 1 = 18))
    ∧ (∃ (s : State) (o : Fin 8) (n : BelvBuf), (s.Good) ∧ (s.belvs[o.val].next = some n) ∧ (n.ready = false) ∧ (s.dome.st = DomeSt.run))
    ∧ (∃ (s : State) (o : Fin 8) (n : BelvBuf), (s.Good) ∧ (s.belvs[o.val].next = some n) ∧ (n.ready = true))
    ∧ (∃ (s : State) (o : Fin 8) (a : BelvAwait) (rest : List BelvAwait), (s.Good) ∧ (s.dome.st = DomeSt.run) ∧ (s.belvs[o.val].awaits = a :: rest) ∧ (a.compared = false))
    ∧ (∃ (s : State) (o : Fin 8) (a : BelvAwait) (rest : List BelvAwait), (s.Good) ∧ (s.dome.st = DomeSt.run) ∧ (s.belvs[o.val].awaits = a :: rest) ∧ (a.compared = true) ∧ (a.expected = a.result))
    ∧ (∃ (s : State) (o : Fin 8) (a : BelvAwait) (rest : List BelvAwait), (s.Good) ∧ (s.dome.st = DomeSt.run) ∧ (s.belvs[o.val].awaits = a :: rest) ∧ (a.compared = true) ∧ (a.expected ≠ a.result) ∧ (s.belvs[o.val].run = 0))
    ∧ (∃ (s : State) (o : Fin 8) (a : BelvAwait) (rest : List BelvAwait), (s.Good) ∧ (s.dome.st = DomeSt.run) ∧ (s.belvs[o.val].awaits = a :: rest) ∧ (a.compared = true) ∧ (a.expected ≠ a.result) ∧ (s.belvs[o.val].run = 1) ∧ (s.outs[o.val].cause2 = false))
    ∧ (∃ (s : State) (o : Fin 8), ((s.belvs[o.val].cur).any fun c => decide (True)) = true) := by
  refine ⟨⟨mb (bl base fun b => { b with next := some cur1 }) 1 fun x => { x with busy := true, inp := sealed1 }, 1, 0, sealed1, ?_⟩,
    ⟨mb (base) 1 fun x => { x with busy := true, inp := sealed0 }, 1, 0, sealed0, ?_⟩,
    ⟨mb (bl base fun b => { b with cur := some cur1 }) 1 fun x => { x with busy := true, inp := sealed2 }, 1, 0, sealed2, ?_⟩,
    ⟨mb (base) 1 fun x => { x with busy := true, inp := sealed2 }, 1, 0, sealed2, ?_⟩,
    ⟨mb (base) 1 fun x => { x with busy := true, inp := sealed3 }, 1, 0, sealed3, ?_⟩,
    ⟨mb (base) 1 fun x => { x with busy := true, inp := sealed5 }, 1, 0, sealed5, ?_⟩,
    ⟨bl base fun b => { b with next := some { cur1 with ready := false } }, 0, cur1, ?_⟩,
    ⟨bl base fun b => { b with next := some { cur1 with ready := true } }, 0, { cur1 with ready := true }, ?_⟩,
    ⟨bl base fun b => { b with awaits := [{ aw with compared := false }], run := 1 }, 0, { aw with compared := false }, [], ?_⟩,
    ⟨bl base fun b => { b with awaits := [aw] }, 0, aw, [], ?_⟩,
    ⟨bl base fun b => { b with awaits := [{ aw with result := 6 }, aw] }, 0, { aw with result := 6 }, [aw], ?_⟩,
    ⟨bl base fun b => { b with awaits := [{ aw with result := 6 }], run := 1 }, 0, { aw with result := 6 }, [], ?_⟩,
    ⟨bl base fun b => { b with cur := some cur1 }, 0, ?_⟩⟩ <;>
    (repeat' apply And.intro) <;> first | ((with_reducible refine check_ok tag_sealed0 ?_); decide +kernel) | ((with_reducible refine check_ok tag_sealed1 ?_); decide +kernel) | ((with_reducible refine check_ok tag_sealed2 ?_); decide +kernel) | ((with_reducible refine check_ok tag_sealed3 ?_); decide +kernel) | ((with_reducible refine check_ok tag_sealed4 ?_); decide +kernel) | ((with_reducible refine check_ok tag_sealed5 ?_); decide +kernel) | ((with_reducible refine check_ok tag_sealed8 ?_); decide +kernel) | decide +kernel | (simp only [State.Good, State.Inv, State.Steady, State.HostTo, State.HostRuns, State.ConfigTo, State.BeginsAtOnce, State.Accepts, State.Asked]; decide +kernel)
theorem test_witness_Belvedere_b :
    (∃ (s : State) (p : Fin 64) (i : Fin 2) (m : BitVec 2048) (a : Nat) (pal : Nat), (s.Good) ∧ (s.Asked p i m) ∧ (s.safetyCheck p m = 0) ∧ (mU m 0 1 = 16) ∧ (s.belvTimeOk s.belvs[(f8 (mU m 1 1)).val] (mU m 16 8) = true) ∧ (s.belvs[(f8 (mU m 1 1)).val].next = none) ∧ (s.staging p s.belvs[(f8 (mU m 1 1)).val] m = some (a, pal)) ∧ ((s.belvContent s.belvs[(f8 (mU m 1 1)).val] a (mU m 32 4)         pal).snd =     none ∨   ∃ l,     (s.belvContent s.belvs[(f8 (mU m 1 1)).val] a (mU m 32 4)             pal).snd =         some l ∧       sha256 l ≠ mBytes m 36 32)) := by
  refine ⟨{ ub with poison := [(.org, 0)] }, 1, 0, sealed1, 0, 0, ?_⟩
  · refine ⟨?_, ?_, ?_, ?_, ?_, ?_, ?_, Or.inl ?_⟩
    case refine_3 => with_reducible refine check_ok tag_sealed1 ?_
                     decide +kernel
    all_goals ((repeat' apply And.intro) <;> first | ((with_reducible refine check_ok tag_sealed0 ?_); decide +kernel) | ((with_reducible refine check_ok tag_sealed1 ?_); decide +kernel) | ((with_reducible refine check_ok tag_sealed2 ?_); decide +kernel) | ((with_reducible refine check_ok tag_sealed3 ?_); decide +kernel) | ((with_reducible refine check_ok tag_sealed4 ?_); decide +kernel) | ((with_reducible refine check_ok tag_sealed5 ?_); decide +kernel) | ((with_reducible refine check_ok tag_sealed8 ?_); decide +kernel) | decide +kernel | (simp only [State.Good, State.Inv, State.Steady, State.HostTo, State.HostRuns, State.ConfigTo, State.BeginsAtOnce, State.Accepts, State.Asked]; decide +kernel))
theorem test_witness_Belvedere_c :
    (∃ (s : State) (p : Fin 64) (i : Fin 2) (m : BitVec 2048) (a : Nat) (pal : Nat), (s.Good) ∧ (s.Asked p i m) ∧ (s.safetyCheck p m = 0) ∧ (mU m 0 1 = 16) ∧ (s.belvTimeOk s.belvs[(f8 (mU m 1 1)).val] (mU m 16 8) = true) ∧ (s.belvs[(f8 (mU m 1 1)).val].next = none) ∧ (s.staging p s.belvs[(f8 (mU m 1 1)).val] m = some (a, pal)) ∧ (((s.belvContent s.belvs[(f8 (mU m (OfNat.ofNat 1) (OfNat.ofNat 1))).val] a (mU m (OfNat.ofNat 32) (OfNat.ofNat 4))     pal).snd).any fun l => decide ((sha256 l = mBytes m 36 32))) = true) := by
  refine ⟨ub, 1, 0, sealed1, 0, 0, ?_⟩
  · refine ⟨?_, ?_, ?_, ?_, ?_, ?_, ?_, ?_⟩
    case refine_3 => with_reducible refine check_ok tag_sealed1 ?_
                     decide +kernel
    all_goals ((repeat' apply And.intro) <;> first | ((with_reducible refine check_ok tag_sealed0 ?_); decide +kernel) | ((with_reducible refine check_ok tag_sealed1 ?_); decide +kernel) | ((with_reducible refine check_ok tag_sealed2 ?_); decide +kernel) | ((with_reducible refine check_ok tag_sealed3 ?_); decide +kernel) | ((with_reducible refine check_ok tag_sealed4 ?_); decide +kernel) | ((with_reducible refine check_ok tag_sealed5 ?_); decide +kernel) | ((with_reducible refine check_ok tag_sealed8 ?_); decide +kernel) | decide +kernel | (simp only [State.Good, State.Inv, State.Steady, State.HostTo, State.HostRuns, State.ConfigTo, State.BeginsAtOnce, State.Accepts, State.Asked]; decide +kernel))
theorem test_witness_SafetyRequests :
    (∃ (s : State) (p : Fin 64) (m : BitVec 2048), (s.dome.tamperKeys = true))
    ∧ (∃ (s : State) (p : Fin 64) (m : BitVec 2048), (s.dome.tamperKeys = false) ∧ (s.belvs[(f8 (mU m 1 1)).val].safety ≠ p ∨ reservedZero m = false))
    ∧ (∃ (s : State) (p : Fin 64) (m : BitVec 2048), (s.dome.tamperKeys = false) ∧ (s.safetyCheck p m ≠ 5) ∧ (hmac (leBytes 32 s.belvs[(f8 (mU m 1 1)).val].key.toNat)     (mBytes m 0 224) ≠   mBytes m 224 32))
    ∧ (∃ (s : State) (p : Fin 64) (m : BitVec 2048), (s.safetyCheck p m = 0))
    ∧ (∃ (s : State) (p : Fin 64) (i : Fin 2) (m : BitVec 2048) (c : Instr), (s.Good) ∧ (s.Asked p i m) ∧ (s.safetyCheck p m ≠ 0) ∧ ((c, mU m 0 1) ∈   [(Instr.belvUpdate p i, 16), (Instr.belvReaffirm p i, 17),     (Instr.belvResume p i, 18), (Instr.safeSend p i, 20), (Instr.blockTake p i, 21),     (Instr.blockRelease p i, 22), (Instr.heldConsole p i, 23)]))
    ∧ (∃ (s : State) (p : Fin 64) (i : Fin 2) (m : BitVec 2048) (st : Nat) (frame : Nat), (s.pavs[p.val].mbox[i.val].busy = true) ∧ (st < 256) ∧ (frame < 2 ^ 64))
    ∧ (∃ (s : State) (p : Fin 64) (i : Fin 2) (m : BitVec 2048) (st : Nat) (frame : Nat), (s.pavs[p.val].mbox[i.val].busy = true) ∧ (st < 256) ∧ (frame < 2 ^ 64) ∧ (s.belvs[(f8 (mU m 1 1)).val].hasKey = true))
    ∧ (∃ (s : State) (p : Fin 64) (i : Fin 2) (m : BitVec 2048) (c : Instr), (s.Good) ∧ (s.Asked p i m) ∧ (mU m 0 1 = 19) ∧ (s.safetyCheck p m = 0) ∧ ((c, true) ∈   [(Instr.safeSet p i,       bit (mU m 16 1) 0 ||         mU m 16 1 % 16 == 0),     (Instr.safeRelease p i,       bit (mU m 16 1) 1 ||         mU m 16 1 % 16 == 0),     (Instr.forceLowSet p i,       bit (mU m 16 1) 2 ||         mU m 16 1 % 16 == 0),     (Instr.forceLowClear p i,       bit (mU m 16 1) 3 ||         mU m 16 1 % 16 == 0)])) := by
  refine ⟨⟨{ base with dome := { base.dome with tamperKeys := true } }, 1, sealed1, ?_⟩,
    ⟨mb (base) 1 fun x => { x with busy := true, inp := sealed1 }, 1, sealed4, ?_⟩,
    ⟨mb (base) 1 fun x => { x with busy := true, inp := sealed1 }, 1, mbx [(0,1,0x14),(8,8,1)], ?_⟩,
    ⟨mb (base) 1 fun x => { x with busy := true, inp := sealed1 }, 1, sealed1, ?_⟩,
    ⟨mb (base) 1 fun x => { x with busy := true, inp := mbx [(0,1,0x14),(8,8,1)] }, 1, 0, mbx [(0,1,0x14),(8,8,1)], .safeSend 1 0, ?_⟩,
    ⟨mb (base) 1 fun x => { x with busy := true, inp := sealed1 }, 1, 0, sealed1, 0, 0, ?_⟩,
    ⟨mb (base) 1 fun x => { x with busy := true, inp := sealed1 }, 1, 0, sealed1, 0, 0, ?_⟩,
    ⟨mb base 1 fun x => { x with busy := true, inp := sealed8 }, 1, 0, sealed8, .safeSet 1 0, ?_⟩⟩ <;>
    (repeat' apply And.intro) <;> first | ((with_reducible refine check_ok tag_sealed0 ?_); decide +kernel) | ((with_reducible refine check_ok tag_sealed1 ?_); decide +kernel) | ((with_reducible refine check_ok tag_sealed2 ?_); decide +kernel) | ((with_reducible refine check_ok tag_sealed3 ?_); decide +kernel) | ((with_reducible refine check_ok tag_sealed4 ?_); decide +kernel) | ((with_reducible refine check_ok tag_sealed5 ?_); decide +kernel) | ((with_reducible refine check_ok tag_sealed8 ?_); decide +kernel) | decide +kernel | (simp only [State.Good, State.Inv, State.Steady, State.HostTo, State.HostRuns, State.ConfigTo, State.BeginsAtOnce, State.Accepts, State.Asked]; decide +kernel)
end L4

/-! ### Alarms, hand-over, failures of the Dome -/

namespace M1
def mb (s : State) (p : Nat) (f : MboxSlot → MboxSlot) : State := s.modMbox (fp p) 0 f
def base : State := { ({ live with spire := { live.spire with now := 100000 } }) with belvs := (live.belvs.set 0 { cfg := 0x101, hasKey := true, key := 5, size := 0x00020002, bufBase := 0x80000 }).set 1 { cfg := 0x001, hasKey := true, key := 5 } , bports := live.bports.map fun b => { b with bucket := 10000000000000 } }
def ho1 : Handover := { block := 3, toSecure := true, pavs := [], reply := some (1, 0) }
def dm (s : State) (f : Dome → Dome) : State := { s with dome := f s.dome }
def mv (s : State) : State := dm s fun d => { d with policy := { d.policy with movable := BitVec.allOnes _ } }
theorem test_witness_AlarmsAndHandOver :
    (∃ (s : State) (p : Fin 64) (i : Fin 2) (m : BitVec 2048), (s.Good) ∧ (s.Asked p i m) ∧ (s.safetyCheck p m = 0) ∧ (mU m 0 1 = 20) ∧ (s.dome.alarmSent = false) ∧ (s.alarmWaits = false))
    ∧ (∃ (s : State) (p : Fin 64) (i : Fin 2) (m : BitVec 2048), (s.Good) ∧ (s.Asked p i m) ∧ (s.safetyCheck p m = 0) ∧ (mU m 0 1 = 20) ∧ (s.dome.alarmSent = true ∨ s.alarmWaits = true))
    ∧ (∃ (s : State) (p : Fin 64) (i : Fin 2) (m : BitVec 2048), (s.Good) ∧ (s.Asked p i m) ∧ (s.safetyCheck p m = 0) ∧ (mU m 0 1 = 23) ∧ ((reservedByte 11 (consoleDesc p m)).isSome = true ∨   (firstBad (s.consoleChecks p (consoleDesc p m) true)).isSome = true))
    ∧ (∃ (s : State) (p : Fin 64) (i : Fin 2) (m : BitVec 2048), (s.Good) ∧ (s.Asked p i m) ∧ (s.safetyCheck p m = 0) ∧ (mU m 0 1 = 23) ∧ (reservedByte 11 (consoleDesc p m) = none) ∧ (firstBad (s.consoleChecks p (consoleDesc p m) true) = none))
    ∧ (∃ (s : State) (p : Fin 64) (i : Fin 2) (m : BitVec 2048) (c : Instr) (take : Bool), (s.Good) ∧ (s.Asked p i m) ∧ (s.safetyCheck p m = 0) ∧ ((c, take, mU m 0 1) ∈   [(Instr.blockTake p i, true, 21), (Instr.blockRelease p i, false, 22)]) ∧ (s.dome.policy.movable.getLsbD (mU m 16 1) = false))
    ∧ (∃ (s : State) (p : Fin 64) (i : Fin 2) (m : BitVec 2048) (c : Instr) (take : Bool), (s.Good) ∧ (s.Asked p i m) ∧ (s.safetyCheck p m = 0) ∧ ((c, take, mU m 0 1) ∈   [(Instr.blockTake p i, true, 21), (Instr.blockRelease p i, false, 22)]) ∧ (s.dome.policy.movable.getLsbD (mU m 16 1) = true) ∧ ((s.dome.ho.any fun h => h.block == mU m 16 1) = true))
    ∧ (∃ (s : State) (p : Fin 64) (i : Fin 2) (m : BitVec 2048) (c : Instr) (take : Bool), (s.Good) ∧ (s.Asked p i m) ∧ (s.safetyCheck p m = 0) ∧ ((c, take, mU m 0 1) ∈   [(Instr.blockTake p i, true, 21), (Instr.blockRelease p i, false, 22)]) ∧ (s.dome.policy.movable.getLsbD (mU m 16 1) = true) ∧ ((s.dome.ho.any fun h => h.block == mU m 16 1) = false) ∧ (s.isHeld (mU m 16 1) = take))
    ∧ (∃ (s : State) (p : Fin 64) (i : Fin 2) (m : BitVec 2048) (c : Instr) (take : Bool), (s.Good) ∧ (s.Asked p i m) ∧ (s.safetyCheck p m = 0) ∧ ((c, take, mU m 0 1) ∈   [(Instr.blockTake p i, true, 21), (Instr.blockRelease p i, false, 22)]) ∧ (s.dome.policy.movable.getLsbD (mU m 16 1) = true) ∧ ((s.dome.ho.any fun h => h.block == mU m 16 1) = false) ∧ (s.isHeld (mU m 16 1) ≠ take))
    ∧ (∃ (s : State) (b : BitVec 8) (h : Handover), (s.Good) ∧ (List.find? (fun h => h.block == b.toNat) s.dome.ho = some h) ∧ (s.dome.ho.Nodup) ∧ (s.blockBusy (blockOf b.toNat) = true))
    ∧ (∃ (s : State) (b : BitVec 8) (h : Handover), (s.Good) ∧ (List.find? (fun h => h.block == b.toNat) s.dome.ho = some h) ∧ (s.dome.ho.Nodup) ∧ (s.blockBusy (blockOf b.toNat) = false))
    ∧ (∃ (s : State) (b : BitVec 8) (h : Handover), (s.Good) ∧ (List.find? (fun h => h.block == b.toNat) s.dome.ho = some h) ∧ (s.dome.ho.Nodup))
    ∧ (∃ (s : State) (b : BitVec 8), (s.Good) ∧ (List.find? (fun h => h.block == b.toNat) s.dome.ho = none)) := by
  refine ⟨⟨mb (base) 1 fun x => { x with busy := true, inp := sealed6 }, 1, 0, sealed6, ?_⟩,
    ⟨dm (mb (base) 1 fun x => { x with busy := true, inp := sealed6 }) fun d => { d with alarmSent := true }, 1, 0, sealed6, ?_⟩,
    ⟨mb (base) 1 fun x => { x with busy := true, inp := sealed7 }, 1, 0, sealed7, ?_⟩,
    ⟨dm (mv (mb (base) 1 fun x => { x with busy := true, inp := sealed7 })) fun d => { d with held := 0x7FFFFFFFFFFF }, 1, 0, sealed7, ?_⟩,
    ⟨mb base 1 fun x => { x with busy := true, inp := sealed9 }, 1, 0, sealed9, .blockTake 1 0, true, ?_⟩,
    ⟨dm (mv (mb base 1 fun x => { x with busy := true, inp := sealed9 })) fun d => { d with ho := [ho1] }, 1, 0, sealed9, .blockTake 1 0, true, ?_⟩,
    ⟨dm (mv (mb base 1 fun x => { x with busy := true, inp := sealed9 })) fun d => { d with held := 0x7FFFFFFFFFFF }, 1, 0, sealed9, .blockTake 1 0, true, ?_⟩,
    ⟨mv (mb base 1 fun x => { x with busy := true, inp := sealed9 }), 1, 0, sealed9, .blockTake 1 0, true, ?_⟩,
    ⟨{ dm base fun d => { d with ho := [ho1] } with jobs := [{ pav := 1, sq := 0, seq := 5, op := 8, deferred := false, chan := some (3, .report, {}) }] }, 0x3, ho1, ?_⟩,
    ⟨dm (mv (mb (base) 1 fun x => { x with busy := true, inp := sealed6 })) fun d => { d with ho := [ho1] }, 0x3, ho1, ?_⟩,
    ⟨dm (mv (mb (base) 1 fun x => { x with busy := true, inp := sealed6 })) fun d => { d with ho := [ho1] }, 0x3, ho1, ?_⟩,
    ⟨mb (base) 1 fun x => { x with busy := true, inp := sealed6 }, 0x3, ?_⟩⟩ <;>
    (repeat' apply And.intro) <;> first | ((with_reducible refine check_ok tag_sealed6 ?_); decide +kernel) | ((with_reducible refine check_ok tag_sealed7 ?_); decide +kernel) | ((with_reducible refine check_ok tag_sealed9 ?_); decide +kernel) | decide +kernel | (simp only [State.Good, State.Inv, State.Steady, State.HostTo, State.HostRuns, State.ConfigTo, State.BeginsAtOnce, State.Accepts, State.Asked]; decide +kernel)
theorem test_witness_DomeFailuresAndTamper :
    (∃ (s : State) (v : Word), (s.Good) ∧ (s.dome.st = DomeSt.run))
    ∧ (∃ (s : State), (s.Good) ∧ (s.dome.st = DomeSt.run) ∧ (s.arrived.contains Awaited.kick = true))
    ∧ (∃ (s : State), (s.Good) ∧ (s.dome.st = DomeSt.run))
    ∧ (∃ (s : State), (s.Good) ∧ (s.dome.st = DomeSt.run) ∧ (s.arrived.contains Awaited.kick = false) ∧ (2 ≤ (s.recentFails s.dome.failTimes).length) ∧ (BitVec.toNat s.dome.lastKick + 50000000 ≤ BitVec.toNat s.spire.now) ∧ (s.dome.policy.haltAlarm = false))
    ∧ (∃ (s : State), (s.Good) ∧ (s.pwr.railGood.getLsbD 0 = true))
    ∧ (∃ (s : State) (a : Nat), (s.Inv) ∧ (s.keep.wiping = false) ∧ (a < 2097152))
    ∧ (∃ (s : State) (a : Nat), (s.Inv) ∧ (s.keep.wiping = false) ∧ (15728640 ≤ a) ∧ (a < 16777216))
    ∧ (∃ (s : State), (s.Inv) ∧ (s.keep.wiping = false))
    ∧ (∃ (s : State), (s.Inv) ∧ (s.pending = []) ∧ (s.keep.wiping = true) ∧ (s.keep.wipeStep = 6)) := by
  refine ⟨⟨mb (base) 1 fun x => { x with busy := true, inp := sealed6 }, 0x0, ?_⟩,
    ⟨base.arrive .kick, ?_⟩,
    ⟨mb (base) 1 fun x => { x with busy := true, inp := sealed6 }, ?_⟩,
    ⟨{ (dm base fun d => { d with failTimes := [50, 60] }) with spire := { base.spire with now := 60000000 } }, ?_⟩,
    ⟨mb (base) 1 fun x => { x with busy := true, inp := sealed6 }, ?_⟩,
    ⟨mb (base) 1 fun x => { x with busy := true, inp := sealed6 }, 0, ?_⟩,
    ⟨mb (base) 1 fun x => { x with busy := true, inp := sealed6 }, 15728640, ?_⟩,
    ⟨mb (base) 1 fun x => { x with busy := true, inp := sealed6 }, ?_⟩,
    ⟨{ base with keep := { base.keep with wiping := true, wipeStep := 6 } }, ?_⟩⟩ <;>
    (repeat' apply And.intro) <;> first | ((with_reducible refine check_ok tag_sealed6 ?_); decide +kernel) | ((with_reducible refine check_ok tag_sealed7 ?_); decide +kernel) | ((with_reducible refine check_ok tag_sealed9 ?_); decide +kernel) | decide +kernel | (simp only [State.Good, State.Inv, State.Steady, State.HostTo, State.HostRuns, State.ConfigTo, State.BeginsAtOnce, State.Accepts, State.Asked]; decide +kernel)
end M1

/-! ### Resets, boot, idle -/

namespace M2
def pw (s : State) (f : Pwr → Pwr) : State := { s with pwr := f s.pwr }
theorem test_witness_ResetsRailsAndTemperature :
    (∃ (s : State), (s.Inv))
    ∧ (∃ (s : State), (s.Inv) ∧ (s.calm = true) ∧ (s.pwr.reset = ResetSt.powerOn) ∧ (s.pwr.railGood = 31) ∧ (s.glb.tripped = false))
    ∧ (∃ (s : State), (s.Inv) ∧ (s.calm = true) ∧ (s.pwr.reset = ResetSt.powerOn) ∧ (s.pwr.railGood ≠ 31))
    ∧ (∃ (s : State), (s.Inv) ∧ (s.calm = true) ∧ (s.pwr.reset ≠ ResetSt.powerOn))
    ∧ (∃ (s : State), (s.Inv) ∧ (s.calm = true) ∧ (s.pwr.reset = ResetSt.railDown) ∧ (s.glb.tripped = false))
    ∧ (∃ (s : State), (s.Inv) ∧ (s.calm = true) ∧ (s.pwr.reset = ResetSt.railDown) ∧ (s.glb.tripped = true))
    ∧ (∃ (s : State), (s.Inv) ∧ (s.calm = true) ∧ (s.pwr.reset ≠ ResetSt.railDown))
    ∧ (∃ (s : State), (s.Inv) ∧ (s.calm = true) ∧ (s.pwr.reset ≠ ResetSt.running) ∧ (s.pwr.reset ≠ ResetSt.warm))
    ∧ (∃ (s : State) (r : Fin 5), (s.Inv) ∧ (s.calm = true) ∧ (s.keep.used = 0) ∧ (s.pwr.reset = ResetSt.powerOn ∨   r ≠ (0 : Fin 5) ∧ (s.pwr.reset = ResetSt.railDown ∨ s.pwr.reset = ResetSt.dead)))
    ∧ (∃ (s : State), (s.Inv) ∧ (s.pwr.reset = ResetSt.running ∨ s.pwr.reset = ResetSt.warm))
    ∧ (∃ (s : State), (s.Inv) ∧ (s.pwr.reset ≠ ResetSt.powerOn))
    ∧ (∃ (s : State) (r : Fin 5), (s.Inv) ∧ (r ≠ (0 : Fin 5)) ∧ (s.pwr.reset = ResetSt.running ∨ s.pwr.reset = ResetSt.warm ∨ s.pwr.reset = ResetSt.tripped))
    ∧ (∃ (s : State) (r : Fin 5) (a : Nat), (s.Inv))
    ∧ (∃ (s : State) (v : Word), (s.Good) ∧ (s.HostTo (0 : Fin 64)) ∧ (bits (BitVec.toNat v) 15 0 = 42330))
    ∧ (∃ (s : State) (v : Word), (s.Good) ∧ (s.HostTo (0 : Fin 64)) ∧ (bits (BitVec.toNat v) 15 0 ≠ 42330))
    ∧ (∃ (s : State) (tj : Int), (s.Good) ∧ (s.pwr.railGood.getLsbD 0 = true) ∧ (s.glb.warn = false → tj < warnAt s.glb.warnTh) ∧ (s.glb.warn = true → warnAt s.glb.warnTh - 50 ≤ tj) ∧ (tj < 1150 ∨ s.glb.tripped = true))
    ∧ (∃ (s : State) (tj : Int), (s.Good) ∧ (s.pwr.railGood.getLsbD 0 = true) ∧ (s.glb.warn = false) ∧ (warnAt s.glb.warnTh ≤ tj) ∧ (tj < 1150))
    ∧ (∃ (s : State) (tj : Int), (s.Good) ∧ (s.pwr.railGood.getLsbD 0 = true) ∧ (s.glb.warn = true) ∧ (tj < warnAt s.glb.warnTh - 50) ∧ (tj < 1150))
    ∧ (∃ (s : State) (tj : Int), (s.Good) ∧ (s.pwr.railGood.getLsbD 0 = true) ∧ (s.glb.tripped = false) ∧ (1150 ≤ tj)) := by
  refine ⟨⟨live, ?_⟩,
    ⟨pw live fun p => { p with reset := .powerOn }, ?_⟩,
    ⟨pw live fun p => { p with reset := .powerOn, railGood := 0x1E }, ?_⟩,
    ⟨live, ?_⟩,
    ⟨pw live fun p => { p with reset := .railDown }, ?_⟩,
    ⟨{ pw live fun p => { p with reset := .railDown } with glb := { live.glb with tripped := true } }, ?_⟩,
    ⟨live, ?_⟩,
    ⟨pw live fun p => { p with reset := .powerOn }, ?_⟩,
    ⟨pw live fun p => { p with reset := .powerOn }, 0, ?_⟩,
    ⟨live, ?_⟩,
    ⟨live, ?_⟩,
    ⟨live, 1, ?_⟩,
    ⟨live, 0, 0, ?_⟩,
    ⟨live, 0xa55a, ?_⟩,
    ⟨live, 0x5a5a, ?_⟩,
    ⟨live, 250, ?_⟩,
    ⟨live, 1000, ?_⟩,
    ⟨{ live with glb := { live.glb with warn := true } }, 250, ?_⟩,
    ⟨live, 1150, ?_⟩⟩ <;>
    first | decide +kernel | (simp only [State.Good, State.Inv, State.Steady, State.HostTo, State.HostRuns, State.ConfigTo, State.BeginsAtOnce, State.Accepts, State.Asked]; decide +kernel)
theorem test_witness_Boot :
    (∃ (s : State) (e : BootEnv), (s.Inv) ∧ (s.calm = true) ∧ (s.pwr.booted = false) ∧ (s.pwr.reset = ResetSt.running ∨ s.pwr.reset = ResetSt.warm) ∧ (s.clk.xinOk = false))
    ∧ (∃ (s : State) (e : BootEnv), (s.Inv) ∧ (s.calm = true) ∧ (s.pwr.booted = false) ∧ (s.pwr.reset = ResetSt.running ∨ s.pwr.reset = ResetSt.warm) ∧ (s.clk.xinOk = true))
    ∧ (∃ (s : State) (e : BootEnv), (s.Inv) ∧ (s.calm = true) ∧ (s.pwr.booted = true ∨ s.pwr.reset ≠ ResetSt.running ∧ s.pwr.reset ≠ ResetSt.warm))
    ∧ (∃ (s : State) (e : BootEnv) (a : Nat), (s.Inv) ∧ (s.calm = true) ∧ (s.pwr.booted = false) ∧ (s.pwr.reset = ResetSt.running ∨ s.pwr.reset = ResetSt.warm) ∧ (a < 33423360))
    ∧ (∃ (s : State) (e : BootEnv) (a : Nat), (s.Inv) ∧ (s.calm = true) ∧ (s.pwr.booted = false) ∧ (s.pwr.reset = ResetSt.running ∨ s.pwr.reset = ResetSt.warm) ∧ (a < 2097152))
    ∧ (∃ (s : State) (e : BootEnv) (a : Nat), (s.Inv) ∧ (s.calm = true) ∧ (s.pwr.booted = false) ∧ (s.pwr.reset = ResetSt.running ∨ s.pwr.reset = ResetSt.warm) ∧ ((s.pwr.reset == ResetSt.warm && s.org.preserveLog && !s.pwr.destructive) = true) ∧ (33423360 ≤ a) ∧ (a < 33554432))
    ∧ (∃ (s : State) (e : BootEnv), (s.Inv) ∧ (s.calm = true) ∧ (s.pwr.booted = false) ∧ (s.pwr.reset = ResetSt.running ∨ s.pwr.reset = ResetSt.warm) ∧ ((s.pwr.reset == ResetSt.warm && s.org.preserveLog && !s.pwr.destructive) = false))
    ∧ (∃ (s : State) (e : BootEnv) (a : Nat), (s.Inv) ∧ (s.calm = true) ∧ (s.pwr.booted = false) ∧ (s.pwr.reset = ResetSt.running ∨ s.pwr.reset = ResetSt.warm) ∧ ((s.pwr.reset == ResetSt.warm && s.org.preserveLog && !s.pwr.destructive) = false) ∧ (a < 33554432))
    ∧ (∃ (s : State) (e : BootEnv), (s.Inv) ∧ (s.calm = true) ∧ (s.pwr.booted = false) ∧ (s.pwr.reset = ResetSt.running ∨ s.pwr.reset = ResetSt.warm)) := by
  refine ⟨⟨{ (pw live fun p => { p with reset := .warm, booted := false }) with clk := { live.clk with xinOk := false } }, { xinStable := true, refclk := 15, flash := [], dies := Vector.replicate 8 { gb := 8, width := 16, ranks2 := false, attempts := [0] }, march := [] }, ?_⟩,
    ⟨pw live fun p => { p with reset := .warm, booted := false }, { xinStable := true, refclk := 15, flash := [], dies := Vector.replicate 8 { gb := 8, width := 16, ranks2 := false, attempts := [0] }, march := [] }, ?_⟩,
    ⟨live, { xinStable := true, refclk := 15, flash := [], dies := Vector.replicate 8 { gb := 8, width := 16, ranks2 := false, attempts := [0] }, march := [] }, ?_⟩,
    ⟨pw live fun p => { p with reset := .warm, booted := false }, { xinStable := true, refclk := 15, flash := [], dies := Vector.replicate 8 { gb := 8, width := 16, ranks2 := false, attempts := [0] }, march := [] }, 0, ?_⟩,
    ⟨pw live fun p => { p with reset := .warm, booted := false }, { xinStable := true, refclk := 15, flash := [], dies := Vector.replicate 8 { gb := 8, width := 16, ranks2 := false, attempts := [0] }, march := [] }, 0, ?_⟩,
    ⟨{ pw live fun p => { p with booted := false, reset := .warm } with org := { live.org with preserveLog := true }, img := { live.img with org := [(5, 9), (0x1FE0005, 7)] } }, { xinStable := true, refclk := 15, flash := [], dies := Vector.replicate 8 { gb := 8, width := 16, ranks2 := false, attempts := [0] }, march := [] }, 33423365, ?_⟩,
    ⟨pw live fun p => { p with reset := .warm, booted := false }, { xinStable := true, refclk := 15, flash := [], dies := Vector.replicate 8 { gb := 8, width := 16, ranks2 := false, attempts := [0] }, march := [] }, ?_⟩,
    ⟨pw live fun p => { p with reset := .warm, booted := false }, { xinStable := true, refclk := 15, flash := [], dies := Vector.replicate 8 { gb := 8, width := 16, ranks2 := false, attempts := [0] }, march := [] }, 0, ?_⟩,
    ⟨pw live fun p => { p with reset := .warm, booted := false }, { xinStable := true, refclk := 15, flash := [], dies := Vector.replicate 8 { gb := 8, width := 16, ranks2 := false, attempts := [0] }, march := [] }, ?_⟩⟩ <;>
    first | decide +kernel | (simp only [State.Good, State.Inv, State.Steady, State.HostTo, State.HostRuns, State.ConfigTo, State.BeginsAtOnce, State.Accepts, State.Asked]; decide +kernel)
theorem test_witness_Boot_b :
    (∃ (s : State) (e : BootEnv) (u : State), (s.Inv) ∧ (s.calm = true) ∧ (s.pwr.booted = false) ∧ (s.pwr.reset = ResetSt.running ∨ s.pwr.reset = ResetSt.warm) ∧ ((s.cleared e).bootFirmware e = (u, false))) := by
  refine ⟨pw live fun p => { p with reset := .warm, booted := false }, { xinStable := true, refclk := 15, flash := [], dies := Vector.replicate 8 { gb := 8, width := 16, ranks2 := false, attempts := [0] }, march := [] }, ((State.cleared (pw live fun p => { p with reset := .warm, booted := false }) { xinStable := true, refclk := 15, flash := [], dies := Vector.replicate 8 { gb := 8, width := 16, ranks2 := false, attempts := [0] }, march := [] }).bootFirmware { xinStable := true, refclk := 15, flash := [], dies := Vector.replicate 8 { gb := 8, width := 16, ranks2 := false, attempts := [0] }, march := [] }).1, ?_⟩
  · refine ⟨?_, ?_, ?_, ?_, Prod.ext rfl ?_⟩ <;> (first | decide +kernel | (simp only [State.Good, State.Inv, State.Steady, State.HostTo, State.HostRuns, State.ConfigTo, State.BeginsAtOnce, State.Accepts, State.Asked]; decide +kernel))
theorem test_witness_IdleCycle :
    (∃ (s : State), (s.Good) ∧ (s.pending = []) ∧ (s.pwr.railGood.getLsbD 0 = true) ∧ (s.spire.frac < 2 ^ 24) ∧ (BitVec.toNat s.spire.now < 2 ^ 63) ∧ (s.clk.track < 2 ^ 40)) := by
  refine ⟨live, ?_⟩ <;>
    first | decide +kernel | (simp only [State.Good, State.Inv, State.Steady, State.HostTo, State.HostRuns, State.ConfigTo, State.BeginsAtOnce, State.Accepts, State.Asked]; decide +kernel)
end M2

end Sys2Proof.Tests
end

section
/-!
SUPPORT. Register accesses of a host (00, R13 to R19; 19): the wake of an island, the requests a function does not take, and what a read
or a write of one word does. O13 is settled from these.
-/
namespace Sys2Proof.Machine
open Sys2Proof

/-! ### The wake of an island (R27) -/

theorem wakeIsland_of_running {s : State} {i : Nat} (h : s.clk.run.getLsbD i = true) : s.wakeIsland i = s := if_pos h

theorem wakeIsland_of_gated {s : State} {i : Nat} (h : s.clk.run.getLsbD i = false) : s.wakeIsland i = s.runIsland i true := by
  simp [State.wakeIsland, h]

/-- A wake changes the clocks alone. -/
theorem wakeIsland_eq (s : State) (i : Nat) : s.wakeIsland i = { s with clk := (s.wakeIsland i).clk } := by
  unfold State.wakeIsland
  split <;> rfl

@[simp] theorem wakeFor_spire (s : State) (t : Option (Fin 64)) (o : Nat) : (s.wakeFor t o).spire = s.spire := by
  rw [State.wakeFor, wakeIsland_eq]
@[simp] theorem wakeFor_caps (s : State) (t : Option (Fin 64)) (o : Nat) : (s.wakeFor t o).caps = s.caps := by
  rw [State.wakeFor, wakeIsland_eq]
@[simp] theorem wakeFor_tx (s : State) (t : Option (Fin 64)) (o : Nat) : (s.wakeFor t o).tx = s.tx := by
  rw [State.wakeFor, wakeIsland_eq]
@[simp] theorem wakeFor_stores (s : State) (t : Option (Fin 64)) (o : Nat) : (s.wakeFor t o).stores = s.stores := by
  rw [State.wakeFor, wakeIsland_eq]
@[simp] theorem wakeFor_img (s : State) (t : Option (Fin 64)) (o : Nat) : (s.wakeFor t o).img = s.img := by
  rw [State.wakeFor, wakeIsland_eq]
@[simp] theorem wakeFor_pending (s : State) (t : Option (Fin 64)) (o : Nat) : (s.wakeFor t o).pending = s.pending := by
  rw [State.wakeFor, wakeIsland_eq]

/-- A page's island is its port's, which runs where a request reaches it. -/
theorem wakeFor_page {s : State} {p : Fin 64} (h : s.HostTo p) (o : Nat) : s.wakeFor (some p) o = s := by
  obtain ⟨-, -, -, -, -, hrun⟩ := h
  exact wakeIsland_of_running hrun

/-! ### Requests to a function (R27, R45, R88) -/

/-- A request to a function that takes it, behind a gated HOST island, finds the island running. -/
theorem hostAcc_gated {s : State} {p : Fin 64} (hreach : s.reach p = true) (hpres : (s.pavs[p.val]).present = true)
    (hready : (s.pavs[p.val]).ready = true) (hmse : (s.pavs[p.val]).mse = true) (hd3 : (s.pavs[p.val]).fn.d3 = false)
    (hrun : s.clk.run.getLsbD (islHost (portOf p).val) = false) (f : State → State) :
    s.hostAcc p f = f (s.runIsland (islHost (portOf p).val) true) := by
  simp [State.hostAcc, hreach, hpres, hready, hmse, hd3, wakeIsland_of_gated hrun]

theorem hostAcc_unsupported {s : State} {p : Fin 64} (hreach : s.reach p = true)
    (h : (s.pavs[p.val]).present = false ∨ (s.pavs[p.val]).ready = false ∨ (s.pavs[p.val]).mse = false ∨ (s.pavs[p.val]).fn.d3 = true)
    (f : State → State) : s.hostAcc p f = s.emit (.ur p) := by
  have hno : ((s.pavs[p.val]).present && (s.pavs[p.val]).ready && (s.pavs[p.val]).mse && !(s.pavs[p.val]).fn.d3) = false := by
    rcases h with h | h | h | h <;> simp [h]
  simp [State.hostAcc, hreach, hno]

/-! ### Where an offset of a BAR0 goes (R655, R659) -/

theorem regTarget_ownPage {p : Fin 64} (hp : p ≠ 0) {o : Nat} (h : o < 0x10000) : regTarget p o = some (some p, o) := by
  simp [regTarget, hp, h]

/-- Offset `o` of a Pavilion's page: the manager's page lies behind its blocks, any other at the start of its BAR0. -/
theorem regTarget_page {p : Fin 64} {o : Nat} (h : o < 0x10000) : regTarget p (if p = 0 then 0xF00000 + o else o) = some (some p, o) := by
  by_cases hp : p = 0
  · have hend : 0xF00000 + o < 0xF10000 := by omega
    simp [regTarget, hp, hend]
  · rw [if_neg hp, regTarget_ownPage hp h]

theorem regTarget_block {o : Nat} (h : o < 0xF00000) : regTarget 0 o = some (none, o) := by
  have hpage : ¬ 0xF00000 ≤ o := by omega
  have hbar : o < 0x1000000 := by omega
  simp [regTarget, hpage, hbar]

/-- An offset within its target is aligned as the offset of the BAR0 is. -/
theorem regTarget_aligned {p : Fin 64} {off o : Nat} {t : Option (Fin 64)} (h : regTarget p off = some (t, o)) : o % 4 = off % 4 := by
  unfold regTarget at h
  by_cases hp : p = 0
  · rw [if_pos hp] at h
    by_cases hpage : 0xF00000 ≤ off ∧ off < 0xF10000
    · rw [if_pos hpage, Option.some.injEq, Prod.mk.injEq] at h
      omega
    · rw [if_neg hpage, Option.ite_none_right_eq_some, Option.some.injEq, Prod.mk.injEq] at h
      omega
  · rw [if_neg hp, Option.ite_none_right_eq_some, Option.some.injEq, Prod.mk.injEq] at h
    omega

/-! ### Writes -/

theorem regWrite_discards {s : State} {p : Fin 64} (h : s.HostTo p) {off size : Nat} (hbad : size ≠ 4 ∨ off % 4 ≠ 0) (v : Word) :
    s.regWrite .host p off size v = s := by
  rw [State.regWrite, State.fromSrc, hostAcc_on h]
  cases ht : regTarget p off with
  | none => rfl
  | some x =>
    obtain ⟨t, o⟩ := x
    have hno : (size != 4 || o % 4 != 0) = true := by simpa [regTarget_aligned ht] using hbad
    simp only [hno, if_true]

/-- An aligned word written at an offset of a Pavilion's page reaches the register there. -/
theorem regWrite_page {s : State} {p : Fin 64} (h : s.HostTo p) {off o : Nat} (ht : regTarget p off = some (some p, o)) (ha : o % 4 = 0)
    (v : Word) : s.regWrite .host p off 4 v = s.pageWr p o v := by
  simp [State.regWrite, State.fromSrc, hostAcc_on h, ht, ha, wakeFor_page h]

theorem pageWr_errVector (s : State) (p : Fin 64) (v : Word) :
    s.pageWr p 0x1290 v = s.modPav p fun q => { q with errVector := v &&& 0x1F#32 } := rfl

/-! ### Reads of one register -/

theorem regRead_unsupported {s : State} {p : Fin 64} (hreach : s.reach p = true)
    (h : (s.pavs[p.val]).present = false ∨ (s.pavs[p.val]).ready = false ∨ (s.pavs[p.val]).mse = false ∨ (s.pavs[p.val]).fn.d3 = true)
    (off size : Nat) : s.regRead .host p off size = s.emit (.ur p) := by
  rw [State.regRead, State.fromSrc, hostAcc_unsupported hreach h]

theorem touched_word {o : Nat} (ha : o % 4 = 0) : touched o 4 = [(o, true)] := by
  have hcount : (o + 4 - 1) / 4 - o / 4 + 1 = 1 := by omega
  have hstart : o / 4 * 4 = o := by omega
  simp only [touched, hcount]
  simp [hstart]

theorem touched_lowByte {o : Nat} (ha : o % 4 = 0) : touched o 1 = [(o, false)] := by
  have hstart : o / 4 * 4 = o := by omega
  simp [touched, hstart]

@[simp] theorem length_leBytes (n v : Nat) : (leBytes n v).length = n := by
  rw [leBytes, List.length_map, List.length_range]

theorem readRegs_word (s : State) (secure : Bool) (t : Option (Fin 64)) {o : Nat} (ha : o % 4 = 0) :
    s.readRegs secure t o 4 = (s.readDone secure t o, leBytes 4 (s.wordAt secure t o)) := by
  have hall (v : Nat) : (leBytes 4 v).take 4 = leBytes 4 v := List.take_of_length_le (Nat.le_of_eq (length_leBytes 4 v))
  simp only [State.readRegs, touched_word ha, ha, List.foldl_cons, List.foldl_nil, List.nil_append, List.drop_zero, hall, if_true]

/-- A read of a register's lowest byte returns that byte and clears nothing (R18). -/
theorem readRegs_lowByte (s : State) (secure : Bool) (t : Option (Fin 64)) {o : Nat} (ha : o % 4 = 0) :
    s.readRegs secure t o 1 = (s, [BitVec.ofNat 8 (s.wordAt secure t o)]) := by
  simp [State.readRegs, touched_lowByte ha, ha, leBytes, List.range_succ]

/-- A host's read at an offset outside the Keep aperture and the log window: the island wakes, and the bytes are sent. -/
theorem regRead_regs {s : State} {p : Fin 64} (h : s.HostTo p) {off o : Nat} {t : Option (Fin 64)} (ht : regTarget p off = some (t, o))
    (hk : (t.isNone && inAperture o) = false) (hl : (t.isNone && inLogWindow o) = false) (size : Nat) :
    s.regRead .host p off size = ((s.wakeFor t o).readRegs false t o size).1.emit (.readData p ((s.wakeFor t o).readRegs false t o size).2) := by
  have hnormal : (Src.host == Src.dome) = false := rfl
  simp [State.regRead, State.fromSrc, hostAcc_on h, ht, State.readAt, State.answerRead, hk, hl, hnormal]

/-- A host's read of an aligned word. -/
theorem regRead_word {s : State} {p : Fin 64} (h : s.HostTo p) {off o : Nat} {t : Option (Fin 64)} (ht : regTarget p off = some (t, o))
    (hk : (t.isNone && inAperture o) = false) (hl : (t.isNone && inLogWindow o) = false) (ha : o % 4 = 0) :
    s.regRead .host p off 4
      = ((s.wakeFor t o).readDone false t o).emit (.readData p (leBytes 4 ((s.wakeFor t o).wordAt false t o))) := by
  rw [regRead_regs h ht hk hl, readRegs_word _ _ _ ha]

/-! ### PAV_BAR2_MISS -/

theorem wordAt_bar2Miss (s : State) (p : Fin 64) : s.wordAt false (some p) 0x2C = (s.pavs[p.val]).bar2Miss.toNat := rfl

theorem readDone_bar2Miss (s : State) (p : Fin 64) : s.readDone false (some p) 0x2C = s.modPav p fun q => { q with bar2Miss := 0 } := rfl

/-! ### SPIRE_TIME (R14) -/

theorem wordAt_spireTimeLow (s : State) : s.wordAt false none 0x70000C = bits s.spire.now.toNat 31 0 := rfl

theorem readDone_spireTimeLow (s : State) :
    s.readDone false none 0x70000C = s.captureWords false none 0x70000C 2 s.spire.now.toNat := rfl

/-- The high word reads as the last read of the low word captured it. -/
theorem wordAt_spireTimeHigh {s : State} {w : Word} (h : (s.caps.find? fun c => c.1 == 64 && c.2.1 == 0x700010) = some (64, 0x700010, w)) :
    s.wordAt false none 0x700010 = w.toNat := by
  have hcap : s.captured false none 0x700010 = some w := by
    rw [State.captured]
    exact congrArg (Option.map _) h
  have hhigh : s.highAt false none 0x700010 = some (1, s.spire.now.toNat) := rfl
  have hwide : s.wideAt false none 0x700010 = none := rfl
  simp [State.wordAt, hwide, hhigh, hcap]

theorem readDone_spireTimeHigh (s : State) : s.readDone false none 0x700010 = s := rfl

/-! ### The commands -/

theorem exec_registerWrite_discards {s : State} {p : Fin 64} (hg : s.Good) (h : s.HostTo p) {off size : Nat} (hbad : size ≠ 4 ∨ off % 4 ≠ 0)
    (v : Word) : exec (.registerWrite .host p off size v) s = .next s :=
  plain hg (regWrite_discards h hbad v) rfl rfl rfl rfl

theorem exec_registerWrite_errVector {s : State} {p : Fin 64} (hg : s.Good) (h : s.HostTo p) (v : Word) :
    exec (.registerWrite .host p (if p = 0 then 0xF01290 else 0x1290) 4 v) s
      = .next (s.modPav p fun q => { q with errVector := v &&& 0x1F#32 }) := by
  have ht : regTarget p (if p = 0 then 0xF01290 else 0x1290) = some (some p, 0x1290) := regTarget_page (by decide)
  exact plain hg ((regWrite_page h ht rfl v).trans (pageWr_errVector s p v)) (modPav_core fun _ => rfl) rfl rfl rfl

theorem exec_fenceHiWrite_gated {s : State} {p : Fin 64} (hg : s.Good) (hreach : s.reach p = true) (hpres : (s.pavs[p.val]).present = true)
    (hready : (s.pavs[p.val]).ready = true) (hmse : (s.pavs[p.val]).mse = true) (hd3 : (s.pavs[p.val]).fn.d3 = false)
    (hrun : s.clk.run.getLsbD (islHost (portOf p).val) = false) (c : Fin 256) (v : Word) :
    exec (.fenceHiWrite p c v) s
      = .next ((s.runIsland (islHost (portOf p).val) true).modPav p fun q => { q with fenceHi := upd q.fenceHi c fun _ => v }) :=
  plain hg (hostAcc_gated hreach hpres hready hmse hd3 hrun _) ((fenceHi_core _ p c v).trans (runIsland_core s _ _)) rfl rfl rfl

theorem exec_readClear_unsupported {s : State} {p : Fin 64} (hg : s.Good) (hreach : s.reach p = true)
    (h : (s.pavs[p.val]).present = false ∨ (s.pavs[p.val]).ready = false ∨ (s.pavs[p.val]).mse = false ∨ (s.pavs[p.val]).fn.d3 = true)
    (off size : Nat) : exec (.readClear .host p off size) s = .next (s.emit (.ur p)) :=
  plain hg (regRead_unsupported hreach h off size) (emit_core s _) rfl rfl rfl

theorem exec_readClear_bar2Miss {s : State} {p : Fin 64} (hg : s.Good) (h : s.HostTo p) (hp : p ≠ 0) :
    exec (.readClear .host p 0x2C 4) s
      = .next ((s.modPav p fun q => { q with bar2Miss := 0 }).emit (.readData p (leBytes 4 (s.pavs[p.val]).bar2Miss.toNat))) := by
  have hread := regRead_word h (regTarget_ownPage (o := 0x2C) hp (by decide)) rfl rfl rfl
  rw [wakeFor_page h, wordAt_bar2Miss, readDone_bar2Miss] at hread
  exact plain hg hread ((emit_core _ _).trans (modPav_core fun _ => rfl)) rfl rfl rfl

theorem exec_readClear_bar2Miss_byte {s : State} {p : Fin 64} (hg : s.Good) (h : s.HostTo p) (hp : p ≠ 0) :
    exec (.readClear .host p 0x2C 1) s = .next (s.emit (.readData p [BitVec.ofNat 8 (s.pavs[p.val]).bar2Miss.toNat])) := by
  have hread := regRead_regs h (regTarget_ownPage (o := 0x2C) hp (by decide)) rfl rfl 1
  rw [wakeFor_page h, readRegs_lowByte _ _ _ rfl, wordAt_bar2Miss] at hread
  exact plain hg hread (emit_core _ _) rfl rfl rfl

/-- A read of SPIRE_TIME's low word sends it and captures the high word of the same value (R14). -/
theorem exec_multiwordLowRead_spireTime {s : State} (hg : s.Good) (h : s.HostTo 0) :
    exec (.multiwordLowRead .host 0 0x70000C) s
      = .next (((s.wakeFor none 0x70000C).captureWords false none 0x70000C 2 s.spire.now.toNat).emit
          (.readData 0 (leBytes 4 (bits s.spire.now.toNat 31 0)))) := by
  have hread := regRead_word h (regTarget_block (o := 0x70000C) (by decide)) rfl rfl rfl
  rw [wordAt_spireTimeLow, readDone_spireTimeLow, wakeFor_spire] at hread
  refine plain hg hread ?_ (wakeFor_stores ..) (wakeFor_img ..) (wakeFor_pending ..)
  rw [emit_core, captureWords_core, wakeFor_core]

theorem captureWords_spireTime_find (s : State) (v : Nat) :
    ((s.captureWords false none 0x70000C 2 v).caps.find? fun c => c.1 == 64 && c.2.1 == 0x700010)
      = some (64, 0x700010, w32 (bits v 63 32)) := by
  simp [State.captureWords, capKey]

theorem exec_readClear_spireTimeHigh {s : State} (hg : s.Good) (h : s.HostTo 0) {w : Word}
    (hw : (s.caps.find? fun c => c.1 == 64 && c.2.1 == 0x700010) = some (64, 0x700010, w)) :
    exec (.readClear .host 0 0x700010 4) s = .next ((s.wakeFor none 0x700010).emit (.readData 0 (leBytes 4 w.toNat))) := by
  have hwoken : ((s.wakeFor none 0x700010).caps.find? fun c => c.1 == 64 && c.2.1 == 0x700010) = some (64, 0x700010, w) := by
    rw [wakeFor_caps, hw]
  have hread := regRead_word h (regTarget_block (o := 0x700010) (by decide)) rfl rfl rfl
  rw [wordAt_spireTimeHigh hwoken, readDone_spireTimeHigh] at hread
  refine plain hg hread ?_ (wakeFor_stores ..) (wakeFor_img ..) (wakeFor_pending ..)
  rw [emit_core, wakeFor_core]

/-- Settles O13: each clause is one access, a write (R15, R17), a wake (R27), an Unsupported Request (R45, R88) or a read (R14, R17, R18). -/
theorem registerWordsAndReads : Obligations.RegisterWordsAndReads := by
  unfold Obligations.RegisterWordsAndReads
  refine ⟨fun s p hg h => ⟨fun off size v hbad => exec_registerWrite_discards hg h hbad v, exec_registerWrite_errVector hg h⟩,
    fun s p c v hg hreach hpres hready hmse hd3 hrun => exec_fenceHiWrite_gated hg hreach hpres hready hmse hd3 hrun c v,
    fun s p off size hg hreach hno => exec_readClear_unsupported hg hreach hno off size,
    fun s p hg h hp => ⟨exec_readClear_bar2Miss hg h hp, exec_readClear_bar2Miss_byte hg h hp⟩,
    fun s hg h => ⟨?_, fun w hw => ?_⟩⟩
  · exact ⟨_, exec_multiwordLowRead_spireTime hg h, congrArg _ (wakeFor_tx ..), captureWords_spireTime_find _ _, wakeFor_spire ..⟩
  · exact ⟨_, exec_readClear_spireTimeHigh hg h hw, congrArg _ (wakeFor_tx ..)⟩

end Sys2Proof.Machine
end

section
/-!
SUPPORT. An AON cycle in which an export sends. A transfer waits for the tokens of port 80 with every flit it has queued already sent, so its
link is UP and its `waiting` is empty; the cycle refills the bucket (R364) and the transfer goes on (R338) before the link's IDLE flit (R301,
R309). O60 counts one flit on such a link; four leave. O60 is refuted from this.
-/
namespace Sys2Proof.Machine
open Sys2Proof

/-- One AON cycle passes on an empty queue. -/
theorem step_of_noCommand {s : State} (h : s.pending = []) : step s = .next (s.run fun u => u.tick.after) := by
  rw [step, h]
  rfl

/-- Device 7 of a wall: its way to the devices from 8 on is link 2. -/
def exporterImage : Image :=
  { wallId := 5, gen := 1, myId := 7, masterId := 9, backupId := 7, devices := [(7, 1), (9, 2)], propNs := 1000, safeNs := 5000, marginNs := 1000
    maxHops := 4, groups := Vector.replicate 4 {}, parents := #v[2, 15, 15, 15]
    pairings := [{ link := 2, serial := 2, id := 9, nbLink := 2, maxDelay := 100 }], runs := [(7, 12, 12), (8, 2, 15)] }

/-- An export to device 9 of a buffer of one pixel in DRAM: XFER_BEGIN is sent, none of its four bytes is. -/
def startedExport : Export :=
  { pav := 1, sq := 0, seq := 3, deferred := false, handle := 3, dest := 9, expId := 4, xferSeq := 1
    cur := some ({ id := 1, addr := 0x1000000000, off := 0, pitch := 4, width := 1, height := 1, time := 0 }, 4, 0, crcStart {}) }

/-- A device that runs with link 2 UP, whose export waits for tokens: the bucket of port 80 is empty. -/
def exportHeld : State :=
  { State.reset with
    dmcs := Vector.replicate 8 { trained := true }
    clk := { xinOk := true, monTrack := 32768 * 256 }
    pwr := { booted := true, stage := 11 }
    dome := { State.reset.dome with st := .run, watermark := Vector.replicate 3 0 }
    bports := upd State.reset.bports 80 fun b => { b with bucket := 0 }
    spire := { image := some exporterImage, exports := [startedExport]
               links := upd (Vector.replicate 12 {}) 2 fun k => { k with st := .up, seqTx := 1, ackRx := 0, credCtrl := 64, credPix := 512, tx := 1 } } }

theorem exportHeld_good : exportHeld.Good := by
  rw [State.Good, State.Inv, State.Steady]
  decide +kernel

/-- DATA_HEAD, DATA, XFER_END and an IDLE flit leave on link 2. -/
theorem exportHeld_sends_four : ((exportHeld.run fun u => u.tick.after).spire.links[2]).tx = (exportHeld.spire.links[2]).tx + 4 := by
  decide +kernel

/-- Refutes O60: a link without a waiting flit still has something to send where an export's transfer goes on in the cycle (R338, R364). In
`exportHeld` four flits leave on link 2, where the last clause counts the IDLE flit alone. -/
theorem not_idleCycle : ¬ Obligations.IdleCycle := by
  unfold Obligations.IdleCycle
  intro h
  obtain ⟨t, hstep, -, -, -, -, -, hidle⟩ := h exportHeld exportHeld_good rfl (by decide) (by decide) (by decide) (by decide)
  obtain ⟨g, -, -, -, htx⟩ := hidle 2 rfl rfl
  rw [step_of_noCommand rfl, Host.Outcome.next.injEq] at hstep
  subst hstep
  have hsame : (exportHeld.spire.links[2]).tx + 4 = (exportHeld.spire.links[2]).tx + 1 := exportHeld_sends_four.symm.trans htx
  exact absurd hsame (by decide)

end Sys2Proof.Machine
end

section
/-!
SUPPORT. Descriptors that complete as they begin (03, R93, R99 to R101, R111): what a begin's charge leaves unchanged, the first check of
R99 that a descriptor fails, and NOP, TIMESTAMP and VIEWPORT_QUERY. O17 is settled from these.
-/
namespace Sys2Proof.Machine
open Sys2Proof

/-! ### What the charge of an execution leaves unchanged (R346, R351) -/

/-- A Pavilion without what counts, charges and interrupts change: its rings' counters, its quotas' use, its pending MSI-X messages. -/
def Pav.uncharged (v : Pav) : Pav :=
  { v with sqs := Vector.replicate 8 {}, eq := {}, msix := Vector.replicate 32 {}, used := Vector.replicate 4 0
           overrun := Vector.replicate 4 0, deferRaised := Vector.replicate 4 false }

/-- A port without whose turn it is to begin. -/
def Port.uncharged (t : Port) : Port := { t with beginTurn := 0 }

/-- A state without what the count and the charge of a descriptor change: those fields of the Pavilions, the ports' turns, the ALARMs that
the Dome's policy makes of an event, and what was sent. -/
def State.uncharged (s : State) : State :=
  { s with pavs := s.pavs.map Pav.uncharged, ports := s.ports.map Port.uncharged
           dome := { s.dome with alarms := [], safeOutDone := [] }, tx := [] }

theorem modPav_uncharged {s : State} {p : Fin 64} {f : Pav → Pav} (h : ∀ v, (f v).uncharged = v.uncharged) :
    (s.modPav p f).uncharged = s.uncharged := by
  rw [State.uncharged, State.modPav, map_upd Pav.uncharged _ _ _ h]
  rfl

theorem modPort_uncharged {s : State} {n : Fin 4} {f : Port → Port} (h : ∀ t, (f t).uncharged = t.uncharged) :
    (s.modPort n f).uncharged = s.uncharged := by
  rw [State.uncharged, State.modPort, map_upd Port.uncharged _ _ _ h]
  rfl

@[simp] theorem modSq_uncharged (s : State) (p : Fin 64) (q : Fin 8) (f : Sq → Sq) : (s.modSq p q f).uncharged = s.uncharged :=
  modPav_uncharged fun _ => rfl

@[simp] theorem modEq_uncharged (s : State) (p : Fin 64) (f : Evq → Evq) : (s.modEq p f).uncharged = s.uncharged :=
  modPav_uncharged fun _ => rfl

@[simp] theorem emit_uncharged (s : State) (x : Tx) : (s.emit x).uncharged = s.uncharged := rfl

theorem foldl_uncharged {α : Type} {f : State → α → State} (h : ∀ s a, (f s a).uncharged = s.uncharged) (l : List α) (s : State) :
    (l.foldl f s).uncharged = s.uncharged := by
  induction l generalizing s with
  | nil => rfl
  | cons a l ih => rw [List.foldl_cons, ih, h]

@[simp] theorem msi_uncharged (s : State) (p : Fin 64) (vec : Nat) : (s.msi p vec).uncharged = s.uncharged := by
  unfold State.msi
  dsimp only
  split
  · exact modPav_uncharged fun _ => rfl
  · rfl

@[simp] theorem eqInt_uncharged (s : State) (p : Fin 64) : (s.eqInt p).uncharged = s.uncharged := by
  rw [State.eqInt, modEq_uncharged, foldl_uncharged fun _ _ => msi_uncharged ..]

@[simp] theorem eqWrite_uncharged (s : State) (p : Fin 64) (ev : Ev) : (s.eqWrite p ev).uncharged = s.uncharged := by
  have hused (t : State) : (t.modPav p fun v => { v with used := upd v.used 3 (· + 1) }).uncharged = t.uncharged :=
    modPav_uncharged fun _ => rfl
  unfold State.eqWrite
  simp [apply_ite State.uncharged, hused]

@[simp] theorem safeOut_uncharged (s : State) (ev : Ev) : (s.safeOut ev).uncharged = s.uncharged := by
  unfold State.safeOut
  split
  · rfl
  · refine foldl_uncharged (fun t q => ?_) _ _
    dsimp only
    split <;> rfl

@[simp] theorem eqOwed_uncharged (s : State) (p : Fin 64) : (s.eqOwed p).uncharged = s.uncharged := by
  unfold State.eqOwed
  simp [apply_ite State.uncharged]

@[simp] theorem eqPost_uncharged (s : State) (p : Fin 64) (ev : Ev) : (s.eqPost p ev).uncharged = s.uncharged := by
  unfold State.eqPost
  simp [apply_ite State.uncharged, State.eqLose]

@[simp] theorem noteOne_uncharged (s : State) (p : Fin 64) (k : Fin 4) : (s.noteOne p k).uncharged = s.uncharged := by
  have hraised (t : State) :
      (t.modPav p fun v => { v with overrun := upd v.overrun k satInc, deferRaised := upd v.deferRaised k fun _ => true }).uncharged = t.uncharged :=
    modPav_uncharged fun _ => rfl
  unfold State.noteOne
  simp [apply_ite State.uncharged, hraised]

@[simp] theorem charge_uncharged (s : State) (p : Fin 64) (k : Fin 4) (n : Nat) : (s.charge p k n).uncharged = s.uncharged := by
  have hused : (s.modPav p fun v => { v with used := upd v.used k (· + n) }).uncharged = s.uncharged := modPav_uncharged fun _ => rfl
  unfold State.charge State.noteQuota
  simp [apply_ite State.uncharged, hused]

@[simp] theorem takeTurn_uncharged (s : State) (p : Fin 64) : (s.takeTurn p).uncharged = s.uncharged := by
  rw [State.takeTurn, modPort_uncharged, charge_uncharged]
  exact fun _ => rfl

/-- A begin changes nothing but counts, charges, turns and what an event of the charge raises. -/
@[simp] theorem started_uncharged (s : State) (d : Desc) : (s.started d).uncharged = s.uncharged := by
  rw [State.started, takeTurn_uncharged, modSq_uncharged]

theorem spire_of_uncharged {s t : State} (h : t.uncharged = s.uncharged) : t.spire = s.spire := (congrArg State.spire h :)

theorem outs_of_uncharged {s t : State} (h : t.uncharged = s.uncharged) : t.outs = s.outs := (congrArg State.outs h :)

theorem views_of_uncharged {s t : State} (h : t.uncharged = s.uncharged) (p : Fin 64) : (t.pavs[p.val]).views = (s.pavs[p.val]).views := by
  have hpavs : t.pavs.map Pav.uncharged = s.pavs.map Pav.uncharged := congrArg State.pavs h
  have hpav : (t.pavs[p.val]).uncharged = (s.pavs[p.val]).uncharged := by
    simpa using congrArg (fun v : Vector Pav 64 => v[p.val]) hpavs
  exact (congrArg Pav.views hpav :)

@[simp] theorem started_spire (s : State) (d : Desc) : (s.started d).spire = s.spire := spire_of_uncharged (started_uncharged s d)

@[simp] theorem started_outs (s : State) (d : Desc) : (s.started d).outs = s.outs := outs_of_uncharged (started_uncharged s d)

@[simp] theorem started_views (s : State) (d : Desc) (p : Fin 64) : ((s.started d).pavs[p.val]).views = (s.pavs[p.val]).views :=
  views_of_uncharged (started_uncharged s d) p

@[simp] theorem started_core (s : State) (d : Desc) : (s.started d).core = s.core := by
  rw [State.started, takeTurn_core, modSq_core]

/-! ### Descriptors that complete at once with a RESULT (R111) -/

/-- An accepted descriptor whose opcode only gives a RESULT completes with it. -/
theorem act_finishes {s : State} {op : BitVec 8} {d : Desc} {result : Nat} (h : s.Accepts op d)
    (hb : (s.started d).beginOp { op, d } = (s.started d).finish { op, d } result) :
    act (fun s => s.join op d) s = .next (s.doing d fun t => t.ok op d result) :=
  act_accepts h hb (by rw [State.ok, completeOk_core, started_core])

theorem exec_nop_completes {s : State} {d : Desc} (h : s.Accepts 0x01 d) :
    exec (.nop d) s = .next (s.doing d fun t => t.ok 0x01 d (dU d 8 8)) :=
  act_finishes h rfl

theorem exec_timestamp_completes {s : State} {d : Desc} (h : s.Accepts 0x0C d) :
    exec (.timestamp d) s = .next (s.doing d fun t => t.ok 0x0C d s.spire.now.toNat) := by
  have hnow : (s.started d).now = s.spire.now := congrArg Spire.now (started_spire s d)
  exact act_finishes h (hnow ▸ rfl)

theorem viewResult_of_unmapped {s : State} {p : Fin 64} {v : Fin 8} (h : ((s.pavs[p.val]).views[v.val]).cur = none) :
    s.viewResult p v = 0 := by
  rw [State.viewResult, h]

theorem viewResult_of_mapped {s : State} {p : Fin 64} {v : Fin 8} {m : VMap} (h : ((s.pavs[p.val]).views[v.val]).cur = some m) :
    s.viewResult p v
      = m.rect.w + m.rect.h * 2 ^ 16 + 2 ^ 32 + b2n (s.viewLive m) * 2 ^ 33 + ((s.outs[m.out.val]).set.rg).val * 2 ^ 34 := by
  rw [State.viewResult, h]

/-- A begin leaves the mapping of every viewport as it is. -/
@[simp] theorem started_viewResult (s : State) (d : Desc) (p : Fin 64) (v : Fin 8) : (s.started d).viewResult p v = s.viewResult p v := by
  simp only [State.viewResult, State.viewLive, started_views, started_outs]

theorem exec_viewportQuery_completes {s : State} {d : Desc} (h : s.Accepts 0x0E d) :
    exec (.viewportQuery d) s = .next (s.doing d fun t => t.ok 0x0E d (s.viewResult d.pav (dView d))) :=
  act_finishes h (started_viewResult s d d.pav (dView d) ▸ rfl)

/-! ### The first failed check of R99 -/

/-- Step 1 of R99 passes: the opcode is one of the table, and only the manager gives those from 0x20 on. -/
def opcodeAllowed (op : Nat) (d : Desc) : Prop := opcodes.contains op = true ∧ (op < 0x20 ∨ d.pav = 0)

theorem opcodeAllowed.listed {op : Nat} {d : Desc} (h : opcodeAllowed op d) : opcodes.contains op = true := h.1

theorem opcodeAllowed.notForeign {op : Nat} {d : Desc} (h : opcodeAllowed op d) : (decide (0x20 ≤ op) && d.pav != 0) = false := by
  obtain ⟨-, hlow | hmanager⟩ := h
  · rw [decide_eq_false (Nat.not_le.2 hlow), Bool.false_and]
  · rw [hmanager, bne_self_eq_false, Bool.and_false]

theorem commonChecks_unlistedOpcode (s : State) {op : Nat} (d : Desc) (h : opcodes.contains op = false) :
    s.commonChecks op d = some (stBadOpcode, 0xFF, 0) := by
  simp only [State.commonChecks, badSt, firstBad, h, Bool.not_false, List.cons_append]

theorem commonChecks_managerOpcode (s : State) {op : Nat} {d : Desc} (hop : 0x20 ≤ op) (hpav : d.pav ≠ 0) :
    s.commonChecks op d = some (stBadOpcode, 0xFF, 0) := by
  cases hlisted : opcodes.contains op with
  | false => exact commonChecks_unlistedOpcode s d hlisted
  | true =>
    have hforeign : (decide (0x20 ≤ op) && d.pav != 0) = true := by
      rw [decide_eq_true hop, bne_iff_ne.2 hpav, Bool.and_self]
    simp only [State.commonChecks, badSt, firstBad, hlisted, hforeign, Bool.not_true, List.cons_append]

theorem commonChecks_reservedBit (s : State) {op : Nat} {d : Desc} (hop : opcodeAllowed op d) {k : Nat} (hk : reservedByte op d = some k) :
    s.commonChecks op d = some (stBadField, k, 0) := by
  simp only [State.commonChecks, badSt, badF, firstBad, hop.listed, hop.notForeign, hk, Bool.not_true, List.cons_append, List.nil_append]

theorem commonChecks_unlistedSubop (s : State) {op : Nat} {d : Desc} (hop : opcodeAllowed op d) (hbits : reservedByte op d = none)
    (hsub : subopListed op (dU d 8 1) = false) : s.commonChecks op d = some (stBadField, 8, 0) := by
  simp only [State.commonChecks, badSt, badF, firstBad, hop.listed, hop.notForeign, hbits, hsub, Bool.not_true, Bool.not_false, List.cons_append,
    List.nil_append]

/-- A layer descriptor whose handle is not leased to its Pavilion fails step 4, where it passes the steps before. -/
theorem commonChecks_unleased (s : State) {d : Desc} (hbits : reservedByte 0x02 d = none) (hh : dHandle d ≤ 247)
    (hslot : s.slotOf d.pav (dHandle d) = none) : s.commonChecks 0x02 d = some (stNoLease, 0xFF, 0) := by
  have hhandle : decide (247 < dHandle d) = false := decide_eq_false (Nat.not_lt.2 hh)
  simp [State.commonChecks, badSt, badF, firstBad, hbits, hhandle, hslot, opcodes, subopListed, namesLayer, targets]

/-! ### Refusals (R100, R101) -/

theorem exec_reservedOpcode_refuses {s : State} {op : BitVec 8} {d : Desc} (h : s.BeginsAtOnce op d)
    (hop : opcodes.contains op.toNat = false) : exec (.reservedOpcode op d) s = .next (s.doing d fun t => t.bad op d 0x10 0xFF) :=
  act_refuses h (commonChecks_unlistedOpcode _ d hop)

theorem exec_budgetSet_refuses {s : State} {d : Desc} (h : s.BeginsAtOnce 0x22 d) (hpav : d.pav ≠ 0) :
    exec (.budgetSet d) s = .next (s.doing d fun t => t.bad 0x22 d 0x10 0xFF) :=
  act_refuses h (commonChecks_managerOpcode _ (by decide) hpav)

theorem exec_nop_refuses {s : State} {d : Desc} (h : s.BeginsAtOnce 0x01 d) {k : Nat} (hk : reservedByte 0x01 d = some k) :
    exec (.nop d) s = .next (s.doing d fun t => t.bad 0x01 d 0x11 k) :=
  act_refuses h (commonChecks_reservedBit _ ⟨by decide, .inl (by decide)⟩ hk)

/-- The opcodes with a SUBOP are 0x0B and the manager's 0x21 and 0x24. -/
theorem opcodeAllowed_of_subop {op : BitVec 8} {d : Desc} (h : op = 0x0B ∨ (op = 0x21 ∨ op = 0x24) ∧ d.pav = 0) :
    opcodeAllowed op.toNat d := by
  rcases h with rfl | ⟨rfl | rfl, hpav⟩
  · exact ⟨by decide, .inl (by decide)⟩
  · exact ⟨by decide, .inr hpav⟩
  · exact ⟨by decide, .inr hpav⟩

theorem exec_unlistedSubop_refuses {s : State} {op : BitVec 8} {d : Desc} (h : s.BeginsAtOnce op d) (hop : opcodeAllowed op.toNat d)
    (hbits : reservedByte op.toNat d = none) (hsub : subopListed op.toNat (dU d 8 1) = false) :
    exec (.unlistedSubop op d) s = .next (s.doing d fun t => t.bad op d 0x11 8) :=
  act_refuses h (commonChecks_unlistedSubop _ hop hbits hsub)

theorem exec_layerSet_unleased {s : State} {d : Desc} (hbits : reservedByte 0x02 d = none) (hh : dHandle d ≤ 247)
    (hslot : (s.started d).slotOf d.pav (dHandle d) = none) (h : s.BeginsAtOnce 0x02 d) :
    exec (.layerSet d) s = .next (s.doing d fun t => t.bad 0x02 d 0x12 0xFF) :=
  act_refuses h (commonChecks_unleased _ hbits hh hslot)

/-- Settles O17: an accepted descriptor's RESULT does not depend on the charge of its begin, and each refused one fails the named check first
(R99). -/
theorem descriptorChecksAndResults : Obligations.DescriptorChecksAndResults := by
  unfold Obligations.DescriptorChecksAndResults
  refine ⟨fun s d => ⟨exec_nop_completes, exec_timestamp_completes, fun h hcur => ?_, fun m h hcur => ?_⟩,
    fun s d op h => ⟨exec_reservedOpcode_refuses h, ?_, ?_, fun hop hbits hsub => ?_⟩,
    fun s d hbits hh hslot h => exec_layerSet_unleased hbits hh hslot h⟩
  · rw [exec_viewportQuery_completes h, viewResult_of_unmapped hcur]
  · rw [exec_viewportQuery_completes h, viewResult_of_mapped hcur]
  · rintro rfl hpav
    exact exec_budgetSet_refuses h hpav
  · rintro rfl k hk
    exact exec_nop_refuses h hk
  · exact exec_unlistedSubop_refuses h (opcodeAllowed_of_subop hop) hbits hsub

end Sys2Proof.Machine
end

section
/-!
SUPPORT. BUF_ATTACH over an IMPORT (R94, R339, R340). The model forgets an import stream with the last buffer that refers to it, so a
BUF_ATTACH also ends the import whose buffer it replaces. O18 gives the staged buffer and nothing else; it is refuted from this.
-/
namespace Sys2Proof.Machine
open Sys2Proof

/-- An immediate descriptor whose checks pass has its effect and completes with RESULT 0 (R99, R111). -/
theorem judge_of_passed {s : State} {w : Waiting} {checks : List (Bool × Nat × Nat)} {eff : State → State} (h : firstBad checks = none) :
    s.judge w checks eff = (eff s).finish w 0 := by
  rw [State.judge, h]

/-- What a BUF_ATTACH without IMPORT does to the layers: the buffer is staged for the slot with the next number, and the import streams that
no buffer refers to then are forgotten. -/
def State.attachBuf (s : State) (i : Fin 256) (d : Desc) (addr : Nat) : State :=
  (({ s with nextId := s.nextId + 1 }).modSlot i fun q => { q with att := some (attachOf d s.nextId addr), attTaken := false }).purgeImports

@[simp] theorem attachBuf_core (s : State) (i : Fin 256) (d : Desc) (addr : Nat) : (s.attachBuf i d addr).core = s.core := by
  rw [State.attachBuf, purgeImports_core, modSlot_core]
  rfl

theorem beginBufAttach_of_passed {s : State} {w : Waiting} {i : Fin 256} {addr : Nat}
    (hchecks : firstBad (s.attachChecks w.d.pav w.d) = none) (himport : w.d.flags.getLsbD 1 = false)
    (hslot : s.slotOf w.d.pav (dHandle w.d) = some i) (haddr : s.xlate w.d.pav (dU w.d 8 8) (attachBytes w.d) = some addr) :
    s.beginBufAttach w = (s.attachBuf i w.d addr).finish w 0 := by
  have hattach : (attachOf w.d s.nextId addr).import_ = false := himport
  rw [State.beginBufAttach, judge_of_passed hchecks]
  simp only [hslot, haddr, hattach, Bool.false_eq_true, if_false, State.attachBuf]

theorem exec_bufAttach_attaches {s : State} {d : Desc} {i : Fin 256} {addr : Nat} (h : s.Accepts 0x03 d)
    (hchecks : firstBad ((s.started d).attachChecks d.pav d) = none) (himport : d.flags.getLsbD 1 = false)
    (hslot : (s.started d).slotOf d.pav (dHandle d) = some i) (haddr : (s.started d).xlate d.pav (dU d 8 8) (attachBytes d) = some addr) :
    exec (.bufAttach d) s = .next (s.doing d fun t => (t.attachBuf i d addr).ok 0x03 d 0) :=
  act_accepts h (f := fun t => (t.attachBuf i d addr).ok 0x03 d 0) (beginBufAttach_of_passed hchecks himport hslot haddr) (by
    rw [State.ok, completeOk_core, attachBuf_core, started_core])

/-! ### A buffer that replaces an import -/

/-- The IMPORT buffer of handle 3: two halves of 64 by 64 pixels in DRAM, from export 4 of device 9. -/
def importBuf : Attach :=
  { id := 1, import_ := true, addr := 0x1000000000, off := 0x10000, pitch := 256, width := 64, height := 64, time := 0, srcId := 9, expId := 4 }

/-- A function that answers and may send requests, with 64 KiB of the Orangery and 64 KiB of DRAM. -/
def importingPav : Pav := { present := true, ready := true, bme := true, mse := true, exts := [⟨0, 0x10000⟩, ⟨0x1000000000, 0x10000⟩] }

/-- A device of a wall that runs. Handle 3 of Pavilion 1 stands for slot 3, whose buffer is an IMPORT that no COMMIT has taken yet. -/
def importing : State :=
  { exportHeld with
    pavs := upd exportHeld.pavs 1 fun _ => importingPav
    slots := upd exportHeld.slots 3 fun q => { q with lease := .held 1 3, granules := 100, att := some importBuf }
    nextId := 2
    spire := { exportHeld.spire with exports := [], imports := [importOf 1 3 importBuf] } }

/-- A BUF_ATTACH without IMPORT for handle 3: PITCH 256, WIDTH 64 and HEIGHT 64 at the beginning of the Orangery extent. -/
def replacing : Desc :=
  { pav := 1, sq := 0, flags := 0, seq := 5, handle := 3, payload := 256 <<< 64 ||| 64 <<< 96 ||| 64 <<< 112 }

theorem importing_accepts : importing.Accepts 0x03 replacing := by
  rw [State.Accepts, State.BeginsAtOnce, State.Good, State.Inv, State.Steady]
  decide +kernel

theorem importing_slotOf : (importing.started replacing).slotOf replacing.pav (dHandle replacing) = some 3 := by decide +kernel

theorem importing_passes : firstBad ((importing.started replacing).attachChecks replacing.pav replacing) = none := by decide +kernel

theorem importing_xlate :
    (importing.started replacing).xlate replacing.pav (dU replacing 8 8) (attachBytes replacing) = some 0 := by decide +kernel

theorem importing_forgets :
    (importing.doing replacing fun t => (t.attachBuf 3 replacing 0).ok 0x03 replacing 0).spire.imports = [] := by
  decide +kernel

/-- Staging the buffer alone would leave the import stream. -/
theorem importing_keeps :
    (importing.doing replacing fun t => (({ t with nextId := t.nextId + 1 }).modSlot 3 fun q =>
      { q with att := some (attachOf replacing t.nextId 0), attTaken := false }).ok 0x03 replacing 0).spire.imports = [importOf 1 3 importBuf] := by
  decide +kernel

/-- Refutes O18: a BUF_ATTACH that replaces an IMPORT also ends that import (`State.beginBufAttach`, which cites R339). In `importing` the stream of the replaced buffer is
forgotten, where the clause of BUF_ATTACH stages the new buffer and leaves the stream. -/
theorem not_layerDescriptors : ¬ Obligations.LayerDescriptors := by
  unfold Obligations.LayerDescriptors
  intro h
  obtain ⟨-, hattach, -, -⟩ := h importing replacing 3 importing_slotOf
  have hstated := hattach 0 importing_accepts importing_passes rfl importing_xlate
  rw [exec_bufAttach_attaches importing_accepts importing_passes rfl importing_slotOf importing_xlate, Host.Outcome.next.injEq] at hstated
  have himports := congrArg (fun t : State => t.spire.imports) hstated
  exact absurd (importing_forgets.symm.trans (himports.trans importing_keeps)) (List.cons_ne_nil _ _).symm

end Sys2Proof.Machine
end

section
/-!
SUPPORT. A NOT_READY report with a reserved bit set beside FIRST_NR (R300, R332). The model reads the 14 bits of FIRST_NR, O47 its two bytes
whole; it is refuted from this.
-/
namespace Sys2Proof.Machine
open Sys2Proof

/-- Device 3 is the master of a wall of three; link 1 leads to its child, device 7. -/
def votingImage : Image :=
  { wallId := 5, gen := 1, myId := 3, masterId := 3, backupId := 7, devices := [(3, 0), (7, 0)], propNs := 1000, safeNs := 5000, marginNs := 1000
    maxHops := 4, groups := Vector.replicate 4 {}, parents := #v[15, 15, 1, 15]
    pairings := [{ link := 1, serial := 2, id := 7, nbLink := 2, maxDelay := 100, nbParent := true }], runs := [(0, 12, 12), (4, 1, 15)] }

/-- The master runs, its link 1 is UP and carries its one child; nothing is known yet of any frame. -/
def votingMaster : State :=
  { State.reset with
    clk := { xinOk := true, monTrack := 32768 * 256 }
    pwr := { booted := true, stage := 11 }
    dome := { State.reset.dome with st := .run, watermark := Vector.replicate 3 0 }
    spire := { image := some votingImage, master := true, masterId := 3, inWall := true, children := [1]
               links := upd (Vector.replicate 12 {}) 1 fun k => { k with st := .up, nbId := 7, credCtrl := 64, credPix := 512 } } }

/-- A NOT_READY report for frame 5 of rate group 0 that names device 9, with reserved bit 14 of FIRST_NR's word set. -/
def reservedReport : BitVec 256 := mkFlit 0 4 [(5, 8, 5), (13, 2, 0x4000 + 9)]

theorem votingMaster_good : votingMaster.Good := by
  rw [State.Good, State.Inv, State.Steady]
  decide +kernel

/-- A command of a device that runs: its effect, then what follows. -/
theorem act_of_running {s : State} (h : s.pwr.reset = .running) (f : State → State) : act f s = .next (s.run fun u => (f u).after) := by
  simp only [act, runOk, State.run, h, beq_self_eq_true, if_true]

theorem exec_report_of_running {s : State} (h : s.pwr.reset = .running) (l : Fin 12) (f : BitVec 256) :
    exec (.report l f) s = .next (s.run fun u => (u.rx l 0 4 f fun f v => v.reportIn l f).after) :=
  act_of_running h _

/-- The master decides HOLD with the Spire ID of FIRST_NR, its 14 bits. -/
theorem votingMaster_decides :
    (votingMaster.run fun u => (u.rx 1 0 4 reservedReport fun f v => v.reportIn 1 f).after).decision 0 5 = some (false, 9) := by
  decide +kernel

/-- Refutes O47: the first NOT_READY report decides HOLD with FIRST_NR, which is 14 bits (R300, R332). `reservedReport` names device 9 and has a
reserved bit of the same two bytes set: `votingMaster` decides with DETAIL 9, where the clause gives both bytes whole, 0x4009. -/
theorem not_wallVotes : ¬ Obligations.WallVotes := by
  unfold Obligations.WallVotes
  intro h
  obtain ⟨hvotes, -⟩ := h
  obtain ⟨hreport, -, -⟩ := hvotes votingMaster 1 reservedReport votingMaster_good
  obtain ⟨-, hfirst⟩ := hreport rfl (by decide +kernel) (by decide +kernel) (by decide +kernel) (by decide +kernel) (by decide +kernel)
  obtain ⟨t, hexec, hstated⟩ := hfirst (by decide +kernel) (by decide +kernel)
  rw [exec_report_of_running rfl, Host.Outcome.next.injEq] at hexec
  rw [← hexec] at hstated
  exact absurd (votingMaster_decides.symm.trans hstated) (by decide +kernel)

end Sys2Proof.Machine
end

section
/-!
SUPPORT. A COMMIT that is not admitted and whose palette stands in DRAM (R128, R156). Its read has a channel serve a composer's read that meets an
error. O20 gives the refusal and nothing else; it is refuted from this.
-/
namespace Sys2Proof.Machine
open Sys2Proof

/-- A viewport of 64 by 64 pixels at the corner of output 1. -/
def paletteView : VMap := { out := 1, zBase := 0, zDepth := 8, rect := { x0 := 0, y0 := 0, x1 := 64, y1 := 64 } }

/-- A function that answers and may send requests, with 64 KiB of the Orangery and, from BAR2 offset 0x10000 on, 64 KiB of DRAM. The share of
its viewport 0 admits no layer. -/
def palettePav : Pav :=
  { present := true, ready := true, bme := true, mse := true, exts := [⟨0, 0x10000⟩, ⟨0x1000000000, 0x10000⟩]
    views := upd (Vector.replicate 8 {}) 0 fun _ => { cur := some paletteView, share := 1 } }

/-- A layer of 64 by 64 pixels in the format with a palette, whose palette stands at the start of the DRAM extent. -/
def paletteLayer : Layer :=
  { fmt := 0x07, enable := true, palette := true, alpha := 4095, src := { x0 := 0, y0 := 0, x1 := 64, y1 := 64 }
    dst := { x0 := 0, y0 := 0, x1 := 64, y1 := 64 }, lim1 := 1000, palOff := 0x10000 }

/-- A read of composer 0 that waits in channel 0, of an atom with an uncorrectable error. -/
def faultyRead : RAtom := { req := { port := 0, addr := 0x800000, len := 64 }, since := 0, no := 0 }

/-- Output 0 scans a frame, output 1 is enabled. -/
def faulty : State :=
  { State.reset with
    pavs := upd State.reset.pavs 1 fun _ => palettePav
    slots := upd State.reset.slots 3 fun q => { q with
      lease := .held 1 3, granules := 100, staged := some paletteLayer
      att := some { id := 1, addr := 0, off := 0, pitch := 64, width := 64, height := 64, time := 0 } }
    outs := upd (upd State.reset.outs 0 fun u => { u with enabled := true, scanning := true }) 1 fun u => { u with enabled := true }
    comps := upd State.reset.comps 1 fun c => { c with winOpen := true, winFrame := 7 }
    dmcs := upd (Vector.replicate 8 { trained := true }) 0 fun d => { d with rq := [faultyRead], nextNo := 1 }
    dmcg := { valid := true, clearDone := true, eccRegion := upd (Vector.replicate 8 0) 0 fun _ => 0x80010000 }
    poison := [(.dram, 0x800000)]
    clk := { xinOk := true, monTrack := 32768 * 256 }
    pwr := { booted := true, stage := 11 }
    dome := { State.reset.dome with st := .run, watermark := Vector.replicate 3 0 } }

/-- A COMMIT of handle 3 for viewport 0, with EXPIRY 2. -/
def faultyCommit : Desc :=
  { pav := 1, sq := 0, flags := 0, seq := 5, handle := 0, payload := 2 <<< 80 ||| 8 <<< 128 }

/-- What the COMMIT reads as it begins: the palette, through channels 0 to 3. -/
def paletteReads : State × Option (List (Fin 256 × Latched)) :=
  (faulty.started faultyCommit).readAll 1 ((commitHandles faultyCommit).filterMap ((faulty.started faultyCommit).capture 1))

/-- What the COMMIT captures. -/
def paletteCaps : List (Fin 256 × Latched) := paletteReads.2.getD []

theorem faulty_accepts : faulty.Accepts 0x05 faultyCommit := by
  rw [State.Accepts, State.BeginsAtOnce, State.Good, State.Inv, State.Steady]
  decide +kernel

theorem pair_of_isSome {α β : Type} {x : α × Option β} (h : x.2.isSome = true) (b : β) : x = (x.1, some (x.2.getD b)) := by
  obtain ⟨a, _ | c⟩ := x
  · cases h
  · rfl

theorem paletteReads_succeed : paletteReads = (paletteReads.1, some paletteCaps) :=
  pair_of_isSome (by decide +kernel) []

theorem paletteReads_refused :
    paletteReads.1.admission 1 0 (paletteReads.1.commitOuts 1 1 paletteCaps) paletteCaps = some (1, stLbufShort) := by
  decide +kernel

/-- The error that the queued read meets makes the frame of output 0 underrun in the same step (R234), so that none is left to come. -/
theorem faulty_leaves_no_fault : ((faulty.run fun u => (u.join 0x05 faultyCommit).after).comps[0]).faults = [] := by
  decide +kernel

theorem refused_leaves_fault :
    ((faulty.doing faultyCommit fun _ => (paletteReads.1.noteReject 1 stLbufShort).bad 0x05 faultyCommit stLbufShort 0xFF).comps[0]).faults
      = [some 0x1000800000] := by
  decide +kernel

theorem exec_commit_of_running {s : State} (h : s.pwr.reset = .running) (d : Desc) :
    exec (.commit d) s = .next (s.run fun u => (u.join 0x05 d).after) :=
  act_of_running h _

/-- Refutes O20: a COMMIT reads its palettes as it begins (R128), and a read of DRAM has channel 0 serve what waits there first. In `faulty` that is a
read of composer 0 that meets an uncorrectable error, so that the frame output 0 scans underruns in the same step (R234), where the clause of a
COMMIT that is not admitted gives the refusal alone. -/
theorem not_commit : ¬ Obligations.Commit := by
  unfold Obligations.Commit
  intro h
  obtain ⟨hcommit, -⟩ := h faulty faultyCommit paletteView faulty_accepts (by decide +kernel)
  obtain ⟨-, hrefused⟩ := hcommit _ _ paletteReads_succeed (by decide +kernel) (by decide +kernel) (by decide +kernel)
  have hstated := hrefused _ _ paletteReads_refused
  rw [exec_commit_of_running rfl, Host.Outcome.next.injEq] at hstated
  have hfaults := congrArg (fun t : State => (t.comps[0]).faults) hstated
  exact absurd (faulty_leaves_no_fault.symm.trans (hfaults.trans refused_leaves_fault)) (List.cons_ne_nil _ _).symm

end Sys2Proof.Machine
end

section
/-!
SUPPORT. Fence cells and the event mask (R78, R167 to R170, R246): the value that a register write gives a cell, the host port that holds nothing
back, and the descriptors that are judged, act and complete at once. From these O10 and O19 are settled.
-/
namespace Sys2Proof.Machine
open Sys2Proof

/-! ### The value a register write gives a cell (R168) -/

theorem toNat_fenceValue (hi v : Word) : (w64 (hi.toNat * 2 ^ 32 + v.toNat)).toNat = hi.toNat * 2 ^ 32 + v.toNat := by
  have hhi := hi.isLt
  have hv := v.isLt
  rw [w64, BitVec.toNat_ofNat, Nat.mod_eq_of_lt (by omega)]

theorem fenceValue_eq_append (hi v : Word) : w64 (hi.toNat * 2 ^ 32 + v.toNat) = hi ++ v := by
  apply BitVec.eq_of_toNat_eq
  rw [toNat_fenceValue, BitVec.toNat_append, Nat.shiftLeft_eq, Nat.mul_comm, Nat.two_pow_add_eq_or_of_lt v.isLt]

/-- The high word of a cell. -/
theorem w32_bits_high (x : DWord) : w32 (bits x.toNat 63 32) = x.extractLsb' 32 32 := by
  apply BitVec.eq_of_toNat_eq
  rw [w32, BitVec.toNat_ofNat, BitVec.extractLsb'_toNat, bits, Nat.mod_mod]

theorem extract_high_append (hi v : Word) : (hi ++ v : DWord).extractLsb' 32 32 = hi := by
  rw [BitVec.extractLsb'_append_eq_of_le (by decide)]
  exact BitVec.extractLsb'_eq_self ..

/-! ### A write of PAV_FENCE_LO_c as it acts (R168, R169) -/

theorem fenceLand_applies {s : State} {p : Fin 64} {c : Fin 256} {hi v : Word}
    (h : ((s.pavs[p.val]).fences[c.val]).toNat ≤ hi.toNat * 2 ^ 32 + v.toNat) :
    s.fenceLand p c (w64 (hi.toNat * 2 ^ 32 + v.toNat))
      = s.modPav p fun q => { q with fences := upd q.fences c fun _ => hi ++ v, fenceHi := upd q.fenceHi c fun _ => hi } := by
  rw [State.fenceLand, State.fenceRegister, if_neg (by rw [toNat_fenceValue]; omega), State.setFence, modPav_modPav]
  simp only [upd_same, w32_bits_high, fenceValue_eq_append, extract_high_append]

theorem fenceLand_discards {s : State} {p : Fin 64} {c : Fin 256} {hi v : Word}
    (h : hi.toNat * 2 ^ 32 + v.toNat < ((s.pavs[p.val]).fences[c.val]).toNat) :
    s.fenceLand p c (w64 (hi.toNat * 2 ^ 32 + v.toNat))
      = s.modPav p fun q => { q with fenceDiscard := satInc q.fenceDiscard
                                     fenceHi := upd q.fenceHi c fun _ => (q.fences[c.val]).extractLsb' 32 32 } := by
  rw [State.fenceLand, State.fenceRegister, if_pos (by rw [toNat_fenceValue]; exact h), modPav_modPav]
  simp only [w32_bits_high]

/-! ### The host port's order (R57, R170) -/

/-- A port that has given its next number to a posted operation. -/
def Port.counted (t : Port) : Port := { t with opNo := t.opNo + 1 }

/-- Nothing that its host port received before holds a write of a fence cell where the port holds nothing, and it takes no tokens. -/
theorem wantPass_fence {s : State} {p : Fin 64} (hposted : (s.ports[(portOf p).val]).posted = []) (k : Nat) (c : Fin 256) (v : DWord) :
    s.wantPass (.op k (.fence p c v)) = true := by
  have hfree : s.wantFree (.op k (.fence p c v)) = true := by simp only [State.wantFree, hposted, List.any_nil, Bool.not_false]
  have hsize : s.wantSize (.op k (.fence p c v)) = 0 := rfl
  rw [State.wantPass, hfree, hsize, beq_self_eq_true, Bool.or_true, Bool.true_or, Bool.and_self]

/-- Where no BAR2 access and no request waits, a write of a fence cell acts at once; it has taken a number of its port's order. -/
theorem postOp_fence_of_idle {s : State} {p : Fin 64} (hposted : (s.ports[(portOf p).val]).posted = []) (hentry : s.entry = []) (c : Fin 256)
    (v : DWord) : s.postOp (.fence p c v) = (s.modPort (portOf p) Port.counted).fenceLand p c v := by
  have hcounted : (s.modPort (portOf p) fun t => { t with opNo := (s.ports[(portOf p).val]).opNo + 1 }) = s.modPort (portOf p) Port.counted :=
    modPort_congr rfl
  have hnone : ((s.modPort (portOf p) Port.counted).ports[(portOf p).val]).posted = [] := by
    rw [modPort_ports, upd_same]
    exact hposted
  have hcharge : ¬ 0 < (s.hostDram (.fence p c v)).2 := Nat.lt_irrefl 0
  rw [State.postOp]
  simp only [HostOp.pav, if_neg hcharge, hcounted, wantPass_fence hnone]
  simp only [hnone, modPort_entry, hentry, List.any_nil, Bool.not_false, Bool.and_self, Bool.true_or, if_true]
  rfl

theorem exec_fenceHiWrite_stages {s : State} {p : Fin 64} (hg : s.Good) (h : s.HostTo p) (c : Fin 256) (v : Word) :
    exec (.fenceHiWrite p c v) s = .next (s.modPav p fun q => { q with fenceHi := upd q.fenceHi c fun _ => v }) :=
  plain hg (hostAcc_on h _) (fenceHi_core s p c v) rfl rfl rfl

theorem exec_fenceLoWrite_lands {s : State} {p : Fin 64} (hg : s.Good) (h : s.HostTo p) {c : Fin 256} {v : Word} {f : Pav → Pav}
    (hf : ∀ q, (f q).order = q.order)
    (hland : (s.modPort (portOf p) Port.counted).fenceLand p c (w64 (((s.pavs[p.val]).fenceHi[c.val]).toNat * 2 ^ 32 + v.toNat))
      = (s.modPort (portOf p) Port.counted).modPav p f) :
    exec (.fenceLoWrite p c v) s = .next ((s.modPort (portOf p) Port.counted).modPav p f) := by
  obtain ⟨-, -, -, -, -, hentry, hposted, -⟩ := calm_parts hg.2.2
  refine plain hg ((hostAcc_on h _).trans ((postOp_fence_of_idle (hposted _) hentry c _).trans hland)) ?_ rfl rfl rfl
  exact (modPav_core hf).trans (modPort_core fun _ => rfl)

/-- Settles O10: the low word acts at once, behind nothing (R170), and the cell takes the value or keeps its own (R168, R169). -/
theorem fenceRegisterWrites : Obligations.FenceRegisterWrites := by
  unfold Obligations.FenceRegisterWrites
  intro s p c v hg h
  refine ⟨exec_fenceHiWrite_stages hg h c v, fun hle => ?_, fun hlt => ?_⟩
  · exact exec_fenceLoWrite_lands hg h (fun _ => rfl) (fenceLand_applies hle)
  · exact exec_fenceLoWrite_lands hg h (fun _ => rfl) (fenceLand_discards hlt)

/-! ### Descriptors that are judged, act and complete at once (R99, R111) -/

theorem judge_of_failed {s : State} {w : Waiting} {checks : List (Bool × Nat × Nat)} {b : Bad} (h : firstBad checks = some b)
    (eff : State → State) : s.judge w checks eff = s.refuse w b := by
  rw [State.judge, h]

/-- A descriptor of an opcode that only judges and acts, whose checks pass: its effect, then ST_OK with RESULT 0. -/
theorem act_judges {s : State} {op : BitVec 8} {d : Desc} {checks : List (Bool × Nat × Nat)} {eff : State → State} (h : s.Accepts op d)
    (hb : (s.started d).beginOp { op, d } = (s.started d).judge { op, d } checks eff) (hchecks : firstBad checks = none)
    (heff : ∀ t, (eff t).core = t.core) :
    act (fun s => s.join op d) s = .next (s.doing d fun t => (eff t).ok op d 0) :=
  act_accepts h (f := fun t => (eff t).ok op d 0) (hb.trans (judge_of_passed hchecks))
    (by rw [State.ok, completeOk_core, heff, started_core])

/-- The same whose checks fail: refused, and no effect. -/
theorem act_judges_refuses {s : State} {op : BitVec 8} {d : Desc} {checks : List (Bool × Nat × Nat)} {eff : State → State} {st fb : Nat}
    (h : s.Accepts op d) (hb : (s.started d).beginOp { op, d } = (s.started d).judge { op, d } checks eff)
    (hchecks : firstBad checks = some (st, fb, 0)) :
    act (fun s => s.join op d) s = .next (s.doing d fun t => t.bad op d st (fieldByte st fb)) :=
  act_accepts h (f := fun t => t.bad op d st (fieldByte st fb)) (hb.trans (judge_of_failed hchecks eff))
    (by rw [State.bad, complete_core, started_core])

theorem beginOp_fenceSignal (s : State) (d : Desc) :
    s.beginOp { op := 0x06, d } = s.judge { op := 0x06, d }
      [badF 8 (decide (dU d 8 8 < ((s.pavs[d.pav.val]).fences[(f256 (dHandle d)).val]).toNat))]
      fun t => t.setFence d.pav (f256 (dHandle d)) (w64 (dU d 8 8)) := rfl

/-- What an EVENT_ARM whose checks pass does (R78, R246). -/
def State.arm (s : State) (d : Desc) : State :=
  let t := s.modPav d.pav fun v =>
    { v with armed := (v.armed ||| BitVec.ofNat 128 (dU d 8 16)) &&& ~~~(BitVec.ofNat 128 (dU d 24 16)) }
  if dBits d 40 1 7 7 = 1 then t.modView d.pav (f8 (dBits d 40 1 2 0)) fun v => { v with lmLine := some (dU d 42 2) } else t

theorem beginOp_eventArm (s : State) (d : Desc) :
    s.beginOp { op := 0x0A, d } = s.judge { op := 0x0A, d } (s.armChecks d.pav d) fun t => t.arm d := rfl

theorem arm_core (s : State) (d : Desc) : (s.arm d).core = s.core := by
  unfold State.arm
  dsimp only
  split
  · exact (modView_core ..).trans (modPav_core fun _ => rfl)
  · exact modPav_core fun _ => rfl

theorem fences_of_uncharged {s t : State} (h : t.uncharged = s.uncharged) (p : Fin 64) : (t.pavs[p.val]).fences = (s.pavs[p.val]).fences := by
  have hpavs : t.pavs.map Pav.uncharged = s.pavs.map Pav.uncharged := congrArg State.pavs h
  have hpav : (t.pavs[p.val]).uncharged = (s.pavs[p.val]).uncharged := by
    simpa using congrArg (fun v : Vector Pav 64 => v[p.val]) hpavs
  exact (congrArg Pav.fences hpav :)

@[simp] theorem started_fences (s : State) (d : Desc) (p : Fin 64) : ((s.started d).pavs[p.val]).fences = (s.pavs[p.val]).fences :=
  fences_of_uncharged (started_uncharged s d) p

theorem exec_fenceSignal_raises {s : State} {d : Desc} (h : s.Accepts 0x06 d)
    (hle : ((s.pavs[d.pav.val]).fences[(f256 (dHandle d)).val]).toNat ≤ dU d 8 8) :
    exec (.fenceSignal d) s = .next (s.doing d fun t => (t.setFence d.pav (f256 (dHandle d)) (w64 (dU d 8 8))).ok 0x06 d 0) := by
  refine act_judges h (beginOp_fenceSignal _ d) ?_ fun t => setFence_core t ..
  simp only [started_fences, badF, decide_eq_false (Nat.not_lt.2 hle), firstBad]

theorem exec_fenceSignal_refuses {s : State} {d : Desc} (h : s.Accepts 0x06 d)
    (hlt : dU d 8 8 < ((s.pavs[d.pav.val]).fences[(f256 (dHandle d)).val]).toNat) :
    exec (.fenceSignal d) s = .next (s.doing d fun t => t.bad 0x06 d 0x11 8) := by
  refine act_judges_refuses (st := stBadField) (fb := 8) h (beginOp_fenceSignal _ d) ?_
  simp only [started_fences, badF, decide_eq_true hlt, firstBad]

theorem exec_eventArm_arms {s : State} {d : Desc} (h : s.Accepts 0x0A d) (hchecks : firstBad ((s.started d).armChecks d.pav d) = none) :
    exec (.eventArm d) s = .next (s.doing d fun t => (t.arm d).ok 0x0A d 0) :=
  act_judges h (beginOp_eventArm _ d) hchecks fun t => arm_core t d

/-- Settles O19: both opcodes only judge and act. -/
theorem fencesAndEvents : Obligations.FencesAndEvents := by
  unfold Obligations.FencesAndEvents
  intro s d
  refine ⟨exec_fenceSignal_raises, exec_fenceSignal_refuses, fun h hchecks hline => ?_, fun h hchecks hline => ?_⟩
  · have harm := exec_eventArm_arms h hchecks
    simp only [State.arm, if_neg hline] at harm
    exact harm
  · have harm := exec_eventArm_arms h hchecks
    simp only [State.arm, if_pos hline] at harm
    exact harm

end Sys2Proof.Machine
end

section
/-!
SUPPORT. What a completion and the report of an event leave unchanged (03, R76, R111; 06, R244), and what the end of a group without a latch does to
the list of groups (05, R182, R203).
-/
namespace Sys2Proof.Machine
open Sys2Proof

/-! ### What completions and events leave unchanged -/

/-- A state without what the completion of a descriptor and the report of an event change: the Pavilions with their rings, the event log and
what its write reaches (the FABRIC and ORANGERY islands, the Orangery's counters, errors and bytes), and what `State.uncharged` leaves out. -/
def State.unnoticed (s : State) : State :=
  { s.uncharged with pavs := Vector.replicate 64 {}, evt := {}, clk := {}, org := {}, stores := [], poison := [], flips := [] }

theorem unnoticed_of_uncharged {s t : State} (h : t.uncharged = s.uncharged) : t.unnoticed = s.unnoticed :=
  congrArg (fun u : State => { u with pavs := Vector.replicate 64 {}, evt := {}, clk := {}, org := {}, stores := [], poison := [], flips := [] }) h

@[simp] theorem modPav_unnoticed (s : State) (p : Fin 64) (f : Pav → Pav) : (s.modPav p f).unnoticed = s.unnoticed := rfl
@[simp] theorem modCq_unnoticed (s : State) (p : Fin 64) (f : Cq → Cq) : (s.modCq p f).unnoticed = s.unnoticed := rfl
@[simp] theorem modSq_unnoticed (s : State) (p : Fin 64) (q : Fin 8) (f : Sq → Sq) : (s.modSq p q f).unnoticed = s.unnoticed := rfl
@[simp] theorem modEq_unnoticed (s : State) (p : Fin 64) (f : Evq → Evq) : (s.modEq p f).unnoticed = s.unnoticed := rfl
@[simp] theorem emit_unnoticed (s : State) (x : Tx) : (s.emit x).unnoticed = s.unnoticed := rfl
@[simp] theorem wakeIsland_unnoticed (s : State) (i : Nat) : (s.wakeIsland i).unnoticed = s.unnoticed := by
  rw [wakeIsland_eq]
  rfl
@[simp] theorem msi_unnoticed (s : State) (p : Fin 64) (vec : Nat) : (s.msi p vec).unnoticed = s.unnoticed :=
  unnoticed_of_uncharged (msi_uncharged s p vec)
@[simp] theorem safeOut_unnoticed (s : State) (e : Ev) : (s.safeOut e).unnoticed = s.unnoticed :=
  unnoticed_of_uncharged (safeOut_uncharged s e)
@[simp] theorem eqPost_unnoticed (s : State) (p : Fin 64) (e : Ev) : (s.eqPost p e).unnoticed = s.unnoticed :=
  unnoticed_of_uncharged (eqPost_uncharged s p e)
@[simp] theorem noteOne_unnoticed (s : State) (p : Fin 64) (k : Fin 4) : (s.noteOne p k).unnoticed = s.unnoticed :=
  unnoticed_of_uncharged (noteOne_uncharged s p k)

/-- What an operation keeps, a loop of it keeps. -/
theorem foldl_keeps {α β : Type} (φ : State → β) {f : State → α → State} (h : ∀ s a, φ (f s a) = φ s) (l : List α) (s : State) :
    φ (l.foldl f s) = φ s := by
  induction l generalizing s with
  | nil => rfl
  | cons a l ih => rw [List.foldl_cons, ih, h]

@[simp] theorem noteQuota_unnoticed (s : State) (p : Fin 64) (k : Fin 4) : (s.noteQuota p k).unnoticed = s.unnoticed := by
  simp [State.noteQuota, apply_ite State.unnoticed]

@[simp] theorem deliver_unnoticed (s : State) (p : Fin 64) (e : Ev) : (s.deliver p e).unnoticed = s.unnoticed := by
  unfold State.deliver
  simp [apply_ite State.unnoticed, State.eqLose]

@[simp] theorem stCells_unnoticed (s : State) (m : MemId) (a : Nat) (l : List Byte) : (s.stCells m a l).unnoticed = s.unnoticed := by
  unfold State.stCells
  refine foldl_keeps State.unnoticed (fun t b => ?_) _ s
  rfl

@[simp] theorem unpoison_unnoticed (s : State) (m : MemId) (a n : Nat) : (s.unpoison m a n).unnoticed = s.unnoticed := rfl

@[simp] theorem logStore_unnoticed (s : State) (i : Nat) (l : List Byte) : (s.logStore i l).unnoticed = s.unnoticed := by
  have hcount (t : State) : ({ t with org := { t.org with regionViol := satInc t.org.regionViol } } : State).unnoticed = t.unnoticed := rfl
  unfold State.logStore
  simp [apply_ite State.unnoticed, State.toDome, hcount]

@[simp] theorem logWrite_unnoticed (s : State) (e : Ev) : (s.logWrite e).unnoticed = s.unnoticed := by
  have hevt (t : State) (x : Evt) : ({ t with evt := x } : State).unnoticed = t.unnoticed := rfl
  unfold State.logWrite
  simp [apply_ite State.unnoticed, hevt]

@[simp] theorem raise_unnoticed (s : State) (logged : Ev) (dests : List (Fin 64 × Ev)) : (s.raise logged dests).unnoticed = s.unnoticed := by
  rw [State.raise, State.raiseAs, foldl_keeps State.unnoticed fun _ _ => deliver_unnoticed .., safeOut_unnoticed, logWrite_unnoticed]

@[simp] theorem cqWrite_unnoticed (s : State) (p : Fin 64) (rec : BitVec 128) : (s.cqWrite p rec).unnoticed = s.unnoticed := by
  unfold State.cqWrite
  simp [apply_ite State.unnoticed, State.cqInt]

@[simp] theorem complete_unnoticed (s : State) (p : Fin 64) (sq : Fin 8) (seq : BitVec 16) (op : BitVec 8) (status : Nat)
    (deferred late heldWall : Bool) (field result : Nat) :
    (s.complete p sq seq op status deferred late heldWall field result).unnoticed = s.unnoticed := by
  unfold State.complete State.postCq
  simp [apply_ite State.unnoticed]

@[simp] theorem completeOk_unnoticed (s : State) (p : Fin 64) (sq : Fin 8) (seq : BitVec 16) (op : BitVec 8)
    (deferred late heldWall : Bool) (result : Nat) : (s.completeOk p sq seq op deferred late heldWall result).unnoticed = s.unnoticed :=
  complete_unnoticed ..

theorem groups_of_unnoticed {s t : State} (h : t.unnoticed = s.unnoticed) : t.groups = s.groups := (congrArg State.groups h :)
theorem groupDefs_of_unnoticed {s t : State} (h : t.unnoticed = s.unnoticed) : t.groupDefs = s.groupDefs := (congrArg State.groupDefs h :)
theorem comps_of_unnoticed {s t : State} (h : t.unnoticed = s.unnoticed) : t.comps = s.comps := (congrArg State.comps h :)

/-! ### The end of a group (R182, R203) -/

@[simp] theorem reEval_groups (s : State) (o : Fin 8) : (s.reEval o).groups = s.groups := rfl
@[simp] theorem reEval_groupDefs (s : State) (o : Fin 8) : (s.reEval o).groupDefs = s.groupDefs := rfl
@[simp] theorem expire_groups (s : State) (m : Member) : (s.expire m).groups = s.groups := by
  rw [State.expire, groups_of_unnoticed (complete_unnoticed ..)]
  rfl
@[simp] theorem expire_groupDefs (s : State) (m : Member) : (s.expire m).groupDefs = s.groupDefs := by
  rw [State.expire, groupDefs_of_unnoticed (complete_unnoticed ..)]
  rfl

/-- A discarded group leaves the list of groups and nothing else does. -/
@[simp] theorem discardGroup_groups (s : State) (g : Group) (reset : Option (Fin 64)) :
    (s.discardGroup g reset).groups = s.groups.filter fun h => h.key != g.key := by
  unfold State.discardGroup
  simp only []
  rw [foldl_keeps State.groups (f := State.reEval) reEval_groups]
  refine (foldl_keeps State.groups (fun t m => ?_) g.members _).trans rfl
  split
  · rfl
  · exact expire_groups t m

@[simp] theorem discardGroup_groupDefs (s : State) (g : Group) (reset : Option (Fin 64)) : (s.discardGroup g reset).groupDefs = s.groupDefs := by
  unfold State.discardGroup
  simp only []
  rw [foldl_keeps State.groupDefs (f := State.reEval) reEval_groupDefs]
  refine (foldl_keeps State.groupDefs (fun t m => ?_) g.members _).trans rfl
  split
  · rfl
  · exact expire_groupDefs t m

end Sys2Proof.Machine
end

section
/-!
SUPPORT. The descriptors of WALL_COMMIT_CFG (R189, R191, R329), each with the SUBOP of its row. From these O28 is settled.
-/
namespace Sys2Proof.Machine
open Sys2Proof

/-! ### The SUBOP that a row gives its descriptor (R93) -/

theorem subop_setByte (d : Desc) {k : Nat} (hk : k < 256) : dU (setByte d 8 k) 8 1 = k := by
  have hbyte : ∀ p : Nat, (p - p % 256 + k) % 256 = k := by omega
  have hdvd : 2 ^ 8 ∣ 2 ^ 448 := Nat.pow_dvd_pow 2 (by omega)
  simp only [dU, setByte, uAt, BitVec.toNat_ofNat, Nat.sub_self, Nat.mul_zero, Nat.mul_one, Nat.shiftRight_zero, Nat.pow_zero, Nat.mod_eq_of_lt hk]
  exact (Nat.mod_mod_of_dvd _ hdvd).trans (hbyte _)

/-! ### WALL_COMMIT_CFG (R189, R191, R329) -/

theorem beginOp_wallCfg (s : State) (d : Desc) :
    s.beginOp { op := 0x24, d } = s.judge { op := 0x24, d } (s.wallChecks d) fun t => t.wallDo d := rfl

theorem wallDo_params {d : Desc} (h : dU d 8 1 = 0) (s : State) :
    s.wallDo d = { s with spire := { s.spire with leads := upd s.spire.leads (f4 d.handle.toNat) fun _ => dU d 10 2 } } := by
  rw [State.wallDo, h]
  rfl

theorem wallDo_define {d : Desc} (h : dU d 8 1 = 1) (s : State) :
    s.wallDo d = { s with groupDefs := s.groupDefs ++ [{ gid := dU d 12 2, members := groupMembers d }] } := by
  rw [State.wallDo, h]
  rfl

theorem wallDo_delete_groupDefs {d : Desc} (h : dU d 8 1 = 2) (s : State) :
    (s.wallDo d).groupDefs = s.groupDefs.filter fun q => q.gid != dU d 12 2 := by
  rw [State.wallDo, h]
  exact foldl_keeps State.groupDefs (fun t g => discardGroup_groupDefs t g none) _ _

/-- A WALL_COMMIT_CFG whose checks pass. -/
theorem act_wallCfg {s : State} {d : Desc} (h : s.Accepts 0x24 d) (hchecks : firstBad ((s.started d).wallChecks d) = none) :
    act (fun s => s.join 0x24 d) s = .next (s.doing d fun t => (t.wallDo d).ok 0x24 d 0) :=
  act_judges h (beginOp_wallCfg _ d) hchecks fun t => wallDo_core t d

@[simp] theorem started_groupDefs (s : State) (d : Desc) : (s.started d).groupDefs = s.groupDefs :=
  groupDefs_of_unnoticed (unnoticed_of_uncharged (started_uncharged s d))

@[simp] theorem ok_groupDefs (s : State) (op : BitVec 8) (d : Desc) (result : Nat) : (s.ok op d result).groupDefs = s.groupDefs :=
  groupDefs_of_unnoticed (completeOk_unnoticed ..)

/-- Settles O28: each SUBOP's part of `State.wallDo`. -/
theorem wallDescriptors : Obligations.WallDescriptors := by
  unfold Obligations.WallDescriptors
  intro s d e h hchecks
  have hact := act_wallCfg h hchecks
  refine ⟨?_, ?_, ?_⟩
  · rintro rfl
    simp only [wallDo_params (subop_setByte d (by decide : 0 < 256))] at hact
    exact hact
  · rintro rfl
    simp only [wallDo_define (subop_setByte d (by decide : 1 < 256))] at hact
    exact hact
  · rintro rfl
    refine ⟨_, hact, ?_⟩
    calc (((s.started _).wallDo _).ok 0x24 _ 0).groupDefs
      _ = ((s.started (setByte d 8 2)).wallDo (setByte d 8 2)).groupDefs := ok_groupDefs ..
      _ = _ := by rw [wallDo_delete_groupDefs (subop_setByte d (by decide)), started_groupDefs]

end Sys2Proof.Machine
end

section
/-!
SUPPORT. The windows of the composers (05, R174): operations that leave them as they are, and the rest of a state's core but for the errors that the
composers met. First the updates of the state, the periods of the quotas and the reports of errors.
-/
namespace Sys2Proof.Machine
open Sys2Proof

/-! ### The window of a composer -/

/-- The window of a composer: the frame that it is open for or closed last, what latched last, and the background. -/
def Comp.window (c : Comp) : Nat × Bool × DWord × Word × Word := (c.winFrame, c.winOpen, c.latchFrame, c.bg, c.bgLive)

/-- The core of a state, but for the errors that the composers met, and the windows of the composers. -/
def State.windows (s : State) : Core × Vector (Nat × Bool × DWord × Word × Word) 8 :=
  ({ s.core with faults := Vector.replicate 8 [] }, s.comps.map Comp.window)

theorem windows_of_core {s t : State} (hcore : t.core = s.core) (hcomps : t.comps.map Comp.window = s.comps.map Comp.window) :
    t.windows = s.windows := by
  rw [State.windows, State.windows, hcore, hcomps]

theorem windows_of_unnoticed {s t : State} (hcore : t.core = s.core) (h : t.unnoticed = s.unnoticed) : t.windows = s.windows :=
  windows_of_core hcore (by rw [comps_of_unnoticed h])

theorem modComp_windows {s : State} {o : Fin 8} {f : Comp → Comp} (h : ∀ c, (f c).window = c.window) : (s.modComp o f).windows = s.windows := by
  have hcomps : (s.modComp o f).comps.map Comp.window = s.comps.map Comp.window := map_upd Comp.window _ _ _ h
  rw [State.windows, hcomps]
  rfl

theorem modPav_windows {s : State} {p : Fin 64} {f : Pav → Pav} (h : ∀ v, (f v).order = v.order) : (s.modPav p f).windows = s.windows :=
  windows_of_core (modPav_core h) rfl

@[simp] theorem modMbox_windows (s : State) (p : Fin 64) (i : Fin 2) (f : MboxSlot → MboxSlot) : (s.modMbox p i f).windows = s.windows :=
  modPav_windows fun _ => rfl
@[simp] theorem modView_windows (s : State) (p : Fin 64) (v : Fin 8) (f : View → View) : (s.modView p v f).windows = s.windows :=
  modPav_windows fun _ => rfl
@[simp] theorem modOut_windows (s : State) (o : Fin 8) (f : Out → Out) : (s.modOut o f).windows = s.windows := rfl
@[simp] theorem modSlot_windows (s : State) (i : Fin 256) (f : Slot → Slot) : (s.modSlot i f).windows = s.windows := rfl
@[simp] theorem modDmc_windows (s : State) (c : Fin 8) (f : Dmc → Dmc) : (s.modDmc c f).windows = s.windows := rfl
@[simp] theorem modBport_windows (s : State) (q : Fin 83) (f : BPort → BPort) : (s.modBport q f).windows = s.windows := rfl
@[simp] theorem modBelv_windows (s : State) (o : Fin 8) (f : Belv → Belv) : (s.modBelv o f).windows = s.windows := rfl
@[simp] theorem modLink_windows (s : State) (l : Fin 12) (f : Link → Link) : (s.modLink l f).windows = s.windows := rfl
@[simp] theorem emit_windows (s : State) (x : Tx) : (s.emit x).windows = s.windows := rfl
@[simp] theorem toDome_windows (s : State) (e : Ev) : (s.toDome e).windows = s.windows := rfl
@[simp] theorem stCell_windows (s : State) (m : MemId) (a : Nat) (v : Byte) : (s.stCell m a v).windows = s.windows := rfl
@[simp] theorem unpoison_windows (s : State) (m : MemId) (a n : Nat) : (s.unpoison m a n).windows = s.windows := rfl
@[simp] theorem wakeIsland_windows (s : State) (i : Nat) : (s.wakeIsland i).windows = s.windows :=
  windows_of_unnoticed (wakeIsland_core ..) (wakeIsland_unnoticed ..)
@[simp] theorem msi_windows (s : State) (p : Fin 64) (vec : Nat) : (s.msi p vec).windows = s.windows :=
  windows_of_unnoticed (msi_core ..) (msi_unnoticed ..)
@[simp] theorem eqPost_windows (s : State) (p : Fin 64) (e : Ev) : (s.eqPost p e).windows = s.windows :=
  windows_of_unnoticed (eqPost_core ..) (eqPost_unnoticed ..)
@[simp] theorem noteQuota_windows (s : State) (p : Fin 64) (k : Fin 4) : (s.noteQuota p k).windows = s.windows :=
  windows_of_unnoticed (noteQuota_core ..) (noteQuota_unnoticed ..)
@[simp] theorem deliver_windows (s : State) (p : Fin 64) (e : Ev) : (s.deliver p e).windows = s.windows :=
  windows_of_unnoticed (deliver_core ..) (deliver_unnoticed ..)
@[simp] theorem raise_windows (s : State) (e : Ev) (dests : List (Fin 64 × Ev)) : (s.raise e dests).windows = s.windows :=
  windows_of_unnoticed (raise_core ..) (raise_unnoticed ..)
@[simp] theorem raise0_windows (s : State) (e : Ev) : (s.raise0 e).windows = s.windows := raise_windows ..
@[simp] theorem complete_windows (s : State) (p : Fin 64) (sq : Fin 8) (seq : BitVec 16) (op : BitVec 8) (status : Nat)
    (deferred late heldWall : Bool) (field result : Nat) :
    (s.complete p sq seq op status deferred late heldWall field result).windows = s.windows :=
  windows_of_unnoticed (complete_core ..) (complete_unnoticed ..)
@[simp] theorem completeOk_windows (s : State) (p : Fin 64) (sq : Fin 8) (seq : BitVec 16) (op : BitVec 8)
    (deferred late heldWall : Bool) (result : Nat) : (s.completeOk p sq seq op deferred late heldWall result).windows = s.windows :=
  complete_windows ..

/-! ### Spire time and the periods of the quotas (R344, R345) -/

@[simp] theorem flushEvents_windows (n : Nat) (s : State) (p : Fin 64) : (State.flushEvents n s p).windows = s.windows := by
  induction n generalizing s with
  | zero => rfl
  | succ n ih =>
    unfold State.flushEvents
    split
    · rfl
    · split
      · rfl
      · rw [ih, noteQuota_windows, eqPost_windows]
        exact modPav_windows fun _ => rfl

@[simp] theorem newPeriod_windows (s : State) (k : Nat) : (s.newPeriod k).windows = s.windows := by
  refine windows_of_core (newPeriod_core s k) ?_
  refine (foldl_keeps (fun t : State => t.comps.map Comp.window) (fun t p => ?_) _ _).trans rfl
  split
  · rfl
  · exact congrArg Prod.snd (flushEvents_windows 64 t p)

@[simp] theorem upTo_windows (s : State) (ps : Nat) : (s.upTo ps).windows = s.windows := by
  refine windows_of_core (upTo_core s ps) ?_
  unfold State.upTo State.moveTo State.periodGo
  split
  · split
    · exact congrArg Prod.snd (newPeriod_windows _ _)
    · rfl
  · rfl

/-! ### Reports of memory errors -/

@[simp] theorem violation_windows (s : State) (m : MemId) (a : Nat) : (s.violation m a).windows = s.windows :=
  (raise0_windows ..).trans rfl

@[simp] theorem fetchFault_windows (s : State) (o : Fin 8) (a : Option Nat) : (s.fetchFault o a).windows = s.windows :=
  modComp_windows fun _ => rfl

@[simp] theorem noteUe_windows (s : State) (m : MemId) (a : Nat) (who : Option (Fin 64)) : (s.noteUe m a who).windows = s.windows := by
  unfold State.noteUe
  dsimp only
  split
  · split
    · rw [deliver_windows, raise_windows, toDome_windows]; cases m <;> rfl
    · rw [raise_windows, toDome_windows]; cases m <;> rfl
  · rw [raise_windows, toDome_windows]; cases m <;> rfl

@[simp] theorem noteCe_windows (s : State) (m : MemId) (a : Nat) : (s.noteCe m a).windows = s.windows := by
  unfold State.noteCe
  extract_lets _ _ t key
  have ht : t.windows = s.windows := by cases m <;> rfl
  split
  · exact ht
  · rw [raise_windows, toDome_windows]
    exact ht

end Sys2Proof.Machine
end

section
/-!
SUPPORT. The windows of the composers, continued: a read of DRAM wakes it, pays for its turn, and issues what its channel holds (10). Its errors reach
composers, and no window.
-/
namespace Sys2Proof.Machine
open Sys2Proof

theorem foldl_keeps_fst {α β γ : Type} (φ : State → γ) {f : State × β → α → State × β} (h : ∀ x a, φ (f x a).1 = φ x.1) (l : List α)
    (x : State × β) : φ (l.foldl f x).1 = φ x.1 := by
  induction l generalizing x with
  | nil => rfl
  | cons a l ih => rw [List.foldl_cons, ih, h]

/-! ### Reads of DRAM (10) -/

@[simp] theorem awake_windows (s : State) (c : Fin 8) : (s.awake c).windows = s.windows := by
  unfold State.awake
  split <;> rfl

@[simp] theorem wake_windows (s : State) : s.wake.windows = s.windows := by
  unfold State.wake
  extract_lets out
  have hout (t : State) : (out t).windows = t.windows := foldl_keeps State.windows awake_windows _ t
  split
  · exact hout _
  · split
    · exact hout _
    · rfl

@[simp] theorem wakeMem_windows (s : State) (m : MemId) (a n : Nat) : (s.wakeMem m a n).windows = s.windows := by
  cases m
  case dram => exact (foldl_keeps State.windows (fun t k => wakeIsland_windows t _) _ _).trans (wake_windows s)
  case dome => rfl
  all_goals exact wakeIsland_windows ..

@[simp] theorem portWaits_windows (s : State) (q : Fin 83) : (s.portWaits q).windows = s.windows := by
  unfold State.portWaits
  extract_lets t
  split
  · rfl
  · split
    · exact modPav_windows fun _ => rfl
    · rfl

@[simp] theorem dramCharge_windows (s : State) (q : Fin 83) (a n : Nat) : (s.dramCharge q a n).windows = s.windows := by
  unfold State.dramCharge State.portUse
  extract_lets b t
  split
  · split
    · exact portWaits_windows ..
    · rfl
  · split
    · rfl
    · split
      · rfl
      · exact portWaits_windows ..

@[simp] theorem recordLost_windows (s : State) (dev : Nat) : (s.recordLost dev).windows = s.windows :=
  foldl_keeps State.windows (fun _ _ => modOut_windows ..) _ s

@[simp] theorem issueAtom_windows (s : State) (w : WAtom) : (s.issueAtom w).windows = s.windows := by
  unfold State.issueAtom
  extract_lets old s1 s2 s3 s4
  have h1 : s1.windows = s.windows := by
    unfold s1
    split
    · rw [recordLost_windows, noteUe_windows]
    · rfl
  have h2 : s2.windows = s1.windows := by
    unfold s2
    split
    · exact noteCe_windows ..
    · rfl
  have h3 : s3.windows = s2.windows := by
    unfold s3
    split <;> rfl
  have h4 : s4.windows = s3.windows := foldl_keeps State.windows (fun t b => stCell_windows t ..) _ _
  exact h4.trans (h3.trans (h2.trans h1))

@[simp] theorem issueWrite_windows (s : State) (c : Fin 8) : (s.issueWrite c).windows = s.windows := by
  unfold State.issueWrite
  split
  · rfl
  · exact issueAtom_windows ..

@[simp] theorem errorTo_windows (s : State) (q : Fin 83) (a : Nat) : (s.errorTo q a).windows = s.windows := by
  unfold State.errorTo
  rw [emit_windows]
  split
  · exact fetchFault_windows ..
  · rfl

@[simp] theorem issueRead_windows (s : State) (c : Fin 8) (x : RAtom) : (s.issueRead c x).windows = s.windows := by
  unfold State.issueRead
  extract_lets r atom s1 s2 data s3
  have h1 : s1.windows = s.windows := rfl
  have h2 : s2.windows = s1.windows := by
    unfold s2
    split
    · rfl
    · exact noteUe_windows ..
  have h3 : s3.windows = s1.windows := by
    unfold s3
    split
    · exact noteCe_windows ..
    · rfl
  split
  · split
    · exact h2
    · rw [errorTo_windows, h2, h1]
  · split
    · exact h3
    · exact h3

@[simp] theorem dmcIssue_windows (s : State) (c : Fin 8) : (s.dmcIssue c).windows = s.windows := by
  unfold State.dmcIssue
  extract_lets d read may
  split
  · exact issueWrite_windows ..
  · split
    · exact issueRead_windows ..
    · split
      · exact issueWrite_windows ..
      · split
        · exact issueRead_windows ..
        · exact issueWrite_windows ..

@[simp] theorem dmcUntil_windows (n : Nat) (s : State) (c : Fin 8) (ok : Dmc → Bool) : (State.dmcUntil n s c ok).windows = s.windows := by
  induction n generalizing s with
  | zero => rfl
  | succ n ih =>
    have hstep : (s.dmcStep c).windows = s.windows := by
      unfold State.dmcStep
      split
      · rfl
      · exact dmcIssue_windows ..
    unfold State.dmcUntil
    split
    · rfl
    · rw [ih, hstep]

@[simp] theorem readQueue_windows (s : State) (r : MemReq) (part : Bool) (who : Option (Fin 64)) :
    (s.readQueue r part who).1.windows = s.windows := by
  unfold State.readQueue
  dsimp only
  rw [modDmc_windows, dmcUntil_windows]

@[simp] theorem readIn_windows (s : State) (r : MemReq) (part : Bool) (who : Option (Fin 64)) : (s.readIn r part who).1.windows = s.windows := by
  unfold State.readIn
  extract_lets c s1 s2
  have h1 : s1.windows = s.windows := by
    unfold s1
    split <;> rfl
  split
  · split <;> exact h1
  · exact (readQueue_windows ..).trans h1

@[simp] theorem atomRead_windows (s : State) (r : MemReq) (who : Option (Fin 64)) : (s.atomRead r who).1.windows = s.windows := by
  have hread := readIn_windows s r true who
  unfold State.atomRead
  split
  · rename_i h
    rw [h] at hread
    exact hread
  · rename_i h
    rw [h] at hread
    dsimp only
    rw [dmcUntil_windows, hread]

@[simp] theorem dmcRead_windows (s : State) (q : Fin 83) (tlp : Option Nat) (who : Option (Fin 64)) (a n : Nat) :
    (s.dmcRead q tlp who a n).1.windows = s.windows := by
  unfold State.dmcRead
  refine foldl_keeps_fst State.windows (fun x k => ?_) _ _
  exact atomRead_windows x.1 _ who

@[simp] theorem readErrs_windows (s : State) (m : MemId) (a n : Nat) (who : Option (Fin 64)) : (s.readErrs m a n who).1.windows = s.windows := by
  unfold State.readErrs
  extract_lets bad s1 fix
  have h1 : s1.windows = s.windows := foldl_keeps State.windows (fun t w => noteUe_windows t ..) _ _
  refine (foldl_keeps State.windows (fun t w => ?_) fix s1).trans h1
  rw [noteCe_windows]
  split <;> rfl

@[simp] theorem memRead_windows (s : State) (master : Nat) (secure : Bool) (q : Fin 83) (who : Option (Fin 64)) (a n : Nat) :
    (s.memRead master secure q who a n).1.windows = s.windows := by
  unfold State.memRead State.memReadT State.memReadOk State.violationDev
  split
  · split
    · rfl
    · split
      · rfl
      · split
        · exact (dmcRead_windows ..).trans ((dramCharge_windows ..).trans (wakeMem_windows ..))
        · exact (readErrs_windows ..).trans (wakeMem_windows ..)
  · split
    · rfl
    · exact violation_windows ..

end Sys2Proof.Machine
end

section
/-!
SUPPORT. The windows of the composers, continued: what a latch does besides turning one (R51, R151, R174, R205, R258, R283, R341).
-/
namespace Sys2Proof.Machine
open Sys2Proof

/-! ### What a latch does before and after the windows turn (R51, R151, R174, R205, R258, R283, R341) -/

@[simp] theorem fetchCheck_windows (s : State) (o : Fin 8) (x : Nat × Nat) : (s.fetchCheck o x).windows = s.windows := by
  unfold State.fetchCheck
  split
  · rfl
  · split
    · rw [fetchFault_windows, violation_windows]
    · split
      · exact fetchFault_windows ..
      · refine foldl_keeps State.windows (fun t w => ?_) _ s
        split
        · rfl
        · rw [fetchFault_windows, noteUe_windows]

@[simp] theorem freezeOut_windows (s : State) (o : Fin 8) : (s.freezeOut o).windows = s.windows := by
  unfold State.freezeOut
  extract_lets k n st w new t
  split
  · rfl
  · rw [modOut_windows]
    unfold t
    split
    · rfl
    · exact foldl_keeps State.windows (fun _ _ => fetchCheck_windows ..) _ _

@[simp] theorem reEval_windows (s : State) (o : Fin 8) : (s.reEval o).windows = s.windows := modComp_windows fun _ => rfl

@[simp] theorem purgeImports_windows (s : State) : s.purgeImports.windows = s.windows := rfl

@[simp] theorem expire_windows (s : State) (m : Member) : (s.expire m).windows = s.windows :=
  (complete_windows ..).trans (modComp_windows fun _ => rfl)

@[simp] theorem discardGroup_windows (s : State) (g : Group) (reset : Option (Fin 64)) : (s.discardGroup g reset).windows = s.windows := by
  unfold State.discardGroup
  refine (foldl_keeps State.windows reEval_windows _ _).trans ((purgeImports_windows _).trans ?_)
  refine (foldl_keeps State.windows (fun t m => ?_) g.members _).trans rfl
  split
  · rfl
  · exact expire_windows t m

@[simp] theorem discardWhere_windows (s : State) (q : Member → Bool) (reset : Option (Fin 64)) : (s.discardWhere q reset).windows = s.windows :=
  foldl_keeps State.windows (fun t g => discardGroup_windows t g reset) _ s

@[simp] theorem endCapture_windows (s : State) (o : Fin 8) (c : Capture) : (s.endCapture o c).windows = s.windows := by
  unfold State.endCapture
  refine (foldl_keeps State.windows (fun t q => completeOk_windows t ..) _ _).trans ?_
  split
  · exact complete_windows ..
  · exact completeOk_windows ..

@[simp] theorem endCapturesOf_windows (s : State) (o : Fin 8) (p : Fin 64) (v : Fin 8) : (s.endCapturesOf o p v).windows = s.windows :=
  foldl_keeps State.windows (fun t c => endCapture_windows t o c) _ s

@[simp] theorem applyView_windows (s : State) (p : Fin 64) (v : Fin 8) (m : Option VMap) (rest : Option (Option VMap)) :
    (s.applyView p v m rest).windows = s.windows := by
  unfold State.applyView
  extract_lets old s1 s2 s3 s4
  have h1 : s1.windows = s.windows := discardWhere_windows ..
  have h2 : s2.windows = s1.windows := by
    unfold s2 old
    split
    · exact endCapturesOf_windows ..
    · rfl
  have h3 : s3.windows = s2.windows := modView_windows ..
  have h4 : s4.windows = s3.windows := by
    unfold s4 old
    split
    · exact reEval_windows ..
    · rfl
  have h : s4.windows = s.windows := h4.trans (h3.trans (h2.trans h1))
  split
  · exact (reEval_windows ..).trans h
  · exact h

@[simp] theorem viewStep_windows (s : State) (o : Fin 8) (p : Fin 64) (v : Fin 8) : (s.viewStep o p v).windows = s.windows := by
  unfold State.viewStep
  extract_lets w
  split
  · split
    · rfl
    · split
      · exact applyView_windows ..
      · dsimp only
        split
        · rw [applyView_windows, applyView_windows]
        · exact applyView_windows ..
  · split
    · exact applyView_windows ..
    · rfl
  · split
    · exact applyView_windows ..
    · rfl
  · exact modView_windows ..
  · rfl

@[simp] theorem viewSteps_windows (s : State) (o : Fin 8) : (s.viewSteps o).windows = s.windows := by
  refine foldl_keeps State.windows (fun t p => ?_) _ s
  split
  · rfl
  · exact foldl_keeps State.windows (fun u v => viewStep_windows u o p v) _ t

@[simp] theorem latchGroups_windows (s : State) (o : Fin 8) (f : Nat) : (s.latchGroups o f).windows = s.windows :=
  foldl_keeps State.windows (fun t (m : Member × Bool × Bool) => foldl_keeps State.windows (fun u _ => modSlot_windows u ..) m.1.caps t) _ s

@[simp] theorem latchImports_windows (s : State) (o : Fin 8) : (s.latchImports o).windows = s.windows := by
  refine foldl_keeps State.windows (fun t a => ?_) _ s
  split
  · rfl
  · split
    · split <;> rfl
    · rfl

@[simp] theorem expectedNow_windows (s : State) (o : Fin 8) (base : Nat) : (s.expectedNow o base).1.windows = s.windows := by
  unfold State.expectedNow State.expectedRead
  split
  · rfl
  · extract_lets l
    have hread := memRead_windows s 0 true 82 none base (l.src.w * l.src.h * fmtBpp l.fmt + (if l.fmt = 0x07 then 1024 else 0))
    split
    · rename_i h
      rw [h] at hread
      exact hread
    · rename_i h
      rw [h] at hread
      exact hread

@[simp] theorem safetyReply_windows (s : State) (p : Fin 64) (i : Fin 2) (req : BitVec 2048) (status frame : Nat) :
    (s.safetyReply p i req status frame).windows = s.windows := by
  have hreply (t : State) (m : BitVec 2048) : (t.mbxReply p i m).windows = t.windows := by
    unfold State.mbxReply
    split
    · rw [msi_windows, modMbox_windows]
    · rfl
  unfold State.safetyReply
  dsimp only
  rw [hreply]
  split <;> rfl

@[simp] theorem latchBelv_windows (s : State) (o : Fin 8) (f : Nat) : (s.latchBelv o f).windows = s.windows := by
  unfold State.latchBelv
  extract_lets b
  split
  · rfl
  · rw [apply_ite State.windows, ite_eq_left_iff]
    intro _
    dsimp only
    split
    · rw [safetyReply_windows, modBelv_windows, expectedNow_windows]
    · rw [modBelv_windows, expectedNow_windows]

@[simp] theorem freeReleased_windows (s : State) (was : List (Fin 256)) : (s.freeReleased was).windows = s.windows := by
  refine foldl_keeps State.windows (fun t k => ?_) _ s
  extract_lets i
  split <;> rfl

@[simp] theorem releaseUnchecked_windows (s : State) (o : Fin 8) (f : Nat) : (s.releaseUnchecked o f).windows = s.windows := by
  unfold State.releaseUnchecked
  split <;> rfl

/-! ### Transfers of exported buffers (R338, R343) -/

@[simp] theorem txFlit_windows (s : State) (l : Fin 12) (f : BitVec 256) : (s.txFlit l f).windows = s.windows := by
  unfold State.txFlit
  dsimp only
  rw [emit_windows, modLink_windows]

@[simp] theorem pump_windows (n : Nat) (s : State) (l : Fin 12) : (State.pump n s l).windows = s.windows := by
  induction n generalizing s with
  | zero => rfl
  | succ n ih =>
    unfold State.pump
    dsimp only
    split
    · rfl
    · split
      · rfl
      · rw [ih, txFlit_windows, modLink_windows]

@[simp] theorem sendSeq_windows (s : State) (l : Fin 12) (f : BitVec 256) : (s.sendSeq l f).windows = s.windows := pump_windows ..

@[simp] theorem sendRouted_windows (s : State) (dest : Nat) (f : BitVec 256) : (s.sendRouted dest f).windows = s.windows := by
  unfold State.sendRouted
  dsimp only
  split
  · exact sendSeq_windows ..
  · rfl

@[simp] theorem xferRead_windows (p : Fin 64) (n : Nat) (s : State) (base pitch w k l : Nat) (acc : List Byte) (bad : Bool) :
    (State.xferRead p n s base pitch w k l acc bad).1.windows = s.windows := by
  induction n generalizing s k l acc bad with
  | zero => rfl
  | succ n ih =>
    unfold State.xferRead
    split
    · rfl
    · extract_lets m r
      rw [ih]
      exact memRead_windows ..

@[simp] theorem exportPump_windows (n : Nat) (s : State) (k : Nat) : (State.exportPump n s k).windows = s.windows := by
  induction n generalizing s with
  | zero => rfl
  | succ n ih =>
    unfold State.exportPump
    dsimp only
    split
    · rfl
    · split
      · rfl
      · split
        · rfl
        · split
          · rfl
          · split
            · exact sendRouted_windows ..
            · split
              · exact portWaits_windows ..
              · refine (ih _).trans ?_
                refine (foldl_keeps State.windows (fun t i => sendSeq_windows t ..) _ _).trans ?_
                rw [sendRouted_windows, xferRead_windows]

@[simp] theorem startXfer_windows (s : State) (k : Nat) : (s.startXfer k).windows = s.windows := by
  unfold State.startXfer
  split
  · rfl
  · dsimp only
    split
    · rfl
    · split
      · rfl
      · split
        · rfl
        · exact (exportPump_windows ..).trans ((sendRouted_windows ..).trans rfl)

@[simp] theorem latchExports_windows (s : State) : s.latchExports.windows = s.windows := by
  refine foldl_keeps State.windows (fun t k => ?_) _ s
  split
  · split
    · exact startXfer_windows ..
    · rfl
  · rfl

end Sys2Proof.Machine
end

section
/-!
SUPPORT. The decision at a cut-off of the only group, without WALL (R174, R175, R181, R182).
-/
namespace Sys2Proof.Machine
open Sys2Proof

/-! ### The decision of a group without WALL (R174, R175, R178, R182) -/

@[simp] theorem raise_groups (s : State) (e : Ev) (dests : List (Fin 64 × Ev)) : (s.raise e dests).groups = s.groups :=
  groups_of_unnoticed (raise_unnoticed ..)

@[simp] theorem noteHeld_groups (s : State) (gs : List Group) : (s.noteHeld gs).groups = s.groups := by
  unfold State.noteHeld
  refine foldl_keeps State.groups (fun t o => ?_) _ s
  rfl

theorem members_ne_nil_of_outs {g : Group} {o : Fin 8} (h : g.outs.contains o = true) : g.members ≠ [] := by
  intro hnil
  rw [Group.outs, hnil] at h
  cases h

theorem pavs_ne_nil {g : Group} (h : g.members ≠ []) : g.pavs ≠ [] := by
  obtain ⟨m, ms, hm⟩ := List.exists_cons_of_ne_nil h
  rw [Group.pavs, hm, List.map_cons, List.eraseDups_cons]
  exact List.cons_ne_nil _ _

/-- The only group is marked as told of its fences (R181), unless it was. -/
theorem fenceHold_groups {s : State} {g : Group} (hs : s.groups = [g]) (hmembers : g.members ≠ []) (f : Nat) :
    (s.fenceHold g f).groups = [{ g with fenceHold := true }] := by
  unfold State.fenceHold
  split
  next htold => rw [hs, ← htold]
  next =>
    extract_lets ev dests
    have hdests : dests ≠ [] := fun hnone => pavs_ne_nil hmembers (List.map_eq_nil_iff.1 hnone)
    obtain ⟨x, rest, hcons⟩ := List.exists_cons_of_ne_nil hdests
    rw [hcons]
    simp [hs]

/-- The group that a hold makes of `g`. -/
def Group.heldAt (g : Group) (f : Nat) : Group := { g with fenceHold := true, st := .held, target := f + 1 }

theorem holdGroup_groups_held {s : State} {g : Group} (hs : s.groups = [{ g with fenceHold := true }]) {f : Nat} (h : f + 1 < g.first + g.expiry) :
    (s.holdGroup g f false).groups = [g.heldAt f] := by
  rw [State.holdGroup, if_neg (by omega), State.modGroup, hs]
  simp [Group.heldAt, Group.key]

theorem holdGroup_groups_expired {s : State} {g : Group} (hs : s.groups = [{ g with fenceHold := true }]) {f : Nat}
    (h : g.first + g.expiry ≤ f + 1) : (s.holdGroup g f false).groups = [] := by
  rw [State.holdGroup, if_pos h, discardGroup_groups, hs, List.filter_cons_of_neg]
  · rfl
  · simp [Group.key]

/-- The only group, undecided and with a member on the output, is the one that the cut-off decides. -/
def State.Decides (s : State) (o : Fin 8) (f : Nat) (g : Group) : Prop :=
  s.groups = [g] ∧ g.wall = false ∧ g.st ≠ .latchWait ∧ g.target ≤ f ∧ g.first ≤ f ∧ g.outs.contains o = true

theorem decidePlain_yes {s : State} {o : Fin 8} {f : Nat} {g : Group} (h : s.Decides o f g) (hready : s.groupReady g f = true)
    (hcut : s.cutTaken g f = false) : (s.decidePlain o f).groups = [{ g with st := .latchWait, target := f }] := by
  obtain ⟨hs, hwall, hst, htarget, hfirst, hout⟩ := h
  simp [State.decidePlain, hs, hwall, hst, htarget, hfirst, List.contains_iff_mem.1 hout, hready, hcut, State.modGroup]

theorem decidePlain_no {s : State} {o : Fin 8} {f : Nat} {g : Group} (h : s.Decides o f g)
    (hno : s.groupReady g f = false ∨ s.cutTaken g f = true) :
    (s.decidePlain o f).groups = ((s.fenceHold g f).holdGroup g f false).groups := by
  obtain ⟨hs, hwall, hst, htarget, hfirst, hout⟩ := h
  have hno : (s.groupReady g f && !s.cutTaken g f) = false := by
    rcases hno with hno | hno <;> simp [hno]
  simp [State.decidePlain, hs, hwall, hst, htarget, hfirst, List.contains_iff_mem.1 hout, hno]

theorem decidePlain_held {s : State} {o : Fin 8} {f : Nat} {g : Group} (h : s.Decides o f g)
    (hno : s.groupReady g f = false ∨ s.cutTaken g f = true) (hlast : f + 1 < g.first + g.expiry) :
    (s.decidePlain o f).groups = [g.heldAt f] := by
  obtain ⟨hs, -, -, -, -, hout⟩ := id h
  exact (decidePlain_no h hno).trans (holdGroup_groups_held (fenceHold_groups hs (members_ne_nil_of_outs hout) f) hlast)

theorem decidePlain_expired {s : State} {o : Fin 8} {f : Nat} {g : Group} (h : s.Decides o f g)
    (hno : s.groupReady g f = false ∨ s.cutTaken g f = true) (hlast : g.first + g.expiry ≤ f + 1) :
    (s.decidePlain o f).groups = [] := by
  obtain ⟨hs, -, -, -, -, hout⟩ := id h
  exact (decidePlain_no h hno).trans (holdGroup_groups_expired (fenceHold_groups hs (members_ne_nil_of_outs hout) f) hlast)

end Sys2Proof.Machine
end

section
/-!
SUPPORT. COMMIT_CUTOFF and LATCH (R174): the window that each leaves, whatever follows the latch in the same step. From these O35 is settled.
-/
namespace Sys2Proof.Machine
open Sys2Proof

/-! ### The latch of a frame (R174) -/

/-- What the latch of frame `f` makes of a composer's window: that of the next frame opens. -/
def Comp.latched (f : Nat) (c : Comp) : Comp := { c with bgLive := c.bg, latchFrame := w64 f, winFrame := f + 1, winOpen := true }

theorem modComp_latched_windows {s t : State} (h : t.windows = s.windows) (o : Fin 8) (f : Nat) :
    (t.modComp o (Comp.latched f)).windows = (s.modComp o (Comp.latched f)).windows := by
  have hmap (u : State) : (u.modComp o (Comp.latched f)).comps.map Comp.window
      = upd (u.comps.map Comp.window) o fun w => (f + 1, true, w64 f, w.2.2.2.1, w.2.2.2.1) := by
    ext i hi : 1
    by_cases hio : o.val = i
    · subst hio
      simp [State.modComp, upd, Comp.latched, Comp.window]
    · simp [State.modComp, upd, hio]
  have hcore : (t.windows).1 = (s.windows).1 := congrArg Prod.fst h
  have hcomps : t.comps.map Comp.window = s.comps.map Comp.window := congrArg Prod.snd h
  refine Prod.ext hcore ?_
  exact (hmap t).trans ((congrArg (fun v => upd v o _) hcomps).trans (hmap s).symm)

theorem latchNow_windows (s : State) (o : Fin 8) (f : Nat) : (s.latchNow o f).windows = (s.modComp o (Comp.latched f)).windows := by
  unfold State.latchNow
  extract_lets s1 gone s2 s3 s4 s5 s6 s7
  have h6 : s6.windows = s.windows :=
    calc s6.windows
      _ = s5.windows := freeReleased_windows ..
      _ = s4.windows := latchBelv_windows ..
      _ = s3.windows := latchImports_windows ..
      _ = s2.windows := latchGroups_windows ..
      _ = s1.windows := viewSteps_windows ..
      _ = s.windows := freezeOut_windows ..
  rw [releaseUnchecked_windows, latchExports_windows, purgeImports_windows, reEval_windows]
  exact modComp_latched_windows h6 o f

/-! ### What follows a step that meets memory errors (R234) -/

@[simp] theorem underrunFrom_windows (s : State) (o : Fin 8) (line x : Nat) : (s.underrunFrom o line x).windows = s.windows := by
  unfold State.underrunFrom
  extract_lets u s1 s2
  have h1 : s1.windows = s.windows := upTo_windows ..
  split
  · rfl
  · split
    · exact h1
    · exact (raise_windows ..).trans h1

@[simp] theorem faultGo_windows (s : State) (o : Fin 8) : (s.faultGo o).windows = s.windows := by
  have hclear : (s.modComp o fun c => { c with faults := [] }).windows = s.windows := modComp_windows fun _ => rfl
  unfold State.faultGo
  extract_lets u fs t
  split
  · rfl
  · split
    · exact (underrunFrom_windows ..).trans hclear
    · exact hclear

theorem stage_of_windows {s t : State} (h : t.windows = s.windows) : t.pwr.stage = s.pwr.stage := congrArg (fun w => w.1.stage) h

/-- Where at most errors that the composers met are left to do, they are what follows. -/
theorem after_of_calm_but_faults {s : State} {comps : Vector Comp 8} (h : ({ s with comps } : State).calm = true) :
    s.after = (idx 8).foldl State.faultGo s := by
  obtain ⟨hwiping, hrestart, hhalt, halarms, hsafe, hentry, hposted, hquiet, hjobs, -, hstage⟩ := calm_parts h
  clear h
  have hquiet : s.quiet = true := hquiet
  have hjobs : s.jobsIdle = true := hjobs
  dsimp only at hwiping hrestart hhalt halarms hentry hposted hstage
  have hwipe : State.wipeDue 3 s = s := by simp [State.wipeDue, hwiping]
  have hback : s.domeBack = s := by simp [State.domeBack, hrestart]
  have halarm : s.alarmsGo = s := by
    rw [State.alarmsGo, hhalt, halarms]
    rfl
  have hsettle : s.settle = s := by simp [State.settle, hquiet]
  have hfaults := stage_of_windows (foldl_keeps State.windows faultGo_windows (idx 8) s)
  have hready : ((idx 8).foldl State.faultGo s).noteReady = (idx 8).foldl State.faultGo s := by
    rw [State.noteReady, hfaults]
    simp [hstage]
  rw [State.after, hwipe, hback, halarm, fabricGo_idle hentry hposted, hsettle, serveJobs_idle hjobs, hsettle, hready]

/-- What follows an effect that keeps the core of a calm state but for errors, and its windows, keeps the windows too. -/
theorem after_windows {s t : State} (hs : s.calm = true) (h : t.windows.1 = s.windows.1) : t.after.windows = t.windows := by
  have hcalm : ({ t with comps := s.comps } : State).calm = true :=
    (calm_of_core (s := s) (congrArg (fun c : Core => { c with faults := s.core.faults }) h)).trans hs
  rw [after_of_calm_but_faults hcalm]
  exact foldl_keeps State.windows faultGo_windows _ t

theorem window_of_windows {s t : State} (h : t.windows = s.windows) (o : Fin 8) : (t.comps[o.val]).window = (s.comps[o.val]).window := by
  have hcomps : t.comps.map Comp.window = s.comps.map Comp.window := congrArg Prod.snd h
  simpa using congrArg (fun v => v[o.val]) hcomps

@[simp] theorem run_comps (s : State) (f : State → State) : (s.run f).comps = (f s).comps := rfl

/-! ### The commands COMMIT_CUTOFF and LATCH (R174) -/

theorem cutOffAt_window (s : State) (o : Fin 8) (f : Nat) :
    ((s.cutOffAt o f).comps[o.val]).winFrame = f ∧ ((s.cutOffAt o f).comps[o.val]).winOpen = false := by
  unfold State.cutOffAt
  dsimp only
  rw [modComp_comps, upd_same]
  exact ⟨rfl, rfl⟩

theorem cutOffDo_window {s : State} {o : Fin 8} {f : Nat} (hon : (s.outs[o.val]).enabled = true) (hcut : (s.comps[o.val]).lastCut < f) :
    ((s.cutOffDo o f).comps[o.val]).winFrame = f ∧ ((s.cutOffDo o f).comps[o.val]).winOpen = false := by
  have hgoes : ¬ (!(s.outs[o.val]).enabled || decide (f ≤ (s.comps[o.val]).lastCut)) = true := by simp [hon, hcut]
  rw [State.cutOffDo, if_neg hgoes, modBelv_comps]
  exact cutOffAt_window (s.upTo (s.cutPs o f)) o f

theorem exec_commitCutoff_closes {s : State} {o : Fin 8} {f : Nat} (hg : s.Good) (hon : (s.outs[o.val]).enabled = true)
    (hcut : (s.comps[o.val]).lastCut < f) :
    ∃ t, exec (.commitCutoff o f) s = .next t ∧ (t.comps[o.val]).winFrame = f ∧ (t.comps[o.val]).winOpen = false :=
  ⟨_, act_steady hg.2 (cutOffDo_core s o f), cutOffDo_window hon hcut⟩

theorem exec_commitCutoff_idle {s : State} {o : Fin 8} {f : Nat} (hg : s.Good)
    (h : (s.outs[o.val]).enabled = false ∨ f ≤ (s.comps[o.val]).lastCut) : exec (.commitCutoff o f) s = .next s := by
  have hidle : s.cutOffDo o f = s := by
    rw [State.cutOffDo, if_pos]
    rcases h with h | h <;> simp [h]
  exact plain hg hidle rfl rfl rfl rfl

theorem latchDo_windows {s : State} {o : Fin 8} {f : Nat} (hon : (s.outs[o.val]).enabled = true) (hclosed : (s.comps[o.val]).winOpen = false)
    (hframe : (s.comps[o.val]).winFrame = f) : (s.latchDo o f).windows = (s.modComp o (Comp.latched f)).windows := by
  rw [State.latchDo]
  simp only [hon, hclosed, hframe, Bool.not_true, bne_self_eq_false, Bool.or_self, Bool.false_eq_true, if_false]
  exact (latchNow_windows ..).trans (modComp_latched_windows (upTo_windows ..) o f)

theorem exec_latch_opens {s : State} {o : Fin 8} {f : Nat} (hg : s.Good) (hon : (s.outs[o.val]).enabled = true)
    (hclosed : (s.comps[o.val]).winOpen = false) (hframe : (s.comps[o.val]).winFrame = f) :
    ∃ t, exec (.latch o f) s = .next t ∧ (t.comps[o.val]).window = ((s.comps[o.val]).latched f).window := by
  have hlatch := latchDo_windows hon hclosed hframe
  have hcore : (s.latchDo o f).windows.1 = s.windows.1 := (congrArg Prod.fst hlatch :)
  have hafter : (s.latchDo o f).after.windows = (s.modComp o (Comp.latched f)).windows := (after_windows hg.2.2 hcore).trans hlatch
  refine ⟨_, act_of_running hg.2.1 _, ?_⟩
  rw [run_comps, window_of_windows hafter o, modComp_comps, upd_same]

theorem exec_latch_idle {s : State} {o : Fin 8} {f : Nat} (hg : s.Good)
    (h : (s.outs[o.val]).enabled = false ∨ (s.comps[o.val]).winOpen = true) : exec (.latch o f) s = .next s := by
  have hidle : s.latchDo o f = s := by
    rw [State.latchDo]
    rcases h with h | h <;> simp [h]
  exact plain hg hidle rfl rfl rfl rfl

/-- Settles O35: the cut-off closes the window last of all, and what the latch does besides, with the errors that its reads meet, leaves the
windows as they are. -/
theorem cutOffAndLatch : Obligations.CutOffAndLatch := by
  unfold Obligations.CutOffAndLatch
  refine ⟨fun s o f hg => ⟨exec_commitCutoff_closes hg, exec_commitCutoff_idle hg, fun hon hclosed hframe => ?_, exec_latch_idle hg⟩,
    fun s o f g hs hwall hst htarget hfirst hout => ?_⟩
  · obtain ⟨t, hexec, hwindow⟩ := exec_latch_opens hg hon hclosed hframe
    simp only [Comp.window, Comp.latched, Prod.mk.injEq] at hwindow
    obtain ⟨hwinFrame, hwinOpen, hlatchFrame, -, hbgLive⟩ := hwindow
    exact ⟨t, hexec, hwinFrame, hwinOpen, hlatchFrame, hbgLive⟩
  · have h : s.Decides o f g := ⟨hs, hwall, hst, htarget, hfirst, hout⟩
    exact ⟨decidePlain_yes h, fun hno hlast => ⟨g.heldAt f, decidePlain_held h hno hlast, rfl, rfl, rfl, rfl⟩, decidePlain_expired h⟩

end Sys2Proof.Machine
end

section
/-!
SUPPORT. The manager's writes of one register (O12): RESUME (R238), START of an EDID block (R229), TAIL of the log (R641), RETRY and ENABLE of a
link (R297, R308), each behind the wake of its island (R27).
-/
namespace Sys2Proof.Machine
open Sys2Proof

/-! ### Bits, and what a command's stores leave of the state its effect computes -/

theorem getLsbD_putB_same {w : Nat} (v : BitVec w) {k : Nat} (hk : k < w) (b : Bool) : (putB v k b).getLsbD k = b := by
  cases b <;> simp [putB, hk]

@[simp] theorem run_outs (s : State) (f : State → State) : (s.run f).outs = (f s).outs := rfl
@[simp] theorem run_spire (s : State) (f : State → State) : (s.run f).spire = (f s).spire := rfl
@[simp] theorem run_clk (s : State) (f : State → State) : (s.run f).clk = (f s).clk := rfl

/-! ### What a wake leaves unchanged (R27) -/

@[simp] theorem wakeIsland_outs (s : State) (i : Nat) : (s.wakeIsland i).outs = s.outs := by rw [wakeIsland_eq]
@[simp] theorem wakeIsland_spire (s : State) (i : Nat) : (s.wakeIsland i).spire = s.spire := by rw [wakeIsland_eq]
@[simp] theorem wakeIsland_stores (s : State) (i : Nat) : (s.wakeIsland i).stores = s.stores := by rw [wakeIsland_eq]
@[simp] theorem wakeIsland_img (s : State) (i : Nat) : (s.wakeIsland i).img = s.img := by rw [wakeIsland_eq]
@[simp] theorem wakeIsland_pending (s : State) (i : Nat) : (s.wakeIsland i).pending = s.pending := by rw [wakeIsland_eq]

@[simp] theorem wakeIsland_gated (s : State) (i : Nat) : (s.wakeIsland i).clk.gated = s.clk.gated := by
  unfold State.wakeIsland
  split <;> rfl

/-- A write of the manager's that wakes an island, and beside that keeps the core and stores nothing. -/
theorem act_woken {s t : State} {f : State → State} {i : Nat} (hg : s.Good) (h : s.HostTo 0) (e : f s = t)
    (hc : t.core = (s.wakeIsland i).core) (hstores : t.stores = (s.wakeIsland i).stores) (himg : t.img = (s.wakeIsland i).img)
    (hpending : t.pending = (s.wakeIsland i).pending) : act (fun u => u.hostAcc 0 f) s = .next t :=
  plain hg ((hostAcc_on h f).trans e) (hc.trans (wakeIsland_core s i)) (hstores.trans (wakeIsland_stores s i))
    (himg.trans (wakeIsland_img s i)) (hpending.trans (wakeIsland_pending s i))

/-! ### RESUME (R238) -/

theorem resumeAsk_asks {s : State} {o : Fin 8} (hframes : bits (s.outs[o.val]).recover.toNat 15 0 = 0) (hcause : (s.outs[o.val]).cause1 = true) :
    s.resumeAsk o = s.modOut o fun u => { u with resumeReq := true } :=
  modOut_congr (by simp [hframes, hcause])

theorem resumeAsk_ignored {s : State} {o : Fin 8} (h : bits (s.outs[o.val]).recover.toNat 15 0 ≠ 0 ∨ (s.outs[o.val]).cause1 = false) :
    s.resumeAsk o = s := by
  have hno : (bits (s.outs[o.val]).recover.toNat 15 0 == 0 && (s.outs[o.val]).cause1) = false := by
    rcases h with h | h <;> simp [h]
  refine modOut_id ?_
  rw [hno, Bool.or_false]

theorem exec_resume_asks {s : State} {o : Fin 8} (hg : s.Good) (h : s.HostTo 0) (hframes : bits (s.outs[o.val]).recover.toNat 15 0 = 0)
    (hcause : (s.outs[o.val]).cause1 = true) :
    exec (.resume o) s = .next ((s.wakeIsland (islOut o.val)).modOut o fun u => { u with resumeReq := true }) :=
  act_woken hg h (resumeAsk_asks (by rwa [wakeIsland_outs]) (by rwa [wakeIsland_outs])) (modOut_core ..) rfl rfl rfl

theorem exec_resume_ignored {s : State} {o : Fin 8} (hg : s.Good) (h : s.HostTo 0)
    (hno : bits (s.outs[o.val]).recover.toNat 15 0 ≠ 0 ∨ (s.outs[o.val]).cause1 = false) :
    exec (.resume o) s = .next (s.wakeIsland (islOut o.val)) :=
  act_woken hg h (resumeAsk_ignored (by rwa [wakeIsland_outs])) rfl rfl rfl rfl

/-! ### START of an EDID block (R229) -/

theorem edidStart_busy {s : State} {o : Fin 8} (b : BitVec 8) (h : (s.outs[o.val]).edidBusy = true) :
    s.edidStart o b = (s.wakeIsland (islOut o.val)).modOut o fun u => { u with edidBlock := b } := by
  simp [State.edidStart, h]

theorem edidStart_idle {s : State} {o : Fin 8} (b : BitVec 8) (h : (s.outs[o.val]).edidBusy = false) :
    s.edidStart o b = ((s.wakeIsland (islOut o.val)).modOut o fun u =>
      { u with edidBlock := b, edidBusy := true, auxRetries := 0, auxLast := some (edidAcc b) }).emit (auxTx o (edidAcc b)) := by
  simp [State.edidStart, State.auxSend, h, modOut_modOut]

theorem exec_edidStart_busy {s : State} {o : Fin 8} (hg : s.Good) (h : s.HostTo 0) (b : BitVec 8) (hbusy : (s.outs[o.val]).edidBusy = true) :
    exec (.edidStart o b) s = .next ((s.wakeIsland (islOut o.val)).modOut o fun u => { u with edidBlock := b }) :=
  act_woken hg h (edidStart_busy b hbusy) (modOut_core ..) rfl rfl rfl

theorem exec_edidStart_reads {s : State} {o : Fin 8} (hg : s.Good) (h : s.HostTo 0) (b : BitVec 8) (hidle : (s.outs[o.val]).edidBusy = false) :
    exec (.edidStart o b) s = .next (((s.wakeIsland (islOut o.val)).modOut o fun u =>
      { u with edidBlock := b, edidBusy := true, auxRetries := 0, auxLast := some (edidAcc b) }).emit (auxTx o (edidAcc b))) :=
  act_woken hg h (edidStart_idle b hidle) ((emit_core ..).trans (modOut_core ..)) rfl rfl rfl

/-! ### TAIL of the log (R641) -/

theorem setTail_moves {e : Evt} {v : Word} (hgap : gap e.tail (v.setWidth 16) ≤ gap e.tail e.head) (hclear : v.getLsbD 16 = false) :
    e.setTail v = { e with tail := v.setWidth 16 } := by
  have hwb : wb v 16 = false := hclear
  simp only [Evt.setTail, hwb, Bool.false_eq_true, if_false, if_pos hgap]

/-- A TAIL past HEAD is refused; a write of DB_RANGE clears the flag first, and the refusal sets it again. -/
theorem setTail_pastHead {e : Evt} {v : Word} (hgap : gap e.tail e.head < gap e.tail (v.setWidth 16)) : e.setTail v = { e with dbRange := true } := by
  have hno : ¬ gap e.tail (v.setWidth 16) ≤ gap e.tail e.head := by omega
  cases hclear : wb v 16 <;> simp [Evt.setTail, hclear, hno]

theorem exec_logTailWrite {s : State} (hg : s.Good) (h : s.HostTo 0) {v : Word} {e : Evt} (he : s.evt.setTail v = e) :
    exec (.logTailWrite v) s = .next { s.wakeIsland islFabric with evt := e } :=
  act_woken (i := islFabric) hg h (by rw [he]) rfl rfl rfl rfl

/-! ### RETRY and ENABLE of a link (R297, R308) -/

theorem linkRetry_trains {s : State} {l : Fin 12} (h : (s.spire.links[l.val]).st = .disabled) :
    s.linkRetry l = s.modLink l fun k => { k.fresh with st := .train, retrain := false } := by
  simp [State.linkRetry, State.modLink, upd, h]

theorem linkRetry_ignored {s : State} {l : Fin 12} (h : (s.spire.links[l.val]).st ≠ .disabled) : s.linkRetry l = s := by
  simp [State.linkRetry, State.modLink, upd, h]

theorem exec_linkRetry_trains {s : State} {l : Fin 12} (hg : s.Good) (h : s.HostTo 0) (hst : (s.spire.links[l.val]).st = .disabled) :
    exec (.linkRetry l) s = .next ((s.wakeIsland (islLink l.val)).modLink l fun k => { k.fresh with st := .train, retrain := false }) :=
  act_woken hg h (linkRetry_trains (by rwa [wakeIsland_spire])) (modLink_core ..) rfl rfl rfl

theorem exec_linkRetry_ignored {s : State} {l : Fin 12} (hg : s.Good) (h : s.HostTo 0) (hst : (s.spire.links[l.val]).st ≠ .disabled) :
    exec (.linkRetry l) s = .next (s.wakeIsland (islLink l.val)) :=
  act_woken hg h (linkRetry_ignored (by rwa [wakeIsland_spire])) rfl rfl rfl rfl

@[simp] theorem spirePll_spire (s : State) (l : Fin 12) : (s.spirePll l).spire = s.spire := by
  unfold State.spirePll
  split <;> rfl

@[simp] theorem spirePll_run (s : State) (l : Fin 12) : (s.spirePll l).clk.run = s.clk.run := by
  unfold State.spirePll
  split <;> rfl

/-- A link that may train does: off, enabled, paired, and its island not gated for good. -/
theorem linkStart_trains {s : State} {l : Fin 12} (hst : (s.spire.links[l.val]).st = .off) (hen : (s.spire.links[l.val]).enable = true)
    (hpair : (s.spire.pairing l).isSome = true) (hgate : s.clk.gated.getLsbD (23 + l.val) = false) :
    s.linkStart l = ((s.modLink l fun k => { k.fresh with st := .train, retrain := false }).runIsland (23 + l.val) true).spirePll l := by
  unfold State.linkStart
  simp only [hst, hen, hpair, hgate, beq_self_eq_true, Bool.and_self, Bool.not_false, if_true]

theorem linkEnable_trains {s : State} {l : Fin 12} (hst : (s.spire.links[l.val]).st = .off) (hpair : (s.spire.pairing l).isSome = true)
    (hgate : s.clk.gated.getLsbD (23 + l.val) = false) :
    s.linkEnable l true = (((s.modLink l fun k => { k with enable := true }).modLink l fun k =>
      { k.fresh with st := .train, retrain := false }).runIsland (23 + l.val) true).spirePll l :=
  linkStart_trains (by simpa using hst) (by simp) hpair hgate

theorem linkEnable_stops {s : State} {l : Fin 12} (hdown : s.linkUp l = false) :
    s.linkEnable l false = (s.modLink l fun k => { k with enable := false }).modLink l fun k => { k.fresh with st := .off, retrain := false } := by
  have hdown' : (s.modLink l fun k => { k with enable := false }).linkUp l = false := by
    simpa [State.linkUp] using hdown
  simp [State.linkEnable, hdown']

/-- A write of ENABLE that changes it, behind the wake of the link's island. -/
theorem exec_linkEnableWrite {s t : State} {l : Fin 12} {en : Bool} (hg : s.Good) (h : s.HostTo 0)
    (hen : (s.spire.links[l.val]).enable = !en) (e : (s.wakeIsland (islLink l.val)).linkEnable l en = t) (hc : t.core = s.core) :
    ∃ f : State → State, f s = t ∧ exec (.linkEnableWrite l en) s = .next (s.run f) := by
  refine ⟨_, ?_, act_steady hg.2 (?_ : _ = s.core)⟩
  · rw [hostAcc_on h]
    cases en <;> simpa [hen] using e
  · rw [← hc, ← e, hostAcc_on h]
    cases en <;> simp [hen]

theorem exec_linkEnableWrite_trains {s : State} {l : Fin 12} (hg : s.Good) (h : s.HostTo 0) (hen : (s.spire.links[l.val]).enable = false)
    (hst : (s.spire.links[l.val]).st = .off) (hpair : (s.spire.pairing l).isSome = true) (hgate : s.clk.gated.getLsbD (23 + l.val) = false) :
    ∃ t, exec (.linkEnableWrite l true) s = .next t
      ∧ (t.spire.links[l.val]).st = .train ∧ (t.spire.links[l.val]).enable = true ∧ t.clk.run.getLsbD (23 + l.val) = true := by
  have hisland : 23 + l.val < 45 := by omega
  obtain ⟨f, hf, hexec⟩ := exec_linkEnableWrite hg h hen
    (linkEnable_trains (by rwa [wakeIsland_spire]) (by rwa [wakeIsland_spire]) (by rwa [wakeIsland_gated])) (by simp)
  refine ⟨_, hexec, ?_⟩
  rw [run_spire, run_clk, hf]
  refine ⟨by simp [State.runIsland], by simp [State.runIsland, Link.fresh], ?_⟩
  rw [spirePll_run]
  exact getLsbD_putB_same _ hisland true

theorem exec_linkEnableWrite_stops {s : State} {l : Fin 12} (hg : s.Good) (h : s.HostTo 0) (hen : (s.spire.links[l.val]).enable = true)
    (hdown : s.linkUp l = false) :
    ∃ t, exec (.linkEnableWrite l false) s = .next t ∧ (t.spire.links[l.val]).st = .off ∧ (t.spire.links[l.val]).enable = false := by
  have hdown' : (s.wakeIsland (islLink l.val)).linkUp l = false := by rwa [State.linkUp, wakeIsland_spire]
  obtain ⟨f, hf, hexec⟩ := exec_linkEnableWrite hg h hen (linkEnable_stops hdown') (by simp)
  refine ⟨_, hexec, ?_⟩
  rw [run_spire, hf]
  simp [Link.fresh]

/-- Settles O12: each write finds its unit's island awake (R27) and is one change of that unit. -/
theorem managerRegisterWrites : Obligations.ManagerRegisterWrites := by
  unfold Obligations.ManagerRegisterWrites
  intro s hg h
  exact ⟨fun _ => exec_resume_asks hg h, fun _ => exec_resume_ignored hg h, fun _ => exec_edidStart_reads hg h, fun _ => exec_edidStart_busy hg h,
    fun _ hgap hclear => exec_logTailWrite hg h (setTail_moves hgap hclear), fun _ hgap => exec_logTailWrite hg h (setTail_pastHead hgap),
    fun _ => exec_linkRetry_trains hg h, fun _ => exec_linkRetry_ignored hg h, fun _ => exec_linkEnableWrite_trains hg h,
    fun _ hen _ => exec_linkEnableWrite_stops hg h hen⟩

end Sys2Proof.Machine
end

section
/-!
SUPPORT. WRITEBACK and EXPORT with their STOPs (R97, R249, R253, R338). From these O21 is settled.
-/
namespace Sys2Proof.Machine
open Sys2Proof

/-! ### The flag that a row gives its descriptor (R93) -/

@[simp] theorem setFlag_flag (d : Desc) (b : Bool) : (setFlag d 0 b).flags.getLsbD 0 = b := getLsbD_putB_same d.flags (by decide) b

@[simp] theorem ok_setFlag (s : State) (op : BitVec 8) (d : Desc) (k : Nat) (b : Bool) (result : Nat) :
    s.ok op (setFlag d k b) result = s.ok op d result := rfl

@[simp] theorem bad_setFlag (s : State) (op : BitVec 8) (d : Desc) (k : Nat) (b : Bool) (status field : Nat) :
    s.bad op (setFlag d k b) status field = s.bad op d status field := rfl

/-! ### WRITEBACK (R249, R253) -/

theorem beginOp_writeback (s : State) (d : Desc) : s.beginOp { op := 0x07, d } = s.beginWriteback { op := 0x07, d } := rfl

/-- The capture that a WRITEBACK of the viewport mapped as `m` starts. -/
def State.captureOf (s : State) (d : Desc) (m : VMap) : Capture :=
  { pav := d.pav, sq := d.sq, seq := d.seq, view := f8 d.handle.toNat, deferred := false,
    dest := (s.xlate d.pav (dU d 8 8) 1).getD 0, pitch := dU d 16 4, frames := dU d 20 4, ring := dU d 32 2,
    record := (s.xlate d.pav (dU d 24 8) 64).getD 0, rect := m.rect }

/-- What a WRITEBACK with STOP makes of an output: every capture of the viewport is asked to end. -/
def Out.askStop (d : Desc) (u : Out) : Out :=
  { u with caps := u.caps.map fun c =>
      if c.pav == d.pav && c.view == f8 d.handle.toNat then { c with stops := c.stops ++ [(d.sq, d.seq, false)] } else c }

theorem beginWriteback_starts {s : State} {d : Desc} {m : VMap} (hchecks : firstBad (s.writebackChecks d.pav d) = none)
    (hstart : d.flags.getLsbD 0 = false) (hm : ((s.pavs[d.pav.val]).views[(f8 d.handle.toNat).val]).cur = some m) :
    s.beginWriteback { op := 0x07, d } = s.modOut m.out fun u => { u with caps := u.caps ++ [s.captureOf d m] } := by
  unfold State.beginWriteback
  simp only [hchecks, hstart, hm, Bool.false_eq_true, if_false]
  rfl

theorem beginWriteback_stops {s : State} {d : Desc} (hchecks : firstBad (s.writebackChecks d.pav d) = none)
    (hstop : d.flags.getLsbD 0 = true) :
    s.beginWriteback { op := 0x07, d } = (idx 8).foldl (fun t o => t.modOut o (Out.askStop d)) s := by
  unfold State.beginWriteback
  simp only [hchecks, hstop, if_true]
  rfl

theorem exec_writeback_starts {s : State} {d : Desc} {m : VMap} (h : s.Accepts 0x07 (setFlag d 0 false))
    (hchecks : firstBad ((s.started (setFlag d 0 false)).writebackChecks d.pav (setFlag d 0 false)) = none)
    (hm : ((s.pavs[d.pav.val]).views[(f8 d.handle.toNat).val]).cur = some m) :
    exec (.writeback d) s
      = .next (s.doing (setFlag d 0 false) fun t => t.modOut m.out fun u => { u with caps := u.caps ++ [t.captureOf d m] }) :=
  act_accepts h (f := fun t => t.modOut m.out fun u => { u with caps := u.caps ++ [t.captureOf d m] })
    (beginWriteback_starts hchecks (setFlag_flag d false) (by rw [started_views]; exact hm))
    ((modOut_core ..).trans (started_core ..))

/-- One change made of every output. -/
theorem foldl_modOut_outs (f : Out → Out) (s : State) (o : Fin 8) :
    (((idx 8).foldl (fun t n => t.modOut n f) s).outs[o.val]) = f s.outs[o.val] := by
  have hfold (l : List (Fin 8)) (hl : l.Nodup) (t : State) :
      ((l.foldl (fun t n => t.modOut n f) t).outs[o.val]) = if o ∈ l then f t.outs[o.val] else t.outs[o.val] := by
    induction l generalizing t with
    | nil => rfl
    | cons n l ih =>
      obtain ⟨hn, hl⟩ := List.nodup_cons.1 hl
      rw [List.foldl_cons, ih hl]
      by_cases ho : o = n
      · subst ho
        simp [hn]
      · simp [ho, upd_other _ _ _ f ho]
  have hmem : o ∈ idx 8 := List.mem_finRange o
  rw [hfold (idx 8) (List.nodup_finRange 8), if_pos hmem]

theorem exec_writebackStop_asks {s : State} {d : Desc} (h : s.Accepts 0x07 (setFlag d 0 true))
    (hchecks : firstBad ((s.started (setFlag d 0 true)).writebackChecks d.pav (setFlag d 0 true)) = none) :
    exec (.writebackStop d) s
      = .next (s.doing (setFlag d 0 true) fun t => (idx 8).foldl (fun t o => t.modOut o (Out.askStop d)) t) :=
  act_accepts h (f := fun t => (idx 8).foldl (fun t o => t.modOut o (Out.askStop d)) t)
    (beginWriteback_stops hchecks (setFlag_flag d true))
    ((foldl_core (fun t o => modOut_core t o _) ..).trans (started_core ..))

@[simp] theorem doing_outs (s : State) (d : Desc) (f : State → State) : (s.doing d f).outs = (f (s.started d)).outs := rfl

/-! ### EXPORT (R97, R338) -/

theorem beginOp_export (s : State) (d : Desc) : s.beginOp { op := 0x0D, d } = s.beginExport { op := 0x0D, d } := rfl

/-- The export that an EXPORT makes where its handle has no buffer to send: it sends with the first that is latched (R338), or waits for its route. -/
def State.idleExport (s : State) (d : Desc) : Export :=
  { pav := d.pav, sq := d.sq, seq := d.seq, deferred := false, handle := dHandle d, dest := dU d 8 2, expId := dU d 10 2
    paused := decide (12 ≤ s.route (dU d 8 2)), due := decide (12 ≤ s.route (dU d 8 2)) }

/-- A transfer asked of an export whose handle has no buffer: none starts. -/
theorem startXfer_noBuffer {s : State} {k : Nat} {e x : Export} (he : s.spire.exports[k]? = some e) (hbuf : s.latchedBuf e.pav e.handle = none)
    (hx : x = { e with paused := decide (12 ≤ s.route e.dest), due := decide (12 ≤ s.route e.dest) }) :
    s.startXfer k = { s with spire := { s.spire with exports := s.spire.exports.set k x } } := by
  unfold State.startXfer
  simp only [he, hbuf, hx]

theorem beginExport_makes {s : State} {d : Desc} (hstart : d.flags.getLsbD 0 = false) (hdest : dU d 8 2 ≠ s.spire.myId)
    (hbuf : s.latchedBuf d.pav (dHandle d) = none) :
    s.beginExport { op := 0x0D, d } = { s with spire := { s.spire with exports := s.spire.exports ++ [s.idleExport d] } } := by
  have hlast (x : Export) : (s.spire.exports ++ [x]).length - 1 = s.spire.exports.length := by simp
  unfold State.beginExport
  simp only [hstart, hdest, Bool.false_eq_true, if_false, hlast]
  rw [startXfer_noBuffer (x := s.idleExport d) List.getElem?_concat_length (by exact hbuf) rfl]
  simp only [List.set_append_right _ _ (Nat.le_refl _), Nat.sub_self, List.set_cons_zero]

theorem beginExport_toItself {s : State} {d : Desc} (hstart : d.flags.getLsbD 0 = false) (hdest : dU d 8 2 = s.spire.myId) :
    s.beginExport { op := 0x0D, d } = s.bad 0x0D d stBadField 8 := by
  unfold State.beginExport
  simp only [hstart, hdest, Bool.false_eq_true, if_false, if_true]
  rfl

theorem beginExport_ends {s : State} {d : Desc} {e : Export} (hstop : d.flags.getLsbD 0 = true)
    (he : (s.spire.exports.find? fun e => e.is d.pav (dHandle d) (dU d 8 2) (dU d 10 2)) = some e) :
    s.beginExport { op := 0x0D, d } = (s.endExport e).ok 0x0D d 0 := by
  unfold State.beginExport
  simp only [hstop, he, if_true]
  rfl

theorem beginExport_noSuch {s : State} {d : Desc} (hstop : d.flags.getLsbD 0 = true)
    (he : (s.spire.exports.find? fun e => e.is d.pav (dHandle d) (dU d 8 2) (dU d 10 2)) = none) :
    s.beginExport { op := 0x0D, d } = s.bad 0x0D d stBadField 1 := by
  unfold State.beginExport
  simp only [hstop, he, if_true]
  rfl

@[simp] theorem started_route (s : State) (d : Desc) (dest : Nat) : (s.started d).route dest = s.route dest := by
  unfold State.route State.linkUp
  rw [started_spire]

theorem exec_export_makes {s : State} {d : Desc} (h : s.Accepts 0x0D (setFlag d 0 false)) (hdest : dU d 8 2 ≠ s.spire.myId)
    (hbuf : (s.started (setFlag d 0 false)).latchedBuf d.pav (dHandle d) = none) :
    exec (.export_ d) s = .next (s.doing (setFlag d 0 false) fun t =>
      { t with spire := { t.spire with exports := t.spire.exports ++ [s.idleExport d] } }) := by
  refine act_accepts h (f := fun t => { t with spire := { t.spire with exports := t.spire.exports ++ [s.idleExport d] } }) ?_ (by rw [core_mk, started_core])
  rw [beginOp_export, beginExport_makes (setFlag_flag d false) (by rw [started_spire]; exact hdest) hbuf]
  simp only [State.idleExport, started_route]
  rfl

theorem exec_export_toItself {s : State} {d : Desc} (h : s.Accepts 0x0D (setFlag d 0 false)) (hdest : dU d 8 2 = s.spire.myId) :
    exec (.export_ d) s = .next (s.doing (setFlag d 0 false) fun t => t.bad 0x0D d stBadField 8) := by
  refine act_accepts h (f := fun t => t.bad 0x0D d stBadField 8) ?_ (by rw [State.bad, complete_core, started_core])
  rw [beginOp_export, beginExport_toItself (setFlag_flag d false) (by rw [started_spire]; exact hdest), bad_setFlag]

theorem exec_exportStop_ends {s : State} {d : Desc} {e : Export} (h : s.Accepts 0x0D (setFlag d 0 true))
    (he : (s.spire.exports.find? fun e => e.is d.pav (dHandle d) (dU d 8 2) (dU d 10 2)) = some e) :
    exec (.exportStop d) s = .next (s.doing (setFlag d 0 true) fun t => (t.endExport e).ok 0x0D d 0) := by
  refine act_accepts h (f := fun t => (t.endExport e).ok 0x0D d 0) ?_ (by rw [State.ok, completeOk_core, endExport_core, started_core])
  rw [beginOp_export, beginExport_ends (setFlag_flag d true) (by rw [started_spire]; exact he), ok_setFlag]

theorem exec_exportStop_noSuch {s : State} {d : Desc} (h : s.Accepts 0x0D (setFlag d 0 true))
    (he : (s.spire.exports.find? fun e => e.is d.pav (dHandle d) (dU d 8 2) (dU d 10 2)) = none) :
    exec (.exportStop d) s = .next (s.doing (setFlag d 0 true) fun t => t.bad 0x0D d stBadField 1) := by
  refine act_accepts h (f := fun t => t.bad 0x0D d stBadField 1) ?_ (by rw [State.bad, complete_core, started_core])
  rw [beginOp_export, beginExport_noSuch (setFlag_flag d true) (by rw [started_spire]; exact he), bad_setFlag]

/-- Settles O21: what each of the four rows begins, by its STOP flag. -/
theorem writebackAndExport : Obligations.WritebackAndExport := by
  unfold Obligations.WritebackAndExport
  refine ⟨fun s d => ⟨fun m => exec_writeback_starts, fun h hchecks => ⟨_, exec_writebackStop_asks h hchecks, fun o => ?_⟩⟩,
    fun s d => ⟨exec_export_makes, exec_export_toItself, fun e => exec_exportStop_ends, exec_exportStop_noSuch⟩⟩
  rw [doing_outs, foldl_modOut_outs, started_outs]
  rfl

end Sys2Proof.Machine
end

section
/-!
SUPPORT. OUTPUT_DISABLE of an output in training (R256, R564). O27 is refuted from this.
-/
namespace Sys2Proof.Machine
open Sys2Proof

/-- What OUTPUT_MODE with ENABLE = 0 does to an enabled output without a secure layer: its training is abandoned (R256), and the wait for the gate
begins. -/
def State.waitForGate (s : State) (o : Fin 8) (d : Desc) : State :=
  { (s.dropTrain o).modOut o fun u => { u with enableSet := false, job := some { sq := d.sq, seq := d.seq, deferred := false, set := u.set, wait := .gate } }
    with clk := { s.clk with gateWait := putB s.clk.gateWait (15 + o.val) true } }

@[simp] theorem waitForGate_core (s : State) (o : Fin 8) (d : Desc) : (s.waitForGate o d).core = s.core :=
  (core_mk _).trans ((modOut_core ..).trans (dropTrain_core s o))

theorem beginOp_outputMode (s : State) (d : Desc) : s.beginOp { op := 0x23, d } = s.beginOutputMode { op := 0x23, d } := rfl

theorem beginOutputMode_waits {s : State} {d : Desc} {o : Fin 8} (ho : o = f8 d.handle.toNat) (hflag : d.flags.getLsbD 0 = false)
    (hjob : (s.outs[o.val]).job = none) (hon : (s.outs[o.val]).enabled = true) (hsecure : (s.belvs[o.val]).cfg.getLsbD 0 = false) :
    s.beginOutputMode { op := 0x23, d } = s.waitForGate o d := by
  subst ho
  unfold State.beginOutputMode
  simp only [hflag, hjob, hon, hsecure, Bool.not_false, Bool.not_true, Option.isSome_none, Bool.false_eq_true, if_true, if_false]
  rfl

theorem belvs_of_uncharged {s t : State} (h : t.uncharged = s.uncharged) : t.belvs = s.belvs := (congrArg State.belvs h :)

@[simp] theorem started_belvs (s : State) (d : Desc) : (s.started d).belvs = s.belvs := belvs_of_uncharged (started_uncharged s d)

theorem exec_outputDisable_waits {s : State} {d : Desc} {o : Fin 8} (ho : o = f8 d.handle.toNat) (h : s.Accepts 0x23 (setFlag d 0 false))
    (hjob : (s.outs[o.val]).job = none) (hon : (s.outs[o.val]).enabled = true) (hsecure : (s.belvs[o.val]).cfg.getLsbD 0 = false) :
    exec (.outputDisable d) s = .next (s.doing (setFlag d 0 false) fun t => t.waitForGate o (setFlag d 0 false)) := by
  refine act_accepts h (f := fun t => t.waitForGate o (setFlag d 0 false)) ?_ (by rw [waitForGate_core, started_core])
  rw [beginOp_outputMode]
  exact beginOutputMode_waits ho (setFlag_flag d false) (by rwa [started_outs]) (by rwa [started_outs]) (by rwa [started_belvs])

/-- A device that runs whose output 1 is enabled and trains its link again, as after a plug (R221). -/
def retraining : State :=
  { State.reset with
    pavs := upd State.reset.pavs 0 fun v => { v with present := true, ready := true, bme := true, mse := true }
    outs := upd State.reset.outs 1 fun u => { u with enabled := true, training := true }
    clk := { xinOk := true, monTrack := 32768 * 256 }
    pwr := { booted := true, stage := 11 }
    dome := { State.reset.dome with st := .run, watermark := Vector.replicate 3 0 } }

/-- OUTPUT_MODE with ENABLE = 0 for output 1. -/
def disabling : Desc := { pav := 0, sq := 0, flags := 0, seq := 5, handle := 1, payload := 0 }

set_option exponentiation.threshold 500 in
theorem retraining_accepts : retraining.Accepts 0x23 (setFlag disabling 0 false) := by
  rw [State.Accepts, State.BeginsAtOnce, State.Good, State.Inv, State.Steady]
  decide

/-- Refutes O27: OUTPUT_MODE with ENABLE = 0 abandons a training of its output (`State.beginOutputMode`, which cites R256). In `retraining` output 1
trains no longer afterwards, where the statement changes ENABLE, the job and the wait for the gate alone. -/
theorem not_outputDescriptors : ¬ Obligations.OutputDescriptors := by
  unfold Obligations.OutputDescriptors
  intro h
  obtain ⟨-, hdisable⟩ := h retraining disabling (setFlag disabling 0 false) 1 rfl
  obtain ⟨-, hwaits⟩ := hdisable rfl retraining_accepts rfl
  have hstated := hwaits rfl rfl
  rw [exec_outputDisable_waits rfl retraining_accepts rfl rfl rfl, Host.Outcome.next.injEq] at hstated
  have htraining := congrArg (fun t : State => (t.outs[1]).training) hstated
  simp only [doing_outs, State.waitForGate, State.dropTrain, modOut_outs, started_outs] at htraining
  exact absurd htraining (by decide)

end Sys2Proof.Machine
end

section
/-!
SUPPORT. A frame whose first line is fetched in the step of its FRAME_START (R163, R234, R250). O34 is refuted from this.
-/
namespace Sys2Proof.Machine
open Sys2Proof

/-- A capture of Pavilion 1's viewport 0 whose records stand in the Orangery. -/
def recordedCapture : Capture :=
  { pav := 1, sq := 0, seq := 3, view := 0, deferred := false, dest := 0x10000, pitch := 256, frames := 0, ring := 1, record := 0x8000
    rect := { x0 := 0, y0 := 0, x1 := 64, y1 := 64 } }

/-- A device that runs, 1 ns after the start of frame 0 on its grid. Output 0 is enabled and captured; its Belvedere slot shows a buffer of 64 by 64
pixels at 0x1000 in the Orangery, whose first word cannot be corrected. -/
def unreadable : State :=
  { State.reset with
    outs := upd State.reset.outs 0 fun u => { u with enabled := true, caps := [recordedCapture] }
    belvs := upd State.reset.belvs 0 fun b => { b with
      cfg := 1, size := 0x00400040, bufBase := 0x1000, cur := some { half := 0, time := 0, digest := 0, expected := 0 } }
    poison := [(.org, 0x1000)]
    spire := { State.reset.spire with now := 1 }
    clk := { xinOk := true, monTrack := 32768 * 256 }
    pwr := { booted := true, stage := 11 }
    dome := { State.reset.dome with st := .run, watermark := Vector.replicate 3 0 } }

theorem unreadable_good : unreadable.Good := by
  rw [State.Good, State.Inv, State.Steady]
  decide

theorem exec_frameStart_of_running {s : State} (h : s.pwr.reset = .running) (o : Fin 8) (f : Nat) (err : Int) :
    exec (.frameStart o f err) s = .next (s.run fun u => (u.frameStart o f err).after) :=
  act_of_running h _

set_option maxRecDepth 2000 in
/-- The write of VALID into the capture's record fetches line 0 first, which meets the error. -/
theorem unreadable_underruns : ((unreadable.run fun u => (u.frameStart 0 0 0).after).outs[0]).underrunAt = some 0 := by decide

/-- Refutes O34: a frame can underrun in the very step of its FRAME_START (R234). In `unreadable` the capture's record is written as line 0 begins
(R250), and what is fetched by then is taken first (R163): line 0 meets an uncorrectable error, and the frame is aborted there. The first clause says
that no line of the frame is aborted. -/
theorem not_frameStart : ¬ Obligations.FrameStart := by
  unfold Obligations.FrameStart
  intro h
  obtain ⟨hstart, -⟩ := h
  obtain ⟨hscans, -, -⟩ := hstart unreadable 0 0 0 unreadable_good
  obtain ⟨t, hexec, -, -, -, -, -, hnone⟩ := hscans rfl rfl rfl (Nat.zero_le _)
  rw [exec_frameStart_of_running rfl, Host.Outcome.next.injEq] at hexec
  rw [← hexec] at hnone
  exact absurd (unreadable_underruns.symm.trans hnone) (by decide)

end Sys2Proof.Machine
end

section
/-!
SUPPORT. A line of the safe frame with two words that cannot be corrected (R437, R440). O37 is refuted from this.
-/
namespace Sys2Proof.Machine
open Sys2Proof

/-- A device that runs whose output 0 scans its safe frame. Two words of the image's line 1 cannot be corrected. -/
def twiceBad : State :=
  { State.reset with
    outs := upd State.reset.outs 0 fun u => { u with enabled := true, scanning := true, safe := true }
    keep := { State.reset.keep with sfVerified := 1 }
    poison := [(.keep, sfBase 0 + 0x800 + 960), (.keep, sfBase 0 + 0x800 + 968)]
    clk := { xinOk := true, monTrack := 32768 * 256 }
    pwr := { booted := true, stage := 11 }
    dome := { State.reset.dome with st := .run, watermark := Vector.replicate 3 0 } }

theorem twiceBad_good : twiceBad.Good := by
  rw [State.Good, State.Inv, State.Steady]
  decide

theorem twiceBad_permits : twiceBad.permit 9 true .keep (sfBase 0 + 0x800 + 1 * 960) 960 false = true := by decide

theorem twiceBad_poisoned : twiceBad.poisoned .keep (sfBase 0 + 0x800 + 1 * 960) 960 = true := by decide

theorem exec_safeFrameLineRead_of_running {s : State} (h : s.pwr.reset = .running) (o : Fin 8) (line : Nat) :
    exec (.safeFrameLineRead o line) s = .next (s.run fun u => (u.safeLine o line).after) :=
  act_of_running h _

set_option maxRecDepth 2000 in
theorem twiceBad_counts_two : (twiceBad.run fun u => (u.safeLine 0 1).after).keep.ue = 2 := by decide

/-- Refutes O37: the Keep counts every word that cannot be corrected (R437), not one for each read. In `twiceBad` line 1 of the safe frame has two: the
read counts both, where the clause of SAFE_FRAME_LINE_READ counts one. -/
theorem not_linesAndFreshness : ¬ Obligations.LinesAndFreshness := by
  unfold Obligations.LinesAndFreshness
  intro h
  obtain ⟨-, -, -, hlines, -⟩ := h
  obtain ⟨-, hread⟩ := hlines twiceBad 0 1 twiceBad_good
  obtain ⟨-, hbad⟩ := hread rfl rfl rfl (by decide) twiceBad_permits
  obtain ⟨t, hexec, -, hcount⟩ := hbad twiceBad_poisoned
  rw [exec_safeFrameLineRead_of_running rfl, Host.Outcome.next.injEq] at hexec
  rw [← hexec] at hcount
  have hone : satInc twiceBad.keep.ue = 1 := by decide
  exact absurd (twiceBad_counts_two.symm.trans (hcount.trans hone)) (by decide)

end Sys2Proof.Machine
end

section
/-!
SUPPORT. What an output's events and the start of a training leave unchanged (R221, R244, R245).
-/
namespace Sys2Proof.Machine
open Sys2Proof

@[simp] theorem run_tx (s : State) (f : State → State) : (s.run f).tx = (f s).tx := rfl

/-! ### The outputs and the running islands through an event (R27, R244, R245) -/

theorem outs_of_unnoticed {s t : State} (h : t.unnoticed = s.unnoticed) : t.outs = s.outs := (congrArg State.outs h :)

@[simp] theorem outEv_outs (s : State) (o : Fin 8) (code frame detail : Nat) : (s.outEv o code frame detail).outs = s.outs :=
  outs_of_unnoticed (raise_unnoticed ..)

/-- A wake stops no island. -/
theorem wakeIsland_keepsRun {s : State} {i : Nat} (h : s.clk.run.getLsbD i = true) (k : Nat) : (s.wakeIsland k).clk.run.getLsbD i = true := by
  unfold State.wakeIsland
  split
  next => exact h
  next => simp only [State.runIsland, putB, if_true, BitVec.getLsbD_or, h, Bool.true_or]

theorem wakeIsland_run (s : State) {i : Nat} (hi : i < 45) : (s.wakeIsland i).clk.run.getLsbD i = true := by
  unfold State.wakeIsland
  split
  next hrun => exact hrun
  next => exact getLsbD_putB_same _ hi true

theorem clk_of_uncharged {s t : State} (h : t.uncharged = s.uncharged) : t.clk = s.clk := (congrArg State.clk h :)

@[simp] theorem safeOut_clk (s : State) (e : Ev) : (s.safeOut e).clk = s.clk := clk_of_uncharged (safeOut_uncharged s e)
@[simp] theorem eqPost_clk (s : State) (p : Fin 64) (e : Ev) : (s.eqPost p e).clk = s.clk := clk_of_uncharged (eqPost_uncharged s p e)
@[simp] theorem noteOne_clk (s : State) (p : Fin 64) (k : Fin 4) : (s.noteOne p k).clk = s.clk := clk_of_uncharged (noteOne_uncharged s p k)

@[simp] theorem deliver_clk (s : State) (p : Fin 64) (e : Ev) : (s.deliver p e).clk = s.clk := by
  unfold State.deliver
  simp [apply_ite State.clk, State.noteQuota, State.eqLose, State.modEq]

@[simp] theorem stCells_clk (s : State) (m : MemId) (a : Nat) (l : List Byte) : (s.stCells m a l).clk = s.clk := by
  unfold State.stCells
  refine foldl_keeps State.clk (fun t b => ?_) _ s
  rfl

@[simp] theorem logStore_clk (s : State) (i : Nat) (l : List Byte) :
    (s.logStore i l).clk = ((s.wakeIsland islFabric).wakeIsland islOrg).clk := by
  unfold State.logStore
  dsimp only
  split
  next => exact stCells_clk ..
  next => exact deliver_clk ..

theorem logWrite_keepsRun {s : State} {i : Nat} (h : s.clk.run.getLsbD i = true) (e : Ev) : (s.logWrite e).clk.run.getLsbD i = true := by
  have hstore (t : State) (ht : t.clk = s.clk) (n : Nat) (l : List Byte) : (t.logStore n l).clk.run.getLsbD i = true := by
    rw [logStore_clk]
    exact wakeIsland_keepsRun (wakeIsland_keepsRun (by rwa [ht]) _) _
  unfold State.logWrite
  split
  next => exact h
  next =>
    extract_lets full evt0 s1 s2 evt2 s3 ev evt3
    have hs1 : s1.clk = s.clk := by
      simp only [s1]
      split <;> rfl
    split
    next => rw [deliver_clk, safeOut_clk]; exact hstore s1 hs1 _ _
    next => exact hstore s1 hs1 _ _

/-- The report of an event stops no island. -/
theorem raise_keepsRun {s : State} {i : Nat} (h : s.clk.run.getLsbD i = true) (e : Ev) (dests : List (Fin 64 × Ev)) :
    (s.raise e dests).clk.run.getLsbD i = true := by
  rw [State.raise, State.raiseAs, foldl_keeps State.clk fun _ _ => deliver_clk .., safeOut_clk]
  exact logWrite_keepsRun h _

/-! ### PVALID (R240, R242) -/

@[simp] theorem pvFall_hpd (u : Out) : u.pvFall.hpd = u.hpd := rfl
@[simp] theorem pvFall_training (u : Out) : u.pvFall.training = u.training := rfl
@[simp] theorem pvFall_trained (u : Out) : u.pvFall.trained = u.trained := rfl
@[simp] theorem pvFall_failStage (u : Out) : u.pvFall.failStage = u.failStage := rfl
@[simp] theorem pvFall_fail (u : Out) : u.pvFall.fail = u.fail := rfl
@[simp] theorem pvFall_pvalid (u : Out) : u.pvFall.pvalid = (u.pvalid && u.pvWant) := rfl

theorem pvWant_of_untrained {u : Out} (h : u.trained = false) : u.pvWant = false := by simp [Out.pvWant, h]

theorem pvWant_of_unplugged {u : Out} (h : u.hpd = false) : u.pvWant = false := by simp [Out.pvWant, h]

/-! ### The start of a training (R221) -/

@[simp] theorem sendLines_outs (s : State) (o : Fin 8) (n : Nat) : (s.sendLines o n).outs = s.outs := by
  unfold State.sendLines
  dsimp only
  split <;> rfl

@[simp] theorem sendLines_clk (s : State) (o : Fin 8) (n : Nat) : (s.sendLines o n).clk = s.clk := by
  unfold State.sendLines
  dsimp only
  split <;> rfl

/-- Things sent one after another. -/
theorem foldl_emit (l : List Tx) (s : State) : l.foldl State.emit s = { s with tx := l.reverse ++ s.tx } := by
  induction l generalizing s with
  | nil => rfl
  | cons x l ih => rw [List.foldl_cons, ih, List.reverse_cons, List.append_assoc]; rfl

/-- The stream of an output is off once it is stopped. -/
@[simp] theorem stopStream_outs (s : State) (o : Fin 8) (n : Nat) (x : List Tx) :
    (s.stopStream o n x).outs = upd s.outs o fun u => { u with stream := false } := by
  have hsent (b : Bool) : (if b then s.sendLines o n else s).outs = s.outs := by cases b <;> simp
  unfold State.stopStream
  dsimp only
  split
  next => rw [foldl_emit, modOut_outs, hsent]
  next hoff =>
    rw [hsent, upd_id]
    simp only [Bool.not_eq_true] at hoff
    rw [← hoff]

@[simp] theorem stopStream_clk (s : State) (o : Fin 8) (n : Nat) (x : List Tx) : (s.stopStream o n x).clk = s.clk := by
  have hsent (b : Bool) : (if b then s.sendLines o n else s).clk = s.clk := by cases b <;> simp
  unfold State.stopStream
  dsimp only
  split
  next => rw [foldl_emit, modOut_clk, hsent]
  next => exact hsent _

/-- An output as step 1 of R221 leaves it. -/
def Out.trainBegun (u : Out) : Out :=
  { ({ u with stream := false, training := true, trained := false, auxDone := 0 } : Out).pvFall with auxRetries := 0, auxLast := some (.write 0x600 0x01) }

theorem startTrain_outs {s : State} {o : Fin 8} (h : ((s.outs[o.val]).on && (s.outs[o.val]).hpd) = true) :
    (s.startTrain o).outs = upd s.outs o Out.trainBegun := by
  simp only [State.startTrain, h, Bool.not_true, Bool.false_eq_true, if_false, State.auxSend, State.emit, modOut_outs, stopStream_outs, upd_upd]
  rfl

theorem startTrain_out {s : State} {o : Fin 8} (h : ((s.outs[o.val]).on && (s.outs[o.val]).hpd) = true) :
    ((s.startTrain o).outs[o.val]) = (s.outs[o.val]).trainBegun := by
  simp only [startTrain_outs h, upd_same]

theorem startTrain_idle {s : State} {o : Fin 8} (h : ((s.outs[o.val]).on && (s.outs[o.val]).hpd) = false) : s.startTrain o = s := by
  simp only [State.startTrain, h, Bool.not_false, if_true]

@[simp] theorem startTrain_clk (s : State) (o : Fin 8) : (s.startTrain o).clk = s.clk := by
  unfold State.startTrain
  split
  next => rfl
  next => rw [State.auxSend, emit_clk, modOut_clk, modOut_clk, stopStream_clk]

end Sys2Proof.Machine
end

section
/-!
SUPPORT. HPD_PLUG, HPD_UNPLUG and HPD_IRQ (R221, R226 to R228).
-/
namespace Sys2Proof.Machine
open Sys2Proof

/-! ### HPD_PLUG and HPD_UNPLUG (R221, R226, R228) -/

theorem islOut_lt (o : Fin 8) : islOut o.val < 45 := by
  unfold islOut
  omega

theorem hpdPlug_plugged {s : State} {o : Fin 8} (h : (s.outs[o.val]).hpd = true) : s.hpdPlug o = s := by
  simp only [State.hpdPlug, h, if_true]

/-- The state in which a plug looks for a training to start: HPD is high and reported. -/
def State.plugged (s : State) (o : Fin 8) : State :=
  ((s.wakeIsland (islOut o.val)).modOut o fun u => { u with hpd := true }).outEv o evHpd 0 1

theorem hpdPlug_unplugged {s : State} {o : Fin 8} (h : (s.outs[o.val]).hpd = false) : s.hpdPlug o = (s.plugged o).startTrain o := by
  simp only [State.hpdPlug, h, Bool.false_eq_true, if_false]
  rfl

theorem plugged_outs (s : State) (o : Fin 8) : (s.plugged o).outs = upd s.outs o fun u => { u with hpd := true } := by
  rw [State.plugged, outEv_outs, modOut_outs, wakeIsland_outs]

theorem plugged_run (s : State) (o : Fin 8) : (s.plugged o).clk.run.getLsbD (islOut o.val) = true :=
  raise_keepsRun (s := (s.wakeIsland (islOut o.val)).modOut o fun u => { u with hpd := true }) (wakeIsland_run s (islOut_lt o)) ..

theorem exec_hpdPlug_plugs {s : State} {o : Fin 8} (hg : s.Good) (h : (s.outs[o.val]).hpd = false) :
    ∃ t, exec (.hpdPlug o) s = .next t ∧ (t.outs[o.val]).hpd = true
      ∧ (t.outs[o.val]).training = ((s.outs[o.val]).training || (s.outs[o.val]).on) ∧ t.clk.run.getLsbD (islOut o.val) = true := by
  refine ⟨_, act_steady hg.2 (hpdPlug_core s o), ?_⟩
  have hout : ((s.plugged o).outs[o.val]) = { s.outs[o.val] with hpd := true } := by rw [plugged_outs, upd_same]
  have hsame : ((s.plugged o).outs[o.val]).on = (s.outs[o.val]).on := by rw [hout]; rfl
  rw [run_outs, run_clk, hpdPlug_unplugged h, startTrain_clk]
  cases hon : (s.outs[o.val]).on
  · rw [startTrain_idle (by rw [hsame, hon, Bool.false_and]), hout]
    exact ⟨rfl, (Bool.or_false _).symm, plugged_run s o⟩
  · rw [startTrain_outs (by rw [hsame, hon, hout]; rfl), upd_same, hout]
    exact ⟨rfl, (Bool.or_true _).symm, plugged_run s o⟩

theorem exec_hpdPlug_again {s : State} {o : Fin 8} (hg : s.Good) (h : (s.outs[o.val]).hpd = true) : exec (.hpdPlug o) s = .next s :=
  plain hg (hpdPlug_plugged h) rfl rfl rfl rfl

theorem hpdUnplug_unplugged {s : State} {o : Fin 8} (h : (s.outs[o.val]).hpd = false) : s.hpdUnplug o = s := by
  simp only [State.hpdUnplug, h, Bool.not_false, if_true]

theorem hpdUnplug_out {s : State} {o : Fin 8} (h : (s.outs[o.val]).hpd = true) :
    ((s.hpdUnplug o).outs[o.val]).hpd = false ∧ ((s.hpdUnplug o).outs[o.val]).training = false ∧ ((s.hpdUnplug o).outs[o.val]).pvalid = false := by
  unfold State.hpdUnplug
  simp only [h, Bool.not_true, Bool.false_eq_true, if_false, outEv_outs, modOut_outs, upd_same]
  refine ⟨rfl, rfl, ?_⟩
  rw [pvFall_pvalid, pvWant_of_unplugged rfl, Bool.and_false]

theorem exec_hpdUnplug_unplugs {s : State} {o : Fin 8} (hg : s.Good) (h : (s.outs[o.val]).hpd = true) :
    ∃ t, exec (.hpdUnplug o) s = .next t ∧ (t.outs[o.val]).hpd = false ∧ (t.outs[o.val]).training = false ∧ (t.outs[o.val]).pvalid = false :=
  ⟨_, act_steady hg.2 (hpdUnplug_core s o), hpdUnplug_out h⟩

theorem exec_hpdUnplug_again {s : State} {o : Fin 8} (hg : s.Good) (h : (s.outs[o.val]).hpd = false) : exec (.hpdUnplug o) s = .next s :=
  plain hg (hpdUnplug_unplugged h) rfl rfl rfl rfl

/-! ### HPD_IRQ (R226, R227) -/

/-- An HPD_IRQ counted and reported. -/
def State.irqSeen (s : State) (o : Fin 8) : State :=
  ((s.wakeIsland (islOut o.val)).modOut o fun u => { u with irqs := satInc16 u.irqs }).outEv o evHpd 0 3

/-- An access that serves an HPD_IRQ: beside a training, which keeps its own access, or as the one that waits for its reply. -/
def State.irqSend (s : State) (o : Fin 8) (training : Bool) (x : AuxAcc) : State :=
  if training then s.emit (auxTx o x) else (s.modOut o fun u => { u with auxOp := some x }).auxSend x o

/-- The status of the sink has come: the interrupts that it shows are cleared. -/
def State.irqClear (s : State) (o : Fin 8) (training : Bool) (status : BitVec 64) : State :=
  let t := if training then s else s.modOut o fun u => { u with auxOp := none }
  if uAt status.toNat 1 1 = 0 then t else t.irqSend o training (.write 0x201 (uAt status.toNat 1 1))

/-- The accesses of an HPD_IRQ on an output that is on: the status is read, and where it comes it is served. -/
def State.irqServe (s : State) (o : Fin 8) (training : Bool) (status : Option (BitVec 64)) : State :=
  match status with
  | none => s.irqSend o training (.read 0x200 8)
  | some st => (s.irqSend o training (.read 0x200 8)).irqClear o training st

/-- Whether an HPD_IRQ leaves the link as it is: it trains already, or the lanes keep their lock (R227). -/
def Out.irqKeeps (u : Out) (status : Option (BitVec 64)) : Bool :=
  u.training || u.trained && (match status with | none => true | some st => !lockLost u.set.lanes st)

theorem hpdIrq_unplugged {s : State} {o : Fin 8} (h : (s.outs[o.val]).hpd = false) (status : Option (BitVec 64)) : s.hpdIrq o status = s := by
  simp only [State.hpdIrq, h, Bool.not_false, if_true]

theorem hpdIrq_off {s : State} {o : Fin 8} (h : (s.outs[o.val]).hpd = true) (hon : (s.outs[o.val]).on = false) (status : Option (BitVec 64)) :
    s.hpdIrq o status = s.irqSeen o := by
  simp only [State.hpdIrq, h, hon, Bool.not_true, Bool.not_false, Bool.false_eq_true, if_false, if_true]
  rfl

theorem hpdIrq_on {s : State} {o : Fin 8} (h : (s.outs[o.val]).hpd = true) (hon : (s.outs[o.val]).on = true) (status : Option (BitVec 64)) :
    s.hpdIrq o status =
      if (s.outs[o.val]).irqKeeps status then (s.irqSeen o).irqServe o (s.outs[o.val]).training status
      else ((s.irqSeen o).irqServe o (s.outs[o.val]).training status).startTrain o := by
  simp only [State.hpdIrq, h, hon, Bool.not_true, Bool.false_eq_true, if_false]
  cases status with
  | none => simp only [Out.irqKeeps, Bool.and_true]; rfl
  | some st => rfl

/-- What of an output decides over a training at an HPD_IRQ, and what the interrupt counts. -/
def Out.linkSeen (u : Out) : BitVec 16 × Bool × Bool × Bool × Bool := (u.irqs, u.hpd, u.on, u.training, u.trained)

theorem irqSend_linkSeen (s : State) (o : Fin 8) (training : Bool) (x : AuxAcc) :
    ((s.irqSend o training x).outs[o.val]).linkSeen = (s.outs[o.val]).linkSeen := by
  unfold State.irqSend
  split
  next => rfl
  next => simp only [State.auxSend, State.emit, modOut_outs, upd_same]; rfl

@[simp] theorem irqSend_clk (s : State) (o : Fin 8) (training : Bool) (x : AuxAcc) : (s.irqSend o training x).clk = s.clk := by
  unfold State.irqSend
  split <;> rfl

theorem irqClear_linkSeen (s : State) (o : Fin 8) (training : Bool) (status : BitVec 64) :
    ((s.irqClear o training status).outs[o.val]).linkSeen = (s.outs[o.val]).linkSeen := by
  unfold State.irqClear
  extract_lets t
  have hanswered : (t.outs[o.val]).linkSeen = (s.outs[o.val]).linkSeen := by
    cases training
    · simp only [t, Bool.false_eq_true, if_false, modOut_outs, upd_same]
      rfl
    · rfl
  clear_value t
  split
  next => exact hanswered
  next => exact (irqSend_linkSeen ..).trans hanswered

theorem irqServe_linkSeen (s : State) (o : Fin 8) (training : Bool) (status : Option (BitVec 64)) :
    ((s.irqServe o training status).outs[o.val]).linkSeen = (s.outs[o.val]).linkSeen := by
  cases status with
  | none => exact irqSend_linkSeen ..
  | some st => exact (irqClear_linkSeen ..).trans (irqSend_linkSeen ..)

@[simp] theorem irqClear_clk (s : State) (o : Fin 8) (training : Bool) (status : BitVec 64) : (s.irqClear o training status).clk = s.clk := by
  unfold State.irqClear
  cases training <;> simp [apply_ite State.clk]

@[simp] theorem irqServe_clk (s : State) (o : Fin 8) (training : Bool) (status : Option (BitVec 64)) :
    (s.irqServe o training status).clk = s.clk := by
  cases status <;> simp [State.irqServe]

@[simp] theorem irqSend_core (s : State) (o : Fin 8) (training : Bool) (x : AuxAcc) : (s.irqSend o training x).core = s.core := by
  unfold State.irqSend
  cases training <;> simp [State.auxSend]

@[simp] theorem irqClear_core (s : State) (o : Fin 8) (training : Bool) (status : BitVec 64) : (s.irqClear o training status).core = s.core := by
  unfold State.irqClear
  cases training <;> simp [apply_ite State.core]

@[simp] theorem irqServe_core (s : State) (o : Fin 8) (training : Bool) (status : Option (BitVec 64)) :
    (s.irqServe o training status).core = s.core := by
  cases status <;> simp [State.irqServe]

@[simp] theorem irqSeen_core (s : State) (o : Fin 8) : (s.irqSeen o).core = s.core := by simp [State.irqSeen]

theorem irqSeen_outs (s : State) (o : Fin 8) : (s.irqSeen o).outs = upd s.outs o fun u => { u with irqs := satInc16 u.irqs } := by
  rw [State.irqSeen, outEv_outs, modOut_outs, wakeIsland_outs]

theorem irqSeen_run (s : State) (o : Fin 8) : (s.irqSeen o).clk.run.getLsbD (islOut o.val) = true :=
  raise_keepsRun (s := (s.wakeIsland (islOut o.val)).modOut o fun u => { u with irqs := satInc16 u.irqs }) (wakeIsland_run s (islOut_lt o)) ..

/-- The state in which an HPD_IRQ looks for a training to start has the link as it was and the interrupt counted. -/
theorem irqServe_irqSeen_linkSeen (s : State) (o : Fin 8) (status : Option (BitVec 64)) :
    (((s.irqSeen o).irqServe o (s.outs[o.val]).training status).outs[o.val]).linkSeen
      = (satInc16 (s.outs[o.val]).irqs, (s.outs[o.val]).hpd, (s.outs[o.val]).on, (s.outs[o.val]).training, (s.outs[o.val]).trained) := by
  rw [irqServe_linkSeen, irqSeen_outs, upd_same]
  rfl

/-- What an HPD_IRQ leaves of a plugged output that is on. -/
theorem hpdIrq_out {s : State} {o : Fin 8} (h : (s.outs[o.val]).hpd = true) (hon : (s.outs[o.val]).on = true) (status : Option (BitVec 64)) :
    ((s.hpdIrq o status).outs[o.val]).irqs = satInc16 (s.outs[o.val]).irqs ∧ ((s.hpdIrq o status).outs[o.val]).hpd = true
      ∧ ((s.hpdIrq o status).outs[o.val]).training = ((s.outs[o.val]).training || !(s.outs[o.val]).irqKeeps status)
      ∧ ((s.hpdIrq o status).outs[o.val]).trained = ((s.outs[o.val]).trained && (s.outs[o.val]).irqKeeps status) := by
  have hseen := irqServe_irqSeen_linkSeen s o status
  simp only [Out.linkSeen, Prod.mk.injEq, h, hon] at hseen
  obtain ⟨hirqs, hhpd, hon', htraining, htrained⟩ := hseen
  rw [hpdIrq_on h hon]
  cases (s.outs[o.val]).irqKeeps status
  · simp only [Bool.false_eq_true, if_false, startTrain_out (show (_ && _) = true by rw [hon', hhpd]; rfl)]
    exact ⟨hirqs, hhpd, by simp [Out.trainBegun], by simp [Out.trainBegun]⟩
  · exact ⟨hirqs, hhpd, by simpa using htraining, by simpa using htrained⟩

theorem hpdIrq_run {s : State} {o : Fin 8} (h : (s.outs[o.val]).hpd = true) (status : Option (BitVec 64)) :
    (s.hpdIrq o status).clk.run.getLsbD (islOut o.val) = true := by
  cases hon : (s.outs[o.val]).on
  · rw [hpdIrq_off h hon]
    exact irqSeen_run s o
  · rw [hpdIrq_on h hon]
    split
    next => rw [irqServe_clk]; exact irqSeen_run s o
    next => rw [startTrain_clk, irqServe_clk]; exact irqSeen_run s o

theorem hpdIrq_core {s : State} {o : Fin 8} (h : (s.outs[o.val]).hpd = true) (status : Option (BitVec 64)) : (s.hpdIrq o status).core = s.core := by
  cases hon : (s.outs[o.val]).on
  · rw [hpdIrq_off h hon, irqSeen_core]
  · rw [hpdIrq_on h hon, apply_ite State.core, startTrain_core, ite_self, irqServe_core, irqSeen_core]

theorem exec_hpdIrq_unplugged {s : State} {o : Fin 8} (hg : s.Good) (h : (s.outs[o.val]).hpd = false) (status : Option (BitVec 64)) :
    exec (.hpdIrq o status) s = .next s :=
  plain hg (hpdIrq_unplugged h status) rfl rfl rfl rfl

theorem exec_hpdIrq_counts {s : State} {o : Fin 8} (hg : s.Good) (h : (s.outs[o.val]).hpd = true) (status : Option (BitVec 64)) :
    ∃ t, exec (.hpdIrq o status) s = .next t ∧ (t.outs[o.val]).irqs = satInc16 (s.outs[o.val]).irqs ∧ (t.outs[o.val]).hpd = true
      ∧ t.clk.run.getLsbD (islOut o.val) = true := by
  refine ⟨_, act_steady hg.2 (hpdIrq_core h status), ?_⟩
  rw [run_outs, run_clk]
  cases hon : (s.outs[o.val]).on
  · refine ⟨?_, ?_, hpdIrq_run h status⟩ <;> rw [hpdIrq_off h hon, irqSeen_outs, upd_same]
    exact h
  · obtain ⟨hirqs, hhpd, -, -⟩ := hpdIrq_out h hon status
    exact ⟨hirqs, hhpd, hpdIrq_run h status⟩

theorem exec_hpdIrq_relocks {s : State} {o : Fin 8} (hg : s.Good) (status : BitVec 64) (h : (s.outs[o.val]).hpd = true)
    (hon : (s.outs[o.val]).on = true) (htrained : (s.outs[o.val]).trained = true) (htraining : (s.outs[o.val]).training = false) :
    ∃ t, exec (.hpdIrq o (some status)) s = .next t ∧ (t.outs[o.val]).training = lockLost (s.outs[o.val]).set.lanes status
      ∧ (t.outs[o.val]).trained = !lockLost (s.outs[o.val]).set.lanes status := by
  refine ⟨_, act_steady hg.2 (hpdIrq_core h _), ?_⟩
  obtain ⟨-, -, ht, hd⟩ := hpdIrq_out h hon (some status)
  simp only [Out.irqKeeps, htrained, htraining, Bool.false_or, Bool.true_and, Bool.not_not] at ht hd
  exact ⟨ht, hd⟩

end Sys2Proof.Machine
end

section
/-!
SUPPORT. AUX_TIMEOUT, LINK_TRAINING_COMPLETE, TRAIN_RETRY_TIMER and EDID_READ_DONE (R221 to R225, R229). From these O38 is settled.
-/
namespace Sys2Proof.Machine
open Sys2Proof

/-! ### AUX_TIMEOUT (R224) -/

/-- Whether an access without a reply is one that the output waits for: of its training, of its EDID read, or of an HPD_IRQ. -/
def Out.auxAwaits (u : Out) (x : AuxAcc) : Bool := u.training && isTrainAcc x || u.edidBusy && x == edidAcc u.edidBlock || u.auxOp == some x

theorem foldl_emitAux (o : Fin 8) (l : List AuxAcc) (s : State) :
    l.foldl (fun t x => t.emit (auxTx o x)) s = { s with tx := (l.map (auxTx o)).reverse ++ s.tx } := by
  rw [← foldl_emit, List.foldl_map]

theorem auxAwaits_of_train {u : Out} {x : AuxAcc} (htraining : u.training = true) (hx : isTrainAcc x = true) : u.auxAwaits x = true := by
  simp [Out.auxAwaits, htraining, hx]

/-- An access that is awaited and misses its reply has not been given up. -/
theorem auxTimeout_awaited {s : State} {o : Fin 8} {x : AuxAcc} (h : (s.outs[o.val]).auxAwaits x = true) (why : AuxMiss) (run : TrainRun) :
    s.auxTimeout o x why run =
      let u := s.outs[o.val]
      let train := u.training && isTrainAcc x
      let n := if u.auxLast = some x then u.auxRetries else 0
      if n < 7 then
        ((if train && u.auxLast != some x then s.trainReach o x run else s).modOut o fun u =>
          { u with auxRetries := n + 1, auxLast := some x }).emit (auxTx o x)
      else if u.edidBusy && x == edidAcc u.edidBlock then s.edidEnd o .timeout
      else if train then s.trainFail o 1
      else s.modOut o fun u => { u with auxOp := none, auxRetries := 0, auxLast := none } := by
  have hmine : (!((s.outs[o.val]).training && isTrainAcc x) && !((s.outs[o.val]).edidBusy && x == edidAcc (s.outs[o.val]).edidBlock)
      && (s.outs[o.val]).auxOp != some x) = false := by
    rw [Out.auxAwaits] at h
    rw [← Bool.not_or, bne, ← Bool.not_or, h, Bool.not_true]
  unfold State.auxTimeout
  simp only [hmine, Bool.false_eq_true, if_false]

theorem auxTimeout_resends {s : State} {o : Fin 8} {x : AuxAcc} (h : (s.outs[o.val]).auxAwaits x = true) (hlast : (s.outs[o.val]).auxLast = some x)
    (hmore : (s.outs[o.val]).auxRetries < 7) (why : AuxMiss) (run : TrainRun) :
    s.auxTimeout o x why run = (s.modOut o fun u => { u with auxRetries := u.auxRetries + 1 }).emit (auxTx o x) := by
  rw [auxTimeout_awaited h]
  simp only [hlast, hmore, if_true, bne_self_eq_false, Bool.and_false, Bool.false_eq_true, if_false]
  congr 1
  refine modOut_congr ?_
  rw [← hlast]

theorem trainReach_finds {s : State} {o : Fin 8} {x : AuxAcc} {run : TrainRun} {i : Nat}
    (hi : ((trainPlan run (s.outs[o.val]).set).drop (s.outs[o.val]).auxDone).findIdx? (· == x) = some i) :
    s.trainReach o x run = { s.modOut o fun u => { u with auxDone := u.auxDone + i + 1 } with
      tx := ((((trainPlan run (s.outs[o.val]).set).drop (s.outs[o.val]).auxDone).take (i + 1)).map (auxTx o)).reverse ++ s.tx } := by
  unfold State.trainReach
  simp only [hi]
  exact foldl_emitAux ..

/-- The first miss of an access of the training: those before it in the plan were made, and it is sent a second time. -/
theorem auxTimeout_first {s : State} {o : Fin 8} {x : AuxAcc} (htraining : (s.outs[o.val]).training = true)
    (hx : isTrainAcc x = true) (hlast : (s.outs[o.val]).auxLast ≠ some x) (why : AuxMiss) (run : TrainRun) :
    s.auxTimeout o x why run = ((s.trainReach o x run).modOut o fun u => { u with auxRetries := 1, auxLast := some x }).emit (auxTx o x) := by
  rw [auxTimeout_awaited (auxAwaits_of_train htraining hx)]
  simp [htraining, hx, hlast]

theorem exec_auxTimeout_resends {s : State} {o : Fin 8} {x : AuxAcc} (hg : s.Good) (hlast : (s.outs[o.val]).auxLast = some x)
    (hmore : (s.outs[o.val]).auxRetries < 7) (h : (s.outs[o.val]).auxAwaits x = true) (why : AuxMiss) (run : TrainRun) :
    exec (.auxTimeout o ⟨x, why, run⟩) s = .next ((s.modOut o fun u => { u with auxRetries := u.auxRetries + 1 }).emit (auxTx o x)) :=
  plain hg (auxTimeout_resends h hlast hmore why run) ((emit_core ..).trans (modOut_core ..)) rfl rfl rfl

theorem exec_auxTimeout_first {s : State} {o : Fin 8} {x : AuxAcc} {run : TrainRun} {i : Nat} (hg : s.Good) (why : AuxMiss)
    (htraining : (s.outs[o.val]).training = true) (hx : isTrainAcc x = true) (hlast : (s.outs[o.val]).auxLast ≠ some x)
    (hi : ((trainPlan run (s.outs[o.val]).set).drop (s.outs[o.val]).auxDone).findIdx? (· == x) = some i) :
    ∃ t, exec (.auxTimeout o ⟨x, why, run⟩) s = .next t ∧ (t.outs[o.val]).auxRetries = 1 ∧ (t.outs[o.val]).auxLast = some x
      ∧ (t.outs[o.val]).auxDone = (s.outs[o.val]).auxDone + i + 1
      ∧ t.tx = auxTx o x :: ((((trainPlan run (s.outs[o.val]).set).drop (s.outs[o.val]).auxDone).take (i + 1)).map (auxTx o)).reverse ++ s.tx := by
  refine ⟨_, act_steady hg.2 (auxTimeout_core s o x why run), ?_⟩
  rw [run_outs, run_tx, auxTimeout_first htraining hx hlast, trainReach_finds hi]
  simp [State.emit]

/-! ### A failed training (R225) -/

theorem trainFail_out (s : State) (o : Fin 8) (stage : Nat) :
    ((s.trainFail o stage).outs[o.val]).training = false ∧ ((s.trainFail o stage).outs[o.val]).trained = false
      ∧ ((s.trainFail o stage).outs[o.val]).failStage = stage ∧ ((s.trainFail o stage).outs[o.val]).fail = true
      ∧ ((s.trainFail o stage).outs[o.val]).pvalid = false := by
  simp only [State.trainFail, outEv_outs, modOut_outs, upd_same]
  refine ⟨rfl, rfl, rfl, rfl, ?_⟩
  rw [pvFall_pvalid, pvWant_of_untrained rfl, Bool.and_false]

theorem auxTimeout_failsTraining {s : State} {o : Fin 8} {x : AuxAcc} (hlast : (s.outs[o.val]).auxLast = some x) (hlimit : (s.outs[o.val]).auxRetries = 7)
    (htraining : (s.outs[o.val]).training = true) (hx : isTrainAcc x = true) (hedid : (s.outs[o.val]).edidBusy = false) (why : AuxMiss) (run : TrainRun) :
    s.auxTimeout o x why run = s.trainFail o 1 := by
  rw [auxTimeout_awaited (auxAwaits_of_train htraining hx)]
  simp [hlast, hlimit, htraining, hx, hedid]

theorem exec_auxTimeout_failsTraining {s : State} {o : Fin 8} {x : AuxAcc} (hg : s.Good) (why : AuxMiss) (run : TrainRun)
    (hlast : (s.outs[o.val]).auxLast = some x) (hlimit : (s.outs[o.val]).auxRetries = 7)
    (htraining : (s.outs[o.val]).training = true) (hx : isTrainAcc x = true) (hedid : (s.outs[o.val]).edidBusy = false) :
    ∃ t, exec (.auxTimeout o ⟨x, why, run⟩) s = .next t ∧ (t.outs[o.val]).training = false ∧ (t.outs[o.val]).trained = false
      ∧ (t.outs[o.val]).failStage = 1 ∧ (t.outs[o.val]).fail = true := by
  refine ⟨_, act_steady hg.2 (auxTimeout_core s o x why run), ?_⟩
  rw [run_outs, auxTimeout_failsTraining hlast hlimit htraining hx hedid]
  obtain ⟨htraining, htrained, hstage, hfail, -⟩ := trainFail_out s o 1
  exact ⟨htraining, htrained, hstage, hfail⟩

/-! ### The end of an EDID read, and an access given up (R224, R229) -/

theorem edidEnd_timeout {s : State} {o : Fin 8} (h : (s.outs[o.val]).edidBusy = true) :
    s.edidEnd o .timeout = s.modOut o fun u => { u with edidBusy := false, edidDone := true, edidErr := 2, auxRetries := 0, auxLast := none } := by
  simp only [State.edidEnd, h, Bool.not_true, Bool.false_eq_true, if_false]

theorem auxTimeout_endsEdid {s : State} {o : Fin 8} (h : (s.outs[o.val]).edidBusy = true)
    (hlast : (s.outs[o.val]).auxLast = some (edidAcc (s.outs[o.val]).edidBlock)) (hlimit : (s.outs[o.val]).auxRetries = 7) (why : AuxMiss)
    (run : TrainRun) : s.auxTimeout o (edidAcc (s.outs[o.val]).edidBlock) why run = s.edidEnd o .timeout := by
  rw [auxTimeout_awaited (by simp [Out.auxAwaits, h])]
  simp [hlast, hlimit, h]

theorem exec_auxTimeout_endsEdid {s : State} {o : Fin 8} (hg : s.Good) (h : (s.outs[o.val]).edidBusy = true)
    (hlast : (s.outs[o.val]).auxLast = some (edidAcc (s.outs[o.val]).edidBlock)) (hlimit : (s.outs[o.val]).auxRetries = 7) (why : AuxMiss)
    (run : TrainRun) : exec (.auxTimeout o ⟨edidAcc (s.outs[o.val]).edidBlock, why, run⟩) s = .next (s.modOut o fun u =>
      { u with edidBusy := false, edidDone := true, edidErr := 2, auxRetries := 0, auxLast := none }) :=
  plain hg ((auxTimeout_endsEdid h hlast hlimit why run).trans (edidEnd_timeout h)) (modOut_core ..) rfl rfl rfl

theorem auxTimeout_givesUp {s : State} {o : Fin 8} {x : AuxAcc} (hlast : (s.outs[o.val]).auxLast = some x) (hlimit : (s.outs[o.val]).auxRetries = 7)
    (htraining : (s.outs[o.val]).training = false) (hedid : (s.outs[o.val]).edidBusy = false) (hop : (s.outs[o.val]).auxOp = some x) (why : AuxMiss)
    (run : TrainRun) : s.auxTimeout o x why run = s.modOut o fun u => { u with auxOp := none, auxRetries := 0, auxLast := none } := by
  rw [auxTimeout_awaited (by simp [Out.auxAwaits, hop])]
  simp [hlast, hlimit, htraining, hedid]

theorem exec_edidReadDone_nack {s : State} {o : Fin 8} (hg : s.Good) (h : (s.outs[o.val]).edidBusy = true) :
    ∃ t, exec (.edidReadDone o .nack) s = .next t ∧ (t.outs[o.val]).edidBusy = false
      ∧ (t.outs[o.val]).edidDone = true ∧ (t.outs[o.val]).edidErr = 1 := by
  refine ⟨_, act_steady hg.2 (edidEnd_core s o _), ?_⟩
  simp [State.edidEnd, h]

theorem ofLe_lt (l : List Byte) : ofLe l < 2 ^ (8 * l.length) := by
  induction l with
  | nil => decide
  | cons b l ih =>
    have hb : b.toNat < 256 := b.isLt
    have hpow : 2 ^ (8 * (b :: l).length) = 256 * 2 ^ (8 * l.length) := by
      rw [List.length_cons, Nat.mul_succ, Nat.pow_add, Nat.mul_comm]
    rw [hpow, ofLe, List.foldr_cons, ← ofLe]
    omega

theorem exec_edidReadDone_data {s : State} {o : Fin 8} (hg : s.Good) {l : List Byte} (hl : l.length = 128) (h : (s.outs[o.val]).edidBusy = true) :
    ∃ t, exec (.edidReadDone o (.data l)) s = .next t ∧ (t.outs[o.val]).edidErr = 0 ∧ (t.outs[o.val]).edidDone = true
      ∧ ∀ k : Fin 32, ((t.outs[o.val]).edid[k.val]).toNat = ofLe ((l.drop (4 * k.val)).take 4) := by
  refine ⟨_, act_steady hg.2 (edidEnd_core s o _), ?_⟩
  simp only [run_outs, State.edidEnd, h, Bool.not_true, Bool.false_eq_true, if_false, modOut_outs, upd_same, true_and]
  intro k
  have hinside : ((l ++ List.replicate 128 0).drop (4 * k.val)).take 4 = (l.drop (4 * k.val)).take 4 := by
    rw [List.drop_append_of_le_length (by omega), List.take_append_of_le_length (by rw [List.length_drop]; omega)]
  have hword : ((l.drop (4 * k.val)).take 4).length = 4 := by
    rw [List.length_take, List.length_drop]
    omega
  have hlt := ofLe_lt ((l.drop (4 * k.val)).take 4)
  rw [hword] at hlt
  rw [Vector.getElem_ofFn, hinside, w32, BitVec.toNat_ofNat, Nat.mod_eq_of_lt hlt]

/-! ### LINK_TRAINING_COMPLETE and TRAIN_RETRY_TIMER (R221, R222, R225) -/

theorem trainResult_trained {r : TrainRun} {u : ModeSet} (hstage : r.stage = 0) (hfits : capFits r u.rate u.lanes = true) : trainResult r u = 0 := by
  simp [trainResult, hstage, hfits]

/-- A training that fails does so at the stage at which its run stopped, or at stage 2 where the sink's capabilities do not reach the mode. -/
theorem trainResult_failed {r : TrainRun} {u : ModeSet} {n : Nat}
    (h : (n = 1 ∧ r.stage.val = 1) ∨ (n = 2 ∧ r.stage.val ≠ 1 ∧ (r.stage.val = 2 ∨ capFits r u.rate u.lanes = false))
      ∨ (n = r.stage.val ∧ 3 ≤ n ∧ capFits r u.rate u.lanes = true)) : trainResult r u = n ∧ n ≠ 0 := by
  unfold trainResult
  rcases h with ⟨rfl, hstage⟩ | ⟨rfl, hstage, hcap⟩ | ⟨rfl, hstage, hcap⟩
  · simp [hstage]
  · rcases hcap with hcap | hcap <;> simp [hstage, hcap]
  · have hnotAux : r.stage.val ≠ 1 := by omega
    have hnotCaps : r.stage.val ≠ 2 := by omega
    have hfailed : r.stage.val ≠ 0 := by omega
    simp [hnotAux, hnotCaps, hcap, hfailed]

theorem trainEnd_idle {s : State} {o : Fin 8} (h : (s.outs[o.val]).training = false) (r : TrainRun) : s.trainEnd o r = s := by
  simp only [State.trainEnd, h, Bool.not_false, if_true]

/-- The accesses that a training has still to make as its end comes. -/
def Out.trainLeft (u : Out) (r : TrainRun) : List AuxAcc := (trainAccs r u.set).drop u.auxDone

theorem trainEnd_trained {s : State} {o : Fin 8} {r : TrainRun} (h : (s.outs[o.val]).training = true)
    (hr : trainResult r (s.outs[o.val]).set = 0) :
    s.trainEnd o r = { s with tx := (((s.outs[o.val]).trainLeft r).map (auxTx o)).reverse ++ s.tx }.modOut o fun u =>
      { u with training := false, trained := true, lanesActive := u.set.lanes, rateActive := u.set.rate
               sscActive := capSpread r && u.set.ssc != 0, auxRetries := 0, auxLast := none } := by
  simp only [State.trainEnd, h, hr, Bool.not_true, Bool.false_eq_true, if_false, foldl_emitAux]
  rfl

theorem trainEnd_failed {s : State} {o : Fin 8} {r : TrainRun} {n : Nat} (h : (s.outs[o.val]).training = true)
    (hr : trainResult r (s.outs[o.val]).set = n) (hn : n ≠ 0) :
    s.trainEnd o r = { s with tx := (((s.outs[o.val]).trainLeft r).map (auxTx o)).reverse ++ s.tx }.trainFail o n := by
  obtain ⟨m, rfl⟩ := Nat.exists_eq_succ_of_ne_zero hn
  simp only [State.trainEnd, h, hr, Bool.not_true, Bool.false_eq_true, if_false, foldl_emitAux]
  rfl

theorem exec_linkTrainingComplete_trained {s : State} {o : Fin 8} {r : TrainRun} (hg : s.Good) (h : (s.outs[o.val]).training = true)
    (hstage : r.stage = 0) (hfits : capFits r (s.outs[o.val]).set.rate (s.outs[o.val]).set.lanes = true) :
    ∃ t, exec (.linkTrainingComplete o r) s = .next t
      ∧ (t.outs[o.val]).trained = true ∧ (t.outs[o.val]).training = false ∧ (t.outs[o.val]).lanesActive = (s.outs[o.val]).set.lanes
      ∧ (t.outs[o.val]).rateActive = (s.outs[o.val]).set.rate
      ∧ t.tx = (((trainPlan r (s.outs[o.val]).set).drop (s.outs[o.val]).auxDone).map (auxTx o)).reverse ++ s.tx := by
  have hr := trainResult_trained hstage hfits
  have hleft : (s.outs[o.val]).trainLeft r = (trainPlan r (s.outs[o.val]).set).drop (s.outs[o.val]).auxDone := by
    rw [Out.trainLeft, trainAccs, hr]
    rfl
  refine ⟨_, act_steady hg.2 (trainEnd_core s o r), ?_⟩
  rw [run_outs, run_tx, trainEnd_trained h hr, hleft]
  simp

theorem exec_linkTrainingComplete_failed {s : State} {o : Fin 8} {r : TrainRun} {n : Nat} (hg : s.Good) (h : (s.outs[o.val]).training = true)
    (hr : trainResult r (s.outs[o.val]).set = n ∧ n ≠ 0) :
    ∃ t, exec (.linkTrainingComplete o r) s = .next t ∧ (t.outs[o.val]).trained = false ∧ (t.outs[o.val]).training = false
      ∧ (t.outs[o.val]).failStage = n ∧ (t.outs[o.val]).fail = true ∧ (t.outs[o.val]).pvalid = false := by
  refine ⟨_, act_steady hg.2 (trainEnd_core s o r), ?_⟩
  rw [run_outs, trainEnd_failed h hr.1 hr.2]
  obtain ⟨htraining, htrained, hstage, hfail, hpvalid⟩ :=
    trainFail_out { s with tx := (((s.outs[o.val]).trainLeft r).map (auxTx o)).reverse ++ s.tx } o n
  exact ⟨htrained, htraining, hstage, hfail, hpvalid⟩

theorem exec_linkTrainingComplete_idle {s : State} {o : Fin 8} (hg : s.Good) (r : TrainRun) (h : (s.outs[o.val]).training = false) :
    exec (.linkTrainingComplete o r) s = .next s :=
  plain hg (trainEnd_idle h r) rfl rfl rfl rfl

theorem exec_trainRetryTimer_trains {s : State} {o : Fin 8} (hg : s.Good) (hhpd : (s.outs[o.val]).hpd = true) (hon : (s.outs[o.val]).on = true)
    (htrained : (s.outs[o.val]).trained = false) (htraining : (s.outs[o.val]).training = false)
    (hretry : bits (s.outs[o.val]).trainRetry.toNat 15 0 ≠ 0) :
    ∃ t, exec (.trainRetryTimer o) s = .next t ∧ (t.outs[o.val]).training = true ∧ (t.outs[o.val]).auxRetries = 0 := by
  have hstart : s.trainRetry o = s.startTrain o := by simp [State.trainRetry, hhpd, htrained, htraining, hretry]
  refine ⟨_, act_steady hg.2 (trainRetry_core s o), ?_⟩
  simp only [run_outs, hstart, startTrain_out (show (_ && _) = true by rw [hon, hhpd]; rfl)]
  exact ⟨rfl, rfl⟩

theorem exec_trainRetryTimer_idle {s : State} {o : Fin 8} (hg : s.Good)
    (h : (s.outs[o.val]).hpd = false ∨ (s.outs[o.val]).trained = true ∨ bits (s.outs[o.val]).trainRetry.toNat 15 0 = 0) :
    exec (.trainRetryTimer o) s = .next s := by
  have hidle : s.trainRetry o = s := by
    unfold State.trainRetry
    rcases h with h | h | h <;> simp [h]
  exact plain hg hidle rfl rfl rfl rfl

/-- Settles O38: each command is one operation of `State` on its output, whose lemma says what it leaves there; none is followed by anything. -/
theorem linkTraining : Obligations.LinkTraining := by
  unfold Obligations.LinkTraining
  intro s o hg
  refine ⟨exec_hpdPlug_plugs hg, exec_hpdPlug_again hg, exec_hpdUnplug_unplugs hg,
    fun h => ⟨exec_hpdUnplug_again hg h, exec_hpdIrq_unplugged hg h⟩, fun status h => exec_hpdIrq_counts hg h status,
    fun status => exec_hpdIrq_relocks hg status, fun x hlast hmore h => exec_auxTimeout_resends hg hlast hmore ?_,
    fun x why run i => exec_auxTimeout_first hg why, fun x why run => exec_auxTimeout_failsTraining hg why run, exec_auxTimeout_endsEdid hg,
    fun x why run hlast hlimit htraining hedid hop =>
      plain hg (auxTimeout_givesUp hlast hlimit htraining hedid hop why run) (modOut_core ..) rfl rfl rfl,
    fun r h => ⟨exec_linkTrainingComplete_trained hg h, fun n hn => exec_linkTrainingComplete_failed hg h (trainResult_failed hn)⟩,
    exec_linkTrainingComplete_idle hg, exec_trainRetryTimer_trains hg, exec_trainRetryTimer_idle hg, exec_edidReadDone_nack hg,
    fun l hl => exec_edidReadDone_data hg hl⟩
  rcases h with ⟨htraining, hx⟩ | ⟨hedid, rfl⟩ | hop
  · exact auxAwaits_of_train htraining hx
  · simp [Out.auxAwaits, hedid]
  · simp [Out.auxAwaits, hop]

end Sys2Proof.Machine
end

section
/-!
SUPPORT. The rasters of the outputs and the commits that wait for the end of their frame (05, R201; 06, R244): what a command does beside them. First the
updates of the state, the periods of the quotas, and the reports of errors.
-/
namespace Sys2Proof.Machine
open Sys2Proof

/-- Where an output's raster stands: in vertical blanking or not, and in which frame. -/
def Out.raster (u : Out) : Bool × DWord := (u.vblank, u.frame)

/-- The rasters of the outputs and the commits that wait for the end of their frame, with the core of the state, but for the errors that the composers
met. -/
def State.rasters (s : State) : Core × List Done × Vector (Bool × DWord) 8 :=
  ({ s.core with faults := Vector.replicate 8 [] }, s.doneQ, s.outs.map Out.raster)

theorem rasters_of_core {s t : State} (hcore : t.core = s.core) (hdone : t.doneQ = s.doneQ) (houts : t.outs = s.outs) : t.rasters = s.rasters := by
  rw [State.rasters, State.rasters, hcore, hdone, houts]

theorem doneQ_of_unnoticed {s t : State} (h : t.unnoticed = s.unnoticed) : t.doneQ = s.doneQ := (congrArg State.doneQ h :)

theorem rasters_of_unnoticed {s t : State} (hcore : t.core = s.core) (h : t.unnoticed = s.unnoticed) : t.rasters = s.rasters :=
  rasters_of_core hcore (doneQ_of_unnoticed h) (outs_of_unnoticed h)

theorem modOut_rasters {s : State} {o : Fin 8} {f : Out → Out} (h : ∀ u, (f u).raster = u.raster) : (s.modOut o f).rasters = s.rasters := by
  have houts : (s.modOut o f).outs.map Out.raster = s.outs.map Out.raster := map_upd Out.raster _ _ _ h
  rw [State.rasters, houts]
  rfl

theorem modPav_rasters {s : State} {p : Fin 64} {f : Pav → Pav} (h : ∀ v, (f v).order = v.order) : (s.modPav p f).rasters = s.rasters :=
  rasters_of_core (modPav_core h) rfl rfl

@[simp] theorem emit_rasters (s : State) (x : Tx) : (s.emit x).rasters = s.rasters := rfl
@[simp] theorem toDome_rasters (s : State) (e : Ev) : (s.toDome e).rasters = s.rasters := rfl
@[simp] theorem wakeIsland_rasters (s : State) (i : Nat) : (s.wakeIsland i).rasters = s.rasters :=
  rasters_of_unnoticed (wakeIsland_core ..) (wakeIsland_unnoticed ..)
@[simp] theorem stCells_rasters (s : State) (m : MemId) (a : Nat) (l : List Byte) : (s.stCells m a l).rasters = s.rasters :=
  rasters_of_unnoticed (stCells_core ..) (stCells_unnoticed ..)
@[simp] theorem unpoison_rasters (s : State) (m : MemId) (a n : Nat) : (s.unpoison m a n).rasters = s.rasters := rfl
@[simp] theorem deliver_rasters (s : State) (p : Fin 64) (e : Ev) : (s.deliver p e).rasters = s.rasters :=
  rasters_of_unnoticed (deliver_core ..) (deliver_unnoticed ..)
@[simp] theorem raise_rasters (s : State) (e : Ev) (dests : List (Fin 64 × Ev)) : (s.raise e dests).rasters = s.rasters :=
  rasters_of_unnoticed (raise_core ..) (raise_unnoticed ..)
@[simp] theorem outEv_rasters (s : State) (o : Fin 8) (code frame detail : Nat) : (s.outEv o code frame detail).rasters = s.rasters :=
  raise_rasters ..
@[simp] theorem complete_rasters (s : State) (p : Fin 64) (sq : Fin 8) (seq : BitVec 16) (op : BitVec 8) (status : Nat)
    (deferred late heldWall : Bool) (field result : Nat) :
    (s.complete p sq seq op status deferred late heldWall field result).rasters = s.rasters :=
  rasters_of_unnoticed (complete_core ..) (complete_unnoticed ..)
@[simp] theorem completeOk_rasters (s : State) (p : Fin 64) (sq : Fin 8) (seq : BitVec 16) (op : BitVec 8)
    (deferred late heldWall : Bool) (result : Nat) : (s.completeOk p sq seq op deferred late heldWall result).rasters = s.rasters :=
  complete_rasters ..

/-! ### Spire time and the periods of the quotas (R344, R345) -/

/-- The held events of a Pavilion go to its ring and the log. -/
theorem flushEvents_unnoticed (n : Nat) (s : State) (p : Fin 64) : (State.flushEvents n s p).unnoticed = s.unnoticed := by
  induction n generalizing s with
  | zero => rfl
  | succ n ih =>
    unfold State.flushEvents
    split
    next => rfl
    next => simp [apply_ite State.unnoticed, ih]

theorem newPeriod_hold_unnoticed (s : State) (p : Fin 64) :
    (if (s.pavs[p.val]).evHold.isEmpty then s else s.flushEvents 64 p).unnoticed = s.unnoticed := by
  split
  next => rfl
  next => exact flushEvents_unnoticed ..

@[simp] theorem newPeriod_outs (s : State) (k : Nat) : (s.newPeriod k).outs = s.outs :=
  (foldl_keeps State.outs (fun t p => outs_of_unnoticed (newPeriod_hold_unnoticed t p)) _ _).trans rfl

@[simp] theorem newPeriod_doneQ (s : State) (k : Nat) : (s.newPeriod k).doneQ = s.doneQ :=
  (foldl_keeps State.doneQ (fun t p => doneQ_of_unnoticed (newPeriod_hold_unnoticed t p)) _ _).trans rfl

@[simp] theorem upTo_outs (s : State) (ps : Nat) : (s.upTo ps).outs = s.outs := by
  unfold State.upTo State.moveTo State.periodGo
  split
  · split
    · rw [newPeriod_outs]; rfl
    · rfl
  · rfl

@[simp] theorem upTo_doneQ (s : State) (ps : Nat) : (s.upTo ps).doneQ = s.doneQ := by
  unfold State.upTo State.moveTo State.periodGo
  split
  · split
    · rw [newPeriod_doneQ]; rfl
    · rfl
  · rfl

@[simp] theorem upTo_rasters (s : State) (ps : Nat) : (s.upTo ps).rasters = s.rasters :=
  rasters_of_core (upTo_core s ps) (upTo_doneQ s ps) (upTo_outs s ps)

/-! ### Reports of memory errors -/

@[simp] theorem violation_rasters (s : State) (m : MemId) (a : Nat) : (s.violation m a).rasters = s.rasters := (raise_rasters ..).trans rfl

@[simp] theorem fetchFault_rasters (s : State) (o : Fin 8) (a : Option Nat) : (s.fetchFault o a).rasters = s.rasters := rfl

@[simp] theorem noteUe_rasters (s : State) (m : MemId) (a : Nat) (who : Option (Fin 64)) : (s.noteUe m a who).rasters = s.rasters := by
  unfold State.noteUe
  dsimp only
  split
  · split
    · rw [deliver_rasters, raise_rasters, toDome_rasters]; cases m <;> rfl
    · rw [raise_rasters, toDome_rasters]; cases m <;> rfl
  · rw [raise_rasters, toDome_rasters]; cases m <;> rfl

@[simp] theorem noteCe_rasters (s : State) (m : MemId) (a : Nat) : (s.noteCe m a).rasters = s.rasters := by
  unfold State.noteCe
  extract_lets _ _ t key
  have ht : t.rasters = s.rasters := by cases m <;> rfl
  split
  · exact ht
  · rw [raise_rasters, toDome_rasters]
    exact ht

end Sys2Proof.Machine
end

section
/-!
SUPPORT. The rasters of the outputs, continued: a write of memory wakes what it reaches, pays for its turn, and goes through the composers' lines, the
write queues of DRAM and Keep's buffers (08, 10). It meets errors, and leaves every raster where it stands.
-/
namespace Sys2Proof.Machine
open Sys2Proof

/-! ### Waking and charging (R362, R555) -/

@[simp] theorem awake_rasters (s : State) (c : Fin 8) : (s.awake c).rasters = s.rasters := by
  unfold State.awake
  split <;> rfl

@[simp] theorem wake_rasters (s : State) : s.wake.rasters = s.rasters := by
  unfold State.wake
  extract_lets out
  have hout (t : State) : (out t).rasters = t.rasters := foldl_keeps State.rasters awake_rasters _ t
  split
  · exact hout _
  · split
    · exact hout _
    · rfl

@[simp] theorem wakeMem_rasters (s : State) (m : MemId) (a n : Nat) : (s.wakeMem m a n).rasters = s.rasters := by
  cases m
  case dram => exact (foldl_keeps State.rasters (fun t k => wakeIsland_rasters t _) _ _).trans (wake_rasters s)
  case dome => rfl
  all_goals exact wakeIsland_rasters ..

@[simp] theorem portWaits_rasters (s : State) (q : Fin 83) : (s.portWaits q).rasters = s.rasters := by
  unfold State.portWaits
  extract_lets t
  split
  · rfl
  · split
    · exact modPav_rasters fun _ => rfl
    · rfl

@[simp] theorem dramCharge_rasters (s : State) (q : Fin 83) (a n : Nat) : (s.dramCharge q a n).rasters = s.rasters := by
  unfold State.dramCharge State.portUse
  extract_lets b t
  split
  · split
    · exact portWaits_rasters ..
    · rfl
  · split
    · rfl
    · split
      · rfl
      · exact portWaits_rasters ..

/-! ### The channels of DRAM (10) -/

@[simp] theorem wqAdd_rasters (s : State) (keepOpen : Bool) (atom : Nat) (bytes : List (Nat × Byte)) :
    (s.wqAdd keepOpen atom bytes).rasters = s.rasters := rfl

@[simp] theorem recordLost_rasters (s : State) (dev : Nat) : (s.recordLost dev).rasters = s.rasters :=
  foldl_keeps State.rasters (fun _ _ => modOut_rasters fun _ => by rfl) _ s

@[simp] theorem issueAtom_rasters (s : State) (w : WAtom) : (s.issueAtom w).rasters = s.rasters := by
  unfold State.issueAtom
  extract_lets old s1 s2 s3 s4
  have h1 : s1.rasters = s.rasters := by
    unfold s1
    split
    · rw [recordLost_rasters, noteUe_rasters]
    · rfl
  have h2 : s2.rasters = s1.rasters := by
    unfold s2
    split
    · exact noteCe_rasters ..
    · rfl
  have h3 : s3.rasters = s2.rasters := by
    unfold s3
    split <;> rfl
  have h4 : s4.rasters = s3.rasters := foldl_keeps State.rasters (fun _ _ => by rfl) _ _
  exact h4.trans (h3.trans (h2.trans h1))

@[simp] theorem issueWrite_rasters (s : State) (c : Fin 8) : (s.issueWrite c).rasters = s.rasters := by
  unfold State.issueWrite
  split
  · rfl
  · exact issueAtom_rasters ..

@[simp] theorem errorTo_rasters (s : State) (q : Fin 83) (a : Nat) : (s.errorTo q a).rasters = s.rasters := by
  rw [State.errorTo, emit_rasters]
  split <;> rfl

@[simp] theorem issueRead_rasters (s : State) (c : Fin 8) (x : RAtom) : (s.issueRead c x).rasters = s.rasters := by
  unfold State.issueRead
  extract_lets r atom s1 s2 data s3
  have h1 : s1.rasters = s.rasters := rfl
  have h2 : s2.rasters = s1.rasters := by
    unfold s2
    split
    · rfl
    · exact noteUe_rasters ..
  have h3 : s3.rasters = s1.rasters := by
    unfold s3
    split
    · exact noteCe_rasters ..
    · rfl
  split
  · split
    · exact h2
    · rw [errorTo_rasters, h2, h1]
  · split <;> exact h3

@[simp] theorem dmcIssue_rasters (s : State) (c : Fin 8) : (s.dmcIssue c).rasters = s.rasters := by
  unfold State.dmcIssue
  extract_lets d read may
  split
  · exact issueWrite_rasters ..
  · split
    · exact issueRead_rasters ..
    · split
      · exact issueWrite_rasters ..
      · split
        · exact issueRead_rasters ..
        · exact issueWrite_rasters ..

@[simp] theorem dmcUntil_rasters (n : Nat) (s : State) (c : Fin 8) (ok : Dmc → Bool) : (State.dmcUntil n s c ok).rasters = s.rasters := by
  induction n generalizing s with
  | zero => rfl
  | succ n ih =>
    have hstep : (s.dmcStep c).rasters = s.rasters := by
      unfold State.dmcStep
      split
      · rfl
      · exact dmcIssue_rasters ..
    unfold State.dmcUntil
    split
    · rfl
    · rw [ih, hstep]

@[simp] theorem dramPut_rasters (s : State) (keepOpen : Bool) (a : Nat) (l : List Byte) : (s.dramPut keepOpen a l).rasters = s.rasters := by
  refine foldl_keeps State.rasters (fun t k => ?_) _ s
  dsimp only
  rw [wqAdd_rasters]
  split
  · rfl
  · exact dmcUntil_rasters ..

/-! ### Keep's buffers and the words of a memory (R414) -/

@[simp] theorem stWords_rasters (s : State) (m : MemId) (a : Nat) (l : List Byte) : (s.stWords m a l).rasters = s.rasters :=
  (unpoison_rasters ..).trans (stCells_rasters ..)

@[simp] theorem keepMake_rasters (s : State) (q : Nat × List Byte) : (s.keepMake q).rasters = s.rasters := stWords_rasters s .keep q.1 q.2

@[simp] theorem keepDrain_rasters (s : State) : s.keepDrain.rasters = s.rasters := by
  unfold State.keepDrain
  split
  · exact keepMake_rasters ..
  · exact keepMake_rasters ..
  · rfl

/-! ### The lines that a composer has made before the write (R153, R234) -/

@[simp] theorem fetchCheck_rasters (s : State) (o : Fin 8) (x : Nat × Nat) : (s.fetchCheck o x).rasters = s.rasters := by
  unfold State.fetchCheck
  split
  · rfl
  · split
    · rw [fetchFault_rasters, violation_rasters]
    · split
      · rfl
      · refine foldl_keeps State.rasters (fun t w => ?_) _ s
        split
        · rfl
        · rw [fetchFault_rasters, noteUe_rasters]

@[simp] theorem freezeOut_rasters (s : State) (o : Fin 8) : (s.freezeOut o).rasters = s.rasters := by
  unfold State.freezeOut
  extract_lets k n st w new t
  split
  · rfl
  · refine (modOut_rasters fun _ => by rfl).trans ?_
    unfold t
    split
    · rfl
    · exact foldl_keeps State.rasters (fun _ _ => fetchCheck_rasters ..) _ _

@[simp] theorem freeze_rasters (s : State) : s.freeze.rasters = s.rasters := foldl_keeps State.rasters freezeOut_rasters _ s

/-! ### A write of memory (R32, R419) -/

@[simp] theorem keepPut_rasters (s : State) (a : Nat) (l : List Byte) : (s.keepPut a l).rasters = s.rasters := by
  refine (foldl_keeps State.rasters (fun t q => ?_) _ _).trans ((wakeIsland_rasters ..).trans (freeze_rasters s))
  dsimp only
  split
  · exact keepDrain_rasters t
  · rfl

@[simp] theorem memWriteOk_rasters (s : State) (tlp : Option Nat) (q : Fin 83) (a : Nat) (l : List Byte) :
    (s.memWriteOk tlp q a l).rasters = s.rasters := by
  have hwoken (m : MemId) (b n : Nat) : (s.freeze.wakeMem m b n).rasters = s.rasters := (wakeMem_rasters ..).trans (freeze_rasters s)
  unfold State.memWriteOk
  split
  · rfl
  · split
    · rfl
    · dsimp only
      split
      · exact (dramPut_rasters ..).trans ((dramCharge_rasters ..).trans (hwoken ..))
      · exact (keepPut_rasters ..).trans (hwoken ..)
      · exact (stWords_rasters ..).trans (hwoken ..)

@[simp] theorem memWrite_rasters (s : State) (master : Nat) (secure : Bool) (q : Fin 83) (a : Nat) (l : List Byte) :
    (s.memWrite master secure q a l).rasters = s.rasters := by
  unfold State.memWrite State.memWriteT State.violationDev
  split
  · exact memWriteOk_rasters ..
  · split
    · rfl
    · exact violation_rasters ..

end Sys2Proof.Machine
end

section
/-!
The rasters of the outputs, continued: the end of a frame and an underrun (06, R201, R234, R235, R244), and with them the obligation on both.
-/
namespace Sys2Proof.Machine
open Sys2Proof

/-! ### Captures at the end of a frame (R252, R253) -/

@[simp] theorem captureLines_rasters (s : State) (o : Fin 8) (c : Capture) (n : Nat) : (s.captureLines o c n).rasters = s.rasters := by
  refine foldl_keeps State.rasters (fun t j => ?_) _ s
  split
  · rfl
  · exact memWrite_rasters ..

@[simp] theorem captureDone_rasters (s : State) (o : Fin 8) (c : Capture) (n : Nat) : (s.captureDone o c n).rasters = s.rasters := by
  unfold State.captureDone
  extract_lets lines inc s1 s2 s3
  have h3 : s3.rasters = s.rasters := by
    refine (modOut_rasters fun _ => by rfl).trans ?_
    rw [memWrite_rasters, captureLines_rasters]
  split
  · exact (outEv_rasters ..).trans h3
  · exact h3

@[simp] theorem endCapture_rasters (s : State) (o : Fin 8) (c : Capture) : (s.endCapture o c).rasters = s.rasters := by
  unfold State.endCapture
  extract_lets s1 s2
  have h1 : s1.rasters = s.rasters := modOut_rasters fun _ => by rfl
  have h2 : s2.rasters = s.rasters := by
    unfold s2
    split
    · exact (complete_rasters ..).trans h1
    · exact (completeOk_rasters ..).trans h1
  exact (foldl_keeps State.rasters (fun t q => completeOk_rasters t ..) _ _).trans h2

@[simp] theorem endOver_rasters (s : State) (o : Fin 8) : (s.endOver o).rasters = s.rasters :=
  foldl_keeps State.rasters (fun t c => endCapture_rasters t o c) _ s

@[simp] theorem cutCaptures_rasters (s : State) (o : Fin 8) (y : Nat) : (s.cutCaptures o y).rasters = s.rasters := by
  unfold State.cutCaptures
  extract_lets cs
  split
  · rfl
  · rw [endOver_rasters]
    exact foldl_keeps State.rasters (fun t c => captureDone_rasters t o c _) _ s

@[simp] theorem frameCaptures_rasters (s : State) (o : Fin 8) : (s.frameCaptures o).rasters = s.rasters :=
  (endOver_rasters ..).trans (cutCaptures_rasters ..)

/-! ### The end of a frame (R201, R236, R244, R287, R291) -/

@[simp] theorem proofResults_rasters (s : State) (o : Fin 8) : (s.proofResults o).rasters = s.rasters := modOut_rasters fun _ => by rfl

@[simp] theorem awaitCompare_rasters (s : State) (o : Fin 8) : (s.awaitCompare o).rasters = s.rasters := by
  unfold State.awaitCompare
  dsimp only
  split <;> rfl

@[simp] theorem sendLines_rasters (s : State) (o : Fin 8) (n : Nat) : (s.sendLines o n).rasters = s.rasters := by
  unfold State.sendLines
  dsimp only
  split <;> rfl

@[simp] theorem frameCounters_rasters (s : State) (o : Fin 8) : (s.frameCounters o).rasters = s.rasters := rfl

@[simp] theorem endRun_raster (u : Out) : u.endRun.raster = u.raster := by
  have hreset (b : Bool) : (if b then { u with abortRun := 0 } else u).raster = u.raster := by cases b <;> rfl
  unfold Out.endRun
  extract_lets complete v n lim
  split
  · split <;> exact hreset complete
  · exact hreset complete

/-- The work of the frame's end up to the vertical blanking. -/
def State.frameWork (s : State) (o : Fin 8) (lines : Nat) : State :=
  ((((s.proofResults o).awaitCompare o).sendLines o lines).frameCaptures o).frameCounters o

@[simp] theorem frameWork_rasters (s : State) (o : Fin 8) (lines : Nat) : (s.frameWork o lines).rasters = s.rasters := by
  rw [State.frameWork, frameCounters_rasters, frameCaptures_rasters, sendLines_rasters, awaitCompare_rasters, proofResults_rasters]

/-- The commits that wait on output `o` for a frame up to `f` leave the queue, and no other. -/
@[simp] theorem completeDone_rasters (s : State) (o : Fin 8) (q : Done → Bool) :
    (s.completeDone o q).rasters = (s.rasters.1, s.rasters.2.1.filter fun d => !(d.m.out == o && q d), s.rasters.2.2) :=
  foldl_keeps State.rasters (fun t _ => completeOk_rasters t ..) _ _

/-- An update that begins the vertical blanking of an output in the frame that it scans. -/
theorem modOut_blank_rasters (s : State) (o : Fin 8) {g : Out → Out} (h : ∀ u, (g u).raster = (true, u.frame)) :
    (s.modOut o g).rasters = (s.rasters.1, s.rasters.2.1, upd s.rasters.2.2 o fun r => (true, r.2)) := by
  have houts : (upd s.outs o g).map Out.raster = upd (s.outs.map Out.raster) o fun r => (true, r.2) := by
    ext i hi : 1
    by_cases hio : o.val = i
    · subst hio
      simp [upd, h]
      rfl
    · simp [upd, hio]
  exact congrArg (fun r => (s.rasters.1, s.rasters.2.1, r)) houts

theorem endRun_blank_raster (u : Out) : ({ u.endRun with vblank := true } : Out).raster = (true, u.frame) :=
  congrArg (fun r : Bool × DWord => (true, r.2)) (endRun_raster u)

/-- The instant of the end of frame `f`'s active lines, as FRAME_END moves Spire time there. -/
def State.atFrameEnd (s : State) (o : Fin 8) (f : Nat) : State :=
  s.upTo (s.gridPs (s.outs[o.val]).set.rg f + (s.outs[o.val]).mode.h * (s.outs[o.val]).mode.linePs)

@[simp] theorem atFrameEnd_rasters (s : State) (o : Fin 8) (f : Nat) : (s.atFrameEnd o f).rasters = s.rasters := upTo_rasters ..

theorem frameEnd_rasters_of_scanned {s : State} {o : Fin 8} {f : Nat} (hon : (s.outs[o.val]).enabled = true)
    (hscan : (s.outs[o.val]).scanning = true) (hactive : (s.outs[o.val]).vblank = false) (hframe : (s.outs[o.val]).frame = w64 f) :
    (s.frameEnd o f).rasters
      = (s.rasters.1, s.doneQ.filter fun d => !(d.m.out == o && decide (d.frame ≤ f)), upd (s.outs.map Out.raster) o fun r => (true, r.2)) := by
  simp only [State.frameEnd, hon, hscan, hactive, hframe, Bool.not_true, Bool.not_false, Bool.and_self, beq_self_eq_true, Bool.false_eq_true,
    if_false, if_true]
  rw [outEv_rasters, completeDone_rasters, outEv_rasters, modOut_blank_rasters _ _ endRun_blank_raster]
  have hwork := frameWork_rasters (s.atFrameEnd o f) o (s.outs[o.val]).mode.h
  rw [atFrameEnd_rasters, State.frameWork, State.atFrameEnd] at hwork
  rw [hwork]
  rfl

theorem frameEnd_of_not_scanned {s : State} {o : Fin 8} {f : Nat} (hon : (s.outs[o.val]).enabled = true)
    (h : (s.outs[o.val]).scanning = false ∨ (s.outs[o.val]).vblank = true ∨ (s.outs[o.val]).frame ≠ w64 f) :
    s.frameEnd o f = (s.atFrameEnd o f).completeDone o fun d => decide (d.frame ≤ f) := by
  have hnot : ((s.outs[o.val]).scanning && !(s.outs[o.val]).vblank && (s.outs[o.val]).frame == w64 f) = false := by
    rcases h with h | h | h <;> simp [h]
  simp only [State.frameEnd, hon, hnot, Bool.not_true, Bool.false_eq_true, if_false]
  rfl

/-! ### An underrun (R234, R235) -/

/-- What an underrun at a pixel of a line does to the output that meets it (R234, R235). -/
def Out.underrun (line x : Nat) (u : Out) : Out :=
  if u.safe then { u with underruns := satInc u.underruns, discardFail := true, completeRun := 0 }
  else
    let full := !u.cause1 && decide (u.set.abortLimit ≤ u.abortRun + 1)
    { u with
      underruns := satInc u.underruns, underrunAt := some line, underrunX := x, abortRun := u.abortRun + 1, cause1 := u.cause1 || full
      completeRun := if full then 0 else u.completeRun, resumeReq := u.resumeReq && !full }.pvFall

theorem underrun_raster (line x : Nat) (u : Out) : (u.underrun line x).raster = u.raster := by
  unfold Out.underrun
  split <;> rfl

theorem underrun_underruns (line x : Nat) (u : Out) : (u.underrun line x).underruns = satInc u.underruns := by
  unfold Out.underrun
  split <;> rfl

theorem underrun_of_composed {u : Out} (line x : Nat) (h : u.safe = false) :
    (u.underrun line x).underrunAt = some line ∧ (u.underrun line x).abortRun = u.abortRun + 1 := by
  simp only [Out.underrun, h, Bool.false_eq_true, if_false]
  exact ⟨rfl, rfl⟩

theorem underrun_of_safe {u : Out} (line x : Nat) (h : u.safe = true) :
    (u.underrun line x).discardFail = true ∧ (u.underrun line x).pvalid = u.pvalid := by
  simp only [Out.underrun, h, if_true]
  exact ⟨trivial, trivial⟩

@[simp] theorem outEvent_unnoticed (s : State) (o : Fin 8) (code frame detail : Nat) (view : VMap → Option Nat) :
    (s.outEvent o code frame detail view).unnoticed = s.unnoticed := raise_unnoticed ..

/-- An underrun of a line that the output can abort changes Spire time and the output, and is reported (R244). -/
theorem underrunFrom_unnoticed {s : State} {o : Fin 8} {line : Nat} (x : Nat) (h : (s.outs[o.val]).canUnderrun line = true) :
    (s.underrunFrom o line x).unnoticed = ((s.upTo (s.gridPs (s.outs[o.val]).set.rg (s.outs[o.val]).frame.toNat
      + line * (s.outs[o.val]).mode.linePs)).modOut o (Out.underrun line x)).unnoticed := by
  simp only [State.underrunFrom, h, Bool.not_true, Bool.false_eq_true, if_false]
  split
  case isTrue hsafe =>
    rw [modOut_modOut]
    refine congrArg State.unnoticed (modOut_congr ?_)
    simp only [upTo_outs, Out.underrun, hsafe, if_true]
  case isFalse hsafe =>
    rw [outEvent_unnoticed, modOut_modOut]
    refine congrArg State.unnoticed (modOut_congr ?_)
    simp only [upTo_outs, Out.underrun, hsafe]
    rfl

theorem underrunFrom_outs {s : State} {o : Fin 8} {line : Nat} (x : Nat) (h : (s.outs[o.val]).canUnderrun line = true) :
    (s.underrunFrom o line x).outs = upd s.outs o (Out.underrun line x) := by
  rw [outs_of_unnoticed (underrunFrom_unnoticed x h), modOut_outs, upTo_outs]

@[simp] theorem underrunFrom_rasters (s : State) (o : Fin 8) (line x : Nat) : (s.underrunFrom o line x).rasters = s.rasters := by
  by_cases h : (s.outs[o.val]).canUnderrun line = true
  case pos =>
    refine (rasters_of_unnoticed ?_ (underrunFrom_unnoticed x h)).trans ?_
    · rw [underrunFrom_core, modOut_core, upTo_core]
    · rw [modOut_rasters (underrun_raster line x), upTo_rasters]
  case neg => rw [State.underrunFrom, if_pos (by simpa using h)]

/-! ### What follows a frame's end that meets memory errors (R234) -/

@[simp] theorem faultGo_rasters (s : State) (o : Fin 8) : (s.faultGo o).rasters = s.rasters := by
  unfold State.faultGo
  extract_lets u fs t
  split
  · rfl
  · split
    · exact underrunFrom_rasters ..
    · rfl

/-- What follows an effect that keeps the core of a calm state but for errors keeps the rasters. -/
theorem after_rasters {s t : State} (hs : s.calm = true) (h : t.rasters.1 = s.rasters.1) : t.after.rasters = t.rasters := by
  have hcalm : ({ t with comps := s.comps } : State).calm = true :=
    (calm_of_core (s := s) (congrArg (fun c : Core => { c with faults := s.core.faults }) h)).trans hs
  rw [after_of_calm_but_faults hcalm]
  exact foldl_keeps State.rasters faultGo_rasters _ t

/-! ### The commands FRAME_END and UNDERRUN -/

@[simp] theorem run_doneQ (s : State) (f : State → State) : (s.run f).doneQ = (f s).doneQ := rfl

theorem pending_of_rasters {s : State} {c : Core} {q : List Done} {r : Vector (Bool × DWord) 8} (h : s.rasters = (c, q, r)) : s.doneQ = q :=
  (congrArg (fun x => x.2.1) h :)

theorem out_of_rasters {s : State} {c : Core} {q : List Done} {r : Vector (Bool × DWord) 8} (h : s.rasters = (c, q, r)) (o : Fin 8) :
    (s.outs[o.val]).vblank = r[o.val].1 ∧ (s.outs[o.val]).frame = r[o.val].2 := by
  have houts : s.outs.map Out.raster = r := congrArg (fun x => x.2.2) h
  have hout : (s.outs[o.val]).raster = r[o.val] := by rw [← houts, Vector.getElem_map]
  exact Prod.ext_iff.mp hout

theorem exec_frameEnd_of_scanned {s : State} {o : Fin 8} {f : Nat} (hg : s.Good) (hon : (s.outs[o.val]).enabled = true)
    (hscan : (s.outs[o.val]).scanning = true) (hactive : (s.outs[o.val]).vblank = false) (hframe : (s.outs[o.val]).frame = w64 f) :
    ∃ t, exec (.frameEnd o f) s = .next t ∧ (t.outs[o.val]).vblank = true ∧ (t.outs[o.val]).frame = w64 f
      ∧ t.doneQ = s.doneQ.filter fun d => !(d.m.out == o && decide (d.frame ≤ f)) := by
  have hend := frameEnd_rasters_of_scanned hon hscan hactive hframe
  have hcore : (s.frameEnd o f).rasters.1 = s.rasters.1 := by rw [hend]
  have hafter := (after_rasters hg.2.2 hcore).trans hend
  obtain ⟨hvblank, hsame⟩ := out_of_rasters hafter o
  rw [upd_same, Vector.getElem_map] at hvblank hsame
  refine ⟨_, act_of_running hg.2.1 _, ?_⟩
  rw [run_outs, run_doneQ]
  exact ⟨hvblank, hsame.trans hframe, pending_of_rasters hafter⟩

theorem exec_frameEnd_of_not_scanned {s : State} {o : Fin 8} {f : Nat} (hg : s.Good) (hon : (s.outs[o.val]).enabled = true)
    (h : (s.outs[o.val]).scanning = false ∨ (s.outs[o.val]).vblank = true ∨ (s.outs[o.val]).frame ≠ w64 f) :
    ∃ t, exec (.frameEnd o f) s = .next t ∧ (t.outs[o.val]).vblank = (s.outs[o.val]).vblank ∧ (t.outs[o.val]).frame = (s.outs[o.val]).frame
      ∧ t.doneQ = s.doneQ.filter fun d => !(d.m.out == o && decide (d.frame ≤ f)) := by
  have heq := frameEnd_of_not_scanned hon h
  have hcore : (s.frameEnd o f).core = s.core := by rw [heq, completeDone_core, State.atFrameEnd, upTo_core]
  have hend := completeDone_rasters (s.atFrameEnd o f) o fun d => decide (d.frame ≤ f)
  rw [← heq, atFrameEnd_rasters] at hend
  obtain ⟨hvblank, hsame⟩ := out_of_rasters hend o
  refine ⟨_, act_steady hg.2 hcore, hvblank.trans ?_, hsame.trans ?_, pending_of_rasters hend⟩
  · exact congrArg Prod.fst (Vector.getElem_map ..)
  · exact congrArg Prod.snd (Vector.getElem_map ..)

theorem exec_frameEnd_of_disabled {s : State} {o : Fin 8} (f : Nat) (hg : s.Good) (hoff : (s.outs[o.val]).enabled = false) :
    exec (.frameEnd o f) s = .next s := by
  have hidle : s.frameEnd o f = s := by simp [State.frameEnd, hoff]
  exact plain hg hidle rfl rfl rfl rfl

theorem exec_underrun_outs {s : State} {o : Fin 8} {line : Nat} (hg : s.Good) (h : (s.outs[o.val]).canUnderrun line = true) :
    ∃ t x, exec (.underrun o line) s = .next t ∧ t.outs[o.val] = (s.outs[o.val]).underrun line x := by
  refine ⟨_, s.free.1.toNat % max 1 (s.outs[o.val]).mode.w, act_steady hg.2 (underrunDo_core s o line), ?_⟩
  rw [run_outs, State.underrunDo, if_neg (by simpa using h)]
  refine (congrArg (fun v => v[o.val]) (underrunFrom_outs (s := s.free.2) _ h)).trans ?_
  exact upd_same ..

theorem exec_underrun_idle {s : State} {o : Fin 8} {line : Nat} (hg : s.Good) (h : (s.outs[o.val]).canUnderrun line = false) :
    exec (.underrun o line) s = .next s := by
  have hidle : s.underrunDo o line = s := by simp [State.underrunDo, h]
  exact plain hg hidle rfl rfl rfl rfl

/-- Settles O36: the end of a frame writes captures and hands over proofs, and leaves every raster but its own where it stands; an underrun changes its
output alone. -/
theorem frameEndAndUnderrun : Obligations.FrameEndAndUnderrun := by
  unfold Obligations.FrameEndAndUnderrun
  refine ⟨fun s o f hg => ⟨exec_frameEnd_of_scanned hg, exec_frameEnd_of_not_scanned hg, exec_frameEnd_of_disabled f hg⟩,
    fun s o line hg => ⟨fun hscan hactive hwhole hkept hline => ?_, fun h => ?_⟩⟩
  · have hcan : (s.outs[o.val]).canUnderrun line = true := by simp [Out.canUnderrun, hscan, hactive, hwhole, hkept, hline]
    obtain ⟨t, x, hexec, hout⟩ := exec_underrun_outs hg hcan
    refine ⟨t, hexec, ?_⟩
    rw [hout]
    exact ⟨underrun_underruns line x _, underrun_of_composed line x, underrun_of_safe line x⟩
  · have hcan : (s.outs[o.val]).canUnderrun line = false := by
      rcases h with h | h | h | h | h <;> simp [Out.canUnderrun, h]
    exact exec_underrun_idle hg hcan

end Sys2Proof.Machine
end

section
/-!
SUPPORT. The safety requests (07, The update path; 12): their checks, the reply to them field by field with its MAC, how the Dome takes one, and
what the bits of an OUTPUT_CMD leave of every output. O54 is settled from these.
-/
namespace Sys2Proof.Machine
open Sys2Proof

/-! ### Packed bytes -/

theorem leBytes_of_mod_eq {n v w : Nat} (h : v % 2 ^ (8 * n) = w % 2 ^ (8 * n)) : leBytes n v = leBytes n w := by
  refine List.map_congr_left fun i hi => BitVec.eq_of_getLsbD_eq fun j hj => ?_
  have hi : i < n := List.mem_range.1 hi
  have hbit := congrArg (fun x => x.testBit (8 * i + j)) h
  simpa only [BitVec.getLsbD_ofNat, hj, Nat.testBit_shiftRight, Nat.testBit_mod_two_pow, show 8 * i + j < 8 * n by omega, decide_true,
    Bool.true_and] using hbit

theorem take_leBytes {k n : Nat} (h : k ≤ n) (v : Nat) : (leBytes n v).take k = leBytes k v := by
  rw [leBytes, leBytes, ← List.map_take, List.take_range, Nat.min_eq_left h]

/-! ### The length of a MAC -/

theorem length_shaBlock_le (h : List Nat) (blk : List Byte) : (shaBlock h blk).length ≤ h.length := by
  rw [shaBlock, List.length_zipWith]
  exact Nat.min_le_left ..

theorem length_beBytes (n v : Nat) : (beBytes n v).length = n := by
  rw [beBytes, List.length_reverse, length_leBytes]

theorem length_foldl_shaBlock_le (blocks : List (List Byte)) (h : List Nat) : (blocks.foldl shaBlock h).length ≤ h.length := by
  induction blocks generalizing h with
  | nil => exact Nat.le_refl _
  | cons blk blocks ih => exact (ih _).trans (length_shaBlock_le h blk)

theorem length_sha256_le (m : List Byte) : (sha256 m).length ≤ 32 := by
  have hfold := length_foldl_shaBlock_le ((List.range ((shaPad m).length / 64)).map fun i => ((shaPad m).drop (64 * i)).take 64) shaInit
  have hinit : shaInit.length ≤ 8 := by
    rw [shaInit, List.length_map, List.length_take]
    exact Nat.min_le_left ..
  rw [List.foldl_map] at hfold
  rw [sha256, List.length_flatMap]
  simp only [length_beBytes, List.map_const', List.sum_replicate, smul_eq_mul]
  omega

theorem ofLe_hmac_lt (key m : List Byte) : ofLe (hmac key m) < 2 ^ 256 :=
  (ofLe_lt _).trans_le (Nat.pow_le_pow_right (by decide) (Nat.mul_le_mul_left 8 (length_sha256_le _)))

/-! ### The checks of a safety request (R281, R483) -/

theorem safetyCheck_of_tamper {s : State} (p : Fin 64) (m : BitVec 2048) (h : s.dome.tamperKeys = true) : s.safetyCheck p m = 7 := by
  simp [State.safetyCheck, h]

theorem safetyCheck_of_badRequest {s : State} {p : Fin 64} {m : BitVec 2048} (htamper : s.dome.tamperKeys = false)
    (h : (s.belvs[(f8 (mU m 1 1)).val]).safety ≠ p ∨ reservedZero m = false) : s.safetyCheck p m = 5 := by
  have hbad : (s.belvs[(f8 (mU m 1 1)).val]).safety ≠ p ∨ (!reservedZero m) = true := h.imp_right fun h => by rw [h]; rfl
  rw [State.safetyCheck, if_neg (by simp [htamper]), if_pos (by tauto)]

theorem safetyCheck_of_badMac {s : State} {p : Fin 64} {m : BitVec 2048} (htamper : s.dome.tamperKeys = false) (hfields : s.safetyCheck p m ≠ 5)
    (hbad : hmac (leBytes 32 (s.belvs[(f8 (mU m 1 1)).val]).key.toNat) (mBytes m 0 224) ≠ mBytes m 224 32) : s.safetyCheck p m = 1 := by
  unfold State.safetyCheck at hfields ⊢
  dsimp only at hfields ⊢
  rw [if_neg (by simp [htamper]), if_pos hbad] at hfields ⊢
  exact (ite_eq_or_eq ..).resolve_left hfields

/-- A request that passes comes before any tamper and is newer than the last accepted one. -/
theorem safetyCheck_passed {s : State} {p : Fin 64} {m : BitVec 2048} (h : s.safetyCheck p m = 0) :
    s.dome.tamperKeys = false ∧ (s.belvs[(f8 (mU m 1 1)).val]).seq.toNat < mU m 8 8 := by
  obtain ⟨-, h⟩ | ⟨htamper, h⟩ := ite_eq_iff.1 h
  · cases h
  obtain ⟨-, h⟩ | ⟨-, h⟩ := ite_eq_iff.1 h
  · cases h
  obtain ⟨-, h⟩ | ⟨-, h⟩ := ite_eq_iff.1 h
  · cases h
  obtain ⟨-, h⟩ | ⟨hseq, -⟩ := ite_eq_iff.1 h
  · cases h
  exact ⟨Bool.eq_false_iff.2 htamper, Nat.lt_of_not_le hseq⟩

/-! ### A reply in its mailbox slot (R453) -/

@[simp] theorem msi_mbox (s : State) (p q : Fin 64) (vec : Nat) : ((s.msi p vec).pavs[q.val]).mbox = (s.pavs[q.val]).mbox := by
  have hmod (f : Pav → Pav) (hf : ∀ v, (f v).mbox = v.mbox) : ((s.modPav p f).pavs[q.val]).mbox = (s.pavs[q.val]).mbox := by
    by_cases h : q = p
    · subst h; rw [modPav_pavs, upd_same, hf]
    · rw [modPav_pavs, upd_other _ _ _ _ h]
  unfold State.msi
  dsimp only
  split
  · exact hmod _ fun _ => rfl
  · rfl

/-- What a reply leaves as it was, whether or not its request is still pending. -/
theorem mbxReply_eq (s : State) (p : Fin 64) (i : Fin 2) (m : BitVec 2048) :
    ∃ pavs tx, s.mbxReply p i m = { s with pavs, tx } := by
  unfold State.mbxReply
  split
  · unfold State.msi
    dsimp only
    split <;> exact ⟨_, _, rfl⟩
  · exact ⟨_, _, rfl⟩

theorem mbxReply_slot {s : State} {p : Fin 64} {i : Fin 2} (m : BitVec 2048) (h : ((s.pavs[p.val]).mbox[i.val]).busy = true) :
    ((s.mbxReply p i m).pavs[p.val]).mbox[i.val]
      = { (s.pavs[p.val]).mbox[i.val] with out := m, full := true, busy := false, taken := false } := by
  rw [State.mbxReply, if_pos h]
  simp

/-! ### The reply to a safety request (R286) -/

/-- The reply but for its MAC: its header, LATCH_FRAME and the slot's last accepted UPDATE_SEQ. -/
def Belv.replyBody (b : Belv) (req : BitVec 2048) (status frame : Nat) : BitVec 2048 :=
  mbxMsg (replyHdr req status ++ [(8, 8, frame), (16, 8, b.seq.toNat)])

/-- The MAC of a reply; without a key one that the spec leaves open (log 6). -/
def State.replyMac (s : State) (b : Belv) (body : BitVec 2048) : Nat :=
  if b.hasKey then ofLe (hmac (leBytes 32 b.key.toNat) (mBytes body 0 224)) else (Config.freeNonce s.freeCount).toNat

/-- A message with a MAC in its last 32 bytes. -/
def sealWith (body : BitVec 2048) (mac : Nat) : BitVec 2048 := BitVec.ofNat 2048 (body.toNat + mac * 2 ^ (8 * 224))

/-- A reply changes the mailbox alone, and counts the free value where it took one. -/
theorem safetyReply_eq (s : State) (p : Fin 64) (i : Fin 2) (req : BitVec 2048) (status frame : Nat) :
    ∃ n, s.safetyReply p i req status frame
      = ({ s with freeCount := n } : State).mbxReply p i (sealWith ((s.belvs[(f8 (mU req 1 1)).val]).replyBody req status frame)
          (s.replyMac s.belvs[(f8 (mU req 1 1)).val] ((s.belvs[(f8 (mU req 1 1)).val]).replyBody req status frame))) := by
  unfold State.safetyReply State.replyMac
  dsimp only
  split
  · exact ⟨s.freeCount, rfl⟩
  · exact ⟨s.freeCount + 1, rfl⟩

theorem safetyReply_frame (s : State) (p : Fin 64) (i : Fin 2) (req : BitVec 2048) (status frame : Nat) :
    ∃ n pavs tx, s.safetyReply p i req status frame = { s with freeCount := n, pavs, tx } := by
  obtain ⟨n, h⟩ := safetyReply_eq s p i req status frame
  obtain ⟨pavs, tx, hreply⟩ := mbxReply_eq _ p i _
  exact ⟨n, pavs, tx, h.trans hreply⟩

@[simp] theorem safetyReply_belvs (s : State) (p : Fin 64) (i : Fin 2) (req : BitVec 2048) (status frame : Nat) :
    (s.safetyReply p i req status frame).belvs = s.belvs := by
  obtain ⟨n, pavs, tx, h⟩ := safetyReply_frame s p i req status frame
  rw [h]

@[simp] theorem safetyReply_outs (s : State) (p : Fin 64) (i : Fin 2) (req : BitVec 2048) (status frame : Nat) :
    (s.safetyReply p i req status frame).outs = s.outs := by
  obtain ⟨n, pavs, tx, h⟩ := safetyReply_frame s p i req status frame
  rw [h]

/-! ### The fields of a reply's body -/

/-- One field of a message as a number. -/
def fieldValue (q : Nat × Nat × Nat) : Nat := (q.2.2 % 2 ^ (8 * q.2.1)) * 2 ^ (8 * q.1)

theorem fieldValue_of_lt {k n v : Nat} (h : v < 2 ^ (8 * n)) : fieldValue (k, n, v) = v * 2 ^ (8 * k) := by
  rw [fieldValue, Nat.mod_eq_of_lt h]

theorem toNat_mbxMsg (fields : List (Nat × Nat × Nat)) : (mbxMsg fields).toNat = (fields.map fieldValue).sum % 2 ^ 2048 := by
  rw [mbxMsg, BitVec.toNat_ofNat, List.sum_eq_foldl, List.foldl_map]
  simp only [fieldValue]

theorem sum_fieldValues (a b c d e f : Nat × Nat × Nat) : ([a, b, c, d, e, f].map fieldValue).sum
    = fieldValue a + fieldValue b + fieldValue c + fieldValue d + fieldValue e + fieldValue f := by
  simp [Nat.add_assoc]

theorem mU_lt (m : BitVec 2048) (k n : Nat) : mU m k n < 2 ^ (8 * n) := Nat.mod_lt _ (Nat.two_pow_pos _)

/-- The fields of a reply's body, one after the other below its MAC. -/
def Belv.replyFields (b : Belv) (req : BitVec 2048) (status frame : Nat) : Nat :=
  (mU req 0 1 ||| 0x80) + mU req 1 1 * 2 ^ 8 + status * 2 ^ 16 + mU req 4 4 * 2 ^ 32 + frame * 2 ^ 64 + b.seq.toNat * 2 ^ 128

theorem replyFields_lt (b : Belv) (req : BitVec 2048) {status frame : Nat} (hstatus : status < 2 ^ 8) (hframe : frame < 2 ^ 64) :
    b.replyFields req status frame < 2 ^ 192 := by
  have htype : mU req 0 1 ||| 0x80 < 2 ^ 8 := Nat.or_lt_two_pow (mU_lt req 0 1) (by decide)
  have hslot : mU req 1 1 < 2 ^ 8 := mU_lt req 1 1
  have hid : mU req 4 4 < 2 ^ 32 := mU_lt req 4 4
  have hseq : b.seq.toNat < 2 ^ 64 := b.seq.isLt
  rw [Belv.replyFields]
  omega

theorem replyFields_lt_of_le (b : Belv) (req : BitVec 2048) {status frame k : Nat} (hstatus : status < 2 ^ 8) (hframe : frame < 2 ^ 64)
    (hk : 192 ≤ k) : b.replyFields req status frame < 2 ^ k :=
  (replyFields_lt b req hstatus hframe).trans_le (Nat.pow_le_pow_right (by decide) hk)

theorem toNat_replyBody (b : Belv) (req : BitVec 2048) {status frame : Nat} (hstatus : status < 2 ^ 8) (hframe : frame < 2 ^ 64) :
    (b.replyBody req status frame).toNat = b.replyFields req status frame := by
  have htype : mU req 0 1 ||| 0x80 < 2 ^ (8 * 1) := Nat.or_lt_two_pow (mU_lt req 0 1) (by decide)
  have hseq : b.seq.toNat < 2 ^ (8 * 8) := b.seq.isLt
  have hsum := sum_fieldValues (0, 1, mU req 0 1 ||| 0x80) (1, 1, mU req 1 1) (2, 1, status) (4, 4, mU req 4 4) (8, 8, frame) (16, 8, b.seq.toNat)
  rw [fieldValue_of_lt htype, fieldValue_of_lt (mU_lt req 1 1), fieldValue_of_lt (n := 1) hstatus, fieldValue_of_lt (mU_lt req 4 4),
    fieldValue_of_lt (n := 8) hframe, fieldValue_of_lt hseq] at hsum
  rw [Belv.replyBody, replyHdr, List.cons_append, List.cons_append, List.cons_append, List.cons_append, List.nil_append, toNat_mbxMsg, hsum]
  have hfields : (mU req 0 1 ||| 0x80) * 2 ^ (8 * 0) + mU req 1 1 * 2 ^ (8 * 1) + status * 2 ^ (8 * 2) + mU req 4 4 * 2 ^ (8 * 4)
      + frame * 2 ^ (8 * 8) + b.seq.toNat * 2 ^ (8 * 16) = b.replyFields req status frame := by
    rw [Belv.replyFields, Nat.mul_zero, Nat.pow_zero, Nat.mul_one]
  rw [hfields]
  exact Nat.mod_eq_of_lt (replyFields_lt_of_le b req hstatus hframe (by decide))

/-! ### The bytes of a sealed message -/

theorem uAt_of_mod_eq {v w k n l : Nat} (h : v % 2 ^ (8 * l) = w % 2 ^ (8 * l)) (hl : k + n ≤ l) : uAt v k n = uAt w k n := by
  refine Nat.eq_of_testBit_eq fun j => ?_
  have hbit := congrArg (fun x => x.testBit (8 * k + j)) h
  simp only [Nat.testBit_mod_two_pow] at hbit
  by_cases hj : j < 8 * n
  · simpa [uAt, Nat.testBit_mod_two_pow, hj, show 8 * k + j < 8 * l by omega] using hbit
  · simp [uAt, Nat.testBit_mod_two_pow, hj]

theorem toNat_sealWith_mod (body : BitVec 2048) (mac : Nat) : (sealWith body mac).toNat % 2 ^ (8 * 224) = body.toNat % 2 ^ (8 * 224) := by
  rw [sealWith, BitVec.toNat_ofNat, Nat.mod_mod_of_dvd _ (Nat.pow_dvd_pow 2 (show 8 * 224 ≤ 2048 by decide)), Nat.add_mul_mod_self_right]

/-- Before its MAC a sealed message reads as its body. -/
theorem mU_sealWith (body : BitVec 2048) (mac : Nat) {k n : Nat} (h : k + n ≤ 224) : mU (sealWith body mac) k n = mU body k n :=
  uAt_of_mod_eq (toNat_sealWith_mod body mac) h

theorem mBytes_sealWith (body : BitVec 2048) (mac : Nat) : mBytes (sealWith body mac) 0 224 = mBytes body 0 224 := by
  rw [mBytes, mBytes, List.drop_zero, List.drop_zero, take_leBytes (by decide), take_leBytes (by decide)]
  exact leBytes_of_mod_eq (toNat_sealWith_mod body mac)

theorem packed_lt {a b k l : Nat} (ha : a < 2 ^ k) (hb : b < 2 ^ l) : a + b * 2 ^ k < 2 ^ (k + l) :=
  calc a + b * 2 ^ k < (b + 1) * 2 ^ k := by rw [Nat.succ_mul]; omega
    _ ≤ 2 ^ l * 2 ^ k := Nat.mul_le_mul_right _ hb
    _ = 2 ^ (k + l) := by rw [Nat.pow_add, Nat.mul_comm]

theorem mU_sealWith_mac {body : BitVec 2048} {mac : Nat} (hbody : body.toNat < 2 ^ (8 * 224)) (hmac : mac < 2 ^ (8 * 32)) :
    mU (sealWith body mac) 224 32 = mac := by
  have hlt : body.toNat + mac * 2 ^ (8 * 224) < 2 ^ 2048 :=
    (packed_lt hbody hmac).trans_eq (congrArg (2 ^ ·) (show 8 * 224 + 8 * 32 = 2048 by decide))
  rw [mU, sealWith, BitVec.toNat_ofNat, Nat.mod_eq_of_lt hlt, uAt, Nat.shiftRight_eq_div_pow, Nat.add_mul_div_right _ _ (Nat.two_pow_pos _),
    Nat.div_eq_of_lt hbody, Nat.zero_add, Nat.mod_eq_of_lt hmac]

/-! ### What a reply reads as (R286) -/

/-- What the fields of a reply's body read as (R286). -/
theorem replyBody_fields (b : Belv) (req : BitVec 2048) {status frame : Nat} (hstatus : status < 2 ^ 8) (hframe : frame < 2 ^ 64) :
    mU (b.replyBody req status frame) 0 1 = mU req 0 1 ||| 0x80 ∧ mU (b.replyBody req status frame) 2 1 = status
      ∧ mU (b.replyBody req status frame) 4 4 = mU req 4 4 ∧ mU (b.replyBody req status frame) 8 8 = frame
      ∧ mU (b.replyBody req status frame) 16 8 = b.seq.toNat := by
  have htype : mU req 0 1 ||| 0x80 < 2 ^ 8 := Nat.or_lt_two_pow (mU_lt req 0 1) (by decide)
  have hslot : mU req 1 1 < 2 ^ 8 := mU_lt req 1 1
  have hid : mU req 4 4 < 2 ^ 32 := mU_lt req 4 4
  have hseq : b.seq.toNat < 2 ^ 64 := b.seq.isLt
  have hread (k n : Nat) : mU (b.replyBody req status frame) k n = b.replyFields req status frame / 2 ^ (8 * k) % 2 ^ (8 * n) := by
    rw [mU, toNat_replyBody b req hstatus hframe, uAt, Nat.shiftRight_eq_div_pow]
  simp only [hread, Belv.replyFields]
  generalize mU req 0 1 ||| 0x80 = ty at *
  generalize mU req 1 1 = slot at *
  generalize mU req 4 4 = id at *
  generalize b.seq.toNat = seq at *
  omega

/-- The slot of a safety request once its reply is in. -/
theorem safetyReply_slot {s : State} {p : Fin 64} {i : Fin 2} (req : BitVec 2048) (status frame : Nat)
    (h : ((s.pavs[p.val]).mbox[i.val]).busy = true) :
    let b := s.belvs[(f8 (mU req 1 1)).val]
    let x := ((s.safetyReply p i req status frame).pavs[p.val]).mbox[i.val]
    x.busy = false ∧ x.full = true ∧ x.out = sealWith (b.replyBody req status frame) (s.replyMac b (b.replyBody req status frame)) := by
  dsimp only
  obtain ⟨n, hreply⟩ := safetyReply_eq s p i req status frame
  have hbusy : ((({ s with freeCount := n } : State).pavs[p.val]).mbox[i.val]).busy = true := h
  rw [hreply, mbxReply_slot _ hbusy]
  exact ⟨rfl, rfl, rfl⟩

/-- What stands in the slot is the reply of R286. -/
theorem safetyReply_reads {s : State} {p : Fin 64} {i : Fin 2} (req : BitVec 2048) {status frame : Nat}
    (h : ((s.pavs[p.val]).mbox[i.val]).busy = true) (hstatus : status < 2 ^ 8) (hframe : frame < 2 ^ 64) :
    let b := s.belvs[(f8 (mU req 1 1)).val]
    let x := ((s.safetyReply p i req status frame).pavs[p.val]).mbox[i.val]
    x.busy = false ∧ x.full = true ∧ mU x.out 0 1 = mU req 0 1 ||| 0x80 ∧ mU x.out 2 1 = status ∧ mU x.out 4 4 = mU req 4 4
      ∧ mU x.out 8 8 = frame ∧ mU x.out 16 8 = b.seq.toNat
      ∧ (b.hasKey = true → mU x.out 224 32 = ofLe (hmac (leBytes 32 b.key.toNat) (mBytes x.out 0 224))) := by
  obtain ⟨hbusy, hfull, hout⟩ := safetyReply_slot req status frame h
  dsimp only
  rw [hout, mU_sealWith _ _ (by decide), mU_sealWith _ _ (by decide), mU_sealWith _ _ (by decide), mU_sealWith _ _ (by decide),
    mU_sealWith _ _ (by decide), mBytes_sealWith]
  obtain ⟨htype, hst, hid, hfr, hseq⟩ := replyBody_fields (s.belvs[(f8 (mU req 1 1)).val]) req hstatus hframe
  refine ⟨hbusy, hfull, htype, hst, hid, hfr, hseq, fun hkey => ?_⟩
  have hbody := (toNat_replyBody (s.belvs[(f8 (mU req 1 1)).val]) req hstatus hframe).trans_lt
    (replyFields_lt_of_le _ req hstatus hframe (show 192 ≤ 8 * 224 by decide))
  rw [State.replyMac, if_pos hkey]
  exact mU_sealWith_mac hbody (ofLe_hmac_lt _ _)

/-! ### A request the Dome takes (R452, R453) -/

theorem mbxTake_of_asked {s : State} {p : Fin 64} {i : Fin 2} {m : BitVec 2048} (h : s.Asked p i m) {q : BitVec 2048 → Bool} (hq : q m = true)
    (f : State → BitVec 2048 → State) : s.mbxTake p i q f = f s m := by
  obtain ⟨hbusy, htaken, hinp, hrun, hrecovery⟩ := h
  simp [State.mbxTake, hbusy, htaken, hinp, hq, hrun, hrecovery]

/-- A request that is answered and does nothing else. -/
theorem act_answers {s : State} {p : Fin 64} {i : Fin 2} {m : BitVec 2048} (hg : s.Good) (h : s.Asked p i m) {q : BitVec 2048 → Bool}
    (hq : q m = true) {f : State → BitVec 2048 → State} {status frame : Nat} (hf : f s m = s.safetyReply p i m status frame) :
    act (fun s => s.mbxTake p i q f) s = .next (s.safetyReply p i m status frame) := by
  obtain ⟨n, pavs, tx, hframe⟩ := safetyReply_frame s p i m status frame
  refine plain hg ((mbxTake_of_asked h hq f).trans hf) (safetyReply_core ..) ?_ ?_ ?_ <;> rw [hframe]

theorem safetyDo_of_failed {s : State} {p : Fin 64} {i : Fin 2} {m : BitVec 2048} (h : s.safetyCheck p m ≠ 0) (f : State → State × Nat) :
    s.safetyDo p i m f = s.safetyReply p i m (s.safetyCheck p m) 0 := by
  rw [State.safetyDo]
  exact if_pos h

theorem safetyDo_of_passed {s : State} {p : Fin 64} {i : Fin 2} {m : BitVec 2048} (h : s.safetyCheck p m = 0) {f : State → State × Nat} {t : State}
    (hf : f s = (t, 0)) : s.safetyDo p i m f = (t.acceptSeq m).safetyReply p i m 0 0 := by
  rw [State.safetyDo]
  simp [h, hf]

theorem belvUpdate_of_failed {s : State} {p : Fin 64} {i : Fin 2} {m : BitVec 2048} (h : s.safetyCheck p m ≠ 0) :
    s.belvUpdate p i m = s.safetyReply p i m (s.safetyCheck p m) 0 := by
  rw [State.belvUpdate]
  exact if_pos h

theorem belvReaffirm_of_failed {s : State} {p : Fin 64} {i : Fin 2} {m : BitVec 2048} (h : s.safetyCheck p m ≠ 0) :
    s.belvReaffirm p i m = s.safetyReply p i m (s.safetyCheck p m) 0 := by
  rw [State.belvReaffirm]
  exact if_pos h

theorem blockMove_of_failed {s : State} {p : Fin 64} {i : Fin 2} {m : BitVec 2048} (h : s.safetyCheck p m ≠ 0) (take : Bool) :
    s.blockMove p i m take = s.safetyReply p i m (s.safetyCheck p m) 0 := by
  rw [State.blockMove]
  exact if_pos h

theorem isType_of_eq {m : BitVec 2048} {t : Nat} (h : mU m 0 1 = t) : isType t m = true := beq_iff_eq.2 h

/-- A safety request that fails a check of R281 is answered with its status, whichever row takes it. -/
theorem exec_safetyRequest_fails {s : State} {p : Fin 64} {i : Fin 2} {m : BitVec 2048} {c : Instr} (hg : s.Good) (h : s.Asked p i m)
    (hfails : s.safetyCheck p m ≠ 0)
    (hc : (c, mU m 0 1) ∈ [(Instr.belvUpdate p i, 0x10), (.belvReaffirm p i, 0x11), (.belvResume p i, 0x12), (.safeSend p i, 0x14),
      (.blockTake p i, 0x15), (.blockRelease p i, 0x16), (.heldConsole p i, 0x17)]) :
    exec c s = .next (s.safetyReply p i m (s.safetyCheck p m) 0) := by
  simp only [List.mem_cons, Prod.mk.injEq, List.not_mem_nil, or_false] at hc
  obtain ⟨rfl, ht⟩ | ⟨rfl, ht⟩ | ⟨rfl, ht⟩ | ⟨rfl, ht⟩ | ⟨rfl, ht⟩ | ⟨rfl, ht⟩ | ⟨rfl, ht⟩ := hc
  · exact act_answers hg h (isType_of_eq ht) (belvUpdate_of_failed hfails)
  · exact act_answers hg h (isType_of_eq ht) (belvReaffirm_of_failed hfails)
  · exact act_answers hg h (isType_of_eq ht) (safetyDo_of_failed hfails _)
  · exact act_answers hg h (isType_of_eq ht) (safetyDo_of_failed hfails _)
  · exact act_answers hg h (isType_of_eq ht) (blockMove_of_failed hfails true)
  · exact act_answers hg h (isType_of_eq ht) (blockMove_of_failed hfails false)
  · exact act_answers hg h (isType_of_eq ht) (safetyDo_of_failed hfails _)

/-! ### OUTPUT_CMD (R456, R457) -/

/-- Both bits of a pair of an OUTPUT_CMD are set. -/
def contradicts (v : Nat) : Bool := (bit v 0 && bit v 1) || (bit v 2 && bit v 3)

/-- The outputs that an OUTPUT_CMD reaches (R459). -/
def commanded (m : BitVec 2048) : List (Fin 8) :=
  if mU m 17 1 = 0 then [f8 (mU m 1 1)] else (idx 8).filter fun o => bit (mU m 17 1) o.val

theorem mem_commanded {m : BitVec 2048} {o : Fin 8} :
    o ∈ commanded m ↔ (if mU m 17 1 = 0 then o == f8 (mU m 1 1) else bit (mU m 17 1) o.val) = true := by
  unfold commanded
  split <;> simp [idx]

/-- An output's cause 4, FORCE_LOW and cause 2. -/
def Out.safety (u : Out) : Bool × Bool × Bool := (u.cause4, u.forceLow, u.cause2)

/-- A setting of an output as its pair of bits in an OUTPUT_CMD leaves it. -/
def obeyPair (set clear old : Bool) : Bool := if clear then false else if set then true else old

/-- An output's cause 4 and FORCE_LOW as the bits of an OUTPUT_CMD leave them, and its cause 2 as it was. -/
def obey (v : Nat) (x : Bool × Bool × Bool) : Bool × Bool × Bool :=
  (obeyPair (bit v 0) (bit v 1) x.1, obeyPair (bit v 2) (bit v 3) x.2.1, x.2.2)

theorem obeyPair_obeyPair (set clear old : Bool) : obeyPair set clear (obeyPair set clear old) = obeyPair set clear old := by
  revert set clear old
  decide

theorem obeyPair_of_consistent {set clear : Bool} (h : (set && clear) = false) (old : Bool) :
    obeyPair set clear old = if set then true else if clear then false else old := by
  revert set clear old
  decide

theorem obey_obey (v : Nat) (x : Bool × Bool × Bool) : obey v (obey v x) = obey v x := by
  simp only [obey, obeyPair_obeyPair]

theorem safety_setCause4_if (c b : Bool) (s : State) (o : Fin 8) :
    (((if c then s.setCause4 o b else s).outs[o.val]).safety) = (if c then b else (s.outs[o.val]).safety.1, (s.outs[o.val]).safety.2) := by
  cases c
  · rfl
  · simp [State.setCause4, Out.safety]

theorem safety_setForceLow_if (c b : Bool) (s : State) (o : Fin 8) :
    (((if c then s.setForceLow o b else s).outs[o.val]).safety)
      = ((s.outs[o.val]).safety.1, if c then b else (s.outs[o.val]).safety.2.1, (s.outs[o.val]).safety.2.2) := by
  cases c
  · rfl
  · simp [State.setForceLow, Out.safety, Out.pvFall, Out.setPv]

theorem outputBits_safety (s : State) (o : Fin 8) (v : Nat) : ((s.outputBits o v).outs[o.val]).safety = obey v (s.outs[o.val]).safety := by
  unfold State.outputBits
  dsimp only
  rw [safety_setForceLow_if, safety_setForceLow_if, safety_setCause4_if, safety_setCause4_if]
  rfl

theorem outputBits_other (s : State) {o n : Fin 8} (h : n ≠ o) (v : Nat) : (s.outputBits o v).outs[n.val] = s.outs[n.val] := by
  have hcause (t : State) (c b : Bool) : (if c then t.setCause4 o b else t).outs[n.val] = t.outs[n.val] := by
    cases c
    · rfl
    · exact upd_other _ _ _ _ h
  have hforce (t : State) (c b : Bool) : (if c then t.setForceLow o b else t).outs[n.val] = t.outs[n.val] := by
    cases c
    · rfl
    · exact upd_other _ _ _ _ h
  unfold State.outputBits
  dsimp only
  rw [hforce, hforce, hcause, hcause]

theorem foldl_outputBits_safety (v : Nat) (l : List (Fin 8)) (s : State) (n : Fin 8) :
    ((l.foldl (fun t o => t.outputBits o v) s).outs[n.val]).safety
      = if n ∈ l then obey v (s.outs[n.val]).safety else (s.outs[n.val]).safety := by
  induction l generalizing s with
  | nil => rfl
  | cons o l ih =>
    rw [List.foldl_cons, ih]
    by_cases h : n = o
    · subst h
      rw [outputBits_safety, obey_obey, ite_self, if_pos List.mem_cons_self]
    · simp only [outputBits_other s h, List.mem_cons, h, false_or]

theorem outputCmd_of_contradiction {s : State} {p : Fin 64} {i : Fin 2} {m : BitVec 2048} (htamper : s.dome.tamperKeys = false)
    (h : contradicts (mU m 16 1) = true) : s.outputCmd p i m = s.safetyReply p i m 5 0 := by
  rw [State.outputCmd]
  exact if_pos (by rw [htamper, ← contradicts, h]; rfl)

theorem outputCmd_of_passed {s : State} {p : Fin 64} {i : Fin 2} {m : BitVec 2048} (hpasses : s.safetyCheck p m = 0)
    (h : contradicts (mU m 16 1) = false) :
    s.outputCmd p i m
      = (((commanded m).foldl (fun t o => t.outputBits o (mU m 16 1)) s).acceptSeq m).safetyReply p i m 0 0 := by
  rw [State.outputCmd]
  refine (if_neg ?_).trans (safetyDo_of_passed hpasses rfl)
  rw [← contradicts, h, Bool.and_false]
  decide

/-- An accepted OUTPUT_CMD records its UPDATE_SEQ, and every output it reaches obeys it. -/
theorem outputCmd_effect {s : State} {p : Fin 64} {i : Fin 2} {m : BitVec 2048} (hpasses : s.safetyCheck p m = 0)
    (h : contradicts (mU m 16 1) = false) :
    ((s.outputCmd p i m).belvs[(f8 (mU m 1 1)).val]).seq.toNat = mU m 8 8
      ∧ ∀ o : Fin 8, ((s.outputCmd p i m).outs[o.val]).safety
          = if o ∈ commanded m then obey (mU m 16 1) (s.outs[o.val]).safety else (s.outs[o.val]).safety := by
  rw [outputCmd_of_passed hpasses h, safetyReply_belvs, safetyReply_outs]
  refine ⟨?_, foldl_outputBits_safety _ _ s⟩
  have hseq : (w64 (mU m 8 8)).toNat = mU m 8 8 := BitVec.toNat_ofNat _ _ ▸ Nat.mod_eq_of_lt (mU_lt m 8 8)
  rw [State.acceptSeq, modBelv_belvs, upd_same, hseq]

@[simp] theorem run_belvs (s : State) (f : State → State) : (s.run f).belvs = (f s).belvs := rfl

/-- The row of an OUTPUT_CMD that its bits name takes it (log 30). -/
theorem act_outputCmd {s : State} {p : Fin 64} {i : Fin 2} {m : BitVec 2048} {k : Nat} (hg : s.Good) (h : s.Asked p i m) (htype : mU m 0 1 = 0x13)
    (hbit : (bit (mU m 16 1) k || mU m 16 1 % 16 == 0) = true) (hpasses : s.safetyCheck p m = 0) :
    let r := act (fun s => s.mbxTake p i (cmdHas k) fun s m => s.outputCmd p i m) s
    contradicts (mU m 16 1) = true ∧ r = .next (s.safetyReply p i m 5 0)
      ∨ contradicts (mU m 16 1) = false ∧ r = .next (s.run fun s => s.outputCmd p i m) := by
  obtain ⟨htamper, -⟩ := safetyCheck_passed hpasses
  have hq : cmdHas k m = true := by rw [cmdHas, isType_of_eq htype, Bool.true_and, hbit]
  cases hbits : contradicts (mU m 16 1) with
  | true => exact .inl ⟨rfl, act_answers hg h hq (outputCmd_of_contradiction htamper hbits)⟩
  | false =>
    have htakes := mbxTake_of_asked h hq fun s m => s.outputCmd p i m
    refine .inr ⟨rfl, ?_⟩
    rw [act_steady hg.2 (mbxTake_core _ _ _ _ _ fun t m => outputCmd_core t p i m), run_congr (g := fun s => s.outputCmd p i m) htakes]

theorem exec_outputCmd {s : State} {p : Fin 64} {i : Fin 2} {m : BitVec 2048} {c : Instr} (hg : s.Good) (h : s.Asked p i m)
    (htype : mU m 0 1 = 0x13) (hpasses : s.safetyCheck p m = 0)
    (hc : (c, true) ∈ [(Instr.safeSet p i, bit (mU m 16 1) 0 || mU m 16 1 % 16 == 0), (.safeRelease p i, bit (mU m 16 1) 1 || mU m 16 1 % 16 == 0),
      (.forceLowSet p i, bit (mU m 16 1) 2 || mU m 16 1 % 16 == 0), (.forceLowClear p i, bit (mU m 16 1) 3 || mU m 16 1 % 16 == 0)]) :
    contradicts (mU m 16 1) = true ∧ exec c s = .next (s.safetyReply p i m 5 0)
      ∨ contradicts (mU m 16 1) = false ∧ exec c s = .next (s.run fun s => s.outputCmd p i m) := by
  simp only [List.mem_cons, Prod.mk.injEq, List.not_mem_nil, or_false] at hc
  obtain ⟨rfl, hbit⟩ | ⟨rfl, hbit⟩ | ⟨rfl, hbit⟩ | ⟨rfl, hbit⟩ := hc
  all_goals exact act_outputCmd hg h htype hbit.symm hpasses

/-- What the statement says of an output that an OUTPUT_CMD reaches or does not. -/
theorem obeys_of_safety {v : Nat} {on : Bool} {u w : Out} (hbits : contradicts v = false)
    (h : u.safety = if on = true then obey v w.safety else w.safety) :
    u.cause4 = (if on = true ∧ bit v 0 = true then true else if on = true ∧ bit v 1 = true then false else w.cause4)
      ∧ u.forceLow = (if on = true ∧ bit v 2 = true then true else if on = true ∧ bit v 3 = true then false else w.forceLow)
      ∧ u.cause2 = w.cause2 := by
  obtain ⟨hcause, hforce⟩ := Bool.or_eq_false_iff.1 hbits
  simp only [obey, obeyPair_of_consistent hcause, obeyPair_of_consistent hforce, Out.safety] at h
  cases on
  · simpa using h
  · simpa using h

/-- Settles O54: the checks in their order (R281, R483), the reply field by field (R286), and an OUTPUT_CMD as a fold of its bits over the outputs
it reaches (R457, R459). -/
theorem safetyRequests : Obligations.SafetyRequests := by
  unfold Obligations.SafetyRequests
  refine ⟨⟨fun s p m => safetyCheck_of_tamper p m, fun s p m => safetyCheck_of_badRequest, fun s p m => safetyCheck_of_badMac,
    fun s p m h => (safetyCheck_passed h).2, fun s p i m c hg h hfails hc => exec_safetyRequest_fails hg h hfails hc⟩,
    fun s p i m st frame hbusy hst hframe => ?_, fun s p i m hg h htype hpasses => ?_⟩
  · obtain ⟨hidle, hfull, hty, hstatus, hid, hfr, hseq, hmac⟩ := safetyReply_reads m hbusy hst hframe
    exact ⟨hidle, hfull, hty, hstatus, hid, hfr, hseq, hmac, safetyReply_belvs .., safetyReply_outs ..⟩
  · intro v on c hc
    refine (exec_outputCmd hg h htype hpasses hc).imp_right fun ⟨hbits, hexec⟩ => ⟨hbits, _, hexec, ?_⟩
    obtain ⟨hseq, houts⟩ := outputCmd_effect hpasses hbits
    refine ⟨hseq, fun o => obeys_of_safety hbits ?_⟩
    rw [run_outs, houts o]
    simp only [mem_commanded]
    rfl

end Sys2Proof.Machine
end

section
/-!
SUPPORT. A first mismatch of a Belvedere slot whose secure buffers stand in DRAM (R292, R451). The Dome's read of the latched half has a channel
serve a composer's read that meets an error. O55 gives the comparison and nothing else; it is refuted from this.
-/
namespace Sys2Proof.Machine
open Sys2Proof

/-- A compared frame whose result is not what the Dome expects. -/
def missedFrame : BelvAwait := { frame := 5, result := 6, compared := true, half := 0, expected := 5 }

/-- A slot of one ARGB8888 pixel whose secure buffers stand at the start of the DRAM; it shows half 0, and one frame waits to be compared. -/
def missedBelv : Belv :=
  { cfg := 1, size := 0x00010001, bufBase := 0x1000000000, cur := some { half := 0, time := 0, digest := 0, expected := 5 }, awaits := [missedFrame] }

/-- Output 0 scans a frame of that slot; in channel 0, which holds the slot's buffers too, a read of composer 0 waits whose atom cannot be
corrected. -/
def missed : State := { faulty with belvs := upd faulty.belvs 0 fun _ => missedBelv }

theorem missed_good : missed.Good := by
  rw [State.Good, State.Inv, State.Steady]
  decide

/-- What O55 says a first mismatch of a slot's oldest frame leaves: it is counted, and the expected values are computed again. -/
def State.firstMiss (s : State) (o : Fin 8) (rest : List BelvAwait) : State :=
  (s.modBelv o fun b => { b with awaits := rest, mismatch := satInc b.mismatch, run := 1 }).recomputeExpected o

theorem exec_proofCompare_of_running {s : State} (h : s.pwr.reset = .running) (o : Fin 8) :
    exec (.proofCompare o) s = .next (s.run fun u => (u.proofCompare o).after) :=
  act_of_running h _

set_option maxRecDepth 2000 in
/-- The error that the queued read meets makes the frame of output 0 underrun in the same step (R234), so that none is left to come. -/
theorem missed_leaves_no_fault : ((missed.run fun u => (u.proofCompare 0).after).comps[0]).faults = [] := by
  decide

set_option maxRecDepth 2000 in
theorem firstMiss_leaves_fault : ((missed.run fun u => u.firstMiss 0 []).comps[0]).faults = [some 0x1000800000] := by
  decide

/-- Refutes O55: after a first mismatch the Dome reads the latched half again (R292), and a read of DRAM has its channel serve what waits there
first. In `missed` that is a read of composer 0 that meets an uncorrectable error, so that the frame output 0 scans underruns in the same step
(R234), where the clause of a first mismatch gives the count and the new expected values alone. -/
theorem not_belvedere : ¬ Obligations.Belvedere := by
  unfold Obligations.Belvedere
  intro h
  obtain ⟨-, hcompare, -⟩ := h
  obtain ⟨-, hcompared⟩ := hcompare missed 0 missedFrame [] missed_good rfl rfl
  obtain ⟨-, hmiss, -⟩ := hcompared rfl
  have hstated : exec (.proofCompare 0) missed = .next (missed.run fun u => u.firstMiss 0 []) := hmiss (by decide) rfl
  rw [exec_proofCompare_of_running rfl, Host.Outcome.next.injEq] at hstated
  have hfaults := congrArg (fun t : State => (t.comps[0]).faults) hstated
  exact absurd (missed_leaves_no_fault.symm.trans (hfaults.trans firstMiss_leaves_fault)) (List.cons_ne_nil _ _).symm

end Sys2Proof.Machine
end

section
/-!
SUPPORT. The state after reset (O3).
-/
namespace Sys2Proof.Machine
open Sys2Proof

set_option maxRecDepth 8000 in
theorem reset_good : State.reset.Good := by
  rw [State.Good, State.Inv, State.Steady]
  decide

set_option maxRecDepth 8000 in
/-- Settles O3, by evaluating the state after reset. -/
theorem resetState : Obligations.ResetState := by
  unfold Obligations.ResetState
  exact ⟨⟨reset_good, rfl⟩, by decide⟩

end Sys2Proof.Machine
end

section
/-!
SUPPORT. A link in TRAIN on a device that runs on RCO (R552): its lanes don't lock until XIN is back. O51 names no clock; it is refuted from this.
-/
namespace Sys2Proof.Machine
open Sys2Proof

/-- A device that runs on RCO after XIN has failed (R552), with link 2 in TRAIN. -/
def trainingOnRco : State :=
  { State.reset with
    clk := { onRco := true }
    spire := { image := some exporterImage, links := upd (Vector.replicate 12 {}) 2 fun k => { k with st := .train } } }

set_option maxRecDepth 8000 in
theorem trainingOnRco_good : trainingOnRco.Good := by
  rw [State.Good, State.Inv, State.Steady]
  decide

theorem laneLock_onRco {s : State} (h : s.clk.onRco = true) (l : Fin 12) : s.laneLock l = s := by
  simp [State.laneLock, h]

theorem exec_linkLaneLock_onRco {s : State} (hg : s.Good) (h : s.clk.onRco = true) (l : Fin 12) : exec (.linkLaneLock l) s = .next s :=
  plain hg (laneLock_onRco h l) rfl rfl rfl rfl

/-- Refutes O51: on RCO the Spire keeps its links out of IDENT (R552, `State.laneLock`). In `trainingOnRco` link 2 is in TRAIN with its image
loaded and doesn't retrain, and LINK_LANE_LOCK leaves it there, where the clause takes it to IDENT. -/
theorem not_spireLinks : ¬ Obligations.SpireLinks := by
  unfold Obligations.SpireLinks
  intro h
  obtain ⟨hlink, -⟩ := h
  obtain ⟨hlock, -⟩ := hlink trainingOnRco 2 trainingOnRco_good
  obtain ⟨t, hstated, hident, -⟩ := hlock exporterImage rfl rfl rfl
  rw [exec_linkLaneLock_onRco trainingOnRco_good rfl, Host.Outcome.next.injEq] at hstated
  rw [← hstated] at hident
  exact absurd hident (by decide)

end Sys2Proof.Machine
end


section
/-!
SUPPORT. What follows an effect in which composer 0 alone has met an error: the frame that output 0 scans underruns (R234).
-/
namespace Sys2Proof.Machine
open Sys2Proof

theorem newPeriod_comps (s : State) (k : Nat) : (s.newPeriod k).comps = s.comps :=
  (foldl_keeps State.comps (fun t p => comps_of_unnoticed (newPeriod_hold_unnoticed t p)) _ _).trans rfl

theorem spire_of_unnoticed {s t : State} (h : t.unnoticed = s.unnoticed) : t.spire = s.spire := (congrArg State.spire h :)

theorem newPeriod_spire (s : State) (k : Nat) : (s.newPeriod k).spire = s.spire :=
  (foldl_keeps State.spire (fun t p => spire_of_unnoticed (newPeriod_hold_unnoticed t p)) _ _).trans rfl

theorem upTo_comps (s : State) (ps : Nat) : (s.upTo ps).comps = s.comps := by
  unfold State.upTo State.moveTo State.periodGo
  split
  · split
    · rw [newPeriod_comps]; rfl
    · rfl
  · rfl

theorem upTo_now {s : State} {ps : Nat} (h : s.now.toNat < ps / 1000) : (s.upTo ps).spire.now = w64 (ps / 1000) := by
  unfold State.upTo State.moveTo State.periodGo
  rw [if_pos h]
  split
  · rw [newPeriod_spire]
  · rfl

theorem underrunFrom_comps (s : State) (o : Fin 8) (line x : Nat) : (s.underrunFrom o line x).comps = s.comps := by
  by_cases h : (s.outs[o.val]).canUnderrun line = true
  case pos =>
    refine (comps_of_unnoticed (underrunFrom_unnoticed x h)).trans ?_
    rw [modOut_comps, upTo_comps]
  case neg => rw [State.underrunFrom, if_pos (by simpa using h)]

/-- A state whose composer has given up the errors that it met. -/
def State.faultsTaken (s : State) (o : Fin 8) : State := s.modComp o fun c => { c with faults := [] }

section
variable {s : State} {o : Fin 8}

theorem faultGo_of_no_faults (h : (s.comps[o.val]).faults = []) : s.faultGo o = s := by
  simp [State.faultGo, h]

/-- In the active lines of a frame a composer gives up the errors that it met. -/
theorem faultGo_of_active (hscan : (s.outs[o.val]).scanning = true) (hactive : (s.outs[o.val]).vblank = false) (h : (s.comps[o.val]).faults ≠ []) :
    s.faultGo o = match ((s.comps[o.val]).faults.filterMap ((s.faultsTaken o).faultLine o)).min? with
      | some y => (s.faultsTaken o).underrunFrom o y 0
      | none => s.faultsTaken o := by
  rw [State.faultGo, if_neg (by simp [h, hscan, hactive])]
  rfl

theorem faultGo_of_inactive (h : (s.outs[o.val]).scanning = false ∨ (s.outs[o.val]).vblank = true) : s.faultGo o = s := by
  rw [State.faultGo, if_pos]
  rcases h with h | h <;> simp [h]

theorem faultGo_comps_of_active (hscan : (s.outs[o.val]).scanning = true) (hactive : (s.outs[o.val]).vblank = false)
    (h : (s.comps[o.val]).faults ≠ []) : (s.faultGo o).comps = (s.faultsTaken o).comps := by
  rw [faultGo_of_active hscan hactive h]
  split
  · exact underrunFrom_comps ..
  · rfl

theorem faultGo_faults (hscan : (s.outs[o.val]).scanning = true) (hactive : (s.outs[o.val]).vblank = false) : ((s.faultGo o).comps[o.val]).faults = [] := by
  by_cases h : (s.comps[o.val]).faults = []
  case pos => rw [faultGo_of_no_faults h, h]
  case neg =>
    rw [congrArg (fun v : Vector Comp 8 => v[o.val]) (faultGo_comps_of_active hscan hactive h), State.faultsTaken, modComp_comps, upd_same]

theorem faultGo_faults_other {x : Fin 8} (hx : x ≠ o) : ((s.faultGo o).comps[x.val]).faults = (s.comps[x.val]).faults := by
  by_cases hscan : (s.outs[o.val]).scanning = true ∧ (s.outs[o.val]).vblank = false ∧ (s.comps[o.val]).faults ≠ []
  case pos =>
    obtain ⟨hscan, hactive, h⟩ := hscan
    rw [congrArg (fun v : Vector Comp 8 => v[x.val]) (faultGo_comps_of_active hscan hactive h), State.faultsTaken, modComp_comps, upd_other _ _ _ _ hx]
  case neg =>
    have hidle : s.faultGo o = s := by
      by_cases h : (s.comps[o.val]).faults = []
      case pos => exact faultGo_of_no_faults h
      case neg => exact faultGo_of_inactive (by simpa [h, or_iff_not_imp_left] using hscan)
    rw [hidle]

/-- One error, which the frame being scanned meets in a line: it underruns there. -/
theorem faultGo_of_fault {e : Option Nat} {y : Nat} (hscan : (s.outs[o.val]).scanning = true) (hactive : (s.outs[o.val]).vblank = false)
    (hfaults : (s.comps[o.val]).faults = [e]) (hline : (s.faultsTaken o).faultLine o e = some y) :
    s.faultGo o = (s.faultsTaken o).underrunFrom o y 0 := by
  have hmin : ((s.comps[o.val]).faults.filterMap ((s.faultsTaken o).faultLine o)).min? = some y := by
    rw [hfaults]
    simp [hline]
  rw [faultGo_of_active hscan hactive (by simp [hfaults]), hmin]

end

theorem foldl_faultGo_of_no_faults {s : State} : ∀ {l : List (Fin 8)}, (∀ o ∈ l, (s.comps[o.val]).faults = []) → l.foldl State.faultGo s = s
  | [], _ => rfl
  | o :: l, h => by
    rw [List.foldl_cons, faultGo_of_no_faults (h o (by simp))]
    exact foldl_faultGo_of_no_faults fun x hx => h x (List.mem_cons_of_mem _ hx)

/-- Where errors of composer 0 are all that is left to do, they are what follows. -/
theorem after_of_first_faults {s : State} {comps : Vector Comp 8} (hcalm : ({ s with comps } : State).calm = true)
    (hrest : ∀ o : Fin 8, o ≠ 0 → (s.comps[o.val]).faults = []) : s.after = s.faultGo 0 := by
  have htail : ∀ o ∈ (idx 8).tail, o ≠ 0 := by decide
  have hidx : idx 8 = 0 :: (idx 8).tail := by decide
  rw [after_of_calm_but_faults hcalm, hidx, List.foldl_cons]
  exact foldl_faultGo_of_no_faults fun o ho => (faultGo_faults_other (htail o ho)).trans (hrest o (htail o ho))

/-- A state in which composer 0 alone has met an error, in the active lines of the frame that output 0 scans, and nothing else is left to do
where the composers are those given. -/
def State.MetFault (s : State) (comps : Vector Comp 8) : Prop :=
  ({ s with comps } : State).calm = true ∧ (∀ o : Fin 8, o ≠ 0 → (s.comps[o.val]).faults = []) ∧ (s.outs[0]).scanning = true ∧ (s.outs[0]).vblank = false

theorem State.MetFault.after_eq {s : State} {comps : Vector Comp 8} (h : s.MetFault comps) : s.after = s.faultGo 0 :=
  after_of_first_faults h.1 h.2.1

theorem State.MetFault.after_faults {s : State} {comps : Vector Comp 8} (h : s.MetFault comps) : (s.after.comps[0]).faults = [] := by
  obtain ⟨-, -, hscan, hactive⟩ := id h
  rw [h.after_eq]
  exact faultGo_faults (o := 0) hscan hactive

/-- No slot has a layer latched. -/
def State.unlayered (s : State) : Bool := s.slots.toList.all fun t => t.cur.isNone

/-- The Belvedere layer of an output, placed. -/
def State.belvPlaced (s : State) (o : Fin 8) : List (Fin 256 × Placed) := (s.belvLatched o).toList.map fun q => (f256 (248 + o.val), q)

theorem scanStack_of_unlayered {s : State} (h : s.unlayered = true) (o : Fin 8) : s.scanStack o = s.belvPlaced o := by
  have hcur (i : Fin 256) : (s.slots[i.val]).cur = none := by
    have hall := List.all_eq_true.1 h (s.slots[i.val]) (by simp)
    simpa using hall
  have hnone : (List.range 128).flatMap (fun _ => ([] : List (Fin 256 × Placed))) = [] := List.flatMap_eq_nil_iff.2 fun _ _ => rfl
  simp only [State.scanStack, State.belvPlaced, hcur, List.filterMap_none, List.filter_nil, hnone, List.nil_append]
  cases s.belvLatched o <;> rfl

/-- The line of the frame that uses an address first, of the Belvedere layer alone. -/
def State.belvFaultLine (s : State) (o : Fin 8) (a : Nat) : Option Nat :=
  (List.range (s.outs[o.val]).mode.h).find? fun y => (s.belvPlaced o).any fun q => s.usesAtom o q.1 q.2 (a / 64 * 64) y

theorem faultLine_of_unlayered {s : State} (h : s.unlayered = true) {o : Fin 8} {a : Nat} : s.faultLine o (some a) = s.belvFaultLine o a := by
  rw [State.faultLine, State.belvFaultLine, scanStack_of_unlayered h]

/-- What the underrun changes of the outputs and of Spire time. -/
theorem State.MetFault.after_underruns {s : State} {comps : Vector Comp 8} (h : s.MetFault comps) {e : Option Nat} {y : Nat}
    (hfaults : (s.comps[0]).faults = [e]) (hline : (s.faultsTaken 0).faultLine 0 e = some y) (hcan : (s.outs[0]).canUnderrun y = true) :
    s.after.outs = upd s.outs 0 (Out.underrun y 0)
      ∧ s.after.spire = (((s.faultsTaken 0).upTo (s.gridPs (s.outs[0]).set.rg (s.outs[0]).frame.toNat + y * (s.outs[0]).mode.linePs))).spire := by
  obtain ⟨-, -, hscan, hactive⟩ := id h
  rw [h.after_eq, faultGo_of_fault (o := 0) hscan hactive hfaults hline]
  exact ⟨underrunFrom_outs (s := s.faultsTaken 0) (o := 0) 0 hcan, (congrArg State.spire (underrunFrom_unnoticed (s := s.faultsTaken 0) (o := 0) 0 hcan) :)⟩

end Sys2Proof.Machine
end


section
/-!
SUPPORT. A flit that lets an export's transfer go on (R338, R451). The transfer reads the export's buffer in DRAM, and the read has a channel
serve a composer's read that meets an error, so that an output underruns in the same step (R234). O45, O46 and O48 say what a flit does and
leave this out; they are refuted from one state.
-/
namespace Sys2Proof.Machine
open Sys2Proof

/-- A slot of one ARGB8888 pixel whose secure buffers stand where the waiting read of composer 0 is to go. -/
def unreadBelv : Belv :=
  { cfg := 1, size := 0x00010001, bufBase := 0x1000800000, cur := some { half := 0, time := 0, digest := 0, expected := 0 } }

/-- Output 0 scans a frame of that slot, and in channel 0 the read of composer 0 for it waits, whose atom cannot be corrected. The export of
`exportHeld` has a transfer to go on with over link 2, which is UP. -/
def exporting : State :=
  { faulty with
    belvs := upd faulty.belvs 0 fun _ => unreadBelv
    spire := exportHeld.spire }

set_option maxRecDepth 8000 in
theorem exporting_good : exporting.Good := by
  rw [State.Good, State.Inv, State.Steady]
  decide

def idleFlit : BitVec 256 := mkFlit 2 0 []

/-- An ALARM that comes back to its origin, device 7. -/
def ownAlarm : BitVec 256 := mkFlit 1 0 [(4, 2, 7)]

theorem exec_idle_of_running {s : State} (h : s.pwr.reset = .running) (l : Fin 12) (f : BitVec 256) :
    exec (.idle l f) s = .next (s.run fun u => (u.rx l 2 0 f fun _ v => v).after) :=
  act_of_running h _

theorem exec_sync_of_running {s : State} (h : s.pwr.reset = .running) (l : Fin 12) (f : BitVec 256) (arr : Nat) :
    exec (.sync l f arr) s = .next (s.run fun u => (u.rx l 0 0 f fun f v => v.syncIn l arr f).after) :=
  act_of_running h _

theorem exec_alarm_of_running {s : State} (h : s.pwr.reset = .running) (l : Fin 12) (f : BitVec 256) :
    exec (.alarm l f) s = .next (s.run fun u => (u.rx l 1 0 f fun f v => v.alarmIn l f).after) :=
  act_of_running h _

/-- What an IDLE flit, a SYNC and this device's own ALARM leave of `exporting` before what follows. -/
def exportingIdle : State := exporting.rx 2 2 0 idleFlit fun _ v => v
def exportingSync : State := exporting.rx 2 0 0 0 fun f v => v.syncIn 2 0 f
def exportingAlarm : State := exporting.rx 2 1 0 ownAlarm fun f v => v.alarmIn 2 f

set_option maxRecDepth 8000 in
theorem exportingIdle_metFault : exportingIdle.MetFault exporting.comps := by
  rw [State.MetFault]
  decide

set_option maxRecDepth 8000 in
theorem exportingSync_metFault : exportingSync.MetFault exporting.comps := by
  rw [State.MetFault]
  decide

set_option maxRecDepth 8000 in
theorem exportingAlarm_metFault : exportingAlarm.MetFault exporting.comps := by
  rw [State.MetFault]
  decide

/-- The stores of a command move nothing of the composers. -/
theorem run_after_faults {s : State} {f : State → State} {comps : Vector Comp 8} (h : (f s).MetFault comps) :
    ((s.run fun u => (f u).after).comps[0]).faults = [] := by
  rw [run_comps]
  exact h.after_faults

set_option maxRecDepth 8000 in
theorem exporting_heard_leaves_fault :
    ((exporting.run fun u => (u.heard 2 (asType 2 0 idleFlit)).exportsGo).comps[0]).faults = [some 0x1000800000] := by
  decide

set_option maxRecDepth 8000 in
theorem exporting_heardSync_leaves_fault :
    ((exporting.run fun u => (u.heard 2 (asType 0 0 0)).exportsGo).comps[0]).faults = [some 0x1000800000] := by
  decide

set_option maxRecDepth 8000 in
/-- The waiting read was for line 0 of the frame that output 0 scans. -/
theorem exportingAlarm_fault :
    (exportingAlarm.comps[0]).faults = [some 0x1000800000] ∧ (exportingAlarm.faultsTaken 0).unlayered = true
      ∧ (exportingAlarm.faultsTaken 0).belvFaultLine 0 0x1000800000 = some 0
      ∧ (exportingAlarm.outs[0]).canUnderrun 0 = true ∧ (exportingAlarm.outs[0]).underruns = 0 := by
  decide

theorem exportingAlarm_underruns : (exportingAlarm.after.outs[0]).underruns = 1 := by
  obtain ⟨hfaults, hbare, hline, hcan, hnone⟩ := exportingAlarm_fault
  obtain ⟨houts, -⟩ := exportingAlarm_metFault.after_underruns hfaults ((faultLine_of_unlayered hbare).trans hline) hcan
  rw [houts]
  refine (congrArg Out.underruns (upd_same exportingAlarm.outs 0 (Out.underrun 0 0))).trans ?_
  rw [underrun_underruns]
  exact congrArg satInc hnone

set_option maxRecDepth 8000 in
/-- Refutes O45: an IDLE flit lets the exports go on, and what follows a command follows here too. In `exporting` the transfer's read has
channel 0 serve the faulty read, and output 0 underruns in the same step (R234), so that no fault is left to come, where the clause of IDLE
gives the link and the exports alone. -/
theorem not_flitsReceived : ¬ Obligations.FlitsReceived := by
  unfold Obligations.FlitsReceived
  intro h
  obtain ⟨hunsequenced, -⟩ := h exporting 2 idleFlit exporting_good (by decide)
  have hstated := hunsequenced (.idle 2 idleFlit) 2 0 (fun _ s => s) (by simp)
  rw [exec_idle_of_running rfl, Host.Outcome.next.injEq] at hstated
  have hfaults := congrArg (fun t : State => (t.comps[0]).faults) hstated
  exact absurd ((run_after_faults (f := fun u => u.rx 2 2 0 idleFlit fun _ v => v) exportingIdle_metFault).symm.trans (hfaults.trans exporting_heard_leaves_fault)) (List.cons_ne_nil _ _).symm

set_option maxRecDepth 8000 in
/-- Refutes O46: a SYNC that is not the active parent's lets the exports go on as every flit does. In `exporting`, which has no parent, the
transfer's read has channel 0 serve the faulty read and output 0 underruns in the same step (R234), where the clause gives the link and the
exports alone. -/
theorem not_spireTime : ¬ Obligations.SpireTime := by
  unfold Obligations.SpireTime
  intro h
  obtain ⟨hsync, -⟩ := h
  obtain ⟨-, hother⟩ := hsync exporting 2 0 0 exporting_good (by decide) (by decide)
  have hstated := hother (.inr (by decide))
  rw [exec_sync_of_running rfl, Host.Outcome.next.injEq] at hstated
  have hfaults := congrArg (fun t : State => (t.comps[0]).faults) hstated
  exact absurd ((run_after_faults (f := fun u => u.rx 2 0 0 0 fun f v => v.syncIn 2 0 f) exportingSync_metFault).symm.trans (hfaults.trans exporting_heardSync_leaves_fault)) (List.cons_ne_nil _ _).symm

set_option maxRecDepth 8000 in
/-- Refutes O48: an ALARM that is discarded still lets the exports go on as every flit does. In `exporting` the transfer's read has channel 0
serve the faulty read and output 0 underruns in the same step (R234), where the clause has the outputs as they were. -/
theorem not_mastersAndAlarms : ¬ Obligations.MastersAndAlarms := by
  unfold Obligations.MastersAndAlarms
  intro h
  obtain ⟨-, halarm⟩ := h
  obtain ⟨hown, -⟩ := halarm exporting 2 ownAlarm exporterImage exporting_good (by decide) (by decide) (by decide) rfl
  obtain ⟨t, hstated, -, -, houts⟩ := hown (.inl (by decide))
  rw [exec_alarm_of_running rfl, Host.Outcome.next.injEq] at hstated
  rw [← hstated] at houts
  rw [run_outs] at houts
  have hkept : (exporting.outs[0]).underruns = 1 :=
    (congrArg (fun v : Vector Out 8 => (v[0]).underruns) houts).symm.trans exportingAlarm_underruns
  have hnone : (exporting.outs[0]).underruns = 0 := rfl
  exact absurd (hnone.symm.trans hkept) (by decide)

end Sys2Proof.Machine
end


section
/-!
SUPPORT. The first edge of TIME_IN while an output that was disabled still scans its last frame (R322). The step re-phases the outputs that are
enabled (R215); where that ends the frame of a capture, its record goes to a channel of DRAM whose queue is full (R252, R382), which serves a
composer's read that meets an error. The frame that is left underruns in the same step (R234), and Spire time moves on to its line. O11 gives
the whole second exactly; it is refuted from this.
-/
namespace Sys2Proof.Machine
open Sys2Proof

/-- A capture whose record stands at the start of the DRAM and whose rectangle the scan has not reached. -/
def firstCapture : Capture :=
  { pav := 1, sq := 0, seq := 0, view := 0, deferred := false, dest := 0x1000000000, pitch := 4, frames := 0, ring := 1, record := 0x1000000000
    rect := { x0 := 0, y0 := 100, x1 := 1, y1 := 101 }, inFrame := true }

/-- Output 0 is disabled and scans frame 1 to its end; output 1 scans a frame that is captured; the write queue of channel 0 is full beside the
faulty read of composer 0. TIME_IN is enabled and its first edge has not come. -/
def firstEdge : State :=
  { faulty with
    outs := upd (upd faulty.outs 0 fun u => { u with enabled := false, frame := 1 }) 1 fun u => { u with scanning := true, caps := [firstCapture] }
    belvs := upd faulty.belvs 0 fun _ => unreadBelv
    dmcs := upd faulty.dmcs 0 fun d => { d with wq := List.replicate 64 { addr := 0x900000, bytes := [] } }
    spire := { tiEn := true, tiFirst := true } }

set_option maxRecDepth 8000 in
theorem firstEdge_good : firstEdge.Good := by
  rw [State.Good, State.Inv, State.Steady]
  decide

theorem exec_timeInEdge_of_running {s : State} (h : s.pwr.reset = .running) (t : Nat) :
    exec (.timeInEdge t) s = .next (s.run fun u => (u.timeIn t).after) :=
  act_of_running h _

/-! ### A step of Spire time to time 0 in the first period -/

/-- A Pavilion with its quotas unused and no event held. -/
def Pav.fresh (v : Pav) : Bool := v.used == Vector.replicate 4 0 && v.deferRaised == Vector.replicate 4 false && v.evHold.isEmpty

/-- A port of the DRAM's regulator that has used nothing of its period. -/
def BPort.fresh (b : BPort) : Bool := !b.waited && b.used == 0

/-- A state in which nothing of its budget period has been used. -/
def State.fresh (s : State) : Bool :=
  s.pavs.toList.all Pav.fresh && s.bports.toList.all BPort.fresh && s.jobs.isEmpty && s.ceRaised.isEmpty && !s.evt.lostRaised
    && s.dome.safeOutDone.isEmpty && !s.dome.alarmSent

theorem renewed_of_fresh {v : Pav} (h : v.fresh = true) :
    ({ v with used := Vector.replicate 4 0, deferRaised := Vector.replicate 4 false } : Pav) = v ∧ v.evHold = [] := by
  simp only [Pav.fresh, Bool.and_eq_true, beq_iff_eq, List.isEmpty_iff] at h
  obtain ⟨⟨hused, hdefer⟩, hheld⟩ := h
  exact ⟨by rw [← hused, ← hdefer], hheld⟩

theorem renewed_bport_of_fresh {b : BPort} (h : b.fresh = true) : ({ b with waited := false, used := 0 } : BPort) = b := by
  simp only [BPort.fresh, Bool.and_eq_true, Bool.not_eq_true', beq_iff_eq] at h
  obtain ⟨hwaited, hused⟩ := h
  rw [← hwaited, ← hused]

theorem vector_map_eq_self {α : Type} {n : Nat} {v : Vector α n} {f : α → α} (h : ∀ x ∈ v.toList, f x = x) : v.map f = v := by
  ext i hi
  rw [Vector.getElem_map]
  exact h _ (Vector.mem_toList_iff.2 (Vector.getElem_mem hi))

/-- A state with what a new period changes given. -/
def State.renewed (s : State) (pavs : Vector Pav 64) (bports : Vector BPort 83) (jobs : List Job) (ceRaised : List Nat) (evt : Evt) (dome : Dome) : State :=
  { s with pavs, bports, jobs, ceRaised, evt, dome }

theorem newPeriod_eq_renewed (s : State) :
    s.newPeriod s.period = (idx 64).foldl (fun u p => if (u.pavs[p.val]).evHold.isEmpty then u else u.flushEvents 64 p)
      (s.renewed (s.pavs.map fun v => { v with used := Vector.replicate 4 0, deferRaised := Vector.replicate 4 false })
        (s.bports.map fun b => { b with waited := false, used := 0 }) (s.jobs.map fun j => { j with paused := false }) []
        { s.evt with lostRaised := false } { s.dome with safeOutDone := [], alarmSent := false }) := rfl

/-- A period in which nothing has been used starts anew without a change. -/
theorem newPeriod_of_fresh {s : State} (h : s.fresh = true) : s.newPeriod s.period = s := by
  simp only [State.fresh, Bool.and_eq_true, List.all_eq_true, Bool.not_eq_true', List.isEmpty_iff] at h
  obtain ⟨⟨⟨⟨⟨⟨hpavs, hbports⟩, hjobs⟩, hce⟩, hlost⟩, hout⟩, hsent⟩ := h
  have hpavs' : (s.pavs.map fun v => { v with used := Vector.replicate 4 0, deferRaised := Vector.replicate 4 false }) = s.pavs :=
    vector_map_eq_self fun v hv => (renewed_of_fresh (hpavs v hv)).1
  have hbports' : (s.bports.map fun b => { b with waited := false, used := 0 }) = s.bports :=
    vector_map_eq_self fun b hb => renewed_bport_of_fresh (hbports b hb)
  have hjobs' : (s.jobs.map fun j => { j with paused := false }) = s.jobs := by rw [hjobs]; rfl
  have hevt : { s.evt with lostRaised := false } = s.evt := by rw [← hlost]
  have hdome : { s.dome with safeOutDone := [], alarmSent := false } = s.dome := by rw [← hout, ← hsent]
  have hheld (p : Fin 64) : (s.pavs[p.val]).evHold.isEmpty = true := by
    rw [(renewed_of_fresh (hpavs _ (Vector.mem_toList_iff.2 (Vector.getElem_mem p.isLt)))).2]
    rfl
  have hself : s.renewed s.pavs s.bports s.jobs [] s.evt s.dome = s := by
    rw [← hce]
    rfl
  rw [newPeriod_eq_renewed, hpavs', hbports', hjobs', hevt, hdome, hself]
  induction idx 64 with
  | nil => rfl
  | cons p l ih => rw [List.foldl_cons, if_pos (hheld p), ih]

/-- Spire time set to 0, its step counted. -/
def State.atZero (s : State) : State :=
  { s with spire := { s.spire with now := 0, frac := 0, slew := 0, steps := satInc s.spire.steps, alarmsSeen := [] } }

/-- The frames of the enabled outputs ended at the lines that are given (R215). -/
def State.rePhases (s : State) (line : Fin 8 → Nat) : State :=
  (idx 8).foldl (fun u o => if (u.outs[o.val]).enabled && (u.outs[o.val]).scanning then u.rePhaseAt o (line o) else u) s

theorem stepTime_zero {s : State} (hfresh : s.fresh = true) (hperiod : s.period = 0) :
    s.stepTime 0 = ((idx 8).foldl State.rebase s.atZero).rePhases s.lineNow := by
  have hnew : s.atZero.newPeriod 0 = s.atZero := by
    have h := newPeriod_of_fresh (s := s.atZero) hfresh
    rwa [show s.atZero.period = 0 from hperiod] at h
  simp only [State.stepTime, Nat.zero_div, Nat.not_lt_zero, if_false, Vector.getElem_ofFn, Nat.zero_mod]
  rw [State.rePhases, ← hnew]
  rfl

/-- What a first edge at time 0 does in the first period. -/
def State.firstEdgeAtZero (s : State) : State :=
  let u := ((idx 8).foldl State.rebase (s.arrive .timeIn).atZero).rePhases (s.arrive .timeIn).lineNow
  { u with spire := { u.spire with tiFirst := false, tiLock := true } }

theorem timeIn_zero {s : State} (hen : s.spire.tiEn = true) (hmaster : s.timeMaster = true) (hfirst : s.spire.tiFirst = true)
    (hfresh : (s.arrive .timeIn).fresh = true) (hperiod : (s.arrive .timeIn).period = 0) : s.timeIn 0 = s.firstEdgeAtZero := by
  have hupTo : s.upTo (0 * 1000) = s := by simp [State.upTo]
  have hnear : (0 + 500000000) / 1000000000 * 1000000000 * 2 ^ 24 = 0 := by decide
  simp only [State.timeIn, hen, hmaster, hupTo, hfirst, hnear, Bool.not_true, Bool.or_self, Bool.false_eq_true, if_false, if_true,
    State.firstEdgeAtZero, stepTime_zero hfresh hperiod]

set_option maxRecDepth 8000 in
theorem firstEdge_timeIn : firstEdge.timeIn 0 = firstEdge.firstEdgeAtZero :=
  timeIn_zero rfl rfl rfl (by decide) rfl

set_option maxRecDepth 8000 in
theorem firstEdgeAtZero_metFault : firstEdge.firstEdgeAtZero.MetFault firstEdge.comps := by
  rw [State.MetFault]
  decide

set_option maxRecDepth 8000 in
/-- The waiting read was for line 0 of the frame that output 0 scans, which starts 16,666,777 ns after time 0. -/
theorem firstEdgeAtZero_fault :
    (firstEdge.firstEdgeAtZero.comps[0]).faults = [some 0x1000800000] ∧ (firstEdge.firstEdgeAtZero.faultsTaken 0).unlayered = true
      ∧ (firstEdge.firstEdgeAtZero.faultsTaken 0).belvFaultLine 0 0x1000800000 = some 0
      ∧ (firstEdge.firstEdgeAtZero.outs[0]).canUnderrun 0 = true ∧ (firstEdge.firstEdgeAtZero.faultsTaken 0).now = 0
      ∧ (firstEdge.firstEdgeAtZero.gridPs (firstEdge.firstEdgeAtZero.outs[0]).set.rg (firstEdge.firstEdgeAtZero.outs[0]).frame.toNat
        + 0 * (firstEdge.firstEdgeAtZero.outs[0]).mode.linePs) / 1000 = 16666777 := by
  decide

theorem firstEdgeAtZero_after_now : firstEdge.firstEdgeAtZero.after.spire.now = 16666777 := by
  obtain ⟨hfaults, hbare, hline, hcan, hnow, hinstant⟩ := firstEdgeAtZero_fault
  obtain ⟨-, hspire⟩ := firstEdgeAtZero_metFault.after_underruns hfaults ((faultLine_of_unlayered hbare).trans hline) hcan
  rw [hspire, upTo_now, hinstant]
  · rfl
  · rw [hnow, hinstant]
    decide

theorem firstEdge_run_now : (firstEdge.run fun u => (u.timeIn 0).after).spire.now = 16666777 := by
  rw [run_spire, firstEdge_timeIn]
  exact firstEdgeAtZero_after_now

theorem fine_of_now {s : State} {n : BitVec 64} (h : s.spire.now = n) : s.fine = n.toNat * 2 ^ 24 + s.spire.frac := by
  rw [State.fine, h]

/-- Refutes O11: the first edge of TIME_IN steps the counter to the nearest whole second, and what follows the edge is part of the same
command. In `firstEdge` the frame that disabled output 0 still scans meets a read error (R234), and Spire time is taken to the instant of the
underrun, beyond the whole second that the clause gives. -/
theorem not_spireTimeWritesAndTimeIn : ¬ Obligations.SpireTimeWritesAndTimeIn := by
  unfold Obligations.SpireTimeWritesAndTimeIn
  intro h
  obtain ⟨-, hedge⟩ := h
  obtain ⟨hmaster, -⟩ := hedge firstEdge 0 firstEdge_good
  obtain ⟨hfirst, -⟩ := hmaster rfl rfl
  obtain ⟨u, hstated, hfine, -⟩ := hfirst rfl
  rw [exec_timeInEdge_of_running rfl, Host.Outcome.next.injEq] at hstated
  have hnow : u.spire.now = 16666777 := (congrArg (fun t : State => t.spire.now) hstated).symm.trans firstEdge_run_now
  rw [fine_of_now hnow] at hfine
  have hlow : 16666777 * 2 ^ 24 ≤ (0 + 500000000) / 1000000000 * 1000000000 * 2 ^ 24 % 2 ^ 88 := by
    rw [← hfine]
    exact Nat.le_add_right _ _
  exact absurd hlow (by decide)

end Sys2Proof.Machine
end

section
/-!
SUPPORT. The bytes of a flit (R299): what a field that is given a value leaves of the others.
-/
namespace Sys2Proof.Machine
open Sys2Proof

/-! ### The bytes of a number -/

theorem testBit_uAt (v k n i : Nat) : (uAt v k n).testBit i = (decide (i < 8 * n) && v.testBit (8 * k + i)) := by
  simp [uAt, Nat.testBit_mod_two_pow]

theorem uAt_lt (v k n : Nat) : uAt v k n < 2 ^ (8 * n) := Nat.mod_lt _ (Nat.two_pow_pos _)

/-- What lies above a bit decides the bytes above it. -/
theorem uAt_of_div_eq {v w k n j : Nat} (h : v / 2 ^ j = w / 2 ^ j) (hk : j ≤ 8 * k) : uAt v k n = uAt w k n := by
  refine Nat.eq_of_testBit_eq fun i => ?_
  have hbit := congrArg (fun x => x.testBit (8 * k + i - j)) h
  simp only [Nat.testBit_div_two_pow, show 8 * k + i - j + j = 8 * k + i by omega] at hbit
  rw [testBit_uAt, testBit_uAt, hbit]

/-- A field of a number, `w` wide with what lies below it below `p`, given another value. -/
def putField (v p w x : Nat) : Nat := v - v / p % w * p + x * p

section
variable {v p w x : Nat} (hp : 0 < p) (hx : x < w)

theorem putField_mod : putField v p w x % p = v % p := by
  have hle : v / p % w * p ≤ v := (Nat.mul_le_mul_right p (Nat.mod_le _ _)).trans (Nat.div_mul_le_self v p)
  rw [putField, Nat.add_mul_mod_self_right]
  conv_rhs => rw [← Nat.sub_add_cancel hle, Nat.add_mul_mod_self_right]

include hp in
theorem putField_div : putField v p w x / p = v / p / w * w + x := by
  have hsplit : v - v / p % w * p = v % p + v / p / w * w * p := by
    have hv := Nat.mod_add_div v p
    have hw := Nat.div_add_mod (v / p) w
    have hmul : v / p * p = v / p / w * w * p + v / p % w * p := by
      rw [← Nat.add_mul, Nat.mul_comm (v / p / w) w, hw]
    rw [Nat.mul_comm p] at hv
    omega
  rw [putField, hsplit, Nat.add_assoc, ← Nat.add_mul, Nat.add_mul_div_right _ _ hp, Nat.div_eq_of_lt (Nat.mod_lt v hp), Nat.zero_add]

include hp hx in
theorem putField_get : putField v p w x / p % w = x := by
  rw [putField_div hp, Nat.add_comm, Nat.add_mul_mod_self_right, Nat.mod_eq_of_lt hx]

include hp hx in
theorem putField_above : putField v p w x / (p * w) = v / (p * w) := by
  rw [← Nat.div_div_eq_div_mul, putField_div hp, Nat.add_comm, Nat.add_mul_div_right _ _ (by omega), Nat.div_eq_of_lt hx, Nat.zero_add,
    Nat.div_div_eq_div_mul]

end

/-! ### The bytes of a flit -/

theorem fU_ofNat {v k n : Nat} (h : k + n ≤ 32) : fU (BitVec.ofNat 256 v) k n = uAt v k n := by
  refine uAt_of_mod_eq (l := 32) ?_ h
  rw [BitVec.toNat_ofNat, Nat.mod_mod]

/-- The value of a field of bytes. -/
theorem uAt_eq_div (v k n : Nat) : uAt v k n = v / 2 ^ (8 * k) % 2 ^ (8 * n) := by rw [uAt, Nat.shiftRight_eq_div_pow]

theorem asType_eq_putField (cls ty : Nat) (f : BitVec 256) : asType cls ty f = BitVec.ofNat 256 (putField f.toNat 1 64 (cls + 4 * ty)) := by
  rw [asType, putField, fU, uAt_eq_div]
  simp only [Nat.mul_zero, Nat.pow_zero, Nat.div_one, Nat.mul_one]
  rw [Nat.mod_mod_of_dvd _ (by decide), Nat.add_assoc]

theorem asKind_eq_putField (k : Nat) (f : BitVec 256) : asKind k f = BitVec.ofNat 256 (putField f.toNat (2 ^ (8 * 12)) (2 ^ (8 * 1)) k) := by
  rw [asKind, fU, uAt_eq_div]
  rfl

theorem withHops_eq_putField (f : BitVec 256) (h : Nat) : withHops f h = BitVec.ofNat 256 (putField f.toNat (2 ^ (8 * 6)) (2 ^ (8 * 2)) h) := by
  rw [withHops, fU, uAt_eq_div]
  rfl

section
variable {cls ty : Nat} (hcls : cls < 4) (hty : ty < 16)
include hcls hty

theorem putField_type_div (v : Nat) : putField v 1 64 (cls + 4 * ty) / 2 ^ 6 = v / 2 ^ 6 :=
  putField_above (p := 1) (by decide) (by omega)

/-- The class and type of a flit lie in its first byte. -/
theorem fU_asType (f : BitVec 256) {k n : Nat} (hk : 1 ≤ k) (hn : k + n ≤ 32) : fU (asType cls ty f) k n = fU f k n := by
  rw [asType_eq_putField, fU_ofNat hn]
  exact uAt_of_div_eq (putField_type_div hcls hty f.toNat) (by omega)

theorem fSeq_asType (f : BitVec 256) : fSeq (asType cls ty f) = fSeq f := by
  rw [fSeq, fSeq, fU_asType hcls hty f (by decide) (by decide)]

theorem fNak_asType (f : BitVec 256) : fNak (asType cls ty f) = fNak f := by
  have hbit := congrArg (fun x => x.testBit 0) (putField_type_div hcls hty f.toNat)
  simp only [Nat.testBit_div_two_pow] at hbit
  rw [fNak, fNak, bit, bit, asType_eq_putField, fU_ofNat (by decide), fU, testBit_uAt, testBit_uAt]
  simp only [Nat.mul_zero, Nat.zero_add, hbit]

end

/-- The kind of a STREAM flit lies in its byte 12. -/
theorem fU_asKind {j : Nat} (hj : j < 256) (f : BitVec 256) {k n : Nat} (hk : k + n ≤ 12 ∨ 13 ≤ k) (hn : k + n ≤ 32) :
    fU (asKind j f) k n = fU f k n := by
  rw [asKind_eq_putField, fU_ofNat hn]
  rcases hk with hk | hk
  · exact uAt_of_mod_eq putField_mod hk
  · exact uAt_of_div_eq (j := 8 * 12 + 8 * 1) (by rw [Nat.pow_add]; exact putField_above (by decide) hj) (by omega)

theorem fSeq_asKind {j : Nat} (hj : j < 256) (f : BitVec 256) : fSeq (asKind j f) = fSeq f := by
  rw [fSeq, fSeq, fU_asKind hj f (.inl (by decide)) (by decide)]

theorem fNak_asKind {j : Nat} (hj : j < 256) (f : BitVec 256) : fNak (asKind j f) = fNak f := by
  rw [fNak, fNak, fU_asKind hj f (.inl (by decide)) (by decide)]

/-- HOPS_LEFT is bytes 6 and 7. -/
theorem fU_withHops_hops (f : BitVec 256) {h : Nat} (hh : h < 2 ^ 16) : fU (withHops f h) 6 2 = h := by
  rw [withHops_eq_putField, fU_ofNat (by decide), uAt_eq_div]
  exact putField_get (by decide) hh

theorem fU_withHops (f : BitVec 256) {h : Nat} (hh : h < 2 ^ 16) {k n : Nat} (hk : k + n ≤ 6 ∨ 8 ≤ k) (hn : k + n ≤ 32) :
    fU (withHops f h) k n = fU f k n := by
  rw [withHops_eq_putField, fU_ofNat hn]
  rcases hk with hk | hk
  · exact uAt_of_mod_eq putField_mod hk
  · exact uAt_of_div_eq (j := 8 * 6 + 8 * 2) (by rw [Nat.pow_add]; exact putField_above (by decide) hh) (by omega)

/-! ### The fields of a flit that is made -/

theorem fieldValue_eq (k n v : Nat) : fieldValue (k, n, v) = v % 2 ^ (8 * n) * 2 ^ (8 * k) := rfl

/-- The number that three fields of a flit add to its first byte. -/
theorem foldl_fieldValues (v : Nat) (a b c : Nat × Nat × Nat) : [a, b, c].foldl (fun v q => v + q.2.2 % 2 ^ (8 * q.2.1) * 2 ^ (8 * q.1)) v
    = v + fieldValue a + fieldValue b + fieldValue c := rfl

end Sys2Proof.Machine
end

section
/-!
SUPPORT. What the streams of a device rest on (08): the Spire unit but for what its links send, the slots and the groups. No access to memory
touches it, and no event that is raised.
-/
namespace Sys2Proof.Machine
open Sys2Proof

/-- What a link receives with: its state and the packet being received. -/
def Link.receiving (k : Link) : LinkSt × Option (BitVec 256 × List (BitVec 256)) := (k.st, k.head)

/-- The Spire unit but for what its links send, the slots and the groups. -/
def State.streams (s : State) : Spire × Vector (LinkSt × Option (BitVec 256 × List (BitVec 256))) 12 × Vector Slot 256 × List Group :=
  ({ s.spire with links := Vector.replicate 12 {} }, s.spire.links.map Link.receiving, s.slots, s.groups)

theorem streams_of_eq {s t : State} (hspire : t.spire = s.spire) (hslots : t.slots = s.slots) (hgroups : t.groups = s.groups) :
    t.streams = s.streams := by
  rw [State.streams, State.streams, hspire, hslots, hgroups]

theorem streams_of_unnoticed {s t : State} (h : t.unnoticed = s.unnoticed) : t.streams = s.streams :=
  streams_of_eq (congrArg State.spire h :) (congrArg State.slots h :) (groups_of_unnoticed h)

theorem modLink_streams {s : State} {l : Fin 12} {f : Link → Link} (h : ∀ k, (f k).receiving = k.receiving) : (s.modLink l f).streams = s.streams := by
  have hlinks : (s.modLink l f).spire.links.map Link.receiving = s.spire.links.map Link.receiving := map_upd Link.receiving _ _ _ h
  rw [State.streams, hlinks]
  rfl

@[simp] theorem emit_streams (s : State) (x : Tx) : (s.emit x).streams = s.streams := rfl
@[simp] theorem toDome_streams (s : State) (e : Ev) : (s.toDome e).streams = s.streams := rfl
@[simp] theorem arrive_streams (s : State) (a : Awaited) : (s.arrive a).streams = s.streams := by
  unfold State.arrive
  split <;> rfl
@[simp] theorem wakeIsland_streams (s : State) (i : Nat) : (s.wakeIsland i).streams = s.streams := streams_of_unnoticed (wakeIsland_unnoticed ..)
@[simp] theorem stCells_streams (s : State) (m : MemId) (a : Nat) (l : List Byte) : (s.stCells m a l).streams = s.streams :=
  streams_of_unnoticed (stCells_unnoticed ..)
@[simp] theorem deliver_streams (s : State) (p : Fin 64) (e : Ev) : (s.deliver p e).streams = s.streams :=
  streams_of_unnoticed (deliver_unnoticed ..)
@[simp] theorem raise_streams (s : State) (e : Ev) (dests : List (Fin 64 × Ev)) : (s.raise e dests).streams = s.streams :=
  streams_of_unnoticed (raise_unnoticed ..)

theorem entry_streams (s : State) (l : List EntryReq) : ({ s with entry := l } : State).streams = s.streams := rfl

/-! ### Reports of memory errors -/

@[simp] theorem violation_streams (s : State) (m : MemId) (a : Nat) : (s.violation m a).streams = s.streams := (raise_streams ..).trans rfl
@[simp] theorem fetchFault_streams (s : State) (o : Fin 8) (a : Option Nat) : (s.fetchFault o a).streams = s.streams := rfl

@[simp] theorem noteUe_streams (s : State) (m : MemId) (a : Nat) (who : Option (Fin 64)) : (s.noteUe m a who).streams = s.streams := by
  have hcount (t : State) (e : Ev) (l : List (Fin 64 × Ev)) (ht : t.streams = s.streams) : ((t.toDome e).raise e l).streams = s.streams :=
    (raise_streams ..).trans ht
  unfold State.noteUe
  dsimp only
  split
  · split
    · rw [deliver_streams]; exact hcount _ _ _ (by cases m <;> rfl)
    · exact hcount _ _ _ (by cases m <;> rfl)
  · exact hcount _ _ _ (by cases m <;> rfl)

@[simp] theorem noteCe_streams (s : State) (m : MemId) (a : Nat) : (s.noteCe m a).streams = s.streams := by
  unfold State.noteCe
  extract_lets _ _ t key
  have ht : t.streams = s.streams := by cases m <;> rfl
  split
  · exact ht
  · exact (raise_streams ..).trans ht

/-! ### Waking and charging (R362, R555) -/

@[simp] theorem awake_streams (s : State) (c : Fin 8) : (s.awake c).streams = s.streams := by
  unfold State.awake
  split <;> rfl

@[simp] theorem wake_streams (s : State) : s.wake.streams = s.streams := by
  unfold State.wake
  extract_lets out
  have hout (t : State) : (out t).streams = t.streams := foldl_keeps State.streams awake_streams _ t
  split
  · exact hout _
  · split
    · exact hout _
    · rfl

@[simp] theorem wakeMem_streams (s : State) (m : MemId) (a n : Nat) : (s.wakeMem m a n).streams = s.streams := by
  cases m
  case dram => exact (foldl_keeps State.streams (fun t k => wakeIsland_streams t _) _ _).trans (wake_streams s)
  case dome => rfl
  all_goals exact wakeIsland_streams ..

@[simp] theorem portWaits_streams (s : State) (q : Fin 83) : (s.portWaits q).streams = s.streams := by
  unfold State.portWaits
  split
  · rfl
  · dsimp only
    split <;> rfl

@[simp] theorem dramCharge_streams (s : State) (q : Fin 83) (a n : Nat) : (s.dramCharge q a n).streams = s.streams := by
  unfold State.dramCharge State.portUse
  extract_lets b t
  split
  · split
    · exact portWaits_streams ..
    · rfl
  · split
    · rfl
    · split
      · rfl
      · exact portWaits_streams ..

/-! ### The channels of DRAM (10) -/

@[simp] theorem wqAdd_streams (s : State) (keepOpen : Bool) (atom : Nat) (bytes : List (Nat × Byte)) :
    (s.wqAdd keepOpen atom bytes).streams = s.streams := rfl

@[simp] theorem recordLost_streams (s : State) (dev : Nat) : (s.recordLost dev).streams = s.streams :=
  foldl_keeps State.streams (fun _ _ => by rfl) _ s

@[simp] theorem issueAtom_streams (s : State) (w : WAtom) : (s.issueAtom w).streams = s.streams := by
  unfold State.issueAtom
  extract_lets old s1 s2 s3 s4
  have h1 : s1.streams = s.streams := by
    unfold s1
    split
    · rw [recordLost_streams, noteUe_streams]
    · rfl
  have h2 : s2.streams = s1.streams := by
    unfold s2
    split
    · exact noteCe_streams ..
    · rfl
  have h3 : s3.streams = s2.streams := by
    unfold s3
    split <;> rfl
  have h4 : s4.streams = s3.streams := foldl_keeps State.streams (fun _ _ => by rfl) _ _
  exact h4.trans (h3.trans (h2.trans h1))

@[simp] theorem issueWrite_streams (s : State) (c : Fin 8) : (s.issueWrite c).streams = s.streams := by
  unfold State.issueWrite
  split
  · rfl
  · exact issueAtom_streams ..

@[simp] theorem errorTo_streams (s : State) (q : Fin 83) (a : Nat) : (s.errorTo q a).streams = s.streams := by
  rw [State.errorTo, emit_streams]
  split <;> rfl

@[simp] theorem issueRead_streams (s : State) (c : Fin 8) (x : RAtom) : (s.issueRead c x).streams = s.streams := by
  unfold State.issueRead
  extract_lets r atom s1 s2 data s3
  have h1 : s1.streams = s.streams := rfl
  have h2 : s2.streams = s1.streams := by
    unfold s2
    split
    · rfl
    · exact noteUe_streams ..
  have h3 : s3.streams = s1.streams := by
    unfold s3
    split
    · exact noteCe_streams ..
    · rfl
  split
  · split
    · exact h2
    · rw [errorTo_streams, h2, h1]
  · split <;> exact h3

@[simp] theorem dmcIssue_streams (s : State) (c : Fin 8) : (s.dmcIssue c).streams = s.streams := by
  unfold State.dmcIssue
  extract_lets d read may
  split
  · exact issueWrite_streams ..
  · split
    · exact issueRead_streams ..
    · split
      · exact issueWrite_streams ..
      · split
        · exact issueRead_streams ..
        · exact issueWrite_streams ..

@[simp] theorem dmcUntil_streams (n : Nat) (s : State) (c : Fin 8) (ok : Dmc → Bool) : (State.dmcUntil n s c ok).streams = s.streams := by
  induction n generalizing s with
  | zero => rfl
  | succ n ih =>
    have hstep : (s.dmcStep c).streams = s.streams := by
      unfold State.dmcStep
      split
      · rfl
      · exact dmcIssue_streams ..
    unfold State.dmcUntil
    split
    · rfl
    · rw [ih, hstep]

@[simp] theorem dramPut_streams (s : State) (keepOpen : Bool) (a : Nat) (l : List Byte) : (s.dramPut keepOpen a l).streams = s.streams := by
  refine foldl_keeps State.streams (fun t k => ?_) _ s
  dsimp only
  rw [wqAdd_streams]
  split
  · rfl
  · exact dmcUntil_streams ..

/-! ### Reads (10, R421) -/

@[simp] theorem readIn_streams (s : State) (r : MemReq) (part : Bool) (who : Option (Fin 64)) : (s.readIn r part who).1.streams = s.streams := by
  unfold State.readIn
  extract_lets c s1 s2
  have h1 : s1.streams = s.streams := by
    unfold s1
    split <;> rfl
  split
  · split <;> exact h1
  · exact (dmcUntil_streams ..).trans h1

@[simp] theorem atomRead_streams (s : State) (r : MemReq) (who : Option (Fin 64)) : (s.atomRead r who).1.streams = s.streams := by
  have hread := readIn_streams s r true who
  unfold State.atomRead
  split
  · rename_i h
    rw [h] at hread
    exact hread
  · rename_i h
    rw [h] at hread
    exact (dmcUntil_streams ..).trans hread

@[simp] theorem dmcRead_streams (s : State) (q : Fin 83) (tlp : Option Nat) (who : Option (Fin 64)) (a n : Nat) :
    (s.dmcRead q tlp who a n).1.streams = s.streams := by
  unfold State.dmcRead
  refine foldl_keeps_fst State.streams (fun x k => ?_) _ _
  exact atomRead_streams x.1 _ who

@[simp] theorem readErrs_streams (s : State) (m : MemId) (a n : Nat) (who : Option (Fin 64)) : (s.readErrs m a n who).1.streams = s.streams := by
  unfold State.readErrs
  extract_lets bad s1 fix
  have h1 : s1.streams = s.streams := foldl_keeps State.streams (fun t w => noteUe_streams t ..) _ _
  refine (foldl_keeps State.streams (fun t w => ?_) fix s1).trans h1
  rw [noteCe_streams]
  split <;> rfl

@[simp] theorem memRead_streams (s : State) (master : Nat) (secure : Bool) (q : Fin 83) (who : Option (Fin 64)) (a n : Nat) :
    (s.memRead master secure q who a n).1.streams = s.streams := by
  unfold State.memRead State.memReadT State.memReadOk State.violationDev
  split
  · split
    · rfl
    · split
      · rfl
      · split
        · exact (dmcRead_streams ..).trans ((dramCharge_streams ..).trans (wakeMem_streams ..))
        · exact (readErrs_streams ..).trans (wakeMem_streams ..)
  · split
    · rfl
    · exact violation_streams ..

/-! ### Writes (R32, R153, R234, R364, R414, R419) -/

@[simp] theorem stWords_streams (s : State) (m : MemId) (a : Nat) (l : List Byte) : (s.stWords m a l).streams = s.streams :=
  stCells_streams ..

@[simp] theorem keepMake_streams (s : State) (q : Nat × List Byte) : (s.keepMake q).streams = s.streams := stWords_streams s .keep q.1 q.2

@[simp] theorem keepDrain_streams (s : State) : s.keepDrain.streams = s.streams := by
  unfold State.keepDrain
  split
  · exact keepMake_streams ..
  · exact keepMake_streams ..
  · rfl

@[simp] theorem fetchCheck_streams (s : State) (o : Fin 8) (x : Nat × Nat) : (s.fetchCheck o x).streams = s.streams := by
  unfold State.fetchCheck
  split
  · rfl
  · split
    · rw [fetchFault_streams, violation_streams]
    · split
      · rfl
      · refine foldl_keeps State.streams (fun t w => ?_) _ s
        split
        · rfl
        · rw [fetchFault_streams, noteUe_streams]

@[simp] theorem freezeOut_streams (s : State) (o : Fin 8) : (s.freezeOut o).streams = s.streams := by
  unfold State.freezeOut
  extract_lets k n st w new t
  split
  · rfl
  · refine (rfl : State.streams (State.modOut t o _) = t.streams).trans ?_
    unfold t
    split
    · rfl
    · exact foldl_keeps State.streams (fun _ _ => fetchCheck_streams ..) _ _

@[simp] theorem freeze_streams (s : State) : s.freeze.streams = s.streams := foldl_keeps State.streams freezeOut_streams _ s

@[simp] theorem keepPut_streams (s : State) (a : Nat) (l : List Byte) : (s.keepPut a l).streams = s.streams := by
  refine (foldl_keeps State.streams (fun t q => ?_) _ _).trans ((wakeIsland_streams ..).trans (freeze_streams s))
  dsimp only
  split
  · exact keepDrain_streams t
  · rfl

@[simp] theorem memWriteOk_streams (s : State) (tlp : Option Nat) (q : Fin 83) (a : Nat) (l : List Byte) :
    (s.memWriteOk tlp q a l).streams = s.streams := by
  have hwoken (m : MemId) (b n : Nat) : (s.freeze.wakeMem m b n).streams = s.streams := (wakeMem_streams ..).trans (freeze_streams s)
  unfold State.memWriteOk
  split
  · rfl
  · split
    · rfl
    · dsimp only
      split
      · exact (dramPut_streams ..).trans ((dramCharge_streams ..).trans (hwoken ..))
      · exact (keepPut_streams ..).trans (hwoken ..)
      · exact (stWords_streams ..).trans (hwoken ..)

/-! ### Requests at fabric entry (R364, R366) -/

@[simp] theorem meetIf_streams (s : State) (a : Nat) (e : Ecc) : (s.meetIf a e).streams = s.streams := by
  unfold State.meetIf State.meet
  split
  · cases e
    case clean => rfl
    all_goals
      dsimp only
      split <;> rfl
  · rfl

@[simp] theorem dramDo_streams (s : State) (x : EntryReq) : (s.dramDo x).streams = s.streams := by
  unfold State.dramDo
  dsimp only
  split
  · split
    · rfl
    · split
      · rw [errorTo_streams, violation_streams]
      · split
        · exact errorTo_streams ..
        · rw [readIn_streams, meetIf_streams, dramCharge_streams, wakeMem_streams]
  · split
    · rfl
    · split
      · exact memWriteOk_streams ..
      · exact violation_streams ..

@[simp] theorem dramReq_streams (s : State) (r : MemReq) (data : Option (List Byte)) (ecc : Ecc) : (s.dramReq r data ecc).streams = s.streams := by
  unfold State.dramReq
  extract_lets q m n x t
  have ht : t.streams = s.streams := by
    unfold t
    split
    · rfl
    · exact wakeMem_streams ..
  split
  · rw [dramDo_streams, ht]
  · rw [entry_streams, portWaits_streams, ht]

end Sys2Proof.Machine
end

section
/-!
SUPPORT. A flit received on an UP link (08, R299 to R306), and what follows it: what its links send, and what the exports and the outputs that
underrun do, leaves what the streams rest on.
-/
namespace Sys2Proof.Machine
open Sys2Proof

/-! ### Sending (R301, R302, R369) -/

theorem slot_receiving (k : Link) (f : BitVec 256) : (k.slot f).receiving = k.receiving := by
  unfold Link.slot
  dsimp only
  split <;> rfl

theorem slot_seqRx (k : Link) (f : BitVec 256) : (k.slot f).seqRx = k.seqRx := by
  unfold Link.slot
  dsimp only
  split <;> rfl

@[simp] theorem txFlit_streams (s : State) (l : Fin 12) (f : BitVec 256) : (s.txFlit l f).streams = s.streams := by
  unfold State.txFlit
  dsimp only
  rw [emit_streams]
  refine modLink_streams fun k => ?_
  split
  · exact slot_receiving k f
  · exact slot_receiving k f

theorem txFlit_seqRx (s : State) (l : Fin 12) (f : BitVec 256) : ((s.txFlit l f).spire.links[l.val]).seqRx = (s.spire.links[l.val]).seqRx := by
  unfold State.txFlit
  dsimp only
  rw [emit_spire, modLink_spire]
  dsimp only
  rw [upd_same]
  split
  · exact slot_seqRx _ f
  · exact slot_seqRx _ f

@[simp] theorem pump_streams (n : Nat) (s : State) (l : Fin 12) : (State.pump n s l).streams = s.streams := by
  induction n generalizing s with
  | zero => rfl
  | succ n ih =>
    unfold State.pump
    dsimp only
    split
    · rfl
    · split
      · rfl
      · rw [ih, txFlit_streams]
        exact modLink_streams fun _ => rfl

theorem pump_seqRx (n : Nat) (s : State) (l : Fin 12) : ((State.pump n s l).spire.links[l.val]).seqRx = (s.spire.links[l.val]).seqRx := by
  induction n generalizing s with
  | zero => rfl
  | succ n ih =>
    unfold State.pump
    dsimp only
    split
    · rfl
    · split
      · rfl
      · rw [ih, txFlit_seqRx, modLink_spire]
        dsimp only
        rw [upd_same]

@[simp] theorem sendSeq_streams (s : State) (l : Fin 12) (f : BitVec 256) : (s.sendSeq l f).streams = s.streams :=
  (pump_streams ..).trans (modLink_streams fun _ => rfl)

@[simp] theorem giveCredit_streams (s : State) (l : Fin 12) (cls : Nat) : (s.giveCredit l cls).streams = s.streams := by
  unfold State.giveCredit
  split
  · exact txFlit_streams ..
  · split
    · exact txFlit_streams ..
    · rfl

/-! ### Receipt (R299, R304 to R306) -/

/-- What the ACK of a flit without NAK does before the link's waiting flits go. -/
theorem ackIn_of_not_nak {s : State} {l : Fin 12} {f : BitVec 256} (h : fNak f = false) :
    ∃ t n, s.ackIn l f = State.pump n t l ∧ t.streams = s.streams ∧ t.windows = s.windows
      ∧ (t.spire.links[l.val]).seqRx = (s.spire.links[l.val]).seqRx := by
  unfold State.ackIn
  simp only [h, Bool.false_and, Bool.false_eq_true, if_false]
  split
  · split
    · refine ⟨_, _, rfl, ?_, ?_, ?_⟩
      · exact (modLink_streams fun _ => by rfl).trans (arrive_streams ..)
      · rw [modLink_windows]
        unfold State.arrive
        split <;> rfl
      · rw [modLink_spire]
        dsimp only
        rw [upd_same]
        unfold State.arrive
        split <;> rfl
    · exact ⟨_, _, rfl, rfl, rfl, rfl⟩
  · exact ⟨_, _, rfl, rfl, rfl, rfl⟩

@[simp] theorem arrive_windows (s : State) (a : Awaited) : (s.arrive a).windows = s.windows := by
  unfold State.arrive
  split <;> rfl

@[simp] theorem arrive_spire (s : State) (a : Awaited) : (s.arrive a).spire = s.spire := by
  unfold State.arrive
  split <;> rfl

theorem heard_of_not_nak {s : State} {l : Fin 12} {f : BitVec 256} (h : fNak f = false) :
    (s.heard l f).streams = s.streams ∧ (s.heard l f).windows = s.windows
      ∧ ((s.heard l f).spire.links[l.val]).seqRx = (s.spire.links[l.val]).seqRx := by
  obtain ⟨t, n, hack, hstreams, hwindows, hseq⟩ := ackIn_of_not_nak (s := (s.arrive (.flit l)).modLink l fun k => { k with rx := k.rx + 1 }) (l := l) h
  rw [State.heard, hack]
  refine ⟨?_, ?_, ?_⟩
  · rw [pump_streams, hstreams]
    exact (modLink_streams fun _ => by rfl).trans (arrive_streams ..)
  · rw [pump_windows, hwindows, modLink_windows, arrive_windows]
  · rw [pump_seqRx, hseq, modLink_spire]
    dsimp only
    rw [upd_same, arrive_spire]

@[simp] theorem inOrder_streams (s : State) (l : Fin 12) (cls : Nat) : (s.inOrder l cls).streams = s.streams :=
  (giveCredit_streams ..).trans (modLink_streams fun _ => rfl)

@[simp] theorem inOrder_windows (s : State) (l : Fin 12) (cls : Nat) : (s.inOrder l cls).windows = s.windows := by
  unfold State.inOrder State.giveCredit
  split
  · rw [txFlit_windows, modLink_windows]
  · split
    · rw [txFlit_windows, modLink_windows]
    · exact modLink_windows ..

/-! ### What follows -/

/-- What the streams rest on, without the time. -/
def State.timeless (s : State) : Spire × Vector (LinkSt × Option (BitVec 256 × List (BitVec 256))) 12 × Vector Slot 256 × List Group :=
  ({ s.streams.1 with now := 0, frac := 0 }, s.streams.2)

/-- What an import stream and the master's list of devices rest on: `State.timeless` without the exports and the count of what could not be sent. -/
def State.received (s : State) : Spire × Vector (LinkSt × Option (BitVec 256 × List (BitVec 256))) 12 × Vector Slot 256 × List Group :=
  ({ s.timeless.1 with unreach := 0, exports := [] }, s.timeless.2)

theorem timeless_of_streams {s t : State} (h : t.streams = s.streams) : t.timeless = s.timeless := by
  rw [State.timeless, State.timeless, h]

theorem received_of_timeless {s t : State} (h : t.timeless = s.timeless) : t.received = s.received := by
  rw [State.received, State.received, h]

theorem received_of_streams {s t : State} (h : t.streams = s.streams) : t.received = s.received :=
  received_of_timeless (timeless_of_streams h)

@[simp] theorem sendRouted_received (s : State) (dest : Nat) (f : BitVec 256) : (s.sendRouted dest f).received = s.received := by
  unfold State.sendRouted
  dsimp only
  split
  · exact received_of_streams (sendSeq_streams ..)
  · rfl

@[simp] theorem xferRead_streams (p : Fin 64) (n : Nat) (s : State) (base pitch w k l : Nat) (acc : List Byte) (bad : Bool) :
    (State.xferRead p n s base pitch w k l acc bad).1.streams = s.streams := by
  induction n generalizing s k l acc bad with
  | zero => rfl
  | succ n ih =>
    unfold State.xferRead
    split
    · rfl
    · extract_lets m r
      rw [ih]
      exact memRead_streams ..

@[simp] theorem exportPump_received (n : Nat) (s : State) (k : Nat) : (State.exportPump n s k).received = s.received := by
  have hset (t : State) (es : List Export) : ({ t with spire := { t.spire with exports := es } } : State).received = t.received := rfl
  induction n generalizing s with
  | zero => rfl
  | succ n ih =>
    unfold State.exportPump
    dsimp only
    split
    · rfl
    · split
      · rfl
      · split
        · rfl
        · split
          · rfl
          · split
            · rw [hset, sendRouted_received]
            · split
              · exact received_of_streams (portWaits_streams ..)
              · rw [ih, hset, foldl_keeps State.received fun t i => received_of_streams (sendSeq_streams t ..), sendRouted_received,
                  received_of_streams (xferRead_streams ..)]

@[simp] theorem startXfer_received (s : State) (k : Nat) : (s.startXfer k).received = s.received := by
  unfold State.startXfer
  split
  · rfl
  · dsimp only
    split
    · rfl
    · split
      · rfl
      · split
        · rfl
        · rw [exportPump_received, sendRouted_received]
          rfl

/-- The transfer of an export moved on. -/
def State.exportMoved (s : State) (k : Nat) : State :=
  match s.spire.exports[k]?.bind Export.cur with
  | none => s
  | some (a, bpp, _, _) => s.exportPump (xferBytes a bpp / 26 + 2) k

/-- An export moved on, and its next transfer started where it is due and can go. -/
def State.exportGo (s : State) (k : Nat) : State :=
  match (s.exportMoved k).spire.exports[k]? with
  | some e => if e.due && e.cur.isNone && decide ((s.exportMoved k).route e.dest < 12) then (s.exportMoved k).startXfer k else s.exportMoved k
  | none => s.exportMoved k

theorem exportsGo_eq (s : State) : s.exportsGo = (List.range s.spire.exports.length).foldl State.exportGo s := by
  unfold State.exportsGo
  congr 1
  funext t k
  unfold State.exportGo State.exportMoved
  cases he : t.spire.exports[k]? with
  | none => simp [he]
  | some e =>
    cases hc : e.cur with
    | none => simp [he, hc]
    | some c => simp only [hc, Option.bind_some] <;> rfl

/-- What the parts of an export's move keep, the moves of all exports keep. -/
theorem exportsGo_keeps {β : Type} (φ : State → β) (hpump : ∀ n s k, φ (State.exportPump n s k) = φ s) (hstart : ∀ s k, φ (s.startXfer k) = φ s)
    (s : State) : φ s.exportsGo = φ s := by
  rw [exportsGo_eq]
  refine foldl_keeps φ (fun t k => ?_) _ s
  have hmoved : φ (t.exportMoved k) = φ t := by
    unfold State.exportMoved
    split
    · rfl
    · exact hpump ..
  unfold State.exportGo
  split
  · split
    · exact (hstart ..).trans hmoved
    · exact hmoved
  · exact hmoved

@[simp] theorem exportsGo_received (s : State) : s.exportsGo.received = s.received :=
  exportsGo_keeps State.received exportPump_received startXfer_received s

@[simp] theorem exportsGo_windows (s : State) : s.exportsGo.windows = s.windows :=
  exportsGo_keeps State.windows exportPump_windows startXfer_windows s

@[simp] theorem newPeriod_streams (s : State) (k : Nat) : (s.newPeriod k).streams = s.streams :=
  (foldl_keeps State.streams (fun t p => streams_of_unnoticed (newPeriod_hold_unnoticed t p)) _ _).trans rfl

@[simp] theorem upTo_timeless (s : State) (ps : Nat) : (s.upTo ps).timeless = s.timeless := by
  unfold State.upTo State.moveTo State.periodGo
  split
  · split
    · exact (timeless_of_streams (newPeriod_streams ..)).trans rfl
    · rfl
  · rfl

@[simp] theorem underrunFrom_timeless (s : State) (o : Fin 8) (line x : Nat) : (s.underrunFrom o line x).timeless = s.timeless := by
  unfold State.underrunFrom
  extract_lets u s1 s2
  have h1 : s1.timeless = s.timeless := upTo_timeless ..
  split
  · rfl
  · split
    · exact h1
    · exact (timeless_of_streams (raise_streams ..)).trans h1

@[simp] theorem faultGo_timeless (s : State) (o : Fin 8) : (s.faultGo o).timeless = s.timeless := by
  unfold State.faultGo
  extract_lets u fs t
  split
  · rfl
  · split
    · exact (underrunFrom_timeless ..).trans rfl
    · rfl

@[simp] theorem run_timeless (s : State) (f : State → State) : (s.run f).timeless = (f s).timeless := rfl

/-! ### What waits at fabric entry (R366) -/

/-- The core of a state, but for the errors that the composers met and what waits at fabric entry. -/
def State.unentered (s : State) : Core := { s.windows.1 with entry := [] }

theorem unentered_of_windows {s t : State} (h : t.windows.1 = s.windows.1) : t.unentered = s.unentered := by
  rw [State.unentered, State.unentered, h]

theorem unentered_of_rasters {s t : State} (h : t.rasters = s.rasters) : t.unentered = s.unentered := unentered_of_windows (congrArg Prod.fst h :)

theorem unentered_of_core {s t : State} (h : t.core = s.core) : t.unentered = s.unentered :=
  unentered_of_windows (by rw [State.windows, State.windows, h])

@[simp] theorem dramDo_unentered (s : State) (x : EntryReq) : (s.dramDo x).unentered = s.unentered := by
  unfold State.dramDo
  dsimp only
  split
  · split
    · rfl
    · split
      · exact unentered_of_windows (by rw [errorTo_windows, violation_windows])
      · split
        · exact unentered_of_windows (by rw [errorTo_windows])
        · refine (unentered_of_windows (by rw [readIn_windows])).trans ((unentered_of_core (meetIf_core ..)).trans ?_)
          exact unentered_of_windows (by rw [dramCharge_windows, wakeMem_windows])
  · split
    · rfl
    · split
      · exact unentered_of_rasters (memWriteOk_rasters ..)
      · exact unentered_of_windows (by rw [violation_windows])

/-- In a state whose core is that of a calm one, but for errors and requests at fabric entry, these are all that is left to do. -/
theorem calm_of_unentered {s t : State} (hs : s.calm = true) (h : t.unentered = s.unentered) :
    ({ t with comps := s.comps, entry := s.entry } : State).calm = true :=
  (calm_of_core (s := s) (congrArg (fun c : Core => { c with faults := s.core.faults, entry := s.entry }) h)).trans hs

theorem wantNext_req {s : State} (h : ∀ n : Fin 4, (s.ports[n.val]).posted = []) {w : Want} (hw : s.wantNext = some w) : ∃ x, w = .req x := by
  have hmem : w ∈ s.wants := by
    unfold State.wantNext at hw
    split at hw
    · next hfind => exact Option.some.inj hw ▸ List.mem_of_find?_eq_some hfind
    · exact List.mem_of_find?_eq_some hw
  obtain ⟨q, -, hq⟩ := List.mem_filterMap.1 hmem
  unfold State.wantOf at hq
  split at hq
  · exact ⟨_, (Option.some.inj hq).symm⟩
  · simp [h] at hq

/-- Requests at fabric entry that go leave what the streams rest on. -/
theorem wantsGo_keeps {s : State} (hs : s.calm = true) (n : Nat) {t : State} (h : t.unentered = s.unentered) :
    (State.wantsGo n t).unentered = s.unentered ∧ (State.wantsGo n t).timeless = t.timeless := by
  induction n generalizing t with
  | zero => exact ⟨h, rfl⟩
  | succ n ih =>
    unfold State.wantsGo
    split
    · exact ⟨h, rfl⟩
    · next w hw =>
      obtain ⟨-, -, -, -, -, -, hposted, -⟩ := calm_parts (calm_of_unentered hs h)
      obtain ⟨x, rfl⟩ := wantNext_req (s := t) hposted hw
      have hcore : (t.wantGo (.req x)).unentered = t.unentered := dramDo_unentered ..
      have htime : (t.wantGo (.req x)).timeless = t.timeless := timeless_of_streams (dramDo_streams ..)
      obtain ⟨hkept, hsame⟩ := ih (hcore.trans h)
      exact ⟨hkept, hsame.trans htime⟩

/-- What follows an effect that keeps the core of a calm state, but for errors and requests at fabric entry. -/
theorem after_timeless {s t : State} (hs : s.calm = true) (h : t.unentered = s.unentered) : t.after.timeless = t.timeless := by
  obtain ⟨hwiping, hrestart, hhalt, halarms, -⟩ := calm_parts (calm_of_unentered hs h)
  obtain ⟨hrest, htime⟩ := wantsGo_keeps hs t.waitingN h
  obtain ⟨-, -, -, -, -, -, -, hquiet, hjobs, -, hstage⟩ := calm_parts (calm_of_unentered hs hrest)
  dsimp only at hwiping hrestart hhalt halarms
  have hquiet : t.fabricGo.quiet = true := hquiet
  have hjobs : t.fabricGo.jobsIdle = true := hjobs
  have hstage : ¬ t.fabricGo.pwr.stage = 10 := hstage
  have hwipe : State.wipeDue 3 t = t := by simp [State.wipeDue, hwiping]
  have hback : t.domeBack = t := by simp [State.domeBack, hrestart]
  have halarm : t.alarmsGo = t := by
    rw [State.alarmsGo, hhalt, halarms]
    rfl
  have hsettle : t.fabricGo.settle = t.fabricGo := by simp [State.settle, hquiet]
  have hfaults := stage_of_windows (foldl_keeps State.windows faultGo_windows (idx 8) t.fabricGo)
  have hready : ((idx 8).foldl State.faultGo t.fabricGo).noteReady = (idx 8).foldl State.faultGo t.fabricGo := by
    rw [State.noteReady, hfaults, if_neg (by simp [hstage])]
  rw [State.after, hwipe, hback, halarm, hsettle, serveJobs_idle hjobs, hsettle, hready]
  exact (foldl_keeps State.timeless faultGo_timeless _ _).trans htime

end Sys2Proof.Machine
end

section
/-!
SUPPORT. A sequenced flit accepted in order on an UP link, as a whole command: its effect on what the streams rest on is that of the flit alone.
-/
namespace Sys2Proof.Machine
open Sys2Proof

/-- A flit that is next in order on an UP link, without NAK. -/
abbrev State.Next (s : State) (l : Fin 12) (f : BitVec 256) : Prop := s.linkUp l = true ∧ fNak f = false ∧ fSeq f = (s.spire.links[l.val]).seqRx

theorem State.Next.up {s : State} {l : Fin 12} {f : BitVec 256} (h : s.Next l f) : s.linkUp l = true := h.1

theorem State.Next.noNak {s : State} {l : Fin 12} {f : BitVec 256} (h : s.Next l f) : fNak f = false := h.2.1

theorem State.Next.inSeq {s : State} {l : Fin 12} {f : BitVec 256} (h : s.Next l f) : fSeq f = (s.spire.links[l.val]).seqRx := h.2.2

/-- It takes effect where the link has heard it, after its credit. -/
theorem State.Next.rx_eq {s : State} {l : Fin 12} {f : BitVec 256} (h : s.Next l f) {cls ty : Nat} (hcls : cls < 4) (hty : ty < 16)
    (hq : isSeq cls ty = true) :
    ∃ u : State, u.streams = s.streams ∧ u.windows = s.windows
      ∧ ∀ g : BitVec 256 → State → State, s.rx l cls ty f g = (g (asType cls ty f) u).exportsGo := by
  have hnak : fNak (asType cls ty f) = false := (fNak_asType hcls hty f).trans h.noNak
  obtain ⟨hstreams, hwindows, hseq⟩ := heard_of_not_nak (s := s) (l := l) hnak
  refine ⟨(s.heard l (asType cls ty f)).inOrder l cls, (inOrder_streams ..).trans hstreams, (inOrder_windows ..).trans hwindows, fun g => ?_⟩
  rw [rx_sequenced h.up cls ty f g hcls hty hq, if_pos]
  rw [fSeq_asType hcls hty, hseq, h.inSeq]

/-- What follows such a flit whose effect keeps the core of a state, but for errors and requests at fabric entry. -/
theorem State.Next.timeless_eq {s : State} {l : Fin 12} {f : BitVec 256} (h : s.Next l f) (hg : s.Good) {cls ty : Nat} (hcls : cls < 4)
    (hty : ty < 16) (hq : isSeq cls ty = true) {g : BitVec 256 → State → State}
    (hrest : ∀ u : State, u.streams = s.streams → (g (asType cls ty f) u).unentered = u.unentered) :
    ∃ u : State, u.streams = s.streams
      ∧ (s.run fun v => (v.rx l cls ty f g).after).timeless = (g (asType cls ty f) u).exportsGo.timeless := by
  obtain ⟨u, hstreams, hwindows, hrx⟩ := h.rx_eq hcls hty hq
  have hcore : (s.rx l cls ty f g).unentered = s.unentered := by
    rw [hrx, unentered_of_windows (congrArg Prod.fst (exportsGo_windows ..)), hrest u hstreams, unentered_of_windows (congrArg Prod.fst hwindows)]
  exact ⟨u, hstreams, (run_timeless ..).trans ((after_timeless hg.2.2 hcore).trans (by rw [hrx]))⟩

theorem State.Next.received_eq {s : State} {l : Fin 12} {f : BitVec 256} (h : s.Next l f) (hg : s.Good) {cls ty : Nat} (hcls : cls < 4)
    (hty : ty < 16) (hq : isSeq cls ty = true) {g : BitVec 256 → State → State}
    (hrest : ∀ u : State, u.streams = s.streams → (g (asType cls ty f) u).unentered = u.unentered) :
    ∃ u : State, u.streams = s.streams
      ∧ (s.run fun v => (v.rx l cls ty f g).after).received = (g (asType cls ty f) u).received := by
  obtain ⟨u, hstreams, htimeless⟩ := h.timeless_eq hg hcls hty hq hrest
  exact ⟨u, hstreams, (received_of_timeless htimeless).trans (exportsGo_received ..)⟩

/-! ### What can be read off -/

theorem master_of_streams {s t : State} (h : t.streams = s.streams) : t.spire.master = s.spire.master := congrArg (fun v => v.1.master) h
theorem absent_of_streams {s t : State} (h : t.streams = s.streams) : t.spire.absent = s.spire.absent := congrArg (fun v => v.1.absent) h
theorem present_of_streams {s t : State} (h : t.streams = s.streams) : t.spire.present = s.spire.present := congrArg (fun v => v.1.present) h
theorem absent_of_received {s t : State} (h : t.received = s.received) : t.spire.absent = s.spire.absent := congrArg (fun v => v.1.absent) h
theorem present_of_received {s t : State} (h : t.received = s.received) : t.spire.present = s.spire.present := congrArg (fun v => v.1.present) h

theorem receiving_of_received {s t : State} (h : t.received = s.received) (l : Fin 12) :
    (t.spire.links[l.val]).receiving = (s.spire.links[l.val]).receiving := by
  have hlinks : t.spire.links.map Link.receiving = s.spire.links.map Link.receiving := congrArg (fun v => v.2.1) h
  simpa using congrArg (fun v => v[l.val]) hlinks

theorem linkUp_of_received {s t : State} (h : t.received = s.received) (l : Fin 12) : t.linkUp l = s.linkUp l :=
  congrArg (fun v : LinkSt × Option (BitVec 256 × List (BitVec 256)) => v.1 == .up) (receiving_of_received h l)

theorem route_of_received {s t : State} (h : t.received = s.received) (d : Nat) : t.route d = s.route d := by
  have himage : t.spire.image = s.spire.image := congrArg (fun v => v.1.image) h
  simp only [State.route, himage, linkUp_of_received h]

theorem route_of_streams {s t : State} (h : t.streams = s.streams) (d : Nat) : t.route d = s.route d := route_of_received (received_of_streams h) d

/-! ### Routed flits (R314) -/

theorem routeFlit_here {s : State} {f : BitVec 256} (body : List (BitVec 256)) (g : State → State) (h : s.route (fU f 4 2) = 12) :
    s.routeFlit f body g = g s := by
  simp [State.routeFlit, h]

/-- A routed flit for this device, accepted in order, as a whole command. -/
theorem State.Next.routed_received {s : State} {l : Fin 12} {f : BitVec 256} (h : s.Next l f) (hg : s.Good) {cls ty : Nat} (hcls : cls < 4)
    (hty : ty < 16) (hq : isSeq cls ty = true) (hroute : s.route (fU f 4 2) = 12) {g : BitVec 256 → State → State}
    (hcore : ∀ u : State, (g (asType cls ty f) u).core = u.core) :
    ∃ u : State, u.streams = s.streams
      ∧ (s.run fun v => (v.rx l cls ty f fun f v => v.routeFlit f [] (g f)).after).received = (g (asType cls ty f) u).received := by
  obtain ⟨u, hstreams, hafter⟩ := h.received_eq hg hcls hty hq (g := fun f v => v.routeFlit f [] (g f))
    fun u _ => unentered_of_core (routeFlit_core u _ _ _ hcore)
  refine ⟨u, hstreams, hafter.trans ?_⟩
  rw [routeFlit_here]
  rw [fU_asType hcls hty f (by decide) (by decide), route_of_streams hstreams, hroute]

/-! ### Sending stores nothing -/

/-- What a command leaves to be done with the memory, the memory, and the queue. -/
def State.settled (s : State) : List Store × Images × List Instr := (s.stores, s.img, s.pending)

@[simp] theorem txFlit_settled (s : State) (l : Fin 12) (f : BitVec 256) : (s.txFlit l f).settled = s.settled := rfl

@[simp] theorem pump_settled (n : Nat) (s : State) (l : Fin 12) : (State.pump n s l).settled = s.settled := by
  induction n generalizing s with
  | zero => rfl
  | succ n ih =>
    unfold State.pump
    dsimp only
    split
    · rfl
    · split
      · rfl
      · rw [ih, txFlit_settled]
        rfl

@[simp] theorem sendRouted_settled (s : State) (dest : Nat) (f : BitVec 256) : (s.sendRouted dest f).settled = s.settled := by
  unfold State.sendRouted State.sendSeq
  dsimp only
  split
  · exact (pump_settled ..).trans rfl
  · rfl

end Sys2Proof.Machine
end

section
/-!
The presence of devices and the routing of flits (R314, R337).
-/
namespace Sys2Proof.Machine
open Sys2Proof

/-! ### PRESENCE (R337) -/

theorem exec_presence_of_running {s : State} (h : s.pwr.reset = .running) (l : Fin 12) (f : BitVec 256) :
    exec (.presence l f) s = .next (s.run fun u => (u.rx l 2 2 f fun f v => v.routeFlit f [] fun v => v.presenceIn f).after) :=
  act_of_running h _

theorem presenceIn_of_master {s : State} (h : s.spire.master = true) (f : BitVec 256) :
    (s.presenceIn f).spire.absent = s.spire.absent.filter (· != fU f 8 2) ∧ fU f 8 2 ∈ (s.presenceIn f).spire.present := by
  rw [State.presenceIn, if_neg (by simp [h])]
  refine ⟨rfl, ?_⟩
  dsimp only
  split
  · next hin => simpa using hin
  · simp

theorem presenceIn_of_not_master {s : State} (h : s.spire.master = false) (f : BitVec 256) : s.presenceIn f = s := by
  simp [State.presenceIn, h]

theorem exec_presence_received {s : State} {l : Fin 12} {f : BitVec 256} (h : s.Next l f) (hg : s.Good) (hroute : s.route (fU f 4 2) = 12) :
    ∃ t u : State, exec (.presence l f) s = .next t ∧ u.streams = s.streams ∧ t.received = (u.presenceIn (asType 2 2 f)).received := by
  obtain ⟨u, hstreams, hreceived⟩ := h.routed_received hg (cls := 2) (ty := 2) (by decide) (by decide) rfl hroute
    (g := fun f v => v.presenceIn f) fun u => presenceIn_core u _
  exact ⟨_, u, exec_presence_of_running hg.2.1 l f, hstreams, hreceived⟩

theorem exec_presence_of_master {s : State} {l : Fin 12} {f : BitVec 256} (h : s.Next l f) (hg : s.Good) (hroute : s.route (fU f 4 2) = 12)
    (hm : s.spire.master = true) :
    ∃ t, exec (.presence l f) s = .next t ∧ fU f 8 2 ∉ t.spire.absent ∧ fU f 8 2 ∈ t.spire.present
      ∧ ∀ x, x ≠ fU f 8 2 → (x ∈ t.spire.absent ↔ x ∈ s.spire.absent) := by
  obtain ⟨t, u, hexec, hstreams, hreceived⟩ := exec_presence_received h hg hroute
  obtain ⟨habsent, hpresent⟩ := presenceIn_of_master ((master_of_streams hstreams).trans hm) (asType 2 2 f)
  rw [fU_asType (by decide) (by decide) f (by decide) (by decide)] at habsent hpresent
  rw [← absent_of_received hreceived, absent_of_streams hstreams] at habsent
  rw [← present_of_received hreceived] at hpresent
  refine ⟨t, hexec, ?_, hpresent, fun x hx => ?_⟩
  · simp [habsent]
  · simp [habsent, hx]

theorem exec_presence_of_not_master {s : State} {l : Fin 12} {f : BitVec 256} (h : s.Next l f) (hg : s.Good) (hroute : s.route (fU f 4 2) = 12)
    (hm : s.spire.master = false) :
    ∃ t, exec (.presence l f) s = .next t ∧ t.spire.absent = s.spire.absent ∧ t.spire.present = s.spire.present := by
  obtain ⟨t, u, hexec, hstreams, hreceived⟩ := exec_presence_received h hg hroute
  rw [presenceIn_of_not_master ((master_of_streams hstreams).trans hm)] at hreceived
  exact ⟨t, hexec, (absent_of_received hreceived).trans (absent_of_streams hstreams), (present_of_received hreceived).trans (present_of_streams hstreams)⟩

/-! ### PRESENCE_TIMER and PRESENCE_TIMEOUT (R337) -/

/-- The PRESENCE flit that a device sends to its master. -/
def Spire.presenceFlit (t : Spire) : BitVec 256 := mkFlit 2 2 [(4, 2, t.masterId), (6, 2, t.hops), (8, 2, t.myId)]

theorem presenceFlit_eq (t : Spire) : t.presenceFlit = BitVec.ofNat 256 (2 + 4 * 2 + fieldValue (4, 2, t.masterId) + fieldValue (6, 2, t.hops)
    + fieldValue (8, 2, t.myId)) :=
  congrArg (BitVec.ofNat 256) (foldl_fieldValues ..)

theorem presenceFlit_fields (t : Spire) : fClass t.presenceFlit = 2 ∧ fType t.presenceFlit = 2 ∧ (t.masterId < 2 ^ 16 → fU t.presenceFlit 4 2 = t.masterId) := by
  have hfirst : fU t.presenceFlit 0 1 = 10 := by
    rw [presenceFlit_eq, fU_ofNat (by decide), uAt_eq_div, fieldValue_eq, fieldValue_eq, fieldValue_eq]
    omega
  refine ⟨by rw [fClass, hfirst]; rfl, by rw [fType, hfirst]; rfl, fun h => ?_⟩
  rw [presenceFlit_eq, fU_ofNat (by decide), uAt_eq_div, fieldValue_of_lt (k := 4) (n := 2) h, fieldValue_eq, fieldValue_eq]
  omega

theorem exec_presenceTimer_of_inWall {s : State} (hg : s.Good) (hin : s.spire.inWall = true) (hm : s.spire.master = false) :
    exec .presenceTimer s = .next (s.sendRouted s.spire.masterId s.spire.presenceFlit) := by
  have hsettled := sendRouted_settled s s.spire.masterId s.spire.presenceFlit
  simp only [State.settled, Prod.mk.injEq] at hsettled
  obtain ⟨hstores, himg, hpending⟩ := hsettled
  have hout : s.presenceOut = s.sendRouted s.spire.masterId s.spire.presenceFlit := by
    rw [State.presenceOut, if_neg (by simp [hin, hm]), Spire.presenceFlit]
  exact plain hg hout (sendRouted_core ..) hstores himg hpending

theorem exec_presenceTimer_idle {s : State} (hg : s.Good) (h : s.spire.inWall = false ∨ s.spire.master = true) : exec .presenceTimer s = .next s := by
  have hidle : s.presenceOut = s := by
    rw [State.presenceOut, if_pos]
    rcases h with h | h <;> simp [h]
  exact plain hg hidle rfl rfl rfl rfl

theorem presenceLost_of_master {s : State} {i : Image} {id : Nat} (hi : s.spire.image = some i) (hm : s.spire.master = true)
    (hdev : (i.devices.any fun d => d.1 == id) = true) (hother : id ≠ i.myId) (habsent : s.spire.absent.contains id = false)
    (harrived : s.arrived.contains (.presence id) = false) :
    s.presenceLost id = { s with spire := { s.spire with
      absent := s.spire.absent ++ [id], present := s.spire.present.filter (· != id) } } := by
  simp only [State.presenceLost, hi, hm, hdev, habsent, harrived, Bool.not_true, Bool.false_or, Bool.or_false, beq_iff_eq, hother, if_false]

theorem presenceLost_idle {s : State} {id : Nat} (h : s.spire.master = false ∨ s.arrived.contains (.presence id) = true) : s.presenceLost id = s := by
  unfold State.presenceLost
  split
  · rfl
  · rw [if_pos]
    rcases h with h | h <;> simp only [h, Bool.not_false, Bool.true_or, Bool.or_true]

/-! ### Where a routed flit goes (R314) -/

theorem routeFlit_no_hops {s : State} {f : BitVec 256} (body : List (BitVec 256)) (g : State → State) (h : s.route (fU f 4 2) < 12) (hh : fU f 6 2 ≤ 1) :
    s.routeFlit f body g = { s with spire := { s.spire with hopDrop := satInc s.spire.hopDrop } } := by
  simp only [State.routeFlit, if_neg (Nat.ne_of_lt h), if_pos h, if_pos hh]

theorem routeFlit_unreachable {s : State} {f : BitVec 256} (body : List (BitVec 256)) (g : State → State) (h : 12 < s.route (fU f 4 2)) :
    s.routeFlit f body g = { s with spire := { s.spire with unreach := satInc s.spire.unreach } } := by
  simp only [State.routeFlit, if_neg (Nat.ne_of_gt h), if_neg (Nat.lt_asymm h)]

theorem routeFlit_forwards {s : State} {f : BitVec 256} (g : State → State) (h : s.route (fU f 4 2) < 12) (hh : 1 < fU f 6 2) :
    s.routeFlit f [] g = s.sendSeq (f12 (s.route (fU f 4 2))) (withHops f (fU f 6 2 - 1)) := by
  simp only [State.routeFlit, if_neg (Nat.ne_of_lt h), if_pos h, if_neg (Nat.not_le.2 hh), List.foldl_nil]

theorem route_of_no_image {s : State} (h : s.spire.image = none) (d : Nat) : s.route d = 15 := by
  simp only [State.route, h]

/-- Settles O49: a PRESENCE is a routed flit, which what its receipt lets follow doesn't change (`State.Next.routed_received`); the rest are
the branches of the timers and of `State.routeFlit`. -/
theorem presenceAndRouting : Obligations.PresenceAndRouting := by
  unfold Obligations.PresenceAndRouting
  refine ⟨fun s hg => ⟨fun l f hup hnak hseq hroute => ⟨?_, ?_⟩, fun hin hm => ?_, exec_presenceTimer_idle hg, ?_, fun id h => ?_⟩, fun s f body g => ⟨?_, ?_, ?_, ?_, ?_⟩⟩
  · exact exec_presence_of_master ⟨hup, hnak, hseq⟩ hg hroute
  · exact exec_presence_of_not_master ⟨hup, hnak, hseq⟩ hg hroute
  · obtain ⟨hclass, htype, hdest⟩ := presenceFlit_fields s.spire
    exact ⟨_, hclass, htype, hdest, exec_presenceTimer_of_inWall hg hin hm⟩
  · intro id i hi hm hdev hother habsent harrived
    exact plain hg (presenceLost_of_master hi hm hdev hother habsent harrived) rfl rfl rfl rfl
  · exact plain hg (presenceLost_idle h) rfl rfl rfl rfl
  · exact routeFlit_here body g
  · exact routeFlit_no_hops body g
  · exact routeFlit_unreachable body g
  · intro hroute hhops
    have hlt : fU f 6 2 - 1 < 2 ^ 16 := Nat.lt_of_le_of_lt (Nat.sub_le _ _) (uAt_lt ..)
    exact ⟨_, fU_withHops_hops f hlt, fun k n hk hn => fU_withHops f hlt hk hn, routeFlit_forwards g hroute hhops⟩
  · exact fun h => route_of_no_image h _

end Sys2Proof.Machine
end

section
/-!
SUPPORT. The import streams that a flit belongs to (R338 to R342), each changed in turn, and the flits that do no more than that.
-/
namespace Sys2Proof.Machine
open Sys2Proof

/-! ### Every import of a flit -/

/-- Whether an import stream is that of a flit's (SRC, EXPORT_ID). -/
def Import.takes (i : Import) (f : BitVec 256) : Bool := i.srcId == fU f 8 2 && i.expId == fU f 10 2

/-- The imports with that of one attachment replaced. -/
def putIn (xs : List Import) (i : Import) : List Import := xs.map fun x => if x.attId = i.attId then i else x

@[simp] theorem putImport_imports (s : State) (i : Import) : (s.putImport i).spire.imports = putIn s.spire.imports i := rfl

theorem import_of_attId {xs : List Import} (hn : (xs.map Import.attId).Nodup) {i j : Import} (hi : i ∈ xs) (hj : j ∈ xs) (h : i.attId = j.attId) :
    i = j :=
  List.inj_on_of_nodup_map hn hi hj h

section
variable {h : Import → Import} (hid : ∀ i, (h i).attId = i.attId)
include hid

theorem foldl_putIn {l : List Import} (hn : (l.map Import.attId).Nodup) (xs : List Import) :
    l.foldl (fun xs i => putIn xs (h i)) xs = xs.map fun x => ((l.find? fun i => i.attId == x.attId).map h).getD x := by
  induction l generalizing xs with
  | nil => simp
  | cons i l ih =>
    rw [List.map_cons, List.nodup_cons] at hn
    rw [List.foldl_cons, ih hn.2, putIn, List.map_map]
    refine List.map_congr_left fun x _ => ?_
    by_cases hx : x.attId = i.attId
    · have hnone : (l.find? fun j => j.attId == i.attId) = none :=
        List.find?_eq_none.2 fun j hj hji => hn.1 (List.mem_map.2 ⟨j, hj, by simpa using hji⟩)
      simp [hx, hid, hnone]
    · simp [hid, hx, Ne.symm hx]

/-- Where attachments differ, the imports that a predicate picks are replaced and the others stay. -/
theorem foldl_putIn_filter {xs : List Import} (hn : (xs.map Import.attId).Nodup) (p : Import → Bool) :
    (xs.filter p).foldl (fun xs i => putIn xs (h i)) xs = xs.map fun i => if p i then h i else i := by
  rw [foldl_putIn hid (hn.sublist (List.filter_sublist.map _))]
  refine List.map_congr_left fun x hx => ?_
  cases hp : p x with
  | true =>
    have hfind : ((xs.filter p).find? fun i => i.attId == x.attId) = some x := by
      obtain ⟨y, hy⟩ := Option.isSome_iff_exists.1 
        ((List.find?_isSome (p := fun i : Import => i.attId == x.attId)).2 ⟨x, List.mem_filter.2 ⟨hx, hp⟩, beq_self_eq_true _⟩)
      have hmem := (List.mem_filter.1 (List.mem_of_find?_eq_some hy)).1
      rw [hy, import_of_attId hn hmem hx (by simpa using List.find?_some hy)]
    simp [hfind]
  | false =>
    have hfind : ((xs.filter p).find? fun i => i.attId == x.attId) = none := by
      refine List.find?_eq_none.2 fun y hy hyx => ?_
      obtain ⟨hmem, hpy⟩ := List.mem_filter.1 hy
      rw [import_of_attId hn hmem hx (by simpa using hyx), hp] at hpy
      exact Bool.false_ne_true hpy
    simp [hfind]

/-- The imports after every one of a flit has been changed: each by `h` of what it is once heard, where what `h` goes by stays as it is. -/
theorem eachImport_imports {β : Type} (φ : State → β) (hnow : ∀ t u : State, φ t = φ u → t.now = u.now) (harrive : ∀ t a, φ (t.arrive a) = φ t)
    {s : State} {f : BitVec 256} {g : State → Import → State} (hn : (s.spire.imports.map Import.attId).Nodup)
    (hg : ∀ t i, φ t = φ s → φ (g t i) = φ s ∧ (g t i).spire.imports = putIn t.spire.imports (h i)) :
    (s.eachImport f g).spire.imports = s.spire.imports.map fun i => if i.takes f then h { i with last := s.now.toNat } else i := by
  have hfold (l : List Import) (t : State) (ht : φ t = φ s) :
      (l.foldl (fun t i => g (t.arrive (.stream i.attId)) { i with last := t.now.toNat }) t).spire.imports
        = l.foldl (fun xs i => putIn xs (h { i with last := s.now.toNat })) t.spire.imports := by
    induction l generalizing t with
    | nil => rfl
    | cons i l ih =>
      obtain ⟨hkept, himports⟩ := hg (t.arrive (.stream i.attId)) { i with last := t.now.toNat } ((harrive ..).trans ht)
      rw [List.foldl_cons, List.foldl_cons, ih _ hkept, himports, arrive_spire, hnow t s ht]
  exact (hfold _ s rfl).trans (foldl_putIn_filter (h := fun i => h { i with last := s.now.toNat }) (fun i => hid _) hn fun i => i.takes f)

end

/-- A flit whose import stream is one alone is its only. -/
theorem eachImport_of_unique {s : State} {f : BitVec 256} (g : State → Import → State) (hn : (s.spire.imports.map Import.attId).Nodup)
    {i : Import} (hi : i ∈ s.spire.imports) (htakes : i.takes f = true) (honly : ∀ j ∈ s.spire.imports, j.takes f = true → j = i) :
    s.eachImport f g = g (s.arrive (.stream i.attId)) { i with last := s.now.toNat } := by
  have hmine : s.spire.imports.filter (fun j => j.takes f) = [i] := by
    refine List.perm_singleton.1 ((List.perm_ext_iff_of_nodup (hn.of_map.filter _) (List.nodup_singleton i)).2 fun j => ?_)
    rw [List.mem_filter, List.mem_singleton]
    exact ⟨fun ⟨hj, htj⟩ => honly j hj htj, fun e => e ▸ ⟨hi, htakes⟩⟩
  exact congrArg (List.foldl _ s) hmine

@[simp] theorem arrive_now (s : State) (a : Awaited) : (s.arrive a).now = s.now := congrArg Spire.now (arrive_spire s a)

/-! ### STREAM ALIVE, XFER_BEGIN, XFER_END and STREAM TS_UPDATE (R338 to R341) -/

theorem aliveIn_imports {s : State} (hn : (s.spire.imports.map Import.attId).Nodup) (f : BitVec 256) :
    (s.aliveIn f).spire.imports = s.spire.imports.map fun i => if i.takes f then { i with last := s.now.toNat } else i :=
  eachImport_imports (h := id) (fun _ => rfl) State.now (fun _ _ => id) arrive_now hn fun _ _ ht => ⟨ht, rfl⟩

/-- An import stream whose transfer a flit opens (R339, R340). -/
def State.begun (s : State) (f : BitVec 256) (i : Import) : Import :=
  let bad := decide (fU f 16 2 ≠ i.width) || decide (fU f 18 2 ≠ i.height) || fU f 20 1 == 0 || fU f 20 1 != s.committedBpp i
  { i with
    lost := false, curSeq := some (w32 (fU f 12 4)), curBad := bad, curBpp := fU f 20 1, curTime := w64 (fU f 21 8), got := 0, crc := crcStart {}
    ready := if i.live.isSome && !bad then none else i.ready }

/-- What the committed format of an import's handle is read from, with the time. -/
def State.formats (s : State) : DWord × Vector Slot 256 × List Group := (s.now, s.slots, s.groups)

theorem formats_of_streams {s t : State} (h : t.streams = s.streams) : t.formats = s.formats := congrArg (fun v => (v.1.now, v.2.2)) h

theorem committedBpp_of_formats {s t : State} (h : t.formats = s.formats) (i : Import) : t.committedBpp i = s.committedBpp i := by
  have hslots : t.slots = s.slots := congrArg (fun v => v.2.1) h
  have hgroups : t.groups = s.groups := congrArg (fun v => v.2.2) h
  simp only [State.committedBpp, State.importSlot, State.slotOf, hslots, hgroups]

theorem begun_of_formats {s t : State} (h : t.formats = s.formats) (f : BitVec 256) (i : Import) : t.begun f i = s.begun f i := by
  simp only [State.begun, committedBpp_of_formats h]

theorem xferBeginIn_imports {s : State} (hn : (s.spire.imports.map Import.attId).Nodup) (f : BitVec 256) :
    (s.xferBeginIn f).spire.imports = s.spire.imports.map fun i => if i.takes f then s.begun f { i with last := s.now.toNat } else i := by
  refine eachImport_imports (h := s.begun f) (fun _ => rfl) State.formats (fun _ _ => congrArg Prod.fst)
    (fun t a => formats_of_streams (arrive_streams t a)) hn fun t i ht => ⟨ht, ?_⟩
  rw [← begun_of_formats ht]
  rfl

/-- Whether a flit completes the transfer of an import stream (R339, R341). -/
def Import.completes (i : Import) (f : BitVec 256) : Bool :=
  i.curSeq == some (w32 (fU f 12 4)) && !i.curBad && i.got == i.width * i.curBpp * i.height && fU f 16 4 == crcFinish {} i.crc

theorem completes_iff (i : Import) (f : BitVec 256) : i.completes f = true
    ↔ i.curSeq = some (w32 (fU f 12 4)) ∧ i.curBad = false ∧ i.got = i.width * i.curBpp * i.height ∧ fU f 16 4 = crcFinish {} i.crc := by
  simp [Import.completes, and_assoc]

/-- An import stream whose transfer a flit ends. -/
def Import.ended (i : Import) (f : BitVec 256) : Import :=
  if i.completes f then { i with lost := false, curSeq := none, ready := some (i.half, i.curTime, w32 (fU f 12 4)) } else { i with curSeq := none }

theorem slots_of_received {s t : State} (h : t.received = s.received) : t.slots = s.slots := congrArg (fun v => v.2.2.1) h
theorem importRej_of_received {s t : State} (h : t.received = s.received) : t.spire.importRej = s.spire.importRej := congrArg (fun v => v.1.importRej) h
theorem imports_of_received {s t : State} (h : t.received = s.received) : t.spire.imports = s.spire.imports := congrArg (fun v => v.1.imports) h

@[simp] theorem sendRouted_now (s : State) (dest : Nat) (f : BitVec 256) : (s.sendRouted dest f).now = s.now := by
  unfold State.sendRouted
  dsimp only
  split
  · exact congrArg Prod.fst (formats_of_streams (sendSeq_streams ..))
  · rfl

@[simp] theorem sendRouted_imports (s : State) (dest : Nat) (f : BitVec 256) : (s.sendRouted dest f).spire.imports = s.spire.imports :=
  imports_of_received (sendRouted_received ..)

theorem xferEndIn_imports {s : State} (hn : (s.spire.imports.map Import.attId).Nodup) (f : BitVec 256) :
    (s.xferEndIn f).spire.imports = s.spire.imports.map fun i => if i.takes f then Import.ended { i with last := s.now.toNat } f else i := by
  refine eachImport_imports (h := fun i => i.ended f) (fun i => ?_) State.now (fun _ _ => id) arrive_now hn fun t i ht => ?_
  · unfold Import.ended
    split <;> rfl
  · rw [Import.ended, Import.completes]
    dsimp only
    split
    · exact ⟨ht, rfl⟩
    · exact ⟨(sendRouted_now ..).trans ht, sendRouted_imports ..⟩

theorem xferEndIn_rejects {s : State} (hn : (s.spire.imports.map Import.attId).Nodup) {f : BitVec 256} {i : Import} (hi : i ∈ s.spire.imports)
    (htakes : i.takes f = true) (honly : ∀ j ∈ s.spire.imports, j.takes f = true → j = i) (hbad : i.completes f = false) :
    (s.xferEndIn f).spire.importRej = satInc s.spire.importRej := by
  rw [State.xferEndIn, eachImport_of_unique _ hn hi htakes honly]
  rw [Import.completes] at hbad
  have hrej : (s.arrive (.stream i.attId)).spire.importRej = s.spire.importRej := congrArg Spire.importRej (arrive_spire ..)
  dsimp only
  rw [if_neg (by rw [hbad]; exact Bool.false_ne_true), importRej_of_received (sendRouted_received ..)]
  exact congrArg satInc hrej

/-! ### Timestamps (R341) -/

theorem retime_time (a : Attach) (now : Nat) (t : DWord) : (a.retime now t).time = t := by
  unfold Attach.retime
  split
  · assumption
  · rfl

/-- STREAM TS_UPDATE only sends. -/
@[simp] theorem exportTsUpdate_received (s : State) (p : Fin 64) (h : Nat) (t : DWord) : (s.exportTsUpdate p h t).received = s.received := by
  refine foldl_keeps State.received (fun u e => ?_) _ s
  split
  · exact sendRouted_received ..
  · rfl

@[simp] theorem exportTsUpdate_now (s : State) (p : Fin 64) (h : Nat) (t : DWord) : (s.exportTsUpdate p h t).now = s.now := by
  refine foldl_keeps State.now (fun u e => ?_) _ s
  split
  · exact sendRouted_now ..
  · rfl

/-- What an export's TS_UPDATE keeps, a raised timestamp keeps beside where the attachment stands. -/
theorem raiseTime_keeps {β : Type} (φ : State → β) (h : ∀ s p h t, φ (State.exportTsUpdate s p h t) = φ s) (s : State) (id : Nat) (t : DWord) :
    φ (s.raiseTime id t) = φ (s.setTime id t) := by
  refine foldl_keeps φ (fun u i => ?_) _ _
  split
  · split
    · exact h ..
    · rfl
  · rfl

theorem raiseTime_slots (s : State) (id : Nat) (t : DWord) : (s.raiseTime id t).slots = (s.setTime id t).slots :=
  raiseTime_keeps State.slots (fun s p h t => slots_of_received (exportTsUpdate_received s p h t)) s id t

theorem raiseTime_imports (s : State) (id : Nat) (t : DWord) : (s.raiseTime id t).spire.imports = s.spire.imports :=
  raiseTime_keeps (fun s => s.spire.imports) (fun s p h t => imports_of_received (exportTsUpdate_received s p h t)) s id t

theorem raiseTime_now (s : State) (id : Nat) (t : DWord) : (s.raiseTime id t).now = s.now :=
  raiseTime_keeps State.now exportTsUpdate_now s id t

/-- The timestamp of the latched buffer of a slot that has an attachment, once set. -/
theorem setTime_latched {s : State} {k : Fin 256} {c : Latched} {a : Attach} (hcur : (s.slots[k.val]).cur = some c) (hbuf : c.buf = some a) (t : DWord) :
    (((s.setTime a.id t).slots[k.val]).cur.bind Latched.buf).map Attach.time = some t := by
  simp [State.setTime, hcur, hbuf, retime_time]

/-- The timestamp of an attachment as the first slot that has it latched gives it. -/
def State.latchedTime (s : State) (id : Nat) : Option DWord :=
  s.slots.toList.findSome? fun t => match t.cur with
    | some c => (match c.buf with | some a => if a.id = id then some a.time else none | none => none)
    | none => none

/-- What STREAM TS_UPDATE does for one of its import streams. -/
def State.tsFor (s : State) (f : BitVec 256) (i : Import) : State :=
  match i.live with
  | some (_, q) =>
    if q = w32 (fU f 13 4) ∧ (((s.putImport i).latchedTime i.attId).getD 0).toNat < fU f 17 8 then
      (s.putImport i).raiseTime i.attId (w64 (fU f 17 8))
    else s.putImport i
  | none => s.putImport i

theorem tsUpdateIn_eq (s : State) (f : BitVec 256) : s.tsUpdateIn f = s.eachImport f fun t i => t.tsFor f i := by
  refine congrArg (State.eachImport s f) (funext fun t => funext fun i => ?_)
  unfold State.tsFor
  dsimp only
  rcases i.live with _ | ⟨half, q⟩
  · rfl
  · dsimp only
    unfold State.latchedTime
    cases List.findSome? _ _ <;> rfl

theorem tsUpdateIn_imports {s : State} (hn : (s.spire.imports.map Import.attId).Nodup) (f : BitVec 256) :
    (s.tsUpdateIn f).spire.imports = s.spire.imports.map fun i => if i.takes f then { i with last := s.now.toNat } else i := by
  rw [tsUpdateIn_eq]
  refine eachImport_imports (h := id) (fun _ => rfl) State.now (fun _ _ => id) arrive_now hn fun t i ht => ?_
  unfold State.tsFor
  split
  · split
    · exact ⟨(raiseTime_now ..).trans ht, raiseTime_imports ..⟩
    · exact ⟨ht, rfl⟩
  · exact ⟨ht, rfl⟩

theorem latchedTime_eq {s : State} {k : Fin 256} {c : Latched} {a : Attach} (hcur : (s.slots[k.val]).cur = some c) (hbuf : c.buf = some a)
    (hsame : ∀ (j : Fin 256) (d : Latched) (b : Attach), (s.slots[j.val]).cur = some d → d.buf = some b → b.id = a.id → b.time = a.time) :
    s.latchedTime a.id = some a.time := by
  have hsome : (s.latchedTime a.id).isSome = true := by
    refine List.findSome?_isSome_iff.2 ⟨s.slots[k.val], Vector.mem_toList_iff.2 (Vector.getElem_mem k.isLt), ?_⟩
    simp [hcur, hbuf]
  obtain ⟨x, hx⟩ := Option.isSome_iff_exists.1 hsome
  obtain ⟨t, ht, htime⟩ := List.exists_of_findSome?_eq_some hx
  obtain ⟨j, hj, rfl⟩ := Vector.mem_iff_getElem.1 (Vector.mem_toList_iff.1 ht)
  rw [hx]
  split at htime
  · next d hd =>
    split at htime
    · next b hb =>
      split at htime
      · next hid => rw [← hsame ⟨j, hj⟩ d b hd hb hid, Option.some.inj htime]
      · cases htime
    · cases htime
  · cases htime

theorem tsUpdateIn_latched {s : State} (hn : (s.spire.imports.map Import.attId).Nodup) {f : BitVec 256} {i : Import} (hi : i ∈ s.spire.imports)
    (htakes : i.takes f = true) (honly : ∀ j ∈ s.spire.imports, j.takes f = true → j = i) {h : Nat} {k : Fin 256} {c : Latched} {a : Attach}
    (hlive : i.live = some (h, w32 (fU f 13 4))) (hcur : (s.slots[k.val]).cur = some c) (hbuf : c.buf = some a) (hid : a.id = i.attId)
    (hsame : ∀ (j : Fin 256) (d : Latched) (b : Attach), (s.slots[j.val]).cur = some d → d.buf = some b → b.id = i.attId → b.time = a.time) :
    (((s.tsUpdateIn f).slots[k.val]).cur.bind Latched.buf).map Attach.time
      = some (if a.time.toNat < fU f 17 8 then w64 (fU f 17 8) else a.time) := by
  have hslots (x : Awaited) (j : Import) : ((s.arrive x).putImport j).slots = s.slots := congrArg (fun v => v.2.2.1) (arrive_streams s x)
  have hnow (x : Awaited) (j : Import) : (((s.arrive x).putImport j).slots[k.val]).cur = some c := by rw [hslots, hcur]
  have htime (x : Awaited) (j : Import) : ((s.arrive x).putImport j).latchedTime i.attId = some a.time := by
    rw [← hid]
    refine latchedTime_eq (hnow x j) hbuf ?_
    rwa [hslots, hid]
  rw [tsUpdateIn_eq, eachImport_of_unique _ hn hi htakes honly, State.tsFor]
  dsimp only
  rw [hlive]
  dsimp only
  rw [htime]
  by_cases hlate : a.time.toNat < fU f 17 8
  · rw [if_pos ⟨rfl, hlate⟩, if_pos hlate, raiseTime_slots, ← hid]
    exact setTime_latched (hnow ..) hbuf _
  · rw [if_neg fun hboth => hlate hboth.2, if_neg hlate, hnow, Option.bind_some, hbuf, Option.map_some]

end Sys2Proof.Machine
end

section
/-!
SUPPORT. The packets of a transfer (R301, R339): what their flits leave on the link and in the import streams, and the bytes written for them.
-/
namespace Sys2Proof.Machine
open Sys2Proof

/-! ### Packets not yet whole -/

/-- A route rests on the image and on which links are UP. -/
theorem route_of_links {s t : State} (himage : t.spire.image = s.spire.image)
    (hst : ∀ l : Fin 12, (t.spire.links[l.val]).st = (s.spire.links[l.val]).st) (d : Nat) : t.route d = s.route d := by
  have hup (l : Fin 12) : t.linkUp l = s.linkUp l := congrArg (· == LinkSt.up) (hst l)
  simp only [State.route, himage, hup]

/-- A link's packet replaced. -/
def State.withHead (s : State) (l : Fin 12) (x : Option (BitVec 256 × List (BitVec 256))) : State := s.modLink l fun k => { k with head := x }

theorem withHead_route (s : State) (l : Fin 12) (x : Option (BitVec 256 × List (BitVec 256))) (d : Nat) : (s.withHead l x).route d = s.route d := by
  refine route_of_links (s := s) (t := s.withHead l x) rfl (fun j => ?_) d
  by_cases h : j = l
  · subst h
    rw [State.withHead, modLink_spire]
    dsimp only
    rw [upd_same]
  · exact congrArg Link.st (upd_other _ _ _ _ h)

theorem withHead_head (s : State) (l : Fin 12) (x : Option (BitVec 256 × List (BitVec 256))) : ((s.withHead l x).spire.links[l.val]).head = x :=
  congrArg Link.head (upd_same ..)

theorem noteStream_eq (s : State) (h : BitVec 256) : s.noteStream h = if s.route (fU h 4 2) = 12 then s.eachImport h State.putImport else s := rfl

theorem noteStream_imports {s : State} (hn : (s.spire.imports.map Import.attId).Nodup) (h : BitVec 256) :
    (s.noteStream h).spire.imports = s.spire.imports.map fun i =>
      if s.route (fU h 4 2) = 12 ∧ i.srcId = fU h 8 2 ∧ i.expId = fU h 10 2 then { i with last := s.now.toNat } else i := by
  rw [noteStream_eq]
  split
  · next hroute =>
    refine (eachImport_imports (g := State.putImport) (h := id) (fun _ => rfl) State.now (fun _ _ => id) arrive_now hn fun _ _ ht => ⟨ht, rfl⟩).trans ?_
    refine List.map_congr_left fun i _ => ?_
    simp [Import.takes, hroute]
  · next hroute => simp [hroute]

theorem putImport_links (s : State) (i : Import) : (s.putImport i).spire.links = s.spire.links := rfl

theorem arrive_links (s : State) (a : Awaited) : (s.arrive a).spire.links = s.spire.links := congrArg Spire.links (arrive_spire s a)

theorem noteStream_links (s : State) (h : BitVec 256) : (s.noteStream h).spire.links = s.spire.links := by
  rw [noteStream_eq]
  split
  · exact foldl_keeps (fun t : State => t.spire.links) (f := fun t (i : Import) => (t.arrive (.stream i.attId)).putImport { i with last := t.now.toNat })
      (fun t i => (putImport_links ..).trans (arrive_links ..)) _ s
  · rfl

theorem dataHeadIn_head (s : State) (l : Fin 12) (f : BitVec 256) : ((s.dataHeadIn l f).spire.links[l.val]).head = some (f, []) := by
  have hlinks : (s.dataHeadIn l f).spire.links = (s.withHead l (some (f, []))).spire.links := noteStream_links ..
  rw [hlinks, withHead_head]

/-- A DATA flit that leaves its packet incomplete. -/
theorem dataIn_incomplete {s : State} {l : Fin 12} {h : BitVec 256} {body : List (BitVec 256)} (hhead : (s.spire.links[l.val]).head = some (h, body))
    (hlen : body.length + 1 < fU h 20 2) (f : BitVec 256) : s.dataIn l f = (s.withHead l (some (h, f :: body))).noteStream h := by
  rw [State.dataIn, hhead]
  exact if_pos hlen

/-- The DATA flit that completes a packet for this device. -/
theorem dataIn_complete {s : State} {l : Fin 12} {h : BitVec 256} {body : List (BitVec 256)} (hhead : (s.spire.links[l.val]).head = some (h, body))
    (hlen : fU h 20 2 ≤ body.length + 1) (hroute : s.route (fU h 4 2) = 12) (f : BitVec 256) :
    s.dataIn l f = (s.withHead l none).packetIn h (f :: body).reverse := by
  rw [State.dataIn, hhead]
  refine (if_neg (Nat.not_lt.2 hlen)).trans ?_
  exact routeFlit_here _ _ ((withHead_route s l none _).trans hroute)

/-! ### Whole packets -/

theorem entry_unentered (s : State) (l : List EntryReq) : ({ s with entry := l } : State).unentered = s.unentered := rfl

@[simp] theorem portWaits_unentered (s : State) (q : Fin 83) : (s.portWaits q).unentered = s.unentered :=
  unentered_of_windows (congrArg Prod.fst (portWaits_windows s q))

@[simp] theorem dramReq_unentered (s : State) (r : MemReq) (data : Option (List Byte)) (ecc : Ecc) : (s.dramReq r data ecc).unentered = s.unentered := by
  unfold State.dramReq
  extract_lets q m n x t
  have ht : t.unentered = s.unentered := by
    unfold t
    split
    · rfl
    · exact unentered_of_windows (congrArg Prod.fst (wakeMem_windows ..))
  split
  · rw [dramDo_unentered, ht]
  · rw [entry_unentered, portWaits_unentered, ht]

/-- What a request of DRAM keeps, the bytes of a packet keep. -/
theorem xferStore_keeps {β : Type} (φ : State → β) (h : ∀ s r data ecc, φ (State.dramReq s r data ecc) = φ s) (n : Nat) (s : State)
    (base pitch w k : Nat) (l : List Byte) : φ (State.xferStore n s base pitch w k l) = φ s := by
  induction n generalizing s k l with
  | zero => rfl
  | succ n ih =>
    unfold State.xferStore
    split
    · rfl
    · exact (ih ..).trans (h ..)

/-- The bytes of a packet that a transfer still lacks. -/
def Import.packetData (i : Import) (body : List (BitVec 256)) : List Byte :=
  (body.flatMap fun d => leBytes 26 (fU d 4 26)).take (i.width * i.curBpp * i.height - i.got)

theorem length_packetData (i : Import) (body : List (BitVec 256)) :
    (i.packetData body).length = min (i.width * i.curBpp * i.height - i.got) (26 * body.length) := by
  simp [Import.packetData, List.length_flatMap, Nat.mul_comm]

/-- An import stream that a packet has continued, or spoiled. -/
def Import.packed (i : Import) (f : BitVec 256) (body : List (BitVec 256)) : Import :=
  if i.curSeq ≠ some (w32 (fU f 12 4)) then i
  else if i.curBad ∨ fU f 16 4 ≠ i.got ∨ i.width * i.curBpp * i.height ≤ i.got then { i with curBad := true }
  else { i with got := i.got + (i.packetData body).length, crc := (i.packetData body).foldl (crcByte {}) i.crc }

/-- What a packet does for one of its import streams. -/
def State.packetFor (s : State) (f : BitVec 256) (body : List (BitVec 256)) (i : Import) : State :=
  if i.curSeq ≠ some (w32 (fU f 12 4)) then s.putImport i
  else if i.curBad ∨ fU f 16 4 ≠ i.got ∨ i.width * i.curBpp * i.height ≤ i.got then s.putImport { i with curBad := true }
  else (State.xferStore (i.packetData body).length s (i.addr + i.half * (i.pitch * i.height)) i.pitch (i.width * i.curBpp) i.got
    (i.packetData body)).putImport { i with got := i.got + (i.packetData body).length, crc := (i.packetData body).foldl (crcByte {}) i.crc }

theorem packetIn_eq (s : State) (f : BitVec 256) (body : List (BitVec 256)) : s.packetIn f body = s.eachImport f fun t i => t.packetFor f body i := rfl

theorem packetFor_eq (s : State) (f : BitVec 256) (body : List (BitVec 256)) (i : Import) :
    ∃ t : State, s.packetFor f body i = t.putImport (i.packed f body) ∧ t.streams = s.streams ∧ t.unentered = s.unentered := by
  unfold State.packetFor Import.packed
  split
  · exact ⟨s, rfl, rfl, rfl⟩
  · split
    · exact ⟨s, rfl, rfl, rfl⟩
    · exact ⟨_, rfl, xferStore_keeps State.streams dramReq_streams .., xferStore_keeps State.unentered dramReq_unentered ..⟩

theorem packed_attId (i : Import) (f : BitVec 256) (body : List (BitVec 256)) : (i.packed f body).attId = i.attId := by
  unfold Import.packed
  split
  · rfl
  · split <;> rfl

theorem packetIn_imports {s : State} (hn : (s.spire.imports.map Import.attId).Nodup) (f : BitVec 256) (body : List (BitVec 256)) :
    (s.packetIn f body).spire.imports = s.spire.imports.map fun i => if i.takes f then Import.packed { i with last := s.now.toNat } f body else i := by
  rw [packetIn_eq]
  refine eachImport_imports (h := fun i => i.packed f body) (fun i => packed_attId i f body) State.now (fun _ _ => id) arrive_now hn fun t i ht => ?_
  obtain ⟨u, hu, hstreams, -⟩ := packetFor_eq t f body i
  have himports : u.spire.imports = t.spire.imports := congrArg (fun v => v.1.imports) hstreams
  rw [hu, putImport_imports, himports]
  exact ⟨(congrArg (fun v => v.1.now) hstreams).trans ht, rfl⟩

theorem packetIn_head (s : State) (f : BitVec 256) (body : List (BitVec 256)) (l : Fin 12) :
    ((s.packetIn f body).spire.links[l.val]).head = (s.spire.links[l.val]).head := by
  have hlinks : (s.packetIn f body).streams.2.1 = s.streams.2.1 := by
    rw [packetIn_eq]
    refine foldl_keeps (fun t : State => t.streams.2.1) (fun t i => ?_) _ s
    obtain ⟨u, hu, hstreams, -⟩ := packetFor_eq (t.arrive (.stream i.attId)) f body { i with last := t.now.toNat }
    dsimp only
    rw [hu]
    exact congrArg (fun v => v.2.1) (hstreams.trans (arrive_streams ..))
  have hmap : (s.packetIn f body).spire.links.map Link.receiving = s.spire.links.map Link.receiving := hlinks
  have hlink : ((s.packetIn f body).spire.links[l.val]).receiving = (s.spire.links[l.val]).receiving := by
    simpa using congrArg (fun v => v[l.val]) hmap
  exact congrArg Prod.snd hlink

@[simp] theorem packetIn_unentered (s : State) (f : BitVec 256) (body : List (BitVec 256)) : (s.packetIn f body).unentered = s.unentered := by
  rw [packetIn_eq]
  refine foldl_keeps State.unentered (fun t i => ?_) _ s
  obtain ⟨u, hu, -, hkept⟩ := packetFor_eq (t.arrive (.stream i.attId)) f body { i with last := t.now.toNat }
  dsimp only
  rw [hu]
  exact (unentered_of_core (putImport_core ..)).trans (hkept.trans (unentered_of_windows (congrArg Prod.fst (arrive_windows ..))))

/-- A packet that is the next of a transfer adds its bytes to it, as far as they are lacking. -/
theorem packed_inPlace {i : Import} {f : BitVec 256} (body : List (BitVec 256)) (hseq : i.curSeq = some (w32 (fU f 12 4))) (hgood : i.curBad = false)
    (hpos : fU f 16 4 = i.got) (hmore : i.got < i.width * i.curBpp * i.height) :
    (i.packed f body).curBad = false ∧ (i.packed f body).got = min (i.got + 26 * body.length) (i.width * i.curBpp * i.height) := by
  rw [Import.packed, if_neg (by simp [hseq]), if_neg (by simp [hgood, hpos, hmore])]
  refine ⟨hgood, ?_⟩
  dsimp only
  rw [length_packetData]
  omega

end Sys2Proof.Machine
end

section
/-!
SUPPORT. The transfers of an export stream (R338, R343): one that has been started goes on, and none is started after it, while the other exports move.
-/
namespace Sys2Proof.Machine
open Sys2Proof

/-! ### One export among the others -/

/-- An export without the part of its transfer that is on its way. -/
def Export.settled (e : Export) : Export := { e with cur := none, bad := false }

/-- What the streams rest on but for the count of what could not be sent and the time. -/
def State.sending (s : State) : Spire × Vector (LinkSt × Option (BitVec 256 × List (BitVec 256))) 12 × Vector Slot 256 × List Group :=
  ({ s.timeless.1 with unreach := 0 }, s.timeless.2)

theorem sending_of_streams {s t : State} (h : t.streams = s.streams) : t.sending = s.sending := by
  rw [State.sending, State.sending, timeless_of_streams h]

theorem exports_of_sending {s t : State} (h : t.sending = s.sending) : t.spire.exports = s.spire.exports := congrArg (fun v => v.1.exports) h

theorem received_of_sending {s t : State} (h : t.sending = s.sending) : t.received = s.received :=
  congrArg (fun v : Spire × Vector (LinkSt × Option (BitVec 256 × List (BitVec 256))) 12 × Vector Slot 256 × List Group => ({ v.1 with exports := [] }, v.2)) h

@[simp] theorem sendRouted_sending (s : State) (dest : Nat) (f : BitVec 256) : (s.sendRouted dest f).sending = s.sending := by
  unfold State.sendRouted
  dsimp only
  split
  · exact sending_of_streams (sendSeq_streams ..)
  · rfl

/-- Export `k` is `e` but for the part of its transfer that is on its way, and its destination can be reached. -/
abbrev State.Reaches (s : State) (k : Nat) (e : Export) : Prop := s.spire.exports[k]?.map Export.settled = some e ∧ s.route e.dest < 12

theorem State.Reaches.kept {s : State} {k : Nat} {e : Export} (h : s.Reaches k e) : s.spire.exports[k]?.map Export.settled = some e := h.1

theorem State.Reaches.route {s : State} {k : Nat} {e : Export} (h : s.Reaches k e) : s.route e.dest < 12 := h.2

section
variable {s t : State} {k j : Nat} {e x y : Export}

theorem State.Reaches.of_sending (h : s.Reaches k e) (hsame : t.sending = s.sending) : t.Reaches k e :=
  ⟨by rw [exports_of_sending hsame, h.kept], by rw [route_of_received (received_of_sending hsame)]; exact h.route⟩

/-- An export put in the place of one. -/
def State.putExport (s : State) (j : Nat) (x : Export) : State := { s with spire := { s.spire with exports := s.spire.exports.set j x } }

theorem State.Reaches.putExport (h : s.Reaches k e) (hy : s.spire.exports[j]? = some y) (hx : j = k → x.settled = y.settled) :
    (s.putExport j x).Reaches k e := by
  refine ⟨?_, h.route⟩
  rw [← h.kept, State.putExport]
  dsimp only
  by_cases hjk : j = k
  · subst hjk
    obtain ⟨hlt, -⟩ := List.getElem?_eq_some_iff.1 hy
    rw [List.getElem?_set_self hlt, hy, Option.map_some, Option.map_some, hx rfl]
  · rw [List.getElem?_set_ne hjk]

/-- The destination of the export that is kept. -/
theorem State.Reaches.route_lt (h : s.Reaches k e) (hy : s.spire.exports[k]? = some y) : s.route y.dest < 12 := by
  have hkept := h.kept
  rw [hy, Option.map_some, Option.some.injEq] at hkept
  have hroute := h.route
  rw [← hkept] at hroute
  exact hroute

/-- A transfer that goes on leaves every export but for what of its own transfer is on its way. -/
theorem State.Reaches.exportPump (n : Nat) (h : s.Reaches k e) : (State.exportPump n s j).Reaches k e := by
  induction n generalizing s with
  | zero => exact h
  | succ n ih =>
    unfold State.exportPump
    dsimp only
    split
    · exact h
    · next y hy =>
      split
      · exact h
      · split
        · next hroute => exact h.putExport hy fun hjk => absurd (h.route_lt (hjk ▸ hy)) (Nat.not_lt.2 hroute)
        · split
          · exact h
          · split
            · have hsame := sendRouted_sending s y.dest
              refine State.Reaches.putExport (h.of_sending (hsame _)) (y := y) ?_ fun _ => by rfl
              rw [exports_of_sending (hsame _), hy]
            · split
              · exact h.of_sending (sending_of_streams (portWaits_streams ..))
              · refine ih (State.Reaches.putExport (y := y) (h.of_sending ?hsame) ?_ fun _ => by rfl)
                case hsame =>
                  rw [foldl_keeps State.sending fun t i => sending_of_streams (sendSeq_streams t ..), sendRouted_sending,
                    sending_of_streams (xferRead_streams ..)]
                rw [exports_of_sending (s := s), hy]
                rw [foldl_keeps State.sending fun t i => sending_of_streams (sendSeq_streams t ..), sendRouted_sending,
                  sending_of_streams (xferRead_streams ..)]

/-- A transfer of one export leaves the others. -/
theorem State.Reaches.startXfer_other (h : s.Reaches k e) (hjk : j ≠ k) : (s.startXfer j).Reaches k e := by
  unfold State.startXfer
  split
  · exact h
  · next y hy =>
    dsimp only
    split
    · exact h.putExport hy fun e => absurd e hjk
    · split
      · exact h.putExport hy fun e => absurd e hjk
      · split
        · exact h.putExport hy fun e => absurd e hjk
        · refine State.Reaches.exportPump _ (State.Reaches.of_sending (State.Reaches.putExport h hy fun e => absurd e hjk) (sendRouted_sending ..))

/-- An export that has no transfer due, moved on among the others. -/
theorem State.Reaches.exportGo (h : s.Reaches k e) (hdue : e.due = false) : (s.exportGo j).Reaches k e := by
  have hmoved : (s.exportMoved j).Reaches k e := by
    unfold State.exportMoved
    split
    · exact h
    · exact h.exportPump _
  unfold State.exportGo
  split
  · next y hy =>
    split
    · next hstart =>
      refine hmoved.startXfer_other fun hjk => ?_
      have hkept := hmoved.kept
      rw [← hjk, hy, Option.map_some, Option.some.injEq] at hkept
      rw [← hkept] at hdue
      simp [show y.due = false from hdue] at hstart
    · exact hmoved
  · exact hmoved

theorem State.Reaches.exportsGo (h : s.Reaches k e) (hdue : e.due = false) : s.exportsGo.Reaches k e := by
  rw [exportsGo_eq]
  exact List.foldlRecOn (motive := fun t : State => t.Reaches k e) _ _ h fun t ht j _ => ht.exportGo hdue

/-- The transfer that is started. -/
theorem startXfer_reaches (he : s.spire.exports[k]? = some e) (hcur : e.cur = none) (hbuf : (s.latchedBuf e.pav e.handle).isSome = true)
    (hroute : s.route e.dest < 12) : ∃ x : Export, (s.startXfer k).Reaches k x ∧ x.due = false ∧ x.xferSeq = e.xferSeq + 1 := by
  obtain ⟨⟨a, fmt⟩, hlatched⟩ := Option.isSome_iff_exists.1 hbuf
  obtain ⟨hlt, -⟩ := List.getElem?_eq_some_iff.1 he
  have hnone : ¬ e.cur.isSome = true := by simp [hcur]
  rw [State.startXfer, he]
  dsimp only
  rw [hlatched]
  dsimp only
  rw [if_neg (Nat.not_le.2 hroute), if_neg hnone]
  refine ⟨Export.settled { e with xferSeq := e.xferSeq + 1, paused := false, due := false, sentId := some (s.bufKey a) },
    State.Reaches.exportPump _ (State.Reaches.of_sending ?_ (sendRouted_sending ..)), rfl, rfl⟩
  exact ⟨congrArg (Option.map Export.settled) (List.getElem?_set_self hlt), hroute⟩

/-! ### A NAK (R338) -/

/-- A NAK of one export alone has its next transfer started, and nothing then starts another. -/
theorem nakIn_reaches (f : BitVec 256) (he : s.spire.exports[k]? = some e) (hexp : e.expId = fU f 10 2) (hdest : e.dest = fU f 8 2) (hcur : e.cur = none)
    (hbuf : (s.latchedBuf e.pav e.handle).isSome = true) (hroute : s.route e.dest < 12)
    (honly : ∀ (j : Nat) (x : Export), j ≠ k → s.spire.exports[j]? = some x → ¬ (x.expId = fU f 10 2 ∧ x.dest = fU f 8 2)) :
    ∃ x : Export, (s.nakIn f).Reaches k x ∧ x.due = false ∧ x.xferSeq = e.xferSeq + 1 := by
  obtain ⟨hlt, -⟩ := List.getElem?_eq_some_iff.1 he
  obtain ⟨before, after, hrange⟩ := List.append_of_mem (List.mem_range.2 hlt)
  have hn := hrange ▸ List.nodup_range (n := s.spire.exports.length)
  rw [List.nodup_append] at hn
  obtain ⟨-, hafter, hbefore⟩ := hn
  obtain ⟨x, hx, hdue, hseq⟩ := startXfer_reaches he hcur hbuf hroute
  refine ⟨x, ?_, hdue, hseq⟩
  rw [State.nakIn, hrange, List.foldl_append, List.foldl_cons, List.foldlRecOn (motive := fun t : State => t = s) before _ rfl]
  · rw [he]
    dsimp only
    rw [if_pos ⟨hexp, hdest⟩]
    refine List.foldlRecOn (motive := fun t : State => t.Reaches k x) after _ hx fun t ht j hj => ?_
    have hjk : j ≠ k := fun h => (List.nodup_cons.1 hafter).1 (h ▸ hj)
    split
    · split
      · exact ht.startXfer_other hjk
      · exact ht
    · exact ht
  · rintro t rfl j hj
    have hjk : j ≠ k := hbefore j hj k (by simp)
    split
    · next y hy => exact if_neg (honly j y hjk hy)
    · rfl

end

theorem nakIn_windows (s : State) (f : BitVec 256) : (s.nakIn f).windows = s.windows := by
  refine foldl_keeps State.windows (fun t k => ?_) _ s
  split
  · split
    · exact startXfer_windows ..
    · rfl
  · rfl

theorem latchedBuf_of_streams {s t : State} (h : t.streams = s.streams) (p : Fin 64) (handle : Nat) : t.latchedBuf p handle = s.latchedBuf p handle := by
  have hslots : t.slots = s.slots := congrArg (fun v => v.2.2.1) h
  simp only [State.latchedBuf, State.slotOf, hslots]

end Sys2Proof.Machine
end

section
/-!
SUPPORT. What a link carries: a sequenced flit that is queued stays on it, waiting or unacknowledged, with its bytes 4 to 29 and its class and type (R299,
R302, R306). So the flits that announce an export alive (R338).
-/
namespace Sys2Proof.Machine
open Sys2Proof

/-! ### The bytes of a flit as it leaves (R299) -/

theorem fClass_eq (f : BitVec 256) : fClass f = fU f 0 1 % 4 := by rw [fClass, bits]; rfl

theorem fType_eq (f : BitVec 256) : fType f = fU f 0 1 / 4 % 16 := by rw [fType, bits, Nat.shiftRight_eq_div_pow]; rfl

theorem uAt_div (v j k n : Nat) : uAt (v / 2 ^ (8 * j)) k n = uAt v (j + k) n := by
  rw [uAt_eq_div, uAt_eq_div, Nat.div_div_eq_div_mul, ← Nat.pow_add, Nat.mul_add]

/-- The first 4 bytes of a flit as it leaves. -/
def sealHdr (k : Link) (seq : BitVec 12) (f : BitVec 256) : Nat :=
  fClass f + 4 * fType f + 64 * b2n k.nakSend + 128 * b2n k.rxAny + seq.toNat * 2 ^ 8 + (k.seqRx - 1).toNat * b2n k.rxAny * 2 ^ 20

theorem b2n_le (b : Bool) : b2n b ≤ 1 := by cases b <;> decide

theorem sealHdr_lt (k : Link) (seq : BitVec 12) (f : BitVec 256) : sealHdr k seq f < 2 ^ 32 := by
  have hack : (k.seqRx - 1).toNat * b2n k.rxAny ≤ 4095 :=
    (Nat.mul_le_mul (Nat.le_of_lt_succ (k.seqRx - 1).isLt) (b2n_le k.rxAny)).trans (by decide)
  have hseq := seq.isLt
  have hclass : fClass f < 4 := by rw [fClass_eq]; exact Nat.mod_lt _ (by decide)
  have htype : fType f < 16 := by rw [fType_eq]; exact Nat.mod_lt _ (by decide)
  have hnak := b2n_le k.nakSend
  have hany := b2n_le k.rxAny
  rw [sealHdr]
  omega

/-- A flit as it leaves, below its CRC. -/
theorem fU_sealFlit_below (k : Link) (seq : BitVec 12) (f : BitVec 256) {j n : Nat} (h : j + n ≤ 30) :
    fU (sealFlit k seq f) j n = uAt (sealHdr k seq f + (f.toNat >>> 32) % 2 ^ 208 * 2 ^ 32) j n := by
  refine uAt_of_mod_eq (l := 30) ?_ h
  rw [sealFlit]
  rw [BitVec.toNat_ofNat, Nat.mod_mod_of_dvd _ (Nat.pow_dvd_pow 2 (by decide)), Nat.add_mul_mod_self_right, BitVec.toNat_ofNat,
    Nat.mod_mod_of_dvd _ (Nat.pow_dvd_pow 2 (by decide)), sealHdr]

/-- Bytes 4 to 29 of a flit as it leaves are those it was made with. -/
theorem fU_sealFlit (k : Link) (seq : BitVec 12) (f : BitVec 256) {m n : Nat} (h : m + n ≤ 26) : fU (sealFlit k seq f) (4 + m) n = fU f (4 + m) n := by
  have hbody : (sealHdr k seq f + (f.toNat >>> 32) % 2 ^ 208 * 2 ^ 32) / 2 ^ (8 * 4) = (f.toNat >>> 32) % 2 ^ (8 * 26) := by
    rw [Nat.add_mul_div_right _ _ (by decide), Nat.div_eq_of_lt (sealHdr_lt k seq f), Nat.zero_add]
  rw [fU_sealFlit_below k seq f (by omega), ← uAt_div, hbody, uAt_of_mod_eq (Nat.mod_mod _ _) h, Nat.shiftRight_eq_div_pow, fU, ← uAt_div]

theorem fU_sealFlit_first (k : Link) (seq : BitVec 12) (f : BitVec 256) : fU (sealFlit k seq f) 0 1 % 64 = fClass f + 4 * fType f := by
  have hclass : fClass f < 4 := by rw [fClass_eq]; exact Nat.mod_lt _ (by decide)
  have htype : fType f < 16 := by rw [fType_eq]; exact Nat.mod_lt _ (by decide)
  rw [fU_sealFlit_below k seq f (by decide), uAt_eq_div, sealHdr]
  generalize (k.seqRx - 1).toNat * b2n k.rxAny = ack
  generalize (f.toNat >>> 32) % 2 ^ 208 = body
  omega

theorem fClass_sealFlit (k : Link) (seq : BitVec 12) (f : BitVec 256) : fClass (sealFlit k seq f) = fClass f := by
  have hfirst := fU_sealFlit_first k seq f
  have hclass : fClass f < 4 := by rw [fClass_eq]; exact Nat.mod_lt _ (by decide)
  rw [fClass_eq (sealFlit k seq f)]
  omega

theorem fType_sealFlit (k : Link) (seq : BitVec 12) (f : BitVec 256) : fType (sealFlit k seq f) = fType f := by
  have hfirst := fU_sealFlit_first k seq f
  have hclass : fClass f < 4 := by rw [fClass_eq]; exact Nat.mod_lt _ (by decide)
  have htype : fType f < 16 := by rw [fType_eq]; exact Nat.mod_lt _ (by decide)
  rw [fType_eq (sealFlit k seq f)]
  omega

/-! ### What a link carries -/

/-- The flits that wait on a link, and those that it has sent and that are not acknowledged. -/
def Link.queues (k : Link) : List (BitVec 256) × List (BitVec 256) := (k.waiting, k.unacked)

/-- Some flit of a link's queues is as told. -/
def Link.carries (k : Link) (p : BitVec 256 → Prop) : Prop := ∃ g ∈ k.queues.1 ++ k.queues.2, p g

theorem slot_queues (k : Link) (f : BitVec 256) : (k.slot f).queues = k.queues := by
  unfold Link.slot
  dsimp only
  split <;> rfl

theorem txFlit_queues (s : State) (l : Fin 12) (f : BitVec 256) : ∃ seq, ((s.txFlit l f).spire.links[l.val]).queues
    = ((s.spire.links[l.val]).waiting, if isSeq (fClass f) (fType f) then (s.spire.links[l.val]).unacked ++ [sealFlit (s.spire.links[l.val]) seq f]
      else (s.spire.links[l.val]).unacked) := by
  have hslot := slot_queues (s.spire.links[l.val]) f
  have hwaiting : ((s.spire.links[l.val]).slot f).waiting = (s.spire.links[l.val]).waiting := congrArg Prod.fst hslot
  have hunacked : ((s.spire.links[l.val]).slot f).unacked = (s.spire.links[l.val]).unacked := congrArg Prod.snd hslot
  refine ⟨if isSeq (fClass f) (fType f) then (s.spire.links[l.val]).seqTx else 0, ?_⟩
  unfold State.txFlit
  dsimp only
  rw [emit_spire, modLink_spire]
  dsimp only
  rw [upd_same]
  split
  · rw [Link.queues, hwaiting, hunacked]
  · exact hslot

theorem txFlit_other {s : State} {l j : Fin 12} (h : j ≠ l) (f : BitVec 256) : (s.txFlit l f).spire.links[j.val] = s.spire.links[j.val] :=
  upd_other _ _ _ _ h

section
variable {p : BitVec 256 → Prop}

/-- A flit that goes from those that wait to those that are not acknowledged stays as told. -/
theorem carries_of_queues {k j : Link} {f g : BitVec 256} (hseal : p f → p g) (hseq : p f → isSeq (fClass f) (fType f) = true)
    (hqueues : j.queues = (k.waiting.erase f, if isSeq (fClass f) (fType f) then k.unacked ++ [g] else k.unacked)) (h : k.carries p) :
    j.carries p := by
  obtain ⟨x, hx, hpx⟩ := h
  rw [Link.carries, hqueues]
  dsimp only
  rcases List.mem_append.1 hx with hwaits | hsent
  · by_cases hxf : x = f
    · subst hxf
      refine ⟨g, ?_, hseal hpx⟩
      rw [hseq hpx, if_pos rfl]
      exact List.mem_append_right _ (List.mem_append_right _ (List.mem_singleton_self g))
    · exact ⟨x, List.mem_append_left _ ((List.mem_erase_of_ne hxf).2 hwaits), hpx⟩
  · refine ⟨x, List.mem_append_right _ ?_, hpx⟩
    split
    · exact List.mem_append_left _ hsent
    · exact hsent

variable (hseal : ∀ k seq f, p f → p (sealFlit k seq f)) (hseq : ∀ f, p f → isSeq (fClass f) (fType f) = true)
include hseal hseq

theorem carries_sent {s : State} {l j : Fin 12} (f : BitVec 256) (h : (s.spire.links[j.val]).carries p) :
    ((((s.modLink l fun k => { k with waiting := k.waiting.erase f }).txFlit l f).spire.links[j.val])).carries p := by
  by_cases hjl : j = l
  case neg =>
    rw [txFlit_other hjl]
    exact (upd_other s.spire.links l j (fun k => { k with waiting := k.waiting.erase f }) hjl).symm ▸ h
  subst hjl
  obtain ⟨seq, hqueues⟩ := txFlit_queues (s.modLink j fun k => { k with waiting := k.waiting.erase f }) j f
  rw [modLink_spire] at hqueues
  dsimp only at hqueues
  rw [upd_same] at hqueues
  exact carries_of_queues (hseal _ seq f) (hseq f) hqueues h

theorem pump_carries (n : Nat) {s : State} {l j : Fin 12} (h : (s.spire.links[j.val]).carries p) :
    ((State.pump n s l).spire.links[j.val]).carries p := by
  induction n generalizing s with
  | zero => exact h
  | succ n ih =>
    unfold State.pump
    dsimp only
    split
    · exact h
    · split
      · exact h
      · exact ih (carries_sent hseal hseq _ h)

/-- A flit that is queued stays on its link, and what the links carried before. -/
theorem sendSeq_carries {s : State} {l j : Fin 12} (f : BitVec 256) (h : (s.spire.links[j.val]).carries p ∨ j = l ∧ p f) :
    ((s.sendSeq l f).spire.links[j.val]).carries p := by
  refine pump_carries hseal hseq _ ?_
  by_cases hjl : j = l
  case neg => exact (upd_other s.spire.links l j _ hjl).symm ▸ h.resolve_right fun hnew => hjl hnew.1
  subst hjl
  rw [modLink_spire]
  dsimp only
  rw [upd_same]
  rcases h with ⟨g, hg, hpg⟩ | ⟨-, hpf⟩
  · refine ⟨g, ?_, hpg⟩
    rcases List.mem_append.1 hg with hwaits | hsent
    · exact List.mem_append_left _ (List.mem_append_left _ hwaits)
    · exact List.mem_append_right _ hsent
  · exact ⟨f, List.mem_append_left _ (List.mem_append_right _ (List.mem_singleton_self f)), hpf⟩

end

/-! ### STREAM ALIVE of an export (R338, R343) -/

/-- A STREAM ALIVE flit of an export's ID. -/
def aliveOf (expId : Nat) (g : BitVec 256) : Prop := fClass g = 2 ∧ fType g = 3 ∧ fU g 12 1 = 0 ∧ fU g 10 2 = expId

theorem aliveOf_sealFlit {m : Nat} (k : Link) (seq : BitVec 12) (f : BitVec 256) (h : aliveOf m f) : aliveOf m (sealFlit k seq f) := by
  obtain ⟨hclass, htype, hkind, hid⟩ := h
  exact ⟨(fClass_sealFlit ..).trans hclass, (fType_sealFlit ..).trans htype, (fU_sealFlit k seq f (m := 8) (by decide)).trans hkind,
    (fU_sealFlit k seq f (m := 6) (by decide)).trans hid⟩

theorem isSeq_aliveOf {m : Nat} (f : BitVec 256) (h : aliveOf m f) : isSeq (fClass f) (fType f) = true := by
  obtain ⟨hclass, htype, -⟩ := h
  rw [hclass, htype]
  rfl

/-- The number that seven fields of a flit add to its first byte. -/
theorem foldl_fieldValues_seven (v : Nat) (a b c d e f g : Nat × Nat × Nat) :
    [a, b, c, d, e, f, g].foldl (fun v q => v + q.2.2 % 2 ^ (8 * q.2.1) * 2 ^ (8 * q.1)) v
      = v + fieldValue a + fieldValue b + fieldValue c + fieldValue d + fieldValue e + fieldValue f + fieldValue g := rfl

theorem streamFlit_eq (t : Spire) (dest expId kind xfer time : Nat) : t.streamFlit dest expId kind xfer time
    = BitVec.ofNat 256 (2 + 4 * 3 + fieldValue (4, 2, dest) + fieldValue (6, 2, t.hops) + fieldValue (8, 2, t.myId) + fieldValue (10, 2, expId)
      + fieldValue (12, 1, kind) + fieldValue (13, 4, xfer) + fieldValue (17, 8, time)) :=
  congrArg (BitVec.ofNat 256) (foldl_fieldValues_seven ..)

theorem aliveOf_streamFlit (t : Spire) (dest expId xfer time : Nat) : aliveOf (expId % 2 ^ 16) (t.streamFlit dest expId 0 xfer time) := by
  have hfirst : fU (t.streamFlit dest expId 0 xfer time) 0 1 = 14 := by
    rw [streamFlit_eq, fU_ofNat (by decide), uAt_eq_div]
    simp only [fieldValue_eq]
    omega
  refine ⟨by rw [fClass_eq, hfirst], by rw [fType_eq, hfirst], ?_, ?_⟩
  · rw [streamFlit_eq, fU_ofNat (by decide), uAt_eq_div]
    simp only [fieldValue_eq]
    omega
  · rw [streamFlit_eq, fU_ofNat (by decide), uAt_eq_div]
    simp only [fieldValue_eq]
    omega

/-- STREAM ALIVE of one export (R343). -/
def State.aliveFor (s : State) (e : Export) : State :=
  if e.flows s then s.sendRouted e.dest (s.spire.streamFlit e.dest e.expId 0 e.xferSeq.toNat 0) else s

theorem aliveOut_eq (s : State) : s.aliveOut = s.spire.exports.foldl State.aliveFor s := rfl

theorem sendRouted_of_route {s : State} {dest : Nat} (h : s.route dest < 12) (f : BitVec 256) :
    s.sendRouted dest f = s.sendSeq (f12 (s.route dest)) f := if_pos h

theorem route_of_flows {s : State} {e : Export} (h : e.flows s = true) : s.route e.dest < 12 := by
  simp only [Export.flows, Bool.and_eq_true, decide_eq_true_eq] at h
  exact h.2

theorem aliveFor_of_flows {s : State} {e : Export} (h : e.flows s = true) :
    s.aliveFor e = s.sendSeq (f12 (s.route e.dest)) (s.spire.streamFlit e.dest e.expId 0 e.xferSeq.toNat 0) :=
  (if_pos h).trans (sendRouted_of_route (route_of_flows h) _)

theorem aliveFor_of_not_flows {s : State} {e : Export} (h : ¬ e.flows s = true) : s.aliveFor e = s := if_neg h

@[simp] theorem aliveFor_streams (s : State) (e : Export) : (s.aliveFor e).streams = s.streams := by
  by_cases h : e.flows s = true
  · rw [aliveFor_of_flows h, sendSeq_streams]
  · rw [aliveFor_of_not_flows h]

theorem aliveOut_streams (s : State) : s.aliveOut.streams = s.streams := foldl_keeps State.streams aliveFor_streams _ s

/-- What announces one export stays on its link while the others are announced. -/
theorem aliveFor_carries {s : State} {j : Fin 12} {m : Nat} (e : Export) (h : (s.spire.links[j.val]).carries (aliveOf m)) :
    ((s.aliveFor e).spire.links[j.val]).carries (aliveOf m) := by
  by_cases hf : e.flows s = true
  · rw [aliveFor_of_flows hf]
    exact sendSeq_carries aliveOf_sealFlit isSeq_aliveOf _ (.inl h)
  · rwa [aliveFor_of_not_flows hf]

theorem aliveOut_carries {s : State} {e : Export} (he : e ∈ s.spire.exports) (hf : e.flows s = true) :
    (s.aliveOut.spire.links[(f12 (s.route e.dest)).val]).carries (aliveOf (e.expId % 2 ^ 16)) := by
  obtain ⟨before, after, hsplit⟩ := List.append_of_mem he
  have hbefore : (before.foldl State.aliveFor s).streams = s.streams := foldl_keeps State.streams aliveFor_streams _ s
  rw [aliveOut_eq, hsplit, List.foldl_append, List.foldl_cons]
  generalize before.foldl State.aliveFor s = t at hbefore
  have hroute := route_of_streams hbefore e.dest
  refine List.foldlRecOn (motive := fun u : State => (u.spire.links[(f12 (s.route e.dest)).val]).carries (aliveOf (e.expId % 2 ^ 16))) after _ ?_
    fun u hu x _ => aliveFor_carries x hu
  have hft : e.flows t = true := by rwa [Export.flows, hroute]
  rw [aliveFor_of_flows hft, hroute]
  exact sendSeq_carries aliveOf_sealFlit isSeq_aliveOf _ (.inr ⟨rfl, aliveOf_streamFlit ..⟩)

end Sys2Proof.Machine
end

section
/-!
The streams of a wall (R338 to R343).
-/
namespace Sys2Proof.Machine
open Sys2Proof

/-! ### The flits of a stream -/

theorem imports_of_streams {s t : State} (h : t.streams = s.streams) : t.spire.imports = s.spire.imports := imports_of_received (received_of_streams h)
theorem now_of_streams {s t : State} (h : t.streams = s.streams) : t.now = s.now := congrArg Prod.fst (formats_of_streams h)

theorem head_of_received {s t : State} (h : t.received = s.received) (l : Fin 12) : (t.spire.links[l.val]).head = (s.spire.links[l.val]).head :=
  congrArg Prod.snd (receiving_of_received h l)

theorem exports_of_timeless {s t : State} (h : t.timeless = s.timeless) : t.spire.exports = s.spire.exports := congrArg (fun v => v.1.exports) h

theorem takes_of_fields {f g : BitVec 256} (h : ∀ k n, 4 ≤ k → k + n ≤ 12 → fU g k n = fU f k n) (i : Import) : i.takes g = i.takes f := by
  rw [Import.takes, Import.takes, h 8 2 (by decide) (by decide), h 10 2 (by decide) (by decide)]

theorem State.Next.asKind {s : State} {l : Fin 12} {f : BitVec 256} (h : s.Next l f) {k : Nat} (hk : k < 256) : s.Next l (asKind k f) :=
  ⟨h.up, (fNak_asKind hk f).trans h.noNak, (fSeq_asKind hk f).trans h.inSeq⟩

/-- A field of a STREAM flit, its KIND aside. -/
theorem fU_stream {kind : Nat} (hkind : kind < 256) (f : BitVec 256) {k n : Nat} (h1 : 1 ≤ k) (h12 : k + n ≤ 12 ∨ 13 ≤ k) (hn : k + n ≤ 32) :
    fU (asType 2 3 (asKind kind f)) k n = fU f k n :=
  (fU_asType (by decide) (by decide) _ h1 hn).trans (fU_asKind hkind f h12 hn)

theorem takes_stream {kind : Nat} (hkind : kind < 256) (f : BitVec 256) (i : Import) : i.takes (asType 2 3 (asKind kind f)) = i.takes f :=
  takes_of_fields (fun _ _ hk hn => fU_stream hkind f (by omega) (.inl hn) (by omega)) i

theorem takes_pix {ty : Nat} (hty : ty < 16) (f : BitVec 256) (i : Import) : i.takes (asType 3 ty f) = i.takes f :=
  takes_of_fields (fun _ _ hk hn => fU_asType (by decide) hty f (by omega) (by omega)) i

section
variable {s : State} {l : Fin 12} {f : BitVec 256} (h : s.Next l f) (hg : s.Good)
include h hg

/-- A STREAM flit for this device, as a whole command. -/
theorem State.Next.stream_received {kind : Nat} (hkind : kind < 256) (hroute : s.route (fU f 4 2) = 12) {g : BitVec 256 → State → State}
    (hcore : ∀ u : State, (g (asType 2 3 (Machine.asKind kind f)) u).core = u.core) :
    ∃ u : State, u.streams = s.streams
      ∧ (s.run fun v => (v.rx l 2 3 (Machine.asKind kind f) fun f v => v.routeFlit f [] (g f)).after).received
        = (g (asType 2 3 (Machine.asKind kind f)) u).received :=
  (h.asKind hkind).routed_received hg (by decide) (by decide) rfl
    ((congrArg s.route (fU_asKind hkind f (.inl (by decide)) (by decide))).trans hroute) hcore

variable (hn : (s.spire.imports.map Import.attId).Nodup) (hroute : s.route (fU f 4 2) = 12)
include hn hroute

theorem exec_streamAlive_imports : ∃ t, exec (.streamAlive l f) s = .next t
    ∧ t.spire.imports = s.spire.imports.map fun i => if i.takes f then { i with last := s.now.toNat } else i := by
  obtain ⟨u, hstreams, hreceived⟩ := h.stream_received hg (kind := 0) (by decide) hroute (g := fun f v => v.aliveIn f) fun u => aliveIn_core u _
  refine ⟨_, act_of_running hg.2.1 _, (imports_of_received hreceived).trans ?_⟩
  rw [aliveIn_imports (by rwa [imports_of_streams hstreams]), imports_of_streams hstreams, now_of_streams hstreams]
  simp only [takes_stream (kind := 0) (by decide)]

omit hn in
theorem exec_streamTsUpdate_received : ∃ t u : State, exec (.streamTsUpdate l f) s = .next t ∧ u.streams = s.streams
    ∧ t.received = (u.tsUpdateIn (asType 2 3 (asKind 2 f))).received := by
  obtain ⟨u, hstreams, hreceived⟩ := h.stream_received hg (kind := 2) (by decide) hroute (g := fun f v => v.tsUpdateIn f) fun u => tsUpdateIn_core u _
  exact ⟨_, u, act_of_running hg.2.1 _, hstreams, hreceived⟩

theorem exec_streamTsUpdate_imports : ∃ t, exec (.streamTsUpdate l f) s = .next t
    ∧ t.spire.imports = s.spire.imports.map fun i => if i.takes f then { i with last := s.now.toNat } else i := by
  obtain ⟨t, u, hexec, hstreams, hreceived⟩ := exec_streamTsUpdate_received h hg hroute
  refine ⟨t, hexec, (imports_of_received hreceived).trans ?_⟩
  rw [tsUpdateIn_imports (by rwa [imports_of_streams hstreams]), imports_of_streams hstreams, now_of_streams hstreams]
  simp only [takes_stream (kind := 2) (by decide)]

theorem exec_streamTsUpdate_latched {i : Import} (hi : i ∈ s.spire.imports) (htakes : i.takes f = true)
    (honly : ∀ j ∈ s.spire.imports, j.takes f = true → j = i) {half : Nat} {k : Fin 256} {c : Latched} {a : Attach}
    (hlive : i.live = some (half, w32 (fU f 13 4))) (hcur : (s.slots[k.val]).cur = some c) (hbuf : c.buf = some a) (hid : a.id = i.attId)
    (hsame : ∀ (j : Fin 256) (d : Latched) (b : Attach), (s.slots[j.val]).cur = some d → d.buf = some b → b.id = i.attId → b.time = a.time) :
    ∃ t, exec (.streamTsUpdate l f) s = .next t ∧ ((t.slots[k.val]).cur.bind Latched.buf).map Attach.time
      = some (if a.time.toNat < fU f 17 8 then w64 (fU f 17 8) else a.time) := by
  obtain ⟨t, u, hexec, hstreams, hreceived⟩ := exec_streamTsUpdate_received h hg hroute
  have himports := imports_of_streams hstreams
  have hslots : u.slots = s.slots := slots_of_received (received_of_streams hstreams)
  have hfields {k n : Nat} (hk : 13 ≤ k) (hn : k + n ≤ 32) : fU (asType 2 3 (asKind 2 f)) k n = fU f k n :=
    fU_stream (by decide) f (by omega) (.inr hk) hn
  refine ⟨t, hexec, ?_⟩
  rw [slots_of_received hreceived, ← hfields (k := 17) (by decide) (by decide)]
  refine tsUpdateIn_latched (i := i) (h := half) (by rwa [himports]) (by rwa [himports]) (by rwa [takes_stream (by decide)]) ?_ ?_ (by rwa [hslots]) hbuf hid ?_
  · rw [himports]
    simpa only [takes_stream (kind := 2) (by decide)] using honly
  · rw [hfields (by decide) (by decide), hlive]
  · rwa [hslots]

/-! ### The flits of a transfer (R339 to R341) -/

omit h hg hn hroute in
theorem begun_of_fields {f g : BitVec 256} (hfields : ∀ k n, 12 ≤ k → k + n ≤ 32 → fU g k n = fU f k n) (i : Import) : s.begun g i = s.begun f i := by
  simp (disch := decide) only [State.begun, hfields]

omit h hg hn hroute in
theorem begun_eq (i : Import) : s.begun f i = { i with
    lost := false, curSeq := some (w32 (fU f 12 4)), curBpp := fU f 20 1, curTime := w64 (fU f 21 8), got := 0, crc := crcStart {}
    curBad := decide (fU f 16 2 ≠ i.width) || decide (fU f 18 2 ≠ i.height) || fU f 20 1 == 0 || fU f 20 1 != s.committedBpp i
    ready := if i.live.isSome = true ∧ fU f 16 2 = i.width ∧ fU f 18 2 = i.height ∧ fU f 20 1 ≠ 0 ∧ fU f 20 1 = s.committedBpp i then none
      else i.ready } := by
  have hready : (i.live.isSome && !(decide (fU f 16 2 ≠ i.width) || decide (fU f 18 2 ≠ i.height) || fU f 20 1 == 0 || fU f 20 1 != s.committedBpp i)) = true
      ↔ i.live.isSome = true ∧ fU f 16 2 = i.width ∧ fU f 18 2 = i.height ∧ fU f 20 1 ≠ 0 ∧ fU f 20 1 = s.committedBpp i := by
    simp [and_assoc]
  rw [State.begun]
  simp only [hready]

theorem exec_xferBegin_imports : ∃ t, exec (.xferBegin l f) s = .next t
    ∧ t.spire.imports = s.spire.imports.map fun i => if i.takes f then s.begun f { i with last := s.now.toNat } else i := by
  obtain ⟨u, hstreams, hreceived⟩ := h.routed_received hg (cls := 3) (ty := 0) (by decide) (by decide) rfl hroute
    (g := fun f v => v.xferBeginIn f) fun u => xferBeginIn_core u _
  refine ⟨_, act_of_running hg.2.1 _, (imports_of_received hreceived).trans ?_⟩
  rw [xferBeginIn_imports (by rwa [imports_of_streams hstreams]), imports_of_streams hstreams, now_of_streams hstreams]
  simp only [takes_pix (ty := 0) (by decide), begun_of_formats (formats_of_streams hstreams),
    begun_of_fields (s := s) fun k n hk hn => fU_asType (cls := 3) (ty := 0) (by decide) (by decide) f (by omega) hn]

omit h hg hn hroute in
theorem completes_of_fields {f g : BitVec 256} (hfields : ∀ k n, 12 ≤ k → k + n ≤ 32 → fU g k n = fU f k n) (i : Import) :
    i.completes g = i.completes f := by
  simp (disch := decide) only [Import.completes, hfields]

omit h hg hn hroute in
theorem ended_of_fields {f g : BitVec 256} (hfields : ∀ k n, 12 ≤ k → k + n ≤ 32 → fU g k n = fU f k n) (i : Import) : i.ended g = i.ended f := by
  rw [Import.ended, Import.ended, completes_of_fields hfields, hfields 12 4 (by decide) (by decide)]

omit h hg hn hroute in
theorem ended_eq (i : Import) : i.ended f =
    if i.curSeq = some (w32 (fU f 12 4)) ∧ i.curBad = false ∧ i.got = i.width * i.curBpp * i.height ∧ fU f 16 4 = crcFinish {} i.crc
    then { i with lost := false, curSeq := none, ready := some (i.half, i.curTime, w32 (fU f 12 4)) } else { i with curSeq := none } :=
  if_congr (completes_iff i f) rfl rfl

omit hn in
theorem exec_xferEnd_received : ∃ t u : State, exec (.xferEnd l f) s = .next t ∧ u.streams = s.streams
    ∧ t.received = (u.xferEndIn (asType 3 3 f)).received := by
  obtain ⟨u, hstreams, hreceived⟩ := h.routed_received hg (cls := 3) (ty := 3) (by decide) (by decide) rfl hroute
    (g := fun f v => v.xferEndIn f) fun u => xferEndIn_core u _
  exact ⟨_, u, act_of_running hg.2.1 _, hstreams, hreceived⟩

theorem exec_xferEnd_imports : ∃ t, exec (.xferEnd l f) s = .next t
    ∧ t.spire.imports = s.spire.imports.map fun i => if i.takes f then Import.ended { i with last := s.now.toNat } f else i := by
  obtain ⟨t, u, hexec, hstreams, hreceived⟩ := exec_xferEnd_received h hg hroute
  refine ⟨t, hexec, (imports_of_received hreceived).trans ?_⟩
  rw [xferEndIn_imports (by rwa [imports_of_streams hstreams]), imports_of_streams hstreams, now_of_streams hstreams]
  simp only [takes_pix (ty := 3) (by decide),
    ended_of_fields fun k n hk hn => fU_asType (cls := 3) (ty := 3) (by decide) (by decide) f (by omega) hn]

theorem exec_xferEnd_rejects {i : Import} (hi : i ∈ s.spire.imports) (htakes : i.takes f = true)
    (honly : ∀ j ∈ s.spire.imports, j.takes f = true → j = i) (hbad : i.completes f = false) :
    ∃ t, exec (.xferEnd l f) s = .next t ∧ t.spire.importRej = satInc s.spire.importRej := by
  obtain ⟨t, u, hexec, hstreams, hreceived⟩ := exec_xferEnd_received h hg hroute
  have himports := imports_of_streams hstreams
  have hrej : u.spire.importRej = s.spire.importRej := importRej_of_received (received_of_streams hstreams)
  have hfields {k n : Nat} (hk : 12 ≤ k) (hn : k + n ≤ 32) : fU (asType 3 3 f) k n = fU f k n := fU_asType (by decide) (by decide) f (by omega) hn
  refine ⟨t, hexec, (importRej_of_received hreceived).trans ?_⟩
  rw [← hrej]
  refine xferEndIn_rejects (i := i) (by rwa [himports]) (by rwa [himports]) (by rwa [takes_pix (by decide)]) ?_ ?_
  · rw [himports]
    simpa only [takes_pix (ty := 3) (by decide)] using honly
  · rw [← hbad]
    exact completes_of_fields (fun _ _ => hfields) i

end

/-! ### The flits of a packet (R301, R339) -/

section
variable {s : State} {l : Fin 12} {f : BitVec 256} (h : s.Next l f) (hg : s.Good)
include h hg

theorem exec_dataHead : ∃ t, exec (.dataHead l f) s = .next t ∧ (t.spire.links[l.val]).head = some (asType 3 1 f, []) := by
  obtain ⟨u, -, hreceived⟩ := h.received_eq hg (cls := 3) (ty := 1) (by decide) (by decide) rfl (g := fun f v => v.dataHeadIn l f)
    fun u _ => unentered_of_core (dataHeadIn_core u l _)
  exact ⟨_, act_of_running hg.2.1 _, (head_of_received hreceived l).trans (dataHeadIn_head ..)⟩

variable {hd : BitVec 256} {body : List (BitVec 256)} (hhead : (s.spire.links[l.val]).head = some (hd, body))
include hhead

theorem exec_data_incomplete (hn : (s.spire.imports.map Import.attId).Nodup) (hlen : body.length + 1 < fU hd 20 2) :
    ∃ t, exec (.data l f) s = .next t ∧ (t.spire.links[l.val]).head = some (hd, asType 3 2 f :: body)
      ∧ t.spire.imports = s.spire.imports.map fun i =>
        if s.route (fU hd 4 2) = 12 ∧ i.srcId = fU hd 8 2 ∧ i.expId = fU hd 10 2 then { i with last := s.now.toNat } else i := by
  have hdata (u : State) (hstreams : u.streams = s.streams) := dataIn_incomplete ((head_of_received (received_of_streams hstreams) l).trans hhead) hlen (asType 3 2 f)
  obtain ⟨u, hstreams, hreceived⟩ := h.received_eq hg (cls := 3) (ty := 2) (by decide) (by decide) rfl (g := fun f v => v.dataIn l f) fun u hu => by
    rw [hdata u hu]
    exact unentered_of_core (noteStream_core ..)
  rw [hdata u hstreams] at hreceived
  refine ⟨_, act_of_running hg.2.1 _, (head_of_received hreceived l).trans ?_, (imports_of_received hreceived).trans ?_⟩
  · simp only [noteStream_links, withHead_head]
  · have himports : (u.withHead l (some (hd, asType 3 2 f :: body))).spire.imports = s.spire.imports := (imports_of_streams hstreams :)
    have hnow : (u.withHead l (some (hd, asType 3 2 f :: body))).now = s.now := (now_of_streams hstreams :)
    rw [noteStream_imports (by rwa [himports]), himports, hnow, withHead_route, route_of_streams hstreams]

theorem exec_data_complete (hn : (s.spire.imports.map Import.attId).Nodup) (hlen : fU hd 20 2 ≤ body.length + 1) (hroute : s.route (fU hd 4 2) = 12) :
    ∃ t, exec (.data l f) s = .next t ∧ (t.spire.links[l.val]).head = none
      ∧ t.spire.imports = s.spire.imports.map fun i =>
        if i.takes hd then Import.packed { i with last := s.now.toNat } hd (asType 3 2 f :: body).reverse else i := by
  have hdata (u : State) (hstreams : u.streams = s.streams) :=
    dataIn_complete ((head_of_received (received_of_streams hstreams) l).trans hhead) hlen ((route_of_streams hstreams _).trans hroute) (asType 3 2 f)
  obtain ⟨u, hstreams, hreceived⟩ := h.received_eq hg (cls := 3) (ty := 2) (by decide) (by decide) rfl (g := fun f v => v.dataIn l f) fun u hu => by
    rw [hdata u hu, packetIn_unentered]
    rfl
  rw [hdata u hstreams] at hreceived
  refine ⟨_, act_of_running hg.2.1 _, (head_of_received hreceived l).trans ?_, (imports_of_received hreceived).trans ?_⟩
  · rw [packetIn_head, withHead_head]
  · have himports : (u.withHead l none).spire.imports = s.spire.imports := (imports_of_streams hstreams :)
    have hnow : (u.withHead l none).now = s.now := (now_of_streams hstreams :)
    rw [packetIn_imports (by rwa [himports]), himports, hnow]

end

/-! ### Silence, NAK and STREAM ALIVE (R338, R342, R343) -/

theorem exec_importLost {s : State} (hg : s.Good) {k : Fin 256} {i : Import} (h : s.silentImport k = some i) :
    ∃ t, exec (.importLostTimeout k) s = .next t
      ∧ t.spire.imports = s.spire.imports.map (fun j => if j.attId = i.attId then { i with lost := true } else j) ∧ t.slots = s.slots := by
  refine ⟨_, act_steady hg.2 (importLost_core s k), ?_⟩
  rw [State.run]
  dsimp only
  rw [State.importLost, h]
  dsimp only
  have hkept := raise_streams (s.putImport { i with lost := true }) { code := evImportLost, handle := i.handle, time := s.now, detail := i.srcId }
    [(i.pav, { code := evImportLost, handle := i.handle, time := s.now, detail := i.srcId })]
  exact ⟨(imports_of_streams hkept).trans rfl, (slots_of_received (received_of_streams hkept)).trans rfl⟩

theorem exec_importLost_idle {s : State} (hg : s.Good) {k : Fin 256} (h : s.silentImport k = none) : exec (.importLostTimeout k) s = .next s := by
  have hidle : s.importLost k = s := by rw [State.importLost, h]
  exact plain hg hidle rfl rfl rfl rfl

theorem exec_streamNak {s : State} {l : Fin 12} {f : BitVec 256} (h : s.Next l f) (hg : s.Good) (hroute : s.route (fU f 4 2) = 12) {k : Nat} {e : Export}
    (he : s.spire.exports[k]? = some e) (hexp : e.expId = fU f 10 2) (hdest : e.dest = fU f 8 2) (hcur : e.cur = none)
    (hbuf : (s.latchedBuf e.pav e.handle).isSome = true) (hreach : s.route e.dest < 12)
    (honly : ∀ (j : Nat) (x : Export), j ≠ k → s.spire.exports[j]? = some x → ¬ (x.expId = fU f 10 2 ∧ x.dest = fU f 8 2)) :
    ∃ t, exec (.streamNak l f) s = .next t ∧ (t.spire.exports[k]?).map Export.xferSeq = some (e.xferSeq + 1) := by
  have hfields {k n : Nat} (h1 : 1 ≤ k) (h12 : k + n ≤ 12) : fU (asType 2 3 (asKind 1 f)) k n = fU f k n :=
    fU_stream (by decide) f h1 (.inl h12) (by omega)
  have hhere (u : State) (hu : u.streams = s.streams) : u.routeFlit (asType 2 3 (asKind 1 f)) [] (fun v => v.nakIn (asType 2 3 (asKind 1 f)))
      = u.nakIn (asType 2 3 (asKind 1 f)) := by
    refine routeFlit_here _ _ ?_
    rw [hfields (by decide) (by decide), route_of_streams hu, hroute]
  obtain ⟨u, hstreams, htimeless⟩ := (h.asKind (k := 1) (by decide)).timeless_eq hg (cls := 2) (ty := 3) (by decide) (by decide) rfl
    (g := fun f v => v.routeFlit f [] fun v => v.nakIn f) fun u hu => by
      rw [hhere u hu]
      exact unentered_of_windows (congrArg Prod.fst (nakIn_windows ..))
  rw [hhere u hstreams] at htimeless
  have hexports : u.spire.exports = s.spire.exports := congrArg (fun v => v.1.exports) hstreams
  obtain ⟨x, hx, hdue, hseq⟩ := nakIn_reaches (s := u) (k := k) (e := e) (asType 2 3 (asKind 1 f)) (by rwa [hexports])
    (by rwa [hfields (by decide) (by decide)]) (by rwa [hfields (by decide) (by decide)]) hcur (by rwa [latchedBuf_of_streams hstreams])
    (by rwa [route_of_streams hstreams]) (by rwa [hexports, hfields (by decide) (by decide), hfields (by decide) (by decide)])
  have hkept := (hx.exportsGo hdue).kept
  rw [← exports_of_timeless htimeless] at hkept
  have hxfer := congrArg (Option.map Export.xferSeq) hkept
  rw [Option.map_map, Option.map_some, hseq] at hxfer
  exact ⟨_, act_of_running hg.2.1 _, hxfer⟩

theorem exec_streamAliveTimer {s : State} (hg : s.Good) : exec .streamAliveTimer s = .next (s.run State.aliveOut) :=
  act_steady hg.2 (aliveOut_core s)

/-- Settles O50: what a flit of a stream does is done to each of its imports (`eachImport_imports`), and what follows it leaves them
(`State.Next.received_eq`); an export's transfer, once started, goes on as it is (`State.Reaches`), and what is queued stays on its link. -/
theorem streams : Obligations.Streams := by
  unfold Obligations.Streams
  refine ⟨fun s l f hg hn => ⟨fun hup hnak hseq hroute => ?_, fun hup hnak hseq => ?_, fun k i => exec_importLost hg, fun k => exec_importLost_idle hg⟩,
    fun s hg => ⟨?_, ?_⟩⟩
  · have h : s.Next l f := ⟨hup, hnak, hseq⟩
    refine ⟨exec_streamAlive_imports h hg hn hroute, ?_, ?_, ?_, exec_streamTsUpdate_imports h hg hn hroute, ?_⟩
    · obtain ⟨t, hexec, himports⟩ := exec_xferBegin_imports h hg hn hroute
      refine ⟨t, hexec, himports.trans (List.map_congr_left fun i _ => ?_)⟩
      rw [begun_eq]
      rfl
    · obtain ⟨t, hexec, himports⟩ := exec_xferEnd_imports h hg hn hroute
      refine ⟨t, hexec, himports.trans (List.map_congr_left fun i _ => ?_)⟩
      rw [ended_eq]
      rfl
    · intro i hi htakes honly hbad
      refine exec_xferEnd_rejects h hg hn hroute hi htakes honly (Bool.eq_false_iff.2 fun hcomplete => ?_)
      obtain ⟨hcur, hgood, hgot, hcrc⟩ := (completes_iff i f).1 hcomplete
      rcases hbad with hbad | hbad | hbad | hbad
      · exact hbad hcur
      · exact Bool.false_ne_true (hgood.symm.trans hbad)
      · exact hbad hgot
      · exact hbad hcrc
    · intro i hi htakes honly half k c a hlive hcur hbuf hid hsame
      exact exec_streamTsUpdate_latched h hg hn hroute hi htakes honly hlive hcur hbuf hid hsame
  · have h : s.Next l f := ⟨hup, hnak, hseq⟩
    refine ⟨exec_dataHead h hg, fun hd body hhead hlen => exec_data_incomplete h hg hhead hn hlen, ?_⟩
    intro hd body i hhead hlen hroute hi hsrc hexp hcur hgood hpos hmore
    obtain ⟨t, hexec, hnone, himports⟩ := exec_data_complete h hg hhead hn hlen hroute
    obtain ⟨hbad, hgot⟩ := packed_inPlace (i := { i with last := s.now.toNat }) (asType 3 2 f :: body).reverse hcur hgood hpos hmore
    refine ⟨t, hexec, hnone, _, ?_, packed_attId { i with last := s.now.toNat } hd (asType 3 2 f :: body).reverse, hbad, ?_⟩
    · rw [himports]
      exact List.mem_map.2 ⟨i, hi, if_pos (by simp [Import.takes, hsrc, hexp])⟩
    · simpa using hgot
  · intro l f k e hup hnak hseq hroute he hexp hdest hcur hbuf hreach honly
    exact exec_streamNak ⟨hup, hnak, hseq⟩ hg hroute he hexp hdest hcur hbuf hreach honly
  · have hkept := aliveOut_streams s
    refine ⟨_, exec_streamAliveTimer hg, congrArg (fun v => v.1.exports) hkept, congrArg (fun v => v.1.unreach) hkept, fun e he _ hf => ?_⟩
    exact aliveOut_carries he hf

end Sys2Proof.Machine
end

section
/-!
SUPPORT. The budgets (09): what an entry of BUDGET_SET changes (R353, R363, R364), and what a new budget period restores (R344, R345). From these O26
is settled.
-/
namespace Sys2Proof.Machine
open Sys2Proof

/-! ### BUDGET_SET (R353) -/

/-- A raised limit lets a Pavilion's paused jobs go on, which still wait for the ends of their transfers. -/
theorem unpauseJobs_core (s : State) (p : Fin 64) :
    ({ s with jobs := s.jobs.map fun j => if j.pav = p then { j with paused := false } else j } : State).core = s.core := by
  have hjobs : (s.jobs.map fun j => if j.pav = p then { j with paused := false } else j).map (fun j => (j.waiting, j.fin.isNone))
      = s.jobs.map fun j => (j.waiting, j.fin.isNone) := by
    rw [List.map_map]
    refine List.map_congr_left fun j _ => ?_
    by_cases hp : j.pav = p <;> simp [hp]
  simp only [State.core, hjobs]

theorem budgetEntry_core (s : State) (p : Fin 64) (e : Nat × Nat × Nat × Nat) : (s.budgetEntry p e).core = s.core := by
  have hlimit (k : Nat) : ((s.modPav p fun v => { v with limits := upd v.limits (f4 k) fun _ => w64 e.2.2.2 }).noteQuota p (f4 k)).core = s.core :=
    (noteQuota_core ..).trans (modPav_core fun _ => rfl)
  unfold State.budgetEntry
  split
  next => exact modView_core ..
  next => exact modBport_core ..
  next =>
    dsimp only
    split
    · exact hlimit _
    · exact (unpauseJobs_core _ p).trans (hlimit _)

/-- What a BUDGET_SET whose checks pass does: its entries in order, then the events that a raised quota lets through. -/
theorem budgetEffect_core (s : State) (p : Fin 64) (l : List (Nat × Nat × Nat × Nat)) :
    ((l.foldl (fun t e => t.budgetEntry p e) s).flushEvents 64 p).core = s.core :=
  (flushEvents_core ..).trans (foldl_core (fun t e => budgetEntry_core t p e) l s)

theorem beginOp_budgetSet (s : State) (d : Desc) :
    s.beginOp { op := 0x22, d } = s.judge { op := 0x22, d } (s.budgetChecks d)
      fun t => ((budgetEntries d).foldl (fun t e => t.budgetEntry (tgtPav d) e) t).flushEvents 64 (tgtPav d) := rfl

theorem exec_budgetSet {s : State} {d : Desc} (h : s.Accepts 0x22 d) (hchecks : firstBad ((s.started d).budgetChecks d) = none) :
    exec (.budgetSet d) s = .next (s.doing d fun t =>
      (((budgetEntries d).foldl (fun t e => t.budgetEntry (tgtPav d) e) t).flushEvents 64 (tgtPav d)).ok 0x22 d 0) :=
  act_judges h (beginOp_budgetSet _ d) hchecks fun t => budgetEffect_core t (tgtPav d) (budgetEntries d)

theorem noteQuota_uncharged (s : State) (p : Fin 64) (k : Fin 4) : (s.noteQuota p k).uncharged = s.uncharged := by
  simp [State.noteQuota, apply_ite State.uncharged]

theorem limits_of_uncharged {s t : State} (h : t.uncharged = s.uncharged) (p : Fin 64) : (t.pavs[p.val]).limits = (s.pavs[p.val]).limits := by
  have hpavs : t.pavs.map Pav.uncharged = s.pavs.map Pav.uncharged := congrArg State.pavs h
  have hpav : (t.pavs[p.val]).uncharged = (s.pavs[p.val]).uncharged := by
    simpa using congrArg (fun v : Vector Pav 64 => v[p.val]) hpavs
  exact (congrArg Pav.limits hpav :)

theorem budgetEntry_quota_pavs (s : State) (p : Fin 64) (b target v : Nat) {k : Nat} (hk : k < 4) :
    (s.budgetEntry p (b, k, target, v)).pavs
      = ((s.modPav p fun x => { x with limits := upd x.limits (f4 k) fun _ => w64 v }).noteQuota p (f4 k)).pavs := by
  unfold State.budgetEntry
  split
  next h => exact absurd h (Nat.ne_of_lt hk)
  next h => exact absurd h (by dsimp only; omega)
  next =>
    dsimp only
    split <;> rfl

/-- The report of a quota that is used up (R351) leaves its limit as the entry sets it. -/
theorem budgetEntry_limits (s : State) (p : Fin 64) (b target v : Nat) {k : Nat} (hk : k < 4) :
    ((s.budgetEntry p (b, k, target, v)).pavs[p.val]).limits[(f4 k).val] = w64 v := by
  have hlimits := limits_of_uncharged
    (noteQuota_uncharged (s.modPav p fun x => { x with limits := upd x.limits (f4 k) fun _ => w64 v }) p (f4 k)) p
  rw [modPav_pavs, upd_same] at hlimits
  simp only [budgetEntry_quota_pavs s p b target v hk, hlimits, upd_same]

/-! ### The ALARMs that an event makes where no entry of the policy names one (R458, R647) -/

/-- The numbers of entries whose ALARM has been made in the period, where the policy has no entry (else nothing): no event adds to them, so that every
operation on an event ring keeps them. -/
def State.strayOuts (s : State) : List Nat := if s.dome.policy.safeOut = [] then s.dome.safeOutDone else []

theorem outEntries_of_core {s t : State} (h : t.core = s.core) : t.dome.policy.safeOut = s.dome.policy.safeOut := congrArg Core.safeOut h

theorem strayOuts_of_noEntry {s : State} (h : s.dome.policy.safeOut = []) : s.strayOuts = s.dome.safeOutDone := if_pos h

@[simp] theorem modPav_strayOuts (s : State) (p : Fin 64) (f : Pav → Pav) : (s.modPav p f).strayOuts = s.strayOuts := rfl
@[simp] theorem modEq_strayOuts (s : State) (p : Fin 64) (f : Evq → Evq) : (s.modEq p f).strayOuts = s.strayOuts := rfl
@[simp] theorem emit_strayOuts (s : State) (x : Tx) : (s.emit x).strayOuts = s.strayOuts := rfl
@[simp] theorem msi_strayOuts (s : State) (p : Fin 64) (vec : Nat) : (s.msi p vec).strayOuts = s.strayOuts := by
  unfold State.msi
  dsimp only
  split <;> rfl

@[simp] theorem safeOut_strayOuts (s : State) (e : Ev) : (s.safeOut e).strayOuts = s.strayOuts := by
  have hpolicy : (s.safeOut e).dome.policy.safeOut = s.dome.policy.safeOut :=
    (congrArg (fun u : State => u.dome.policy.safeOut) (safeOut_uncharged s e) :)
  by_cases hnone : s.dome.policy.safeOut = []
  · have hsame : s.safeOut e = s := by
      unfold State.safeOut
      simp [hnone]
    rw [hsame]
  · rw [State.strayOuts, State.strayOuts, if_neg hnone, if_neg (hpolicy ▸ hnone)]

@[simp] theorem eqInt_strayOuts (s : State) (p : Fin 64) : (s.eqInt p).strayOuts = s.strayOuts := by
  rw [State.eqInt, modEq_strayOuts, foldl_keeps State.strayOuts fun _ _ => msi_strayOuts ..]

@[simp] theorem eqWrite_strayOuts (s : State) (p : Fin 64) (e : Ev) : (s.eqWrite p e).strayOuts = s.strayOuts := by
  unfold State.eqWrite
  simp [apply_ite State.strayOuts]

@[simp] theorem eqPost_strayOuts (s : State) (p : Fin 64) (e : Ev) : (s.eqPost p e).strayOuts = s.strayOuts := by
  unfold State.eqPost State.eqOwed
  simp [apply_ite State.strayOuts, State.eqLose]

@[simp] theorem noteQuota_strayOuts (s : State) (p : Fin 64) (k : Fin 4) : (s.noteQuota p k).strayOuts = s.strayOuts := by
  have hone (t : State) (k : Fin 4) : (t.noteOne p k).strayOuts = t.strayOuts := by
    unfold State.noteOne
    simp [apply_ite State.strayOuts]
  simp [State.noteQuota, apply_ite State.strayOuts, hone]

theorem flushEvents_strayOuts (n : Nat) (s : State) (p : Fin 64) : (State.flushEvents n s p).strayOuts = s.strayOuts := by
  induction n generalizing s with
  | zero => rfl
  | succ n ih =>
    unfold State.flushEvents
    split
    next => rfl
    next => simp [apply_ite State.strayOuts, ih]

/-! ### A new budget period (R344, R345) -/

/-- A Pavilion whose quotas start unused. -/
def Pav.restored (v : Pav) : Pav := { v with used := Vector.replicate 4 0, deferRaised := Vector.replicate 4 false }

/-- A state whose period `k` starts, before the events that are held go. -/
def State.restored (s : State) (k : Nat) : State :=
  { s with
    period := k, ceRaised := [], evt := { s.evt with lostRaised := false }
    pavs := s.pavs.map Pav.restored
    bports := s.bports.map fun b => { b with waited := false, used := 0 }
    jobs := s.jobs.map fun j => { j with paused := false }
    dome := { s.dome with safeOutDone := [], alarmSent := false } }

theorem restored_pavs (s : State) (k : Nat) : (s.restored k).pavs = s.pavs.map Pav.restored := rfl

/-- The events that a Pavilion holds posted, where it holds any (R349). -/
def State.releaseHeld (s : State) (p : Fin 64) : State := if (s.pavs[p.val]).evHold.isEmpty then s else s.flushEvents 64 p

theorem newPeriod_eq (s : State) (k : Nat) : s.newPeriod k = (idx 64).foldl State.releaseHeld (s.restored k) := rfl

/-- The held events of a new period change their Pavilions, their rings and the log alone. -/
theorem newPeriod_unnoticed (s : State) (k : Nat) : (s.newPeriod k).unnoticed = (s.restored k).unnoticed :=
  foldl_keeps State.unnoticed newPeriod_hold_unnoticed _ _

theorem period_of_unnoticed {s t : State} (h : t.unnoticed = s.unnoticed) : t.period = s.period := (congrArg State.period h :)
theorem ceRaised_of_unnoticed {s t : State} (h : t.unnoticed = s.unnoticed) : t.ceRaised = s.ceRaised := (congrArg State.ceRaised h :)
theorem bports_of_unnoticed {s t : State} (h : t.unnoticed = s.unnoticed) : t.bports = s.bports := (congrArg State.bports h :)
theorem alarmSent_of_unnoticed {s t : State} (h : t.unnoticed = s.unnoticed) : t.dome.alarmSent = s.dome.alarmSent :=
  (congrArg (fun u : State => u.dome.alarmSent) h :)

@[simp] theorem newPeriod_period (s : State) (k : Nat) : (s.newPeriod k).period = k := period_of_unnoticed (newPeriod_unnoticed s k)

theorem newPeriod_ceRaised (s : State) (k : Nat) : (s.newPeriod k).ceRaised = [] := ceRaised_of_unnoticed (newPeriod_unnoticed s k)

theorem newPeriod_alarmSent (s : State) (k : Nat) : (s.newPeriod k).dome.alarmSent = false := alarmSent_of_unnoticed (newPeriod_unnoticed s k)

theorem newPeriod_bports (s : State) (k : Nat) : (s.newPeriod k).bports = s.bports.map fun b => { b with waited := false, used := 0 } :=
  bports_of_unnoticed (newPeriod_unnoticed s k)

/-- Where no entry of the policy makes an ALARM from an event, the held events make none either. -/
theorem newPeriod_safeOutDone {s : State} (h : s.dome.policy.safeOut = []) (k : Nat) : (s.newPeriod k).dome.safeOutDone = [] := by
  have hpolicy : (s.newPeriod k).dome.policy.safeOut = [] := (outEntries_of_core (newPeriod_core s k)).trans h
  have hreleased (t : State) (p : Fin 64) : (t.releaseHeld p).strayOuts = t.strayOuts := by
    unfold State.releaseHeld
    split
    · rfl
    · exact flushEvents_strayOuts ..
  calc (s.newPeriod k).dome.safeOutDone
    _ = (s.newPeriod k).strayOuts := (strayOuts_of_noEntry hpolicy).symm
    _ = (s.restored k).strayOuts := foldl_keeps State.strayOuts hreleased _ _
    _ = [] := strayOuts_of_noEntry h

/-- No Pavilion holds an event back. -/
def State.noneHeld (s : State) : Prop := ∀ p : Fin 64, (s.pavs[p.val]).evHold = []

theorem restored_noneHeld {s : State} (h : s.noneHeld) (k : Nat) : (s.restored k).noneHeld := by
  intro p
  rw [restored_pavs, Vector.getElem_map]
  exact h p

theorem newPeriod_of_noneHeld {s : State} (h : s.noneHeld) (k : Nat) : s.newPeriod k = s.restored k := by
  rw [newPeriod_eq]
  induction idx 64 with
  | nil => rfl
  | cons p l ih => rw [List.foldl_cons, State.releaseHeld, restored_noneHeld h k p, List.isEmpty_nil, if_pos rfl, ih]

/-! ### Spire time reaches the period (R38, R344) -/

/-- Spire time moved on starts the period that it reaches, or none. -/
theorem upTo_cases (s : State) (ps : Nat) :
    (s.upTo ps).period = s.period ∧ (s.upTo ps).pavs = s.pavs
      ∨ ∃ u : State, s.upTo ps = u.newPeriod ((w64 (ps / 1000)).toNat / periodNs) ∧ u.core = s.core ∧ u.pavs = s.pavs := by
  unfold State.upTo State.moveTo State.periodGo
  split
  · split
    · exact .inr ⟨_, rfl, rfl, rfl⟩
    · exact .inl ⟨rfl, rfl⟩
  · exact .inl ⟨rfl, rfl⟩

/-- Spire time at the start of period `k`, a register of 64 bits, is in no later period. -/
theorem periodAt_le (k : Nat) : (w64 (k * periodNs * 1000 / 1000)).toNat / periodNs ≤ k := by
  rw [Nat.mul_div_cancel _ (by decide : 0 < 1000)]
  have hle : (w64 (k * periodNs)).toNat ≤ k * periodNs := by
    rw [w64, BitVec.toNat_ofNat]
    exact Nat.mod_le ..
  exact (Nat.div_le_div_right hle).trans_eq (Nat.mul_div_cancel _ (by decide))

theorem periodStart_of_le {s : State} {k : Nat} (h : k ≤ s.period) : s.periodStart k = s := if_pos h

/-- A period that has not started starts in the state that Spire time's move leaves, or with that move. -/
theorem periodStart_eq_newPeriod {s : State} {k : Nat} (h : s.period < k) :
    ∃ u : State, s.periodStart k = u.newPeriod k ∧ u.core = s.core ∧ (s.noneHeld → u.noneHeld) := by
  have hstart : s.periodStart k
      = if (s.upTo (k * periodNs * 1000)).period < k then (s.upTo (k * periodNs * 1000)).newPeriod k else s.upTo (k * periodNs * 1000) :=
    if_neg (Nat.not_le.2 h)
  rw [hstart]
  obtain ⟨hperiod, hpavs⟩ | ⟨u, hu, hcore, hpavs⟩ := upTo_cases s (k * periodNs * 1000)
  · exact ⟨_, if_pos (hperiod ▸ h), upTo_core .., fun hheld => by rwa [State.noneHeld, hpavs]⟩
  · have hheld : s.noneHeld → u.noneHeld := fun hheld => by rwa [State.noneHeld, hpavs]
    rw [hu, newPeriod_period]
    split
    · refine ⟨_, rfl, (newPeriod_core ..).trans hcore, fun h => ?_⟩
      rw [newPeriod_of_noneHeld (hheld h)]
      exact restored_noneHeld (hheld h) _
    next hlate => exact ⟨u, by rw [Nat.le_antisymm (periodAt_le k) (Nat.not_lt.1 hlate)], hcore, hheld⟩

@[simp] theorem run_period (s : State) (f : State → State) : (s.run f).period = (f s).period := rfl
@[simp] theorem run_pavs (s : State) (f : State → State) : (s.run f).pavs = (f s).pavs := rfl
@[simp] theorem run_bports (s : State) (f : State → State) : (s.run f).bports = (f s).bports := rfl
@[simp] theorem run_dome (s : State) (f : State → State) : (s.run f).dome = (f s).dome := rfl
@[simp] theorem run_ceRaised (s : State) (f : State → State) : (s.run f).ceRaised = (f s).ceRaised := rfl

theorem exec_budgetPeriodStart {s : State} (h : s.Good) (k : Nat) : exec (.budgetPeriodStart k) s = .next (s.run fun u => u.periodStart k) :=
  act_steady h.2 (periodStart_core s k)

/-- Settles O26: an entry reports at most that its quota is used up, which leaves the limit (`budgetEntry_limits`); a period that starts is
`State.newPeriod` of a state in which, as in the state before, no entry of the policy makes an ALARM (`periodStart_eq_newPeriod`). -/
theorem budgets : Obligations.Budgets := by
  unfold Obligations.Budgets
  refine ⟨fun s d => ⟨exec_budgetSet, fun p b k target v hk => budgetEntry_limits s p b target v hk, fun p b target v => rfl, fun p b target v => rfl⟩,
    fun s k hg => ⟨fun hlt => ?_, fun hle => plain hg (periodStart_of_le hle) rfl rfl rfl rfl⟩⟩
  obtain ⟨u, hstart, hcore, hheld⟩ := periodStart_eq_newPeriod hlt
  have hpolicy : u.dome.policy.safeOut = [] := by
    obtain ⟨-, -, -, -, hnone, -⟩ := calm_parts hg.2.2
    exact (outEntries_of_core hcore).trans hnone
  have hexec : exec (.budgetPeriodStart k) s = .next (s.run fun _ => u.newPeriod k) :=
    (exec_budgetPeriodStart hg k).trans (congrArg Host.Outcome.next (run_congr hstart))
  refine ⟨_, hexec, ?_⟩
  simp only [run_period, run_pavs, run_bports, run_dome, run_ceRaised]
  refine ⟨newPeriod_period u k, fun hnone p => ?_, fun b => ?_, newPeriod_alarmSent u k, newPeriod_safeOutDone hpolicy k, newPeriod_ceRaised u k⟩
  · simp only [newPeriod_of_noneHeld (hheld hnone), restored_pavs, Vector.getElem_map]
    exact ⟨rfl, rfl⟩
  · simp only [newPeriod_bports, Vector.getElem_map, and_self]

end Sys2Proof.Machine
end

section
/-!
SUPPORT. An idle row for which a request waits (R379): the expiry leaves it open. O42 closes every row of the bank; it is refuted from this.
-/
namespace Sys2Proof.Machine
open Sys2Proof

/-- A channel after the idle time of a row (R379): the rows of the bank close, but for those that a waiting request hits (R8). -/
def Dmc.idleClosed (d : Dmc) (ranks2 : Bool) (bank : Nat) : Dmc :=
  { d with openRows := d.openRows.filter fun q => q.1 != bank || d.rowWanted ranks2 q }

theorem mem_idleClosed_openRows {d : Dmc} {ranks2 : Bool} {bank : Nat} {q : Nat × Nat} :
    q ∈ (d.idleClosed ranks2 bank).openRows ↔ q ∈ d.openRows ∧ (q.1 ≠ bank ∨ d.rowWanted ranks2 q = true) := by
  simp [Dmc.idleClosed]

theorem exec_rowIdleClose {s : State} (h : s.Good) (c : Fin 8) (bank : Nat) :
    exec (.rowIdleClose c bank) s = .next (s.modDmc c fun d => d.idleClosed s.dmcg.ranks2 bank) :=
  act_plain h rfl rfl rfl rfl

/-- A read that waits in channel 0, of row 0 of bank 0. -/
def waitingRead : RAtom := { req := { port := 9, addr := 0, len := 64 }, since := 0, no := 0 }

/-- A device that runs, whose channel 0 has row 0 of bank 0 open and a read of that row in its queue. -/
def rowInUse : State :=
  { State.reset with
    dmcs := upd (Vector.replicate 8 { trained := true }) 0 fun d => { d with rq := [waitingRead], nextNo := 1, openRows := [(0, 0)] }
    dmcg := { valid := true, clearDone := true }
    clk := { xinOk := true, monTrack := 32768 * 256 }
    pwr := { booted := true, stage := 11 }
    dome := { State.reset.dome with st := .run, watermark := Vector.replicate 3 0 } }

theorem rowInUse_good : rowInUse.Good := by
  rw [State.Good, State.Inv, State.Steady]
  decide

/-- Refutes O42: a request to an open row keeps it open as its idle time expires (R8, R379, `Dmc.rowWanted`). In `rowInUse` a read of the row waits in
channel 0, and ROW_IDLE_CLOSE leaves the row open, where the clause closes every row of the bank. -/
theorem not_dramUpkeep : ¬ Obligations.DramUpkeep := by
  unfold Obligations.DramUpkeep
  intro h
  obtain ⟨hrefresh, -⟩ := h
  obtain ⟨-, -, -, -, -, -, -, -, hclose, -⟩ := hrefresh rowInUse 0 rowInUse_good
  have hstated := hclose 0
  rw [exec_rowIdleClose rowInUse_good, Host.Outcome.next.injEq] at hstated
  have hrows : ((rowInUse.dmcs[0]).idleClosed false 0).openRows = (rowInUse.dmcs[0]).openRows.filter fun q => q.1 != 0 :=
    congrArg (fun t : State => (t.dmcs[0]).openRows) hstated
  have hopen : (0, 0) ∈ ((rowInUse.dmcs[0]).idleClosed false 0).openRows := mem_idleClosed_openRows.2 ⟨by decide, .inr (by decide)⟩
  rw [hrows] at hopen
  exact absurd hopen (by decide)

end Sys2Proof.Machine
end

section
/-!
SUPPORT. A write of DRAM while an output scans its frame (R163): the lines that have started are fetched first, and an error that a fetch meets goes
to the event log in the Orangery (R422, R636, R637). O41 has every byte outside the write as it was; it is refuted from this.
-/
namespace Sys2Proof.Machine
open Sys2Proof

/-- `unreadable` in the first line of a frame that output 0 scans: the line is due, and the first word of its buffer cannot be corrected. -/
def fetching : State := { unreadable with outs := upd unreadable.outs 0 fun u => { u with scanning := true } }

/-- A request of composer 0 for four bytes at the start of the DRAM. -/
def fourBytes : MemReq := { port := 0, addr := 0, len := 4 }

theorem fetching_good : fetching.Good := by
  rw [State.Good, State.Inv, State.Steady]
  decide

theorem exec_dramWrite_of_running {s : State} (h : s.pwr.reset = .running) (r : MemReq) (data : List Byte) (same : Option (MemReq × Ecc)) :
    exec (.dramWrite r data same) s = .next (s.run fun u => (u.dramWrite r data same).after) :=
  act_of_running h _

/-- Entry 0 of the log, which was clear, begins with the code of EV_ECC_UE. -/
theorem fetching_logs :
    fetching.rdByte .org (logAddr 0) = 0
      ∧ (fetching.run fun u => (u.dramWrite fourBytes [9, 8, 7, 6] none).after).rdByte .org (logAddr 0) = BitVec.ofNat 8 evEccUe := by
  decide +kernel

/-- Refutes O41: what composers have fetched by then is taken before a write changes memory (R163, `State.freeze`). In `fetching` that is a line whose
buffer has a word that cannot be corrected, and EV_ECC_UE is logged in the Orangery (R422, R636), where the clause of a permitted write leaves every
byte but those written as it was. -/
theorem not_dramAccesses : ¬ Obligations.DramAccesses := by
  unfold Obligations.DramAccesses
  intro h
  obtain ⟨hwrite, -⟩ := h fetching fourBytes fetching_good rfl (by decide) (by decide) (by decide)
  obtain ⟨⟨t, hexec, -, hframe⟩, -⟩ := hwrite [9, 8, 7, 6] rfl (by decide) rfl (by decide)
  rw [exec_dramWrite_of_running rfl, Host.Outcome.next.injEq] at hexec
  have hkept := hframe .org (logAddr 0) (.inl (by decide))
  obtain ⟨hclear, hlogged⟩ := fetching_logs
  rw [← hexec, hlogged, hclear] at hkept
  exact absurd hkept (by decide)

end Sys2Proof.Machine
end

section
/-!
PROOF. The step (log 1, log 3, log 7): the front command, and the invariant of the memories.
-/
namespace Sys2Proof.Machine
open Sys2Proof

/-- What every command is to the memories: an effect run once, its stores applied and none of them left. -/
theorem exec_runs (c : Instr) (s : State) : ∃ f, exec c s = .next (s.run f) := by
  cases c <;> exact ⟨_, rfl⟩

theorem run_inv {s : State} (h : s.Inv) (f : State → State) : (s.run f).Inv :=
  ⟨applyAll_wf h.1 _, rfl⟩

/-- Settles O1: the step by its two cases, a command at the front and an empty queue. -/
theorem stepRunsFrontCommand : Obligations.StepRunsFrontCommand := by
  unfold Obligations.StepRunsFrontCommand
  intro s c rest
  constructor <;> intro h <;> simp only [step, h]

/-- Settles O2: a step is the run of one effect, and a run applies the effect's stores and drops them. -/
theorem stepKeepsInvariant : Obligations.StepKeepsInvariant := by
  unfold Obligations.StepKeepsInvariant
  intro s t h hstep
  have hruns : ∃ u f, u.Inv ∧ step s = .next (State.run u f) := by
    cases hp : s.pending with
    | nil => exact ⟨s, _, h, by simp only [step, hp]; rfl⟩
    | cons c rest =>
      obtain ⟨f, hf⟩ := exec_runs c { s with pending := rest }
      exact ⟨{ s with pending := rest }, f, h, by simp only [step, hp]; exact hf⟩
  obtain ⟨u, f, hu, hr⟩ := hruns
  rw [hr, Host.Outcome.next.injEq] at hstep
  exact hstep ▸ run_inv hu f
end Sys2Proof.Machine
end

section
/-!
SUPPORT. What the delivery of an event leaves unchanged, and what a report of one (log, Dome, Pavilions) does: nothing beside its place in the log, the
Pavilions' rings and the clocks that it wakes.
-/
namespace Sys2Proof.Machine
open Sys2Proof

/-- A state without what the delivery of an event to the Pavilions and the Dome's note of it change. -/
def State.undelivered (s : State) : State := { s.uncharged with pavs := Vector.replicate 64 {} }

theorem undelivered_of_uncharged {s t : State} (h : t.uncharged = s.uncharged) : t.undelivered = s.undelivered :=
  congrArg (fun u : State => { u with pavs := Vector.replicate 64 {} }) h

@[simp] theorem modPav_undelivered (s : State) (p : Fin 64) (f : Pav → Pav) : (s.modPav p f).undelivered = s.undelivered := rfl
@[simp] theorem modEq_undelivered (s : State) (p : Fin 64) (f : Evq → Evq) : (s.modEq p f).undelivered = s.undelivered := rfl
@[simp] theorem emit_undelivered (s : State) (x : Tx) : (s.emit x).undelivered = s.undelivered := rfl
@[simp] theorem toDome_undelivered (s : State) (e : Ev) : (s.toDome e).undelivered = s.undelivered := rfl
@[simp] theorem safeOut_undelivered (s : State) (e : Ev) : (s.safeOut e).undelivered = s.undelivered :=
  undelivered_of_uncharged (safeOut_uncharged s e)
@[simp] theorem eqPost_undelivered (s : State) (p : Fin 64) (e : Ev) : (s.eqPost p e).undelivered = s.undelivered :=
  undelivered_of_uncharged (eqPost_uncharged s p e)
@[simp] theorem noteQuota_undelivered (s : State) (p : Fin 64) (k : Fin 4) : (s.noteQuota p k).undelivered = s.undelivered :=
  undelivered_of_uncharged (noteQuota_uncharged s p k)

@[simp] theorem deliver_undelivered (s : State) (p : Fin 64) (e : Ev) : (s.deliver p e).undelivered = s.undelivered := by
  unfold State.deliver
  simp [apply_ite State.undelivered, State.eqLose]

theorem evt_of_undelivered {s t : State} (h : t.undelivered = s.undelivered) : t.evt = s.evt := (congrArg State.evt h :)

/-! ### One log entry -/

/-- A state without what the store of a log entry changes beside the delivery of the report where its region denies it. -/
def State.unstored (s : State) : State :=
  { s.undelivered with stores := [], poison := [], flips := [], clk := { s.clk with run := 0 }, org := { s.org with regionViol := 0 } }

theorem unstored_of_undelivered {s t : State} (h : t.undelivered = s.undelivered) : t.unstored = s.unstored :=
  congrArg (fun u : State => { u with stores := [], poison := [], flips := [], clk := { u.clk with run := 0 }, org := { u.org with regionViol := 0 } }) h

@[simp] theorem deliver_unstored (s : State) (p : Fin 64) (e : Ev) : (s.deliver p e).unstored = s.unstored :=
  unstored_of_undelivered (deliver_undelivered s p e)
@[simp] theorem safeOut_unstored (s : State) (e : Ev) : (s.safeOut e).unstored = s.unstored := unstored_of_undelivered (safeOut_undelivered s e)

@[simp] theorem wakeIsland_unstored (s : State) (i : Nat) : (s.wakeIsland i).unstored = s.unstored := by
  unfold State.wakeIsland
  split <;> rfl

@[simp] theorem stCells_unstored (s : State) (m : MemId) (a : Nat) (l : List Byte) : (s.stCells m a l).unstored = s.unstored := by
  unfold State.stCells
  refine foldl_keeps State.unstored (fun t b => ?_) _ s
  rfl

@[simp] theorem unpoison_unstored (s : State) (m : MemId) (a n : Nat) : (s.unpoison m a n).unstored = s.unstored := rfl

@[simp] theorem logStore_unstored (s : State) (i : Nat) (l : List Byte) : (s.logStore i l).unstored = s.unstored := by
  have hcount (t : State) (e : Ev) : ({ t with org := { t.org with regionViol := satInc t.org.regionViol } }.toDome e).unstored = t.unstored := rfl
  unfold State.logStore
  dsimp only
  split
  · rw [unpoison_unstored, stCells_unstored, wakeIsland_unstored, wakeIsland_unstored]
  · rw [deliver_unstored, hcount, wakeIsland_unstored, wakeIsland_unstored]

theorem evt_of_unstored {s t : State} (h : t.unstored = s.unstored) : t.evt = s.evt := (congrArg State.evt h :)

/-- The clocks that the store of a log entry wakes are no part of what decides who may reach a memory. -/
theorem permit_wakeIsland (s : State) (i master : Nat) (secure : Bool) (m : MemId) (a n : Nat) (write : Bool) :
    (s.wakeIsland i).permit master secure m a n write = s.permit master secure m a n write := by
  rw [wakeIsland_eq]
  rfl

end Sys2Proof.Machine
end

section
/-!
SUPPORT. Bytes read back from the cells of a memory that they were stored to.
-/
namespace Sys2Proof.Machine
open Sys2Proof

theorem rdCell_stCell (s : State) (m n : MemId) (a b : Nat) (v : Byte) :
    (s.stCell m a v).rdCell n b = if m = n ∧ a = b then v else s.rdCell n b := by
  show (match (if m = n ∧ a = b then some v else storeGet s.stores n b) with | some v => v | none => cellGet (s.img.cells n) b) = _
  split_ifs <;> rfl

/-- The stores that bytes at an address make, the last byte's first. -/
theorem stCells_stores (s : State) (m : MemId) (a : Nat) (l : List Byte) :
    s.stCells m a l = { s with stores := (l.zipIdx.map fun b => Store.byte m (a + b.2) b.1).reverse ++ s.stores } := by
  have key : ∀ (q : List (Byte × Nat)) (t : State), q.foldl (fun s b => s.stCell m (a + b.2) b.1) t
      = { t with stores := (q.map fun b => Store.byte m (a + b.2) b.1).reverse ++ t.stores } := by
    intro q
    induction q with
    | nil => intro t; rfl
    | cons b q ih => intro t; rw [List.foldl_cons, ih]; simp [State.stCell]
  exact key _ s

theorem storeGet_append (l k : List Store) (m : MemId) (a : Nat) :
    storeGet (l ++ k) m a = (storeGet l m a).or (storeGet k m a) := by
  induction l with
  | nil => rfl
  | cons x l ih => cases x <;> (simp only [List.cons_append, storeGet]; split <;> simp [ih])

theorem stCells_append (s : State) (m : MemId) (a : Nat) (l k : List Byte) : s.stCells m a (l ++ k) = (s.stCells m a l).stCells m (a + l.length) k := by
  simp [stCells_stores, List.zipIdx_append, List.zipIdx_eq_map_add (i := l.length), Function.comp_def, Nat.add_assoc, Nat.add_comm l.length]

/-- A byte as the cells hold it after bytes have been stored from an address on. -/
theorem rdCell_stCells (s : State) (m n : MemId) (a b : Nat) (l : List Byte) :
    (s.stCells m a l).rdCell n b = if m = n ∧ a ≤ b then (l[b - a]?).getD (s.rdCell n b) else s.rdCell n b := by
  induction l using List.reverseRecOn with
  | nil => simp [State.stCells]
  | append_singleton l x ih =>
    have hone : (s.stCells m a (l ++ [x])) = (s.stCells m a l).stCell m (a + l.length) x := stCells_append s m a l [x]
    rw [hone, rdCell_stCell, ih]
    by_cases hm : m = n
    · by_cases hb : b = a + l.length
      · subst hb; simp [hm]
      · rw [if_neg (by omega)]
        by_cases hle : a ≤ b
        · rw [if_pos ⟨hm, hle⟩, if_pos ⟨hm, hle⟩]
          rcases Nat.lt_or_ge (b - a) l.length with hlt | hge
          · rw [List.getElem?_append_left hlt]
          · rw [List.getElem?_eq_none hge, List.getElem?_eq_none (by simp; omega)]
        · rw [if_neg (by omega), if_neg (by omega)]
    · simp [hm]

/-- Where no queue or buffer stands before the cells of a memory. -/
theorem rdByte_of_cells {s : State} {m : MemId} (hd : m ≠ .dram) (hk : m ≠ .keep) (a : Nat) : s.rdByte m a = s.rdCell m a := by
  cases m <;> first | rfl | contradiction

theorem rdBytes_eq_of_get {s : State} {m : MemId} {a : Nat} {l : List Byte} (h : ∀ i (hi : i < l.length), s.rdByte m (a + i) = l[i]) :
    s.rdBytes m a l.length = l := by
  refine List.ext_getElem (by simp [State.rdBytes]) fun i hi _ => ?_
  simp [State.rdBytes, h i (by simpa [State.rdBytes] using hi)]

/-- The bytes stored to a memory without a queue read back. -/
theorem rdBytes_stCells {s : State} {m : MemId} (hd : m ≠ .dram) (hk : m ≠ .keep) (a : Nat) (l : List Byte) :
    (s.stCells m a l).rdBytes m a l.length = l :=
  rdBytes_eq_of_get fun i hi => by
    rw [rdByte_of_cells hd hk, rdCell_stCells, if_pos ⟨rfl, Nat.le_add_right a i⟩, Nat.add_sub_cancel_left, List.getElem?_eq_getElem hi, Option.getD_some]

end Sys2Proof.Machine
end

section
/-!
PROOF. The event log (R636 to R643).
-/
namespace Sys2Proof.Machine
open Sys2Proof

theorem length_logEntry (e : Ev) (n : Nat) : (logEntry e n).length = 32 := by simp [logEntry]

/-- A write into a log that has room. -/
theorem logWrite_of_room {s : State} {e : Ev} (hl : notLogged e = false) (hg : gap s.evt.tail s.evt.head ≠ 4096) :
    s.logWrite e = { (s.logStore s.evt.head.toNat (logEntry e (s.evt.count.toNat % 65536))) with
      evt := { s.evt with head := s.evt.head + 1, count := s.evt.count + 1 } } := by
  have hevt := evt_of_unstored (logStore_unstored s s.evt.head.toNat (logEntry e (s.evt.count.toNat % 65536)))
  simp [State.logWrite, hl, hg, hevt]

/-- A write into a full log: its oldest entry goes first, and the loss is counted. -/
theorem logWrite_evt_of_full {s : State} {e : Ev} (hl : notLogged e = false) (hg : gap s.evt.tail s.evt.head = 4096) :
    (s.logWrite e).evt = { s.evt with tail := s.evt.tail + 1, lost := satInc s.evt.lost, head := s.evt.head + 1, count := s.evt.count + 1, lostRaised := true } := by
  have hevt (t : State) (i : Nat) (l : List Byte) := evt_of_unstored (logStore_unstored t i l)
  have hdel (t : State) (x : Ev) : ((t.safeOut x).deliver 0 x).evt = t.evt := evt_of_undelivered (by simp)
  simp only [State.logWrite, hl, hg, beq_self_eq_true, Bool.false_eq_true, if_false, if_true, Bool.true_and, hevt]
  cases hr : s.evt.lostRaised
  · simp [hdel]
  · simp

theorem logStore_of_permitted {s : State} {k : Nat} {l : List Byte} (h : s.permit 1 false .org (logAddr k) 32 true = true) :
    s.logStore k l = (((s.wakeIsland islFabric).wakeIsland islOrg).stCells .org (logAddr k) l).unpoison .org (logAddr k) l.length := by
  unfold State.logStore
  dsimp only
  rw [permit_wakeIsland, permit_wakeIsland, h, Bool.or_true, if_pos rfl]

/-- An entry that its region permits stands in the log's slot as its bytes. -/
theorem logStore_rdBytes {s : State} {k : Nat} {l : List Byte} (h : s.permit 1 false .org (logAddr k) 32 true = true) :
    (s.logStore k l).rdBytes .org (logAddr k) l.length = l := by
  rw [logStore_of_permitted h]
  exact rdBytes_stCells (m := .org) (by decide) (by decide) _ l

/-- Settles O31. -/
theorem eventLog : Obligations.EventLog := by
  unfold Obligations.EventLog
  intro s e hl
  refine ⟨fun hg => logWrite_of_room hl hg, fun hg => ?_, fun k hp => ?_, by decide, length_logEntry ..⟩
  · rw [logWrite_evt_of_full hl hg]
    exact ⟨rfl, rfl, rfl⟩
  · exact length_logEntry e _ ▸ logStore_rdBytes (s := s) (k := k) hp

end Sys2Proof.Machine
end

section
/-!
PROOF. The on-chip memories: SRAM_ACCESS (R417). O43 is refuted by what the composers have fetched when a write lands (R163).
-/
namespace Sys2Proof.Machine
open Sys2Proof

/-- A write of four bytes at the start of the Orangery by JTAG, without an error. -/
def orangeryWrite : SramReq := { mem := .orangery, master := 4, off := 0, write := some [9, 8, 7, 6], len := 4, ecc := .clean }

theorem exec_sramAccess_of_running {s : State} (h : s.pwr.reset = .running) (l : List SramReq) :
    exec (.sramAccess l) s = .next (s.run fun u => (State.sramServe l.length u l).after) :=
  act_of_running h _

set_option maxRecDepth 2000 in
/-- Entry 0 of the log, which was clear, begins with the code of EV_ECC_UE. -/
theorem orangeryWrite_logs :
    (fetching.run fun u => (State.sramServe [orangeryWrite].length u [orangeryWrite]).after).rdByte .org (logAddr 0) = BitVec.ofNat 8 evEccUe := by
  decide

/-- Refutes O43: what composers have fetched by then is taken before a write changes memory (R163, `State.freeze`). In `fetching` that is a line whose
buffer has a word that cannot be corrected, and EV_ECC_UE is logged in the Orangery (R422, R636), where the clause of a write that is allowed leaves every
byte but those written as it was. -/
theorem not_sramAndKeep : ¬ Obligations.SramAndKeep := by
  unfold Obligations.SramAndKeep
  intro h
  obtain ⟨haccess, -⟩ := h
  obtain ⟨hmain, -⟩ := haccess fetching orangeryWrite .org fetching_good
  obtain ⟨hwrite, -⟩ := hmain rfl (.inl rfl) (by decide)
  obtain ⟨⟨t, hexec, -, hframe⟩, -⟩ := hwrite [9, 8, 7, 6] rfl rfl (by decide)
  rw [exec_sramAccess_of_running rfl, Host.Outcome.next.injEq] at hexec
  have hkept := hframe .org (logAddr 0) (.inr (.inr (by decide)))
  rw [← hexec, orangeryWrite_logs, fetching_logs.1] at hkept
  exact absurd hkept (by decide)
end Sys2Proof.Machine
end
section
/-!
PROOF. JTAG: Dome debug (R600, R601). O44 is refuted by a read of the Dome SRAM that meets a word with an uncorrectable error.
-/
namespace Sys2Proof.Machine
open Sys2Proof

/-- A device in BLANK that runs; the first word of the Dome SRAM cannot be corrected. -/
def domeSpoilt : State := { State.reset with poison := [(.dome, 0)], pwr := { booted := true, stage := 11 } }

theorem domeSpoilt_inv : domeSpoilt.Inv := by
  rw [State.Inv]
  decide

theorem exec_jtagDomeDebug (a : JtagAccess) (s : State) :
    exec (.jtagDomeDebug a) s = .next (s.run fun u => (if u.lcCode = 0 then (u.jtagNow 5).jtagDome a else u.jtagPass).after) := rfl

set_option maxRecDepth 2000 in
/-- The read of that word is answered as one that failed. -/
theorem domeSpoilt_answer :
    (domeSpoilt.run fun u => (if u.lcCode = 0 then (u.jtagNow 5).jtagDome (.readDome 0 4) else u.jtagPass).after).tx.head?
      = some (.memData false []) := by
  decide

/-- Refutes O44: a read by Dome debug of a word of the Dome SRAM that cannot be corrected fails (R422, `State.readErrs`). In `domeSpoilt` the first word is
one, where the clause has its four bytes shifted out all the same. -/
theorem not_sidebandAndJtag : ¬ Obligations.SidebandAndJtag := by
  unfold Obligations.SidebandAndJtag
  intro h
  obtain ⟨-, -, hjtag⟩ := h
  obtain ⟨-, -, -, -, -, -, hdebug, -⟩ := hjtag domeSpoilt domeSpoilt_inv (by decide)
  have hstated := hdebug 0 4 (by decide) rfl
  rw [exec_jtagDomeDebug, Host.Outcome.next.injEq] at hstated
  have hanswer := domeSpoilt_answer
  rw [hstated] at hanswer
  exact absurd hanswer (by simp [State.emit])
end Sys2Proof.Machine
end
section
/-!
PROOF. The jobs of COPY and CHECK (09). O22 is refuted by what the composers have fetched when a copy's bytes land (R163).
-/
namespace Sys2Proof.Machine
open Sys2Proof

/-- A copy of four bytes within the Orangery, past its fence, whose transfer has not ended. -/
def shortCopy : Job := { pav := 0, sq := 0, seq := 0, op := 0x08, deferred := false, src := 0x2000, dst := 0x3000, len := 4 }

/-- `fetching` with that copy under way. -/
def fetchingCopy : State := { fetching with jobs := [shortCopy] }

theorem exec_copyTransferEnd_of_running {s : State} (h : s.pwr.reset = .running) (p : Fin 64) (sq : Fin 8) (seq : BitVec 16) (l : List Byte) (e : Bool) :
    exec (.copyTransferEnd p sq seq l e) s = .next (s.run fun u => (u.jobEnd 0x08 p sq seq l e).after) :=
  act_of_running h _

set_option maxRecDepth 2000 in
/-- The error that composer 0 met is dealt with as the command ends: the frame underruns and the composer owes nothing. -/
theorem fetchingCopy_faults : ((fetchingCopy.run fun u => (u.jobEnd 0x08 0 0 0 [] false).after).comps[0]).faults = [] := by
  decide

/-- The state that the copy's bytes and its completion alone leave, as O22 states it. -/
def State.copied (s : State) (j : Job) : State := s.run fun s =>
  let t := (((s.passTurn (portOf j.pav).val j.pav).wakeMem .org j.src j.len).memWrite 1 false (portP j.pav) j.dst (s.rdDev j.src j.len))
  ({ t with jobs := t.jobs.erase j }).completeOk j.pav j.sq j.seq j.op j.deferred false false j.len

set_option maxRecDepth 2000 in
/-- In that state composer 0 has met the error and owes its underrun still. -/
theorem copied_faults : ((fetchingCopy.copied shortCopy).comps[0]).faults = [some 0x1000] := by
  decide

theorem fetchingCopy_erased_good : ({ fetchingCopy with jobs := fetchingCopy.jobs.erase shortCopy } : State).Good := by
  rw [State.Good, State.Inv, State.Steady]
  decide

/-- Refutes O22: what composers have fetched by then is taken before a copy's bytes change memory (R163, `State.freeze`). In `fetchingCopy` that is a
line whose buffer has a word that cannot be corrected, and composer 0's frame underruns as the command ends (R234, `State.after`), where the clause of a
copy's end leaves the underrun owed. -/
theorem not_copiesAndChecks : ¬ Obligations.CopiesAndChecks := by
  unfold Obligations.CopiesAndChecks
  intro h
  obtain ⟨-, hjobs⟩ := h
  obtain ⟨-, -, hend, -⟩ := hjobs fetchingCopy 0 0 0 shortCopy fetchingCopy_erased_good (by decide)
  have hstated := hend (by decide) rfl rfl rfl rfl rfl rfl rfl rfl rfl (by decide) (by decide) (by decide) (by decide) (by decide) (by decide)
    (by decide) (by decide)
  rw [exec_copyTransferEnd_of_running rfl, Host.Outcome.next.injEq] at hstated
  have hfaults : ((fetchingCopy.run fun u => (u.jobEnd 0x08 0 0 0 [] false).after).comps[0]).faults = ((fetchingCopy.copied shortCopy).comps[0]).faults :=
    congrArg (fun t : State => (t.comps[0]).faults) hstated
  rw [fetchingCopy_faults, copied_faults] at hfaults
  exact absurd hfaults (by decide)
end Sys2Proof.Machine
end
section
/-!
PROOF. INSTALL of a policy (R449). O53 is refuted by a system record that the Keep does not give back.
-/
namespace Sys2Proof.Machine
open Sys2Proof

/-- A device whose system record has a word at 0x100, IN_FORCE_GEN, that cannot be corrected. -/
def recordSpoilt : State := { State.reset with poison := [(.keep, 0x100)] }

/-- An object of no bytes has no signature. -/
theorem recordSpoilt_unsigned :
    recordSpoilt.policyCheck (if recordSpoilt.pendingGen = 0 then recordSpoilt.inForceGen else recordSpoilt.pendingGen) [] = 1 := by
  decide

/-- The error that the judgement meets is counted. -/
theorem recordSpoilt_counts : (recordSpoilt.takePolicy []).1.keep.ue = 1 := by
  decide

/-- Refutes O53: a policy is judged against the system record, and an error that its read meets is counted and reported (R422, R438,
`State.keepNote`). In `recordSpoilt` IN_FORCE_GEN has one, where the clause of a policy with a bad signature changes POLICY_ERR and nothing else. -/
theorem not_installsAndLifeCycle : ¬ Obligations.InstallsAndLifeCycle := by
  unfold Obligations.InstallsAndLifeCycle
  intro h
  obtain ⟨⟨-, -, -, hjudged⟩, -⟩ := h
  obtain ⟨-, -, -, hunsigned, -⟩ := hjudged recordSpoilt []
  have hstated := congrArg (fun r : State × Nat => r.1.keep.ue) (hunsigned recordSpoilt_unsigned)
  exact absurd (recordSpoilt_counts.symm.trans hstated) (by decide)
end Sys2Proof.Machine
end
section
/-!
PROOF. The wipe of the Keep (R441). O57 is refuted by a write of WIPE_PENDING that still waits in the Keep's write buffer.
-/
namespace Sys2Proof.Machine
open Sys2Proof

/-- A device whose Keep has a Dome write of byte 0, in the customer area, waiting in its write buffer. -/
def wipeBuffered : State := { State.reset with keep := { dbuf := [(0, [5])] } }

theorem wipeBuffered_inv : wipeBuffered.Inv := by
  rw [State.Inv]
  decide

/-- After the wipe the word at 0 is read from the buffer. -/
theorem wipeBuffered_pending : (wipeBuffered.run fun s => s.wipe).rdVal .keep 0 8 = 5 := by
  decide

/-- Refutes O57: a wipe abandons the buffered writes of the secure partition alone (R441, `State.wipeMark`), and a read of the Keep sees a buffered write
at once (R435, R445). In `wipeBuffered` one of byte 0 waits, so WIPE_PENDING reads 5 after a wipe, where the clause of a whole wipe has it read 0. -/
theorem not_domeFailuresAndTamper : ¬ Obligations.DomeFailuresAndTamper := by
  unfold Obligations.DomeFailuresAndTamper
  intro h
  obtain ⟨-, -, hwipe, -⟩ := h
  obtain ⟨-, -, -, -, hcleared⟩ := hwipe wipeBuffered wipeBuffered_inv rfl
  exact absurd (wipeBuffered_pending.symm.trans hcleared) (by decide)
end Sys2Proof.Machine
end
section
/-!
PROOF. Rails (R575). O58 is refuted by a wipe whose step falls due as a rail drops.
-/
namespace Sys2Proof.Machine
open Sys2Proof

/-- A device held in a power-on reset, 6 ms after the cause of a wipe whose last step is still to come; WIPE_PENDING is 1. -/
def wipeOverdue : State :=
  { State.reset with
    img := { State.reset.img with keep := [(0, 1)] }
    keep := { wiping := true, wipeStep := 6 }
    spire := { State.reset.spire with now := 6000000 }
    pwr := { reset := .powerOn } }

theorem wipeOverdue_inv : wipeOverdue.Inv := by
  rw [State.Inv]
  decide

theorem exec_railDrop (r : Fin 5) (s : State) : exec (.railDrop r) s = .next (s.run fun u => (u.railFall r).after) := rfl

/-- The wipe's last step has its effect in the command: WIPE_PENDING is 0. -/
theorem wipeOverdue_pending : (wipeOverdue.run fun u => (u.railFall 0).after).rdByte .keep 0 = 0 := by
  decide

/-- Refutes O58: a step of a wipe that is due takes place within the next command, whichever it is (R441, `State.wipeDue`). In `wipeOverdue` the last
one is, and clears WIPE_PENDING in the Keep, where the clause of a rail's drop has every byte of the Keep read as its memory held it. -/
theorem not_resetsRailsAndTemperature : ¬ Obligations.ResetsRailsAndTemperature := by
  unfold Obligations.ResetsRailsAndTemperature
  intro h
  obtain ⟨⟨-, -, -, -, -, hbuffer⟩, -⟩ := h
  obtain ⟨t, hexec, -, hread⟩ := hbuffer wipeOverdue 0 0 wipeOverdue_inv
  rw [exec_railDrop, Host.Outcome.next.injEq] at hexec
  rw [← hexec, wipeOverdue_pending] at hread
  exact absurd hread (by decide)
end Sys2Proof.Machine
end

section
/-!
PROOF. CONSOLE (03, 14): what each SUBOP does, and which haptic trigger is accepted (R524 to R526). From these O23 is settled.
-/
namespace Sys2Proof.Machine
open Sys2Proof

/-! ### The operations (R523, R529, R534, R536) -/

/-- A VOICE_START of a higher-numbered Pavilion has started the voice in this cycle (R534). -/
def State.voiceTaken (s : State) (v : Fin 16) (p : Fin 64) : Bool :=
  s.arrived.any fun a => match a with | .voice x q => x == v && decide (p.val < q.val) | _ => false

section
variable {s : State} {p : Fin 64} {src : HapSrc} {d : Desc}

theorem consoleDo_play (h : dU d 8 1 = 0) (heffect : dU d 10 1 ≠ 0) :
    s.consoleDo p src d = s.hapTrigger (f16 (dU d 9 1)) src (dU d 10 1) (dU d 11 1) (dU d 12 1) false := by
  delta State.consoleDo
  dsimp only
  rw [h]
  exact if_neg heffect

theorem consoleDo_play_stop (h : dU d 8 1 = 0) (heffect : dU d 10 1 = 0) : s.consoleDo p src d = s.hapStop (f16 (dU d 9 1)) true := by
  delta State.consoleDo
  dsimp only
  rw [h]
  exact if_pos heffect

theorem consoleDo_stop (h : dU d 8 1 = 1) : s.consoleDo p src d = s.hapStop (f16 (dU d 9 1)) (bit (dU d 10 1) 0) := by
  delta State.consoleDo
  dsimp only
  rw [h]
  rfl

theorem consoleDo_start (h : dU d 8 1 = 2) (htaken : s.voiceTaken (f16 (dU d 9 1)) p = false) :
    s.consoleDo p src d = (s.arrive (.voice (f16 (dU d 9 1)) p)).voiceStart (f16 (dU d 9 1)) p (dU d 10 1) (dU d 12 2) (dU d 14 2) (dU d 16 2)
      (dU d 18 1) (dBits d 19 1 0 0) (dBits d 19 1 3 1) := by
  delta State.consoleDo
  dsimp only
  rw [h]
  exact if_neg (Bool.not_eq_true _ |>.mpr htaken)

theorem consoleDo_start_taken (h : dU d 8 1 = 2) (htaken : s.voiceTaken (f16 (dU d 9 1)) p = true) : s.consoleDo p src d = s := by
  delta State.consoleDo
  dsimp only
  rw [h]
  exact if_pos htaken

theorem consoleDo_release (h : dU d 8 1 = 3) : s.consoleDo p src d = s.voiceRelease (f16 (dU d 9 1)) := by
  delta State.consoleDo
  dsimp only
  rw [h]
  rfl

theorem consoleDo_pcm (h : dU d 8 1 = 4) {a : Nat} (ha : s.xlate p (dU d 16 8) (dU d 24 4) = some a) :
    s.consoleDo p src d = s.modPav p fun v => { v with pcm := upd v.pcm (f8 (dU d 9 1)) fun q =>
      { q with queue := q.queue ++ [{ addr := a, off := dU d 16 8, bytes := dU d 24 4, aud := dBits d 28 1 0 0, slot := dBits d 28 1 3 1 }] } } := by
  delta State.consoleDo
  dsimp only
  rw [h]
  simp only [ha, Option.getD_some, f8s]

theorem consoleDo_bind (h : dU d 8 1 = 5) :
    s.consoleDo p src d = s.modCtl (f32 (dU d 9 1)) fun c =>
      { c with reflex := some { pav := p, dome := src == .dome, chan := dU d 10 1, effect := dU d 11 1, prio := dU d 12 1 } } := by
  delta State.consoleDo
  dsimp only
  rw [h]
  rfl

theorem consoleDo_unbind (h : dU d 8 1 = 6) : s.consoleDo p src d = s.modCtl (f32 (dU d 9 1)) fun c => { c with reflex := none } := by
  delta State.consoleDo
  dsimp only
  rw [h]
  rfl

end

theorem beginOp_console (s : State) (d : Desc) :
    s.beginOp { op := 0x0B, d } = s.judge { op := 0x0B, d } (s.consoleChecks d.pav d false) fun t => t.consoleDo d.pav (.pav d.pav) d := rfl

/-- A CONSOLE whose checks pass, its operation given as what it does to the state it begins in. -/
theorem act_console {s : State} {d : Desc} {f : State → State} (h : s.Accepts 0x0B d)
    (hchecks : firstBad ((s.started d).consoleChecks d.pav d false) = none)
    (hf : (s.started d).consoleDo d.pav (.pav d.pav) d = f (s.started d)) :
    act (fun s => s.join 0x0B d) s = .next (s.doing d fun t => (f t).ok 0x0B d 0) := by
  refine act_accepts h (f := fun t => (f t).ok 0x0B d 0) ?_ ?_
  · rw [beginOp_console, judge_of_passed hchecks, hf]
    rfl
  · rw [State.ok, completeOk_core, ← hf, consoleDo_core, started_core]

theorem arrived_of_uncharged {s t : State} (h : t.uncharged = s.uncharged) : t.arrived = s.arrived := (congrArg State.arrived h :)

theorem started_voiceTaken (s : State) (d : Desc) (v : Fin 16) (p : Fin 64) : (s.started d).voiceTaken v p = s.voiceTaken v p := by
  rw [State.voiceTaken, arrived_of_uncharged (started_uncharged s d), State.voiceTaken]

/-! ### Haptic triggers (R524 to R526) -/

/-- A trigger with no other in its cycle is ignored below the priority of the effect that runs. -/
theorem hapTrigger_ignored {s : State} {h : Fin 16} {src : HapSrc} {effect prio amp : Nat} {reflex : Bool}
    (hrival : s.hapRival h (hapRank src reflex) src = none) (hruns : (s.gaz.haps[h.val]).st ≠ .idle) (hprio : prio < (s.gaz.haps[h.val]).prio) :
    s.hapTrigger h src effect prio amp reflex = s.modHap h fun c => { c with ignored := satInc c.ignored } := by
  refine if_pos ?_
  rw [hrival]
  show (false || (true && _ != _ && decide _)) = true
  rw [bne_iff_ne.2 hruns, decide_eq_true hprio]
  rfl

/-- The channel as an accepted trigger sets it, from its record `c` in IDLE. -/
def Hap.triggered (c : Hap) (wasIdle neg : Bool) (src : HapSrc) (effect prio amp : Nat) : Hap :=
  { c with st := if odHalves c effect = 0 then .drive else .overdrive, effect, prio, amp, src, seg := 0, halves := 0, brakes := 0, stopped := false
           neg := if wasIdle then false else neg }

@[simp] theorem hapDrive_hap (s : State) (h : Fin 16) :
    ((s.hapDrive h).gaz.haps[h.val]) = { s.gaz.haps[h.val] with level := hapLevel s.gaz.haps[h.val] } := by
  simp [State.hapDrive]

/-- Otherwise it is accepted. -/
theorem hapTrigger_accepted {s : State} {h : Fin 16} {src : HapSrc} {effect prio amp : Nat} {reflex : Bool}
    (hrival : s.hapRival h (hapRank src reflex) src = none) (hprio : (s.gaz.haps[h.val]).st = .idle ∨ (s.gaz.haps[h.val]).prio ≤ prio) :
    ∃ (c : Hap) (v : Bool) (l : Int), ((s.hapTrigger h src effect prio amp reflex).gaz.haps[h.val])
      = { c.triggered v (s.gaz.haps[h.val]).neg src effect prio amp with level := l } := by
  have hkeep : ((s.gaz.haps[h.val]).st != .idle && decide (prio < (s.gaz.haps[h.val]).prio)) = false := by
    rcases hprio with hidle | hle
    · simp [hidle]
    · simp [Nat.not_lt.2 hle]
  unfold State.hapTrigger
  simp only [hrival, Option.isNone_none, Bool.true_and, Bool.false_or, hkeep, Bool.false_eq_true, if_false, Option.isSome_none, hapDrive_hap,
    modHap_gaz, upd_same]
  exact ⟨_, _, _, rfl⟩

/-- Settles O23: each SUBOP's part of `State.consoleDo`, and a trigger by whether it is ignored. -/
theorem consoleDescriptors : Obligations.ConsoleDescriptors := by
  unfold Obligations.ConsoleDescriptors
  refine ⟨fun s d e h hchecks => ⟨?_, ?_, ?_, ?_, ?_, ?_, ?_, ?_, ?_⟩, fun s h src effect prio amp reflex hrival => ⟨?_, ?_⟩⟩
  · rintro rfl heffect
    exact act_console h hchecks (consoleDo_play (subop_setByte d (by decide)) heffect)
  · rintro rfl heffect
    exact act_console h hchecks (consoleDo_play_stop (subop_setByte d (by decide)) heffect)
  · rintro rfl
    exact act_console h hchecks (consoleDo_stop (subop_setByte d (by decide)))
  · rintro rfl htaken
    exact act_console h hchecks (consoleDo_start (subop_setByte d (by decide)) ((started_voiceTaken ..).trans htaken))
  · rintro rfl
    exact act_console h hchecks (consoleDo_release (subop_setByte d (by decide)))
  · rintro rfl htaken
    exact act_console (f := fun t => t) h hchecks (consoleDo_start_taken (subop_setByte d (by decide)) ((started_voiceTaken ..).trans htaken))
  · rintro a rfl ha
    exact act_console h hchecks (consoleDo_pcm (subop_setByte d (by decide)) ha)
  · rintro rfl
    exact act_console h hchecks (consoleDo_bind (subop_setByte d (by decide)))
  · rintro rfl
    exact act_console h hchecks (consoleDo_unbind (subop_setByte d (by decide)))
  · exact hapTrigger_ignored hrival
  · intro hprio
    obtain ⟨c, v, l, hset⟩ := hapTrigger_accepted (effect := effect) (amp := amp) hrival hprio
    rw [hset]
    refine ⟨rfl, rfl, rfl, rfl, ?_, rfl, rfl⟩
    by_cases hod : odHalves c effect = 0
    · exact .inl (if_pos hod)
    · exact .inr (if_neg hod)
end Sys2Proof.Machine
end

section
/-!
SUPPORT. The mailbox slots: operations that leave every slot as it is.
-/
namespace Sys2Proof.Machine
open Sys2Proof

/-- The mailbox slots of every Pavilion. -/
def State.mboxes (s : State) : Vector (Vector MboxSlot 2) 64 := s.pavs.map Pav.mbox

theorem mboxes_of_uncharged {s t : State} (h : t.uncharged = s.uncharged) : t.mboxes = s.mboxes := by
  have hpavs : t.pavs.map Pav.uncharged = s.pavs.map Pav.uncharged := congrArg State.pavs h
  have hmbox : ∀ u : State, u.mboxes = (u.pavs.map Pav.uncharged).map Pav.mbox := fun u => by
    rw [Vector.map_map]
    rfl
  rw [hmbox, hmbox, hpavs]

theorem mbox_of_mboxes {s t : State} (h : t.mboxes = s.mboxes) (p : Fin 64) : (t.pavs[p.val]).mbox = (s.pavs[p.val]).mbox := by
  have hget := congrArg (fun v : Vector (Vector MboxSlot 2) 64 => v[p.val]) h
  simpa [State.mboxes] using hget

theorem modPav_mboxes {s : State} {p : Fin 64} {f : Pav → Pav} (h : ∀ v, (f v).mbox = v.mbox) : (s.modPav p f).mboxes = s.mboxes :=
  map_upd Pav.mbox _ _ _ h

@[simp] theorem modEq_mboxes (s : State) (p : Fin 64) (f : Evq → Evq) : (s.modEq p f).mboxes = s.mboxes := modPav_mboxes fun _ => rfl
@[simp] theorem emit_mboxes (s : State) (x : Tx) : (s.emit x).mboxes = s.mboxes := rfl
@[simp] theorem toDome_mboxes (s : State) (e : Ev) : (s.toDome e).mboxes = s.mboxes := rfl
@[simp] theorem safeOut_mboxes (s : State) (e : Ev) : (s.safeOut e).mboxes = s.mboxes := mboxes_of_uncharged (safeOut_uncharged s e)
@[simp] theorem eqPost_mboxes (s : State) (p : Fin 64) (e : Ev) : (s.eqPost p e).mboxes = s.mboxes := mboxes_of_uncharged (eqPost_uncharged s p e)
@[simp] theorem noteQuota_mboxes (s : State) (p : Fin 64) (k : Fin 4) : (s.noteQuota p k).mboxes = s.mboxes :=
  mboxes_of_uncharged (noteQuota_uncharged s p k)

@[simp] theorem deliver_mboxes (s : State) (p : Fin 64) (e : Ev) : (s.deliver p e).mboxes = s.mboxes := by
  have hnmi : (s.modPav p fun v => { v with nmiPending := true, nmiCode := e.code }).mboxes = s.mboxes := modPav_mboxes fun _ => rfl
  have hhold : (s.modPav p fun v => { v with evHold := v.evHold ++ [e] }).mboxes = s.mboxes := modPav_mboxes fun _ => rfl
  unfold State.deliver
  simp [apply_ite State.mboxes, State.eqLose, hnmi, hhold]

@[simp] theorem logStore_mboxes (s : State) (i : Nat) (l : List Byte) : (s.logStore i l).mboxes = s.mboxes := by
  have hwake (t : State) (k : Nat) : (t.wakeIsland k).mboxes = t.mboxes := by
    rw [wakeIsland_eq]
    rfl
  have hcells (t : State) (a : Nat) : ((t.stCells .org a l).unpoison .org a l.length).mboxes = t.mboxes := by
    rw [stCells_stores]
    rfl
  have hcount (t : State) (e : Ev) : ({ t with org := { t.org with regionViol := satInc t.org.regionViol } }.toDome e).mboxes = t.mboxes := rfl
  unfold State.logStore
  dsimp only
  split
  · rw [hcells, hwake, hwake]
  · rw [deliver_mboxes, hcount, hwake, hwake]

@[simp] theorem logWrite_mboxes (s : State) (e : Ev) : (s.logWrite e).mboxes = s.mboxes := by
  unfold State.logWrite
  dsimp only
  split
  · rfl
  · split
    · split
      · exact (deliver_mboxes ..).trans ((safeOut_mboxes ..).trans (logStore_mboxes ..))
      · exact logStore_mboxes ..
    · split
      · exact (deliver_mboxes ..).trans ((safeOut_mboxes ..).trans (logStore_mboxes ..))
      · exact logStore_mboxes ..

@[simp] theorem raiseAs_mboxes (s : State) (logged : Ev) (dests : List (Fin 64 × Ev)) : (s.raiseAs logged dests).mboxes = s.mboxes := by
  rw [State.raiseAs, foldl_keeps State.mboxes fun _ _ => deliver_mboxes .., safeOut_mboxes, logWrite_mboxes]

@[simp] theorem raiseAs_unnoticed (s : State) (logged : Ev) (dests : List (Fin 64 × Ev)) : (s.raiseAs logged dests).unnoticed = s.unnoticed := by
  rw [State.raiseAs, foldl_keeps State.unnoticed fun _ _ => deliver_unnoticed .., safeOut_unnoticed, logWrite_unnoticed]

end Sys2Proof.Machine
end

section
/-!
SUPPORT. ALARMs of the Dome (R458): what the sending of one leaves, and what follows a command that queues one.
-/
namespace Sys2Proof.Machine
open Sys2Proof

/-- Whether the Dome has sent an ALARM in this period, the last message's sequence number, and the mailboxes. -/
def State.alarmState (s : State) : Bool × Word × Vector (Vector MboxSlot 2) 64 := (s.dome.alarmSent, s.spire.msgSeq, s.mboxes)

theorem parts_of_alarmState {s : State} {a : Bool} {b : Word} {c : Vector (Vector MboxSlot 2) 64} (h : s.alarmState = (a, b, c)) :
    s.dome.alarmSent = a ∧ s.spire.msgSeq = b ∧ s.mboxes = c := by
  rw [State.alarmState, Prod.mk.injEq, Prod.mk.injEq] at h
  exact h

@[simp] theorem modLink_alarmState (s : State) (l : Fin 12) (f : Link → Link) : (s.modLink l f).alarmState = s.alarmState := rfl
@[simp] theorem txFlit_alarmState (s : State) (l : Fin 12) (f : BitVec 256) : (s.txFlit l f).alarmState = s.alarmState := rfl

@[simp] theorem pump_alarmState (n : Nat) (s : State) (l : Fin 12) : (State.pump n s l).alarmState = s.alarmState := by
  induction n generalizing s with
  | zero => rfl
  | succ n ih =>
    unfold State.pump
    dsimp only
    split
    · rfl
    · split
      · rfl
      · rw [ih, txFlit_alarmState, modLink_alarmState]

@[simp] theorem sendSeq_alarmState (s : State) (l : Fin 12) (f : BitVec 256) : (s.sendSeq l f).alarmState = s.alarmState := by
  rw [State.sendSeq, pump_alarmState, modLink_alarmState]

@[simp] theorem flood_alarmState (s : State) (skip : Option (Fin 12)) (f : BitVec 256) : (s.flood skip f).alarmState = s.alarmState := by
  unfold State.flood
  refine foldl_keeps State.alarmState (fun t l => ?_) _ _
  split
  · exact sendSeq_alarmState ..
  · rfl

theorem floodAlarm_alarmState (s : State) (word : Word) :
    (s.floodAlarm word).alarmState = (s.dome.alarmSent, s.spire.msgSeq + 1, s.mboxes) := by
  rw [State.floodAlarm, flood_alarmState]
  rfl

theorem safeAction_alarmState (s : State) (o : Fin 8) (action : Nat) : (s.safeAction o action).alarmState = s.alarmState := by
  unfold State.safeAction
  split <;> rfl

theorem applySafeIn_alarmState (s : State) (word : Word) : (s.applySafeIn word).alarmState = s.alarmState := by
  unfold State.applySafeIn
  exact foldl_keeps State.alarmState (fun t e => foldl_keeps State.alarmState (fun u o => safeAction_alarmState u o _) _ t) _ s

theorem safeMsg_alarmState (s : State) (inst : Nat) (word : Word) (time : DWord) : (s.safeMsg inst word time).alarmState = s.alarmState := by
  have h : (s.safeMsg inst word time).unnoticed = s.unnoticed := raiseAs_unnoticed ..
  rw [State.alarmState, alarmSent_of_unnoticed h, spire_of_unnoticed h, State.safeMsg, raiseAs_mboxes, State.alarmState]

theorem sendAlarm_alarmState (s : State) (word : Word) : (s.sendAlarm word).alarmState = (s.dome.alarmSent, s.spire.msgSeq + 1, s.mboxes) := by
  rw [State.sendAlarm, safeMsg_alarmState, applySafeIn_alarmState, floodAlarm_alarmState]

/-- An ALARM alone does not go while one has been sent in the period or the join holds it. -/
theorem alarmsGo_of_held {s : State} (hhalt : s.dome.haltSend = false) (h : s.dome.alarmSent = true ∨ s.alarmWaits = true) : s.alarmsGo = s := by
  rw [State.alarmsGo, hhalt]
  simp only [Bool.false_eq_true, if_false]
  split
  · rfl
  · rcases h with h | h <;> simp [h]

/-- A state whose oldest ALARM is taken for this period, `l` left. -/
def State.alarmTaken (s : State) (l : List (Word × Option Nat)) : State := { s with dome := { s.dome with alarms := l, alarmSent := true } }

/-- Otherwise the oldest goes. -/
theorem alarmsGo_of_free {s : State} {w : Word} {e : Option Nat} {l : List (Word × Option Nat)} (hhalt : s.dome.haltSend = false)
    (halarms : s.dome.alarms = (w, e) :: l) (hrun : s.dome.st = .run) (hsent : s.dome.alarmSent = false) (hwaits : s.alarmWaits = false) :
    s.alarmsGo = (s.alarmTaken l).sendAlarm w := by
  rw [State.alarmsGo, hhalt, halarms]
  simp [hrun, hsent, hwaits, State.alarmTaken]

/-- A state with the Dome's ALARMs that wait replaced. -/
def State.withAlarms (s : State) (l : List (Word × Option Nat)) : State := { s with dome := { s.dome with alarms := l } }

theorem withAlarms_self {s : State} {l : List (Word × Option Nat)} (h : s.dome.alarms = l) : s.withAlarms l = s := by
  subst h
  rfl

theorem withAlarms_core (s : State) (l : List (Word × Option Nat)) :
    (s.withAlarms l).core = { s.core with alarms := if s.core.safeOut.isEmpty then l else [] } := rfl

theorem alarmTaken_core (s : State) (l : List (Word × Option Nat)) : (s.alarmTaken l).core = (s.withAlarms l).core := rfl

theorem withAlarms_core_congr {s t : State} (h : t.core = s.core) (l : List (Word × Option Nat)) : (t.withAlarms l).core = (s.withAlarms l).core := by
  rw [withAlarms_core, withAlarms_core, h]

/-- Where at most ALARMs wait before their turn and after it, their turn is what follows. -/
theorem after_of_calm_but_alarms {s : State} (h : (s.withAlarms []).calm = true)
    (hgone : (s.alarmsGo.withAlarms []).calm = true) : s.after = s.alarmsGo := by
  obtain ⟨hwiping, hrestart, -⟩ := calm_parts h
  have hwipe : State.wipeDue 3 s = s := by
    have : s.keep.wiping = false := hwiping
    simp [State.wipeDue, this]
  have hback : s.domeBack = s := by
    have : s.dome.st ≠ .restart := hrestart
    simp [State.domeBack, this]
  obtain ⟨-, -, -, -, -, hentry, hposted, hquiet, hjobs, hfaults, hstage⟩ := calm_parts hgone
  have hentry : s.alarmsGo.entry = [] := hentry
  have hquiet : s.alarmsGo.quiet = true := hquiet
  have hjobs : s.alarmsGo.jobsIdle = true := hjobs
  have hsettle : s.alarmsGo.settle = s.alarmsGo := by simp [State.settle, hquiet]
  have hcomposed : (idx 8).foldl State.faultGo s.alarmsGo = s.alarmsGo := faultGo_idle hfaults
  have hready : s.alarmsGo.noteReady = s.alarmsGo := by
    have : s.alarmsGo.pwr.stage ≠ 10 := hstage
    simp [State.noteReady, this]
  rw [State.after, hwipe, hback]
  rw [fabricGo_idle hentry hposted, hsettle, serveJobs_idle hjobs, hsettle, hcomposed, hready]

end Sys2Proof.Machine
end

section
/-!
PROOF. The Dome's ALARMs (R458), HELD_CONSOLE (R460) and the hand-over of a block (R471 to R474). From these O56 is settled.
-/
namespace Sys2Proof.Machine
open Sys2Proof

/-! ### SAFE_SEND (R458, R647) -/

/-- The device with the ALARM of a SAFE_SEND waiting, its request accepted and answered. -/
def State.alarmQueued (s : State) (p : Fin 64) (i : Fin 2) (m : BitVec 2048) : State :=
  ((s.withAlarms [(w32 (mU m 16 4), none)]).acceptSeq m).safetyReply p i m 0 0

theorem exec_safeSend {s : State} {p : Fin 64} {i : Fin 2} {m : BitVec 2048} (hg : s.Good) (h : s.Asked p i m) (hpasses : s.safetyCheck p m = 0)
    (htype : mU m 0 1 = 0x14) : exec (.safeSend p i) s = .next (s.run fun _ => (s.alarmQueued p i m).after) := by
  obtain ⟨-, -, -, halarms, -⟩ := calm_parts hg.2.2
  have hroom : ¬ 64 ≤ s.dome.alarms.length := by simp [halarms]
  have hqueues : (if 64 ≤ s.dome.alarms.length then (s, 6) else (s.withAlarms (s.dome.alarms ++ [(w32 (mU m 16 4), none)]), 0))
      = (s.withAlarms [(w32 (mU m 16 4), none)], 0) := by rw [if_neg hroom, halarms, List.nil_append]
  have htakes : s.mbxTake p i (isType 0x14) (fun s m => s.safeSend p i m) = s.alarmQueued p i m :=
    (mbxTake_of_asked h (isType_of_eq htype) _).trans (safetyDo_of_passed hpasses hqueues)
  show act (fun s => s.mbxTake p i (isType 0x14) fun s m => s.safeSend p i m) s = _
  rw [act_of_running hg.2.1]
  exact congrArg _ (run_congr (congrArg State.after htakes))

/-- The queued ALARM and the reply change the queue, a sequence number, the reply's free value and the mailbox. -/
theorem alarmQueued_frame (s : State) (p : Fin 64) (i : Fin 2) (m : BitVec 2048) :
    ∃ belvs n pavs tx, s.alarmQueued p i m = { s.withAlarms [(w32 (mU m 16 4), none)] with belvs, freeCount := n, pavs, tx } := by
  obtain ⟨n, pavs, tx, h⟩ := safetyReply_frame ((s.withAlarms [(w32 (mU m 16 4), none)]).acceptSeq m) p i m 0 0
  exact ⟨_, n, pavs, tx, h⟩

theorem alarmQueued_core (s : State) (p : Fin 64) (i : Fin 2) (m : BitVec 2048) :
    (s.alarmQueued p i m).core = (s.withAlarms [(w32 (mU m 16 4), none)]).core := by
  rw [State.alarmQueued, safetyReply_core, State.acceptSeq, modBelv_core]

theorem alarmQueued_calm_but_alarms {s : State} (h : s.calm = true) (p : Fin 64) (i : Fin 2) (m : BitVec 2048) :
    ((s.alarmQueued p i m).withAlarms []).calm = true := by
  obtain ⟨-, -, -, halarms, -⟩ := calm_parts h
  have hcore : ((s.alarmQueued p i m).withAlarms []).core = (s.withAlarms []).core := withAlarms_core_congr (alarmQueued_core s p i m) []
  rw [calm_of_core hcore, withAlarms_self halarms, h]

/-- An ALARM that may not go waits. -/
theorem after_alarmQueued_held {s : State} (h : s.calm = true) (p : Fin 64) (i : Fin 2) (m : BitVec 2048)
    (hheld : s.dome.alarmSent = true ∨ s.alarmWaits = true) : (s.alarmQueued p i m).after = s.alarmQueued p i m := by
  obtain ⟨-, -, hhalt, -⟩ := calm_parts h
  have hcalm := alarmQueued_calm_but_alarms h p i m
  obtain ⟨belvs, n, pavs, tx, hframe⟩ := alarmQueued_frame s p i m
  have hgo : (s.alarmQueued p i m).alarmsGo = s.alarmQueued p i m := by
    rw [hframe]
    exact alarmsGo_of_held hhalt hheld
  rw [after_of_calm_but_alarms hcalm (hgo.symm ▸ hcalm), hgo]

/-- One that may goes at once. -/
theorem after_alarmQueued_free {s : State} (h : s.calm = true) (p : Fin 64) (i : Fin 2) (m : BitVec 2048) (hrun : s.dome.st = .run)
    (hsent : s.dome.alarmSent = false) (hwaits : s.alarmWaits = false) :
    (s.alarmQueued p i m).after.dome.alarms = [] ∧ (s.alarmQueued p i m).after.alarmState = (true, s.spire.msgSeq + 1, (s.alarmQueued p i m).mboxes) := by
  obtain ⟨-, -, hhalt, -⟩ := calm_parts h
  have hcalm := alarmQueued_calm_but_alarms h p i m
  have hgo : (s.alarmQueued p i m).alarmsGo = ((s.alarmQueued p i m).alarmTaken []).sendAlarm (w32 (mU m 16 4)) := by
    obtain ⟨belvs, n, pavs, tx, hframe⟩ := alarmQueued_frame s p i m
    rw [hframe]
    exact alarmsGo_of_free hhalt rfl hrun hsent hwaits
  have hcore : (s.alarmQueued p i m).alarmsGo.core = ((s.alarmQueued p i m).withAlarms []).core := by
    rw [hgo, sendAlarm_core, alarmTaken_core]
  have hgone : (s.alarmQueued p i m).alarmsGo.calm = true := (calm_of_core hcore).trans hcalm
  obtain ⟨-, -, -, hnone, -⟩ := calm_parts hgone
  rw [after_of_calm_but_alarms hcalm (by rw [withAlarms_self hnone, hgone])]
  refine ⟨hnone, ?_⟩
  rw [hgo, sendAlarm_alarmState]
  obtain ⟨belvs, n, pavs, tx, hframe⟩ := alarmQueued_frame s p i m
  rw [hframe]
  rfl

/-- What stands in the slot of the request. -/
theorem alarmQueued_reads {s : State} {p : Fin 64} {i : Fin 2} (m : BitVec 2048) (h : ((s.pavs[p.val]).mbox[i.val]).busy = true) :
    mU (((s.alarmQueued p i m).pavs[p.val]).mbox[i.val]).out 2 1 = 0 := by
  have hbusy : ((((s.withAlarms [(w32 (mU m 16 4), none)]).acceptSeq m).pavs[p.val]).mbox[i.val]).busy = true := h
  obtain ⟨-, -, -, hstatus, -⟩ := safetyReply_reads m hbusy (status := 0) (frame := 0) (by decide) (by decide)
  exact hstatus

/-! ### HELD_CONSOLE (R460) -/

/-- The console operation of a HELD_CONSOLE fails a check of R99. -/
def State.heldRefused (s : State) (p : Fin 64) (m : BitVec 2048) : Bool :=
  (reservedByte 0x0B (consoleDesc p m)).isSome || (firstBad (s.consoleChecks p (consoleDesc p m) true)).isSome

theorem safetyDo_of_refused {s t : State} {p : Fin 64} {i : Fin 2} {m : BitVec 2048} {st : Nat} (h : s.safetyCheck p m = 0)
    {f : State → State × Nat} (hf : f s = (t, st)) (hst : st ≠ 0) : s.safetyDo p i m f = s.safetyReply p i m st 0 := by
  simp [State.safetyDo, h, hf, hst]

theorem heldConsole_of_refused {s : State} {p : Fin 64} {i : Fin 2} {m : BitVec 2048} (hpasses : s.safetyCheck p m = 0)
    (h : s.heldRefused p m = true) : s.heldConsole p i m = s.safetyReply p i m 5 0 :=
  safetyDo_of_refused (t := s) hpasses (if_pos h) (by decide)

theorem heldConsole_of_allowed {s : State} {p : Fin 64} {i : Fin 2} {m : BitVec 2048} (hpasses : s.safetyCheck p m = 0)
    (h : s.heldRefused p m = false) :
    s.heldConsole p i m = ((s.consoleDo p .dome (consoleDesc p m)).acceptSeq m).safetyReply p i m 0 0 :=
  safetyDo_of_passed hpasses (if_neg (Bool.not_eq_true _ |>.mpr h))

/-- A safety request that is accepted, its effect given as what it does to the state. -/
theorem act_takes {s : State} {p : Fin 64} {i : Fin 2} {m : BitVec 2048} (hg : s.Good) (h : s.Asked p i m) {q : BitVec 2048 → Bool}
    (hq : q m = true) {f : State → BitVec 2048 → State} {g : State → State} (hf : f s m = g s) (hcore : (g s).core = s.core) :
    act (fun s => s.mbxTake p i q f) s = .next (s.run g) := by
  have htakes : s.mbxTake p i q f = g s := (mbxTake_of_asked h hq f).trans hf
  rw [act_steady hg.2 (htakes.symm ▸ hcore), run_congr htakes]

theorem exec_heldConsole_allowed {s : State} {p : Fin 64} {i : Fin 2} {m : BitVec 2048} (hg : s.Good) (h : s.Asked p i m)
    (hpasses : s.safetyCheck p m = 0) (htype : mU m 0 1 = 0x17) (hallowed : s.heldRefused p m = false) :
    exec (.heldConsole p i) s
      = .next (s.run fun s => ((s.consoleDo p .dome (consoleDesc p m)).acceptSeq m).safetyReply p i m 0 0) :=
  act_takes (q := isType 0x17) (f := fun s m => s.heldConsole p i m) hg h (isType_of_eq htype) (heldConsole_of_allowed hpasses hallowed)
    (by rw [safetyReply_core, State.acceptSeq, modBelv_core, consoleDo_core])

/-! ### BLOCK_TAKE and BLOCK_RELEASE (R471) -/

section
variable {s : State} {p : Fin 64} {i : Fin 2} {m : BitVec 2048} {take : Bool}

theorem blockMove_of_fixed (hpasses : s.safetyCheck p m = 0) (h : s.dome.policy.movable.getLsbD (mU m 16 1) = false) :
    s.blockMove p i m take = s.safetyReply p i m 7 0 := by
  simp [State.blockMove, hpasses, h]

theorem blockMove_of_moving (hpasses : s.safetyCheck p m = 0) (hmovable : s.dome.policy.movable.getLsbD (mU m 16 1) = true)
    (h : (s.dome.ho.any fun h => h.block == mU m 16 1) = true) : s.blockMove p i m take = s.safetyReply p i m 6 0 := by
  simp only [State.blockMove, hpasses, hmovable, h, ne_eq, not_true, if_false, Bool.not_true, Bool.false_eq_true, if_true]

theorem blockMove_of_held (hpasses : s.safetyCheck p m = 0) (hmovable : s.dome.policy.movable.getLsbD (mU m 16 1) = true)
    (hstill : (s.dome.ho.any fun h => h.block == mU m 16 1) = false) (h : s.isHeld (mU m 16 1) = take) :
    s.blockMove p i m take = (s.acceptSeq m).safetyReply p i m 0 0 := by
  simp only [State.blockMove, hpasses, hmovable, hstill, h, ne_eq, not_true, if_false, Bool.not_true, Bool.false_eq_true, beq_self_eq_true, if_true]

/-- The hand-over that a BLOCK_TAKE or BLOCK_RELEASE begins. -/
def State.handoverOf (s : State) (p : Fin 64) (i : Fin 2) (m : BitVec 2048) (take : Bool) : Handover :=
  { block := mU m 16 1, toSecure := take, pavs := (s.acceptSeq m).blockPavs (blockOf (mU m 16 1)), reply := some (p, i) }

/-- The device as a hand-over begins, before a haptic channel is stopped. -/
def State.handoverBegun (s : State) (p : Fin 64) (i : Fin 2) (m : BitVec 2048) (take : Bool) : State :=
  ({ s.acceptSeq m with dome := { s.dome with ho := s.dome.ho ++ [s.handoverOf p i m take], hoBlock := mU m 16 1, hoToSecure := take } } : State).modMbox p i
    fun x => { x with taken := true }

theorem blockMove_of_begun (hpasses : s.safetyCheck p m = 0) (hmovable : s.dome.policy.movable.getLsbD (mU m 16 1) = true)
    (hstill : (s.dome.ho.any fun h => h.block == mU m 16 1) = false) (h : s.isHeld (mU m 16 1) ≠ take) :
    s.blockMove p i m take = match blockOf (mU m 16 1) with
      | .hap c => (s.handoverBegun p i m take).hapStop c true
      | _ => s.handoverBegun p i m take := by
  simp only [State.blockMove, hpasses, hmovable, hstill, ne_eq, not_true, if_false, Bool.not_true, Bool.false_eq_true, beq_iff_eq, h]
  rfl

end

theorem hapDrive_frame (s : State) (h : Fin 16) : ∃ gaz tx, s.hapDrive h = { s with gaz, tx } := by
  unfold State.hapDrive State.modHap State.emit
  exact ⟨_, _, rfl⟩

/-- A braked stop changes a haptic channel, what has arrived in the cycle and the pins. -/
theorem hapStop_braked (s : State) (h : Fin 16) : ∃ gaz arrived tx, s.hapStop h true = { s with gaz, arrived, tx } := by
  unfold State.hapStop
  dsimp only
  split
  · exact ⟨_, _, _, rfl⟩
  · obtain ⟨gaz, tx, hdrive⟩ := hapDrive_frame ((s.hapPast h).modHap h _) h
    exact ⟨gaz, _, tx, hdrive⟩

/-- A hand-over as it begins: the losing world's haptic effect is braked, all else goes on. -/
theorem blockMove_begins {s : State} {p : Fin 64} {i : Fin 2} {m : BitVec 2048} {take : Bool} (hpasses : s.safetyCheck p m = 0)
    (hmovable : s.dome.policy.movable.getLsbD (mU m 16 1) = true) (hstill : (s.dome.ho.any fun h => h.block == mU m 16 1) = false)
    (h : s.isHeld (mU m 16 1) ≠ take) :
    ∃ gaz arrived tx, s.blockMove p i m take = { s.handoverBegun p i m take with gaz, arrived, tx } := by
  rw [blockMove_of_begun hpasses hmovable hstill h]
  split
  · exact hapStop_braked ..
  · exact ⟨_, _, _, rfl⟩

/-- What the begin of a hand-over is seen as in the Dome, the slot's sequence number and the mailbox. -/
theorem blockMove_begun {s : State} {p : Fin 64} {i : Fin 2} {m : BitVec 2048} {take : Bool} (hpasses : s.safetyCheck p m = 0)
    (hmovable : s.dome.policy.movable.getLsbD (mU m 16 1) = true) (hstill : (s.dome.ho.any fun h => h.block == mU m 16 1) = false)
    (h : s.isHeld (mU m 16 1) ≠ take) :
    let t := s.blockMove p i m take
    t.dome.ho.map Handover.block = s.dome.ho.map Handover.block ++ [mU m 16 1] ∧ t.dome.held = s.dome.held ∧ t.dome.hoBlock = mU m 16 1
      ∧ t.dome.hoToSecure = take ∧ (t.belvs[(f8 (mU m 1 1)).val]).seq.toNat = mU m 8 8
      ∧ ((t.pavs[p.val]).mbox[i.val]).busy = ((s.pavs[p.val]).mbox[i.val]).busy := by
  obtain ⟨gaz, arrived, tx, hmoves⟩ := blockMove_begins (i := i) hpasses hmovable hstill h
  have hseq : (w64 (mU m 8 8)).toNat = mU m 8 8 := BitVec.toNat_ofNat _ _ ▸ Nat.mod_eq_of_lt (mU_lt m 8 8)
  dsimp only
  rw [hmoves]
  refine ⟨?_, rfl, rfl, rfl, ?_, ?_⟩
  · exact List.map_append
  · show ((upd s.belvs (f8 (mU m 1 1)) fun b => { b with seq := w64 (mU m 8 8) })[(f8 (mU m 1 1)).val]).seq.toNat = _
    rw [upd_same, hseq]
  · simp [State.handoverBegun, State.acceptSeq]

/-! ### The end of a hand-over (R472, R473) -/

/-- The blocks that the secure world holds, and the hand-overs under way. -/
def State.handing (s : State) : BitVec 256 × List Handover := (s.dome.held, s.dome.ho)

theorem handing_of_unnoticed {s t : State} (h : t.unnoticed = s.unnoticed) : t.handing = s.handing :=
  (congrArg (fun u : State => (u.dome.held, u.dome.ho)) h :)

@[simp] theorem safetyReply_handing (s : State) (p : Fin 64) (i : Fin 2) (req : BitVec 2048) (status frame : Nat) :
    (s.safetyReply p i req status frame).handing = s.handing := by
  obtain ⟨n, pavs, tx, h⟩ := safetyReply_frame s p i req status frame
  rw [h]
  rfl

theorem modHap_handing (s : State) (h : Fin 16) (f : Hap → Hap) : (s.modHap h f).handing = s.handing := rfl
theorem modVoice_handing (s : State) (v : Fin 16) (f : Voice → Voice) : (s.modVoice v f).handing = s.handing := rfl
theorem hapPast_handing (s : State) (h : Fin 16) : (s.hapPast h).handing = s.handing := rfl

theorem hapDrive_handing (s : State) (h : Fin 16) : (s.hapDrive h).handing = s.handing := by
  obtain ⟨gaz, tx, hdrive⟩ := hapDrive_frame s h
  rw [hdrive]
  rfl

theorem hapDone_handing (s : State) (h : Fin 16) : (s.hapDone h).handing = s.handing := by
  unfold State.hapDone
  dsimp only
  split
  · rfl
  · exact handing_of_unnoticed (raise_unnoticed ..)
  · exact handing_of_unnoticed (raise_unnoticed ..)
  · rfl

theorem hapStop_handing (s : State) (h : Fin 16) (brake : Bool) : (s.hapStop h brake).handing = s.handing := by
  unfold State.hapStop
  dsimp only
  split
  · rfl
  · split
    · rw [hapDrive_handing, modHap_handing, hapPast_handing]
    · rw [hapDrive_handing, State.hapIdle, modHap_handing, hapDone_handing, hapPast_handing]

theorem endJob_handing (s : State) (j : Job) (status result : Nat) : (s.endJob j status result).handing = s.handing := by
  unfold State.endJob
  dsimp only
  split
  · exact (handing_of_unnoticed (completeOk_unnoticed ..)).trans rfl
  · exact (handing_of_unnoticed (complete_unnoticed ..)).trans rfl

theorem foldl_idle_handing (l : List (Fin 16)) (s : State) :
    (l.foldl (fun s v => s.modVoice v fun x => { x with phase := .idle }) s).handing = s.handing :=
  foldl_keeps State.handing (fun t v => modVoice_handing t v _) l s

theorem blockAbandon_handing (s : State) (b : Block) : (s.blockAbandon b).handing = s.handing := by
  cases b with
  | cvu c => exact foldl_keeps State.handing (fun t j => endJob_handing t j _ _) _ s
  | hap h => exact hapStop_handing s h false
  | voice v => rfl
  | aud a => exact foldl_idle_handing _ s
  | ctl c => rfl
  | proof o w => rfl

theorem blockScrub_handing (s : State) (b : Block) : (s.blockScrub b).handing = s.handing := by
  cases b with
  | aud a => exact foldl_idle_handing _ s
  | cvu c => rfl
  | hap h => rfl
  | voice v => rfl
  | ctl c => rfl
  | proof o w => rfl

/-- At its end the block has changed worlds and the hand-over is gone. -/
theorem handoverEnd_handing (s : State) (h : Handover) :
    (s.handoverEnd h).handing = (putB s.dome.held h.block h.toSecure, s.dome.ho.erase h) := by
  have hscrub := blockScrub_handing s (blockOf h.block)
  have hheld : (s.blockScrub (blockOf h.block)).dome.held = s.dome.held := congrArg Prod.fst hscrub
  have hho : (s.blockScrub (blockOf h.block)).dome.ho = s.dome.ho := congrArg Prod.snd hscrub
  unfold State.handoverEnd
  dsimp only
  split
  · refine (handing_of_unnoticed (raise_unnoticed ..)).trans ?_
    rw [State.handing, hheld, hho]
  · rw [safetyReply_handing]
    refine (handing_of_unnoticed (raise_unnoticed ..)).trans ?_
    rw [State.handing, hheld, hho]

/-- A job fewer leaves nothing more to do. -/
theorem calm_endJob {s : State} (h : s.calm = true) (j : Job) (status result : Nat) : (s.endJob j status result).calm = true := by
  have hcore : (s.endJob j status result).core = ({ s with jobs := s.jobs.erase j } : State).core := by
    unfold State.endJob
    dsimp only
    split
    · exact completeOk_core ..
    · exact complete_core ..
  rw [calm_of_core hcore]
  simp only [State.calm, Bool.and_eq_true] at h ⊢
  obtain ⟨⟨⟨h, hjobs⟩, hfaults⟩, hstage⟩ := h
  refine ⟨⟨⟨h, ?_⟩, hfaults⟩, hstage⟩
  rw [State.jobsIdle, List.all_eq_true] at hjobs ⊢
  exact fun x hx => hjobs x (List.mem_of_mem_erase hx)

theorem calm_foldl_endJob (l : List Job) {s : State} (h : s.calm = true) (status result : Nat) :
    (l.foldl (fun s j => s.endJob j status result) s).calm = true := by
  induction l generalizing s with
  | nil => exact h
  | cons j l ih => exact ih (calm_endJob h j status result)

theorem calm_blockAbandon {s : State} (h : s.calm = true) (b : Block) : (s.blockAbandon b).calm = true := by
  have hkeeps {t : State} (ht : t.core = s.core) : t.calm = true := (calm_of_core ht).trans h
  cases b with
  | cvu c => exact calm_foldl_endJob _ h _ _
  | hap c => exact hkeeps (hapStop_core ..)
  | voice v => exact hkeeps (modVoice_core ..)
  | aud a => exact hkeeps (foldl_core (fun t v => modVoice_core ..) _ s)
  | ctl c => exact h
  | proof o w => exact h

section
variable {s : State} {b : BitVec 8} {h : Handover}

theorem exec_quiesceDone_none (hg : s.Good) (hnone : s.dome.ho.find? (fun h => h.block == b.toNat) = none) :
    exec (.handoverQuiesceDone b) s = .next s := by
  have hf : s.quiesceDone b.toNat = s := by rw [State.quiesceDone, hnone]
  exact plain hg hf rfl rfl rfl rfl

theorem exec_quiesceDone_busy (hg : s.Good) (hfind : s.dome.ho.find? (fun h => h.block == b.toNat) = some h)
    (hbusy : s.blockBusy (blockOf b.toNat) = true) : exec (.handoverQuiesceDone b) s = .next s := by
  have hf : s.quiesceDone b.toNat = s := by
    rw [State.quiesceDone, hfind]
    exact if_pos hbusy
  exact plain hg hf rfl rfl rfl rfl

theorem exec_quiesceDone_ends (hg : s.Good) (hfind : s.dome.ho.find? (fun h => h.block == b.toNat) = some h)
    (hbusy : s.blockBusy (blockOf b.toNat) = false) : exec (.handoverQuiesceDone b) s = .next (s.run fun s => s.handoverEnd h) := by
  have hf : s.quiesceDone b.toNat = s.handoverEnd h := by
    rw [State.quiesceDone, hfind]
    exact if_neg (Bool.not_eq_true _ |>.mpr hbusy)
  refine (act_steady hg.2 (quiesceDone_core ..)).trans ?_
  rw [run_congr (g := fun s => s.handoverEnd h) hf]

theorem exec_quiesceTimeout_none (hg : s.Good) (hnone : s.dome.ho.find? (fun h => h.block == b.toNat) = none) :
    exec (.handoverQuiesceTimeout b) s = .next s := by
  have hf : s.quiesceTimeout b.toNat = s := by rw [State.quiesceTimeout, hnone]
  exact plain hg hf rfl rfl rfl rfl

theorem exec_quiesceTimeout_ends (hg : s.Good) (hfind : s.dome.ho.find? (fun h => h.block == b.toNat) = some h) :
    exec (.handoverQuiesceTimeout b) s = .next (s.run fun s => (s.blockAbandon (blockOf b.toNat)).handoverEnd h) := by
  have hf : s.quiesceTimeout b.toNat = (s.blockAbandon (blockOf b.toNat)).handoverEnd h := by rw [State.quiesceTimeout, hfind]
  have hcalm : (s.quiesceTimeout b.toNat).calm = true := by
    rw [hf, calm_of_core (handoverEnd_core ..)]
    exact calm_blockAbandon hg.2.2 _
  refine (act_of_running hg.2.1 _).trans ?_
  rw [run_congr (f := fun u => (u.quiesceTimeout b.toNat).after) (g := fun s => (s.blockAbandon (blockOf b.toNat)).handoverEnd h)
    ((after_of_calm hcalm).trans hf)]

end

/-- What the end of a hand-over leaves in the Dome. -/
theorem handing_ended {s t : State} {b : Nat} {h : Handover} (hfind : s.dome.ho.find? (fun h => h.block == b) = some h) (hnodup : s.dome.ho.Nodup)
    (ht : t.handing = (putB s.dome.held h.block h.toSecure, s.dome.ho.erase h)) : t.dome.held = putB s.dome.held b h.toSecure ∧ h ∉ t.dome.ho := by
  have hblock : h.block = b := by simpa using List.find?_some hfind
  have hheld : t.dome.held = putB s.dome.held h.block h.toSecure := congrArg Prod.fst ht
  have hho : t.dome.ho = s.dome.ho.erase h := congrArg Prod.snd ht
  rw [hheld, hho, hblock]
  exact ⟨rfl, hnodup.not_mem_erase⟩

/-- The two rows of a hand-over, each with the world it moves the block to. -/
theorem exec_blockMove {s : State} {p : Fin 64} {i : Fin 2} {m : BitVec 2048} {c : Instr} {take : Bool}
    (hc : (c, take, mU m 0 1) ∈ [(Instr.blockTake p i, true, 0x15), (.blockRelease p i, false, 0x16)]) :
    ∃ q : BitVec 2048 → Bool, q m = true ∧ exec c s = act (fun s => s.mbxTake p i q fun s m => s.blockMove p i m take) s := by
  simp only [List.mem_cons, Prod.mk.injEq, List.not_mem_nil, or_false] at hc
  obtain ⟨rfl, rfl, ht⟩ | ⟨rfl, rfl, ht⟩ := hc
  · exact ⟨isType 0x15, isType_of_eq ht, rfl⟩
  · exact ⟨isType 0x16, isType_of_eq ht, rfl⟩

/-- A request that is accepted and answered at once changes nothing else. -/
theorem act_acceptsAtOnce {s : State} {p : Fin 64} {i : Fin 2} {m : BitVec 2048} (hg : s.Good) (h : s.Asked p i m) {q : BitVec 2048 → Bool}
    (hq : q m = true) {f : State → BitVec 2048 → State} (hf : f s m = (s.acceptSeq m).safetyReply p i m 0 0) :
    act (fun s => s.mbxTake p i q f) s = .next ((s.acceptSeq m).safetyReply p i m 0 0) := by
  obtain ⟨n, pavs, tx, hframe⟩ := safetyReply_frame (s.acceptSeq m) p i m 0 0
  refine plain hg ((mbxTake_of_asked h hq f).trans hf) ((safetyReply_core ..).trans (acceptSeq_core s m)) ?_ ?_ ?_ <;> rw [hframe] <;> rfl

theorem safeSend_goes {s : State} {p : Fin 64} {i : Fin 2} {m : BitVec 2048} (hg : s.Good) (h : s.Asked p i m) (hpasses : s.safetyCheck p m = 0)
    (htype : mU m 0 1 = 0x14) (hsent : s.dome.alarmSent = false) (hwaits : s.alarmWaits = false) :
    ∃ t, exec (.safeSend p i) s = .next t ∧ t.dome.alarms = [] ∧ t.dome.alarmSent = true ∧ t.spire.msgSeq = s.spire.msgSeq + 1
      ∧ mU ((t.pavs[p.val]).mbox[i.val]).out 2 1 = 0 := by
  have ⟨hbusy, _, _, hrun, _⟩ := h
  obtain ⟨hnone, hstate⟩ := after_alarmQueued_free hg.2.2 p i m hrun hsent hwaits
  obtain ⟨hgone, hseq, hmbox⟩ := parts_of_alarmState hstate
  refine ⟨_, exec_safeSend hg h hpasses htype, ?_⟩
  rw [run_pavs, run_dome, run_spire, mbox_of_mboxes hmbox]
  refine ⟨hnone, hgone, hseq, ?_⟩
  exact alarmQueued_reads m hbusy

theorem safeSend_waits {s : State} {p : Fin 64} {i : Fin 2} {m : BitVec 2048} (hg : s.Good) (h : s.Asked p i m) (hpasses : s.safetyCheck p m = 0)
    (htype : mU m 0 1 = 0x14) (hheld : s.dome.alarmSent = true ∨ s.alarmWaits = true) :
    ∃ t, exec (.safeSend p i) s = .next t ∧ t.dome.alarms.map Prod.fst = [w32 (mU m 16 4)] ∧ t.spire = s.spire := by
  refine ⟨_, exec_safeSend hg h hpasses htype, ?_⟩
  rw [run_dome, run_spire, after_alarmQueued_held hg.2.2 p i m hheld]
  obtain ⟨belvs, n, pavs, tx, hframe⟩ := alarmQueued_frame s p i m
  rw [hframe]
  exact ⟨rfl, rfl⟩

theorem quiesceTimeout_handing {s : State} {b : BitVec 8} {h : Handover} (hg : s.Good)
    (hfind : s.dome.ho.find? (fun h => h.block == b.toNat) = some h) (hnodup : s.dome.ho.Nodup) :
    ∃ t, exec (.handoverQuiesceTimeout b) s = .next t ∧ t.dome.held = putB s.dome.held b.toNat h.toSecure ∧ h ∉ t.dome.ho := by
  have habandon := blockAbandon_handing s (blockOf b.toNat)
  have hheld : (s.blockAbandon (blockOf b.toNat)).dome.held = s.dome.held := congrArg Prod.fst habandon
  have hho : (s.blockAbandon (blockOf b.toNat)).dome.ho = s.dome.ho := congrArg Prod.snd habandon
  have hended := handoverEnd_handing (s.blockAbandon (blockOf b.toNat)) h
  rw [hheld, hho] at hended
  exact ⟨_, exec_quiesceTimeout_ends hg hfind, handing_ended (t := s.run _) hfind hnodup hended⟩

/-- Settles O56: the ALARM's turn after SAFE_SEND, HELD_CONSOLE by its checks, and a hand-over by its begin and its two ends. -/
theorem alarmsAndHandOver : Obligations.AlarmsAndHandOver := by
  unfold Obligations.AlarmsAndHandOver
  refine ⟨fun s p i m hg h hpasses => ⟨safeSend_goes hg h hpasses, safeSend_waits hg h hpasses, fun htype hrefused => ?_, fun htype hfields hchecks => ?_⟩,
    fun s p i m c take hg h hpasses hc => ?_,
    fun s b h hg hfind hnodup => ⟨exec_quiesceDone_busy hg hfind, fun hbusy => ?_, quiesceTimeout_handing hg hfind hnodup⟩,
    fun s b hg hnone => ⟨exec_quiesceDone_none hg hnone, exec_quiesceTimeout_none hg hnone⟩⟩
  · exact act_answers (q := isType 0x17) (f := fun s m => s.heldConsole p i m) hg h (isType_of_eq htype)
      (heldConsole_of_refused hpasses (Bool.or_eq_true_iff.2 hrefused))
  · exact exec_heldConsole_allowed hg h hpasses htype (by rw [State.heldRefused, hfields, hchecks]; rfl)
  · obtain ⟨q, hq, hexec⟩ := exec_blockMove (s := s) hc
    rw [hexec]
    refine ⟨fun hfixed => ?_, fun hmovable hmoving => ?_, fun hmovable hstill hheld => ?_, fun hmovable hstill hheld => ?_⟩
    · exact act_answers hg h hq (blockMove_of_fixed hpasses hfixed)
    · exact act_answers hg h hq (blockMove_of_moving hpasses hmovable hmoving)
    · exact act_acceptsAtOnce hg h hq (blockMove_of_held hpasses hmovable hstill hheld)
    · obtain ⟨hho, hkept, hblock, hto, hseq, hbusy⟩ := blockMove_begun (i := i) hpasses hmovable hstill hheld
      exact ⟨_, act_takes (g := fun s => s.blockMove p i m take) hg h hq rfl (blockMove_core ..), hho, hkept, hblock, hto, hseq, hbusy.trans h.1⟩
  · exact ⟨_, exec_quiesceDone_ends hg hfind hbusy, handing_ended (t := s.run _) hfind hnodup (handoverEnd_handing s h)⟩

end Sys2Proof.Machine
end

section
/-!
SUPPORT. What a field of a message reads as (12, Mailboxes).
-/
namespace Sys2Proof.Machine
open Sys2Proof

/-- The fields stand in order: each one's last byte is below the next one's first. -/
def InOrder (l : List (Nat × Nat × Nat)) : Prop := l.Pairwise fun a b => a.1 + a.2.1 ≤ b.1

theorem fieldValue_add_le (q : Nat × Nat × Nat) : fieldValue q + 2 ^ (8 * q.1) ≤ 2 ^ (8 * (q.1 + q.2.1)) := by
  have hlt : q.2.2 % 2 ^ (8 * q.2.1) + 1 ≤ 2 ^ (8 * q.2.1) := Nat.mod_lt _ (Nat.two_pow_pos _)
  calc fieldValue q + 2 ^ (8 * q.1) = (q.2.2 % 2 ^ (8 * q.2.1) + 1) * 2 ^ (8 * q.1) := (Nat.succ_mul ..).symm
    _ ≤ 2 ^ (8 * q.2.1) * 2 ^ (8 * q.1) := Nat.mul_le_mul_right _ hlt
    _ = 2 ^ (8 * (q.1 + q.2.1)) := by rw [← Nat.pow_add, Nat.mul_add, Nat.add_comm]

/-- Fields in order between two bytes fill no more than the bytes between. -/
theorem sum_fieldValues_add_le {l : List (Nat × Nat × Nat)} (h : InOrder l) {a k : Nat} (ha : a ≤ k) (hfrom : ∀ q ∈ l, a ≤ q.1)
    (hto : ∀ q ∈ l, q.1 + q.2.1 ≤ k) : (l.map fieldValue).sum + 2 ^ (8 * a) ≤ 2 ^ (8 * k) := by
  induction l generalizing a with
  | nil => simpa using Nat.pow_le_pow_right (by decide) (Nat.mul_le_mul_left 8 ha)
  | cons q qs ih =>
    rw [InOrder, List.pairwise_cons] at h
    obtain ⟨hafter, hrest⟩ := h
    have htail := ih hrest (hto q List.mem_cons_self) hafter fun r hr => hto r (List.mem_cons_of_mem q hr)
    have hhead := fieldValue_add_le q
    have hstart : 2 ^ (8 * a) ≤ 2 ^ (8 * q.1) := Nat.pow_le_pow_right (by decide) (Nat.mul_le_mul_left 8 (hfrom q List.mem_cons_self))
    rw [List.map_cons, List.sum_cons]
    omega

/-- Fields from a byte on fill whole multiples of it. -/
theorem dvd_sum_fieldValues {l : List (Nat × Nat × Nat)} {a : Nat} (h : ∀ q ∈ l, a ≤ q.1) : 2 ^ (8 * a) ∣ (l.map fieldValue).sum := by
  refine List.dvd_sum fun x hx => ?_
  obtain ⟨q, hq, rfl⟩ := List.mem_map.1 hx
  exact (Nat.pow_dvd_pow 2 (Nat.mul_le_mul_left 8 (h q hq))).mul_left _

theorem uAt_packed {lo v c k n : Nat} (hlo : lo < 2 ^ (8 * k)) (hv : v < 2 ^ (8 * n)) : uAt (lo + v * 2 ^ (8 * k) + 2 ^ (8 * (k + n)) * c) k n = v := by
  have hsum : lo + v * 2 ^ (8 * k) + 2 ^ (8 * (k + n)) * c = lo + (v + 2 ^ (8 * n) * c) * 2 ^ (8 * k) := by
    rw [Nat.mul_add, Nat.pow_add]
    ring
  rw [uAt_eq_div, hsum, Nat.add_mul_div_right _ _ (Nat.two_pow_pos _), Nat.div_eq_of_lt hlo, Nat.zero_add, Nat.add_mul_mod_self_left,
    Nat.mod_eq_of_lt hv]

/-- A field of a message whose fields stand in order within its 256 bytes reads as its value. -/
theorem mU_mbxMsg {l : List (Nat × Nat × Nat)} (horder : InOrder l) (hfit : ∀ q ∈ l, q.1 + q.2.1 ≤ 256) {k n v : Nat} (h : (k, n, v) ∈ l) :
    mU (mbxMsg l) k n = v % 2 ^ (8 * n) := by
  have hend : k + n ≤ 256 := hfit _ h
  obtain ⟨xs, ys, rfl⟩ := List.append_of_mem h
  rw [InOrder, List.pairwise_append, List.pairwise_cons] at horder
  obtain ⟨hbefore, ⟨hys, -⟩, hxs⟩ := horder
  have hlo := sum_fieldValues_add_le hbefore (Nat.zero_le k) (fun q _ => Nat.zero_le q.1) fun q hq => hxs q hq _ List.mem_cons_self
  obtain ⟨c, hc⟩ := dvd_sum_fieldValues hys
  have hmod : (mbxMsg (xs ++ (k, n, v) :: ys)).toNat % 2 ^ (8 * 256)
      = ((xs.map fieldValue).sum + v % 2 ^ (8 * n) * 2 ^ (8 * k) + 2 ^ (8 * (k + n)) * c) % 2 ^ (8 * 256) := by
    rw [toNat_mbxMsg, Nat.mod_mod, List.map_append, List.sum_append, List.map_cons, List.sum_cons, hc, fieldValue_eq, Nat.add_assoc]
  rw [mU, uAt_of_mod_eq hmod hend]
  exact uAt_packed (Nat.lt_of_lt_of_le (Nat.lt_add_of_pos_right (Nat.two_pow_pos _)) hlo) (Nat.mod_lt _ (Nat.two_pow_pos _))

/-- A field whose value it holds reads as that value. -/
theorem mU_mbxMsg_of_lt {l : List (Nat × Nat × Nat)} (horder : InOrder l) (hfit : ∀ q ∈ l, q.1 + q.2.1 ≤ 256) {k n v : Nat} (h : (k, n, v) ∈ l)
    (hv : v < 2 ^ (8 * n)) : mU (mbxMsg l) k n = v :=
  (mU_mbxMsg horder hfit h).trans (Nat.mod_eq_of_lt hv)

theorem lcOf_lt (w : Word) : lcOf w < 2 ^ (8 * 1) := by
  unfold lcOf
  dsimp only
  split_ifs <;> decide

end Sys2Proof.Machine
end

section
/-!
PROOF. The mailboxes: SEND, ACK, the timeout and the replies of INFO and CHALLENGE (R452 to R455, R481). From these O52 is settled.
-/
namespace Sys2Proof.Machine
open Sys2Proof

/-! ### SEND and ACK (R452, R453) -/

/-- A pass over the two slots that acts on one of them. -/
theorem foldl_only {f : State → Fin 2 → State} {i : Fin 2} (h : ∀ j, j ≠ i → ∀ t, f t j = t) (s : State) : (idx 2).foldl f s = f s i := by
  show f (f s 0) 1 = f s i
  by_cases hi : i = 0
  · subst hi
    exact h 1 (by decide) _
  · rw [h 0 (Ne.symm hi), Fin.eq_one_of_ne_zero i hi]

section
variable {s : State} {p : Fin 64} {i : Fin 2} {v : Word}

theorem mbxAck_only (hbit : v.getLsbD i.val = true) (hothers : ∀ j : Fin 2, j ≠ i → v.getLsbD j.val = false) :
    s.mbxAck p v = s.modMbox p i fun x => { x with full := false } := by
  rw [State.mbxAck, foldl_only fun j hj t => by rw [hothers j hj]; rfl]
  exact if_pos hbit

theorem mbxSend_occupied (hbit : v.getLsbD i.val = true) (hothers : ∀ j : Fin 2, j ≠ i → v.getLsbD j.val = false)
    (h : ((s.pavs[p.val]).mbox[i.val]).busy = true ∨ ((s.pavs[p.val]).mbox[i.val]).full = true) :
    s.mbxSend p v = s.modPav p fun q => { q with sendErr := true } := by
  rw [State.mbxSend, foldl_only (i := i) fun j hj t => by simp [hothers j hj]]
  simp [hbit, h]

/-- The slot with its message handed over. -/
def State.sent (s : State) (p : Fin 64) (i : Fin 2) : State := s.modMbox p i fun x => { x with busy := true, taken := false }

theorem mbxSend_taken (hbit : v.getLsbD i.val = true) (hothers : ∀ j : Fin 2, j ≠ i → v.getLsbD j.val = false)
    (hbusy : ((s.pavs[p.val]).mbox[i.val]).busy = false) (hfull : ((s.pavs[p.val]).mbox[i.val]).full = false)
    (h : s.dome.st = .run ∨ s.dome.st = .boot) : s.mbxSend p v = s.sent p i := by
  rw [State.mbxSend, foldl_only (i := i) fun j hj t => by simp [hothers j hj]]
  rcases h with h | h <;> simp [hbit, hbusy, hfull, h, State.sent]

theorem mbxSend_down (hbit : v.getLsbD i.val = true) (hothers : ∀ j : Fin 2, j ≠ i → v.getLsbD j.val = false)
    (hbusy : ((s.pavs[p.val]).mbox[i.val]).busy = false) (hfull : ((s.pavs[p.val]).mbox[i.val]).full = false)
    (h : s.dome.st = .down) : s.mbxSend p v = (s.sent p i).mbxReply p i (downReply ((s.pavs[p.val]).mbox[i.val]).inp) := by
  rw [State.mbxSend, foldl_only (i := i) fun j hj t => by simp [hothers j hj]]
  simp [hbit, hbusy, hfull, h, State.sent]

end

theorem downReply_reads (req : BitVec 2048) : mU (downReply req) 2 1 = 0x32 ∧ mU (downReply req) 4 4 = mU req 4 4 := by
  have horder : InOrder [(2, 1, stDomeDown), (4, 4, mU req 4 4)] := by simp [InOrder]
  have hfit : ∀ q ∈ [(2, 1, stDomeDown), (4, 4, mU req 4 4)], q.1 + q.2.1 ≤ 256 := by simp
  exact ⟨mU_mbxMsg_of_lt horder hfit List.mem_cons_self (by decide), mU_mbxMsg_of_lt horder hfit (by simp) (mU_lt req 4 4)⟩

/-! ### Plain replies (R453) -/

/-- A reply with further fields, these in order from byte 8 on. -/
def RepliesWith (more : List (Nat × Nat × Nat)) : Prop := InOrder more ∧ (∀ q ∈ more, 8 ≤ q.1) ∧ ∀ q ∈ more, q.1 + q.2.1 ≤ 256

section
variable {more : List (Nat × Nat × Nat)}

theorem replyHdr_inOrder (h : RepliesWith more) (req : BitVec 2048) (status : Nat) : InOrder (replyHdr req status ++ more) := by
  obtain ⟨horder, hfrom8, -⟩ := h
  rw [InOrder, List.pairwise_append]
  refine ⟨by simp [replyHdr], horder, fun a ha b hb => ?_⟩
  have hb := hfrom8 b hb
  simp only [replyHdr, List.mem_cons, List.not_mem_nil, or_false] at ha
  rcases ha with rfl | rfl | rfl | rfl <;> dsimp only <;> omega

theorem replyHdr_fits (h : RepliesWith more) (req : BitVec 2048) (status : Nat) : ∀ q ∈ replyHdr req status ++ more, q.1 + q.2.1 ≤ 256 := by
  intro q hq
  obtain ⟨-, -, hfit⟩ := h
  rcases List.mem_append.1 hq with hq | hq
  · simp only [replyHdr, List.mem_cons, List.not_mem_nil, or_false] at hq
    rcases hq with rfl | rfl | rfl | rfl <;> dsimp only <;> omega
  · exact hfit q hq

/-- A field of a reply beyond its header. -/
theorem mU_reply_more (h : RepliesWith more) (req : BitVec 2048) (status : Nat) {k n v : Nat} (hmem : (k, n, v) ∈ more) (hv : v < 2 ^ (8 * n)) :
    mU (mbxMsg (replyHdr req status ++ more)) k n = v :=
  mU_mbxMsg_of_lt (replyHdr_inOrder h req status) (replyHdr_fits h req status) (List.mem_append_right _ hmem) hv

/-- The header of a reply. -/
theorem reply_reads (h : RepliesWith more) (req : BitVec 2048) {status : Nat} (hstatus : status < 256) :
    let r := mbxMsg (replyHdr req status ++ more)
    mU r 0 1 = mU req 0 1 ||| 0x80 ∧ mU r 1 1 = mU req 1 1 ∧ mU r 2 1 = status ∧ mU r 4 4 = mU req 4 4 := by
  have hread {k n v : Nat} (hmem : (k, n, v) ∈ replyHdr req status) (hv : v < 2 ^ (8 * n)) : mU (mbxMsg (replyHdr req status ++ more)) k n = v :=
    mU_mbxMsg_of_lt (replyHdr_inOrder h req status) (replyHdr_fits h req status) (List.mem_append_left _ hmem) hv
  exact ⟨hread (by simp [replyHdr]) (Nat.or_lt_two_pow (mU_lt req 0 1) (by decide)), hread (by simp [replyHdr]) (mU_lt req 1 1),
    hread (by simp [replyHdr]) hstatus, hread (by simp [replyHdr]) (mU_lt req 4 4)⟩

end

theorem repliesWith_nil : RepliesWith [] := ⟨List.Pairwise.nil, by simp, by simp⟩

theorem repliesWith_info (s : State) : RepliesWith s.infoFields := ⟨by simp [InOrder, State.infoFields], by simp [State.infoFields], by simp [State.infoFields]⟩

theorem repliesWith_nonce (n : Nat) : RepliesWith [(8, 32, n)] := ⟨by simp [InOrder], by simp, by simp⟩

/-! ### Requests that a reply ends -/

/-- A reply is all that a request causes, but for changes that neither follow-ups nor memory see. -/
theorem plain_mbxReply {s t : State} {f : State → State} {p : Fin 64} {i : Fin 2} {r : BitVec 2048} (hg : s.Good) (e : f s = t.mbxReply p i r)
    (hcore : t.core = s.core) (hstores : t.stores = s.stores) (himg : t.img = s.img) (hpending : t.pending = s.pending) :
    act f s = .next (t.mbxReply p i r) := by
  obtain ⟨pavs, tx, hreply⟩ := mbxReply_eq t p i r
  refine plain hg e ((mbxReply_core ..).trans hcore) ?_ ?_ ?_ <;> rw [hreply] <;> assumption

theorem act_answersWith {s : State} {p : Fin 64} {i : Fin 2} {m : BitVec 2048} (hg : s.Good) (h : s.Asked p i m) {q : BitVec 2048 → Bool}
    (hq : q m = true) {f : State → BitVec 2048 → State} {status : Nat} {more : List (Nat × Nat × Nat)} (hf : f s m = s.answer p i m status more) :
    act (fun s => s.mbxTake p i q f) s = .next (s.answer p i m status more) :=
  plain_mbxReply hg ((mbxTake_of_asked h hq f).trans hf) rfl rfl rfl rfl

/-- The slot once its reply is in. -/
theorem mbxReply_fills {s : State} {p : Fin 64} {i : Fin 2} (r : BitVec 2048) (h : ((s.pavs[p.val]).mbox[i.val]).busy = true) :
    let x := ((s.mbxReply p i r).pavs[p.val]).mbox[i.val]
    x.busy = false ∧ x.full = true ∧ x.out = r := by
  dsimp only
  rw [mbxReply_slot r h]
  exact ⟨rfl, rfl, rfl⟩

theorem mbxReply_dome (s : State) (p : Fin 64) (i : Fin 2) (r : BitVec 2048) : (s.mbxReply p i r).dome = s.dome := by
  obtain ⟨pavs, tx, hreply⟩ := mbxReply_eq s p i r
  rw [hreply]

theorem mbxReply_freeCount (s : State) (p : Fin 64) (i : Fin 2) (r : BitVec 2048) : (s.mbxReply p i r).freeCount = s.freeCount := by
  obtain ⟨pavs, tx, hreply⟩ := mbxReply_eq s p i r
  rw [hreply]

/-! ### The commands -/

section
variable {s : State} {p : Fin 64} {i : Fin 2} {v : Word} (hg : s.Good)
include hg

theorem exec_mbxAck_only (hto : s.HostTo p) (hbit : v.getLsbD i.val = true) (hothers : ∀ j : Fin 2, j ≠ i → v.getLsbD j.val = false) :
    exec (.mbxAck p v) s = .next (s.modMbox p i fun x => { x with full := false }) :=
  plain hg ((hostAcc_on hto _).trans (mbxAck_only hbit hothers)) (modMbox_core ..) rfl rfl rfl

theorem exec_mbxSend_occupied (hto : s.HostTo p) (hbit : v.getLsbD i.val = true) (hothers : ∀ j : Fin 2, j ≠ i → v.getLsbD j.val = false)
    (h : ((s.pavs[p.val]).mbox[i.val]).busy = true ∨ ((s.pavs[p.val]).mbox[i.val]).full = true) :
    exec (.mbxSend p v) s = .next (s.modPav p fun q => { q with sendErr := true }) :=
  plain hg ((hostAcc_on hto _).trans (mbxSend_occupied hbit hothers h)) (modPav_core fun _ => rfl) rfl rfl rfl

theorem exec_mbxSend_taken (hto : s.HostTo p) (hbit : v.getLsbD i.val = true) (hothers : ∀ j : Fin 2, j ≠ i → v.getLsbD j.val = false)
    (hbusy : ((s.pavs[p.val]).mbox[i.val]).busy = false) (hfull : ((s.pavs[p.val]).mbox[i.val]).full = false)
    (h : s.dome.st = .run ∨ s.dome.st = .boot) : exec (.mbxSend p v) s = .next (s.sent p i) :=
  plain hg ((hostAcc_on hto _).trans (mbxSend_taken hbit hothers hbusy hfull h)) (modMbox_core ..) rfl rfl rfl

/-- A Dome that is down answers at once (R455). -/
theorem exec_mbxSend_down (hto : s.HostTo p) (hbit : v.getLsbD i.val = true) (hothers : ∀ j : Fin 2, j ≠ i → v.getLsbD j.val = false)
    (hbusy : ((s.pavs[p.val]).mbox[i.val]).busy = false) (hfull : ((s.pavs[p.val]).mbox[i.val]).full = false) (h : s.dome.st = .down) :
    ∃ t, exec (.mbxSend p v) s = .next t ∧ ((t.pavs[p.val]).mbox[i.val]).busy = false ∧ ((t.pavs[p.val]).mbox[i.val]).full = true
      ∧ mU ((t.pavs[p.val]).mbox[i.val]).out 2 1 = 0x32 ∧ mU ((t.pavs[p.val]).mbox[i.val]).out 4 4 = mU ((s.pavs[p.val]).mbox[i.val]).inp 4 4 := by
  have hsent : (((s.sent p i).pavs[p.val]).mbox[i.val]).busy = true := by simp [State.sent]
  obtain ⟨hdone, hout, hreply⟩ := mbxReply_fills (downReply ((s.pavs[p.val]).mbox[i.val]).inp) hsent
  refine ⟨_, plain_mbxReply hg ((hostAcc_on hto _).trans (mbxSend_down hbit hothers hbusy hfull h)) (modMbox_core ..) rfl rfl rfl, hdone, hout, ?_⟩
  rw [hreply]
  exact downReply_reads _

theorem exec_mailboxTimeout_idle (h : ((s.pavs[p.val]).mbox[i.val]).busy = false) : exec (.mailboxTimeout p i) s = .next s :=
  plain hg (by simp [State.mbxTimeout, h]) rfl rfl rfl rfl

/-- A time-out is counted and answers in the Dome's place (R454). -/
theorem exec_mailboxTimeout_busy (h : ((s.pavs[p.val]).mbox[i.val]).busy = true) :
    ∃ t, exec (.mailboxTimeout p i) s = .next t ∧ ((t.pavs[p.val]).mbox[i.val]).busy = false ∧ ((t.pavs[p.val]).mbox[i.val]).full = true
      ∧ mU ((t.pavs[p.val]).mbox[i.val]).out 2 1 = 10 ∧ t.dome.mbxTimeouts = satInc s.dome.mbxTimeouts := by
  let counted : State := { s with dome := { s.dome with mbxTimeouts := satInc s.dome.mbxTimeouts } }
  let u := counted.forgetReply p i
  have htimes : s.mbxTimeout p i = u.mbxReply p i (timeoutReply ((s.pavs[p.val]).mbox[i.val]).inp) := by
    simp [State.mbxTimeout, h, u, counted]
  have hcore : u.core = s.core := by rw [← mbxReply_core u p i, ← htimes, mbxTimeout_core]
  have hbusy : ((u.pavs[p.val]).mbox[i.val]).busy = true := h
  obtain ⟨hdone, hout, hreply⟩ := mbxReply_fills (timeoutReply ((s.pavs[p.val]).mbox[i.val]).inp) hbusy
  refine ⟨_, plain_mbxReply hg htimes hcore rfl rfl rfl, hdone, hout, ?_, ?_⟩
  · obtain ⟨-, -, hstatus, -⟩ := reply_reads repliesWith_nil ((s.pavs[p.val]).mbox[i.val]).inp (status := 10) (by decide)
    rw [hreply]
    exact hstatus
  · rw [mbxReply_dome]
    rfl

theorem exec_mbxBadType_of_asked {m : BitVec 2048} (h : s.Asked p i m) (htype : mbxTypes.contains (mU m 0 1) = false) :
    exec (.mbxBadType p i) s = .next (s.answer p i m 9 []) :=
  act_answersWith hg h (q := fun m => !mbxTypes.contains (mU m 0 1)) (f := fun s m => s.answer p i m 9 []) (by simp only [htype, Bool.not_false]) rfl

/-- INFO (R453, R604). -/
theorem exec_info {m : BitVec 2048} (h : s.Asked p i m) (htype : mU m 0 1 = 1) :
    ∃ t, exec (.info p i) s = .next t ∧ ((t.pavs[p.val]).mbox[i.val]).busy = false ∧ ((t.pavs[p.val]).mbox[i.val]).full = true
      ∧ ((t.pavs[p.val]).mbox[i.val]).out = mbxMsg (replyHdr m 0 ++ s.infoFields) := by
  obtain ⟨hbusy, -⟩ := id h
  exact ⟨_, act_answersWith hg h (isType_of_eq htype) (f := fun s m => s.answer p i m 0 s.infoFields) rfl, mbxReply_fills _ hbusy⟩

/-- CHALLENGE of the manager draws a nonce (R481). -/
theorem exec_challenge_manager {m : BitVec 2048} (h : s.Asked 0 i m) (htype : mU m 0 1 = 4) :
    ∃ t n, exec (.challenge 0 i) s = .next t ∧ t.dome.nonce = some n ∧ t.freeCount = s.freeCount + 1
      ∧ ((t.pavs[(0 : Fin 64).val]).mbox[i.val]).out = mbxMsg (replyHdr m 0 ++ [(8, 32, n.toNat)]) := by
  let u : State := { s with freeCount := s.freeCount + 1, dome := { s.dome with nonce := some (Config.freeNonce s.freeCount) } }
  obtain ⟨hbusy, -⟩ := id h
  have hu : ((u.pavs[(0 : Fin 64).val]).mbox[i.val]).busy = true := hbusy
  have hdraws : s.challengeDo 0 i m = u.mbxReply 0 i (mbxMsg (replyHdr m 0 ++ [(8, 32, (Config.freeNonce s.freeCount).toNat)])) := rfl
  obtain ⟨-, -, hreply⟩ := mbxReply_fills (mbxMsg (replyHdr m 0 ++ [(8, 32, (Config.freeNonce s.freeCount).toNat)])) hu
  refine ⟨_, Config.freeNonce s.freeCount,
    plain_mbxReply hg ((mbxTake_of_asked h (isType_of_eq htype) fun s m => s.challengeDo 0 i m).trans hdraws) rfl rfl rfl rfl, ?_, ?_, hreply⟩
  · rw [mbxReply_dome]
  · rw [mbxReply_freeCount]

theorem exec_challenge_other {m : BitVec 2048} (h : s.Asked p i m) (htype : mU m 0 1 = 4) (hp : p ≠ 0) :
    exec (.challenge p i) s = .next (s.answer p i m 7 []) :=
  act_answersWith hg h (isType_of_eq htype) (f := fun s m => s.challengeDo p i m) (if_pos hp)

end

/-- A reply in its slot: the request's TYPE, byte 1 and MSG_ID with the STATUS. -/
theorem answer_replies {s : State} {p : Fin 64} {i : Fin 2} (m : BitVec 2048) {st : Nat} (h : ((s.pavs[p.val]).mbox[i.val]).busy = true)
    (hst : st < 256) : ∃ r, s.answer p i m st [] =
        (s.modMbox p i fun x => { x with out := r, full := true, busy := false, taken := false }).msi p (bits (s.pavs[p.val]).mboxCfg.toNat 4 0)
      ∧ mU r 0 1 = mU m 0 1 ||| 0x80 ∧ mU r 1 1 = mU m 1 1 ∧ mU r 2 1 = st ∧ mU r 4 4 = mU m 4 4 :=
  ⟨_, if_pos h, reply_reads repliesWith_nil m hst⟩

/-- Settles O52: of the passes over the two slots only the one whose bit is written acts, and the fields of a reply stand in order,
so that each reads as its value. -/
theorem mailboxes : Obligations.Mailboxes := by
  unfold Obligations.Mailboxes
  refine ⟨fun s p i hg => ⟨fun v hto hbit hothers => ⟨fun hbusy hfull hrun => exec_mbxSend_taken hg hto hbit hothers hbusy hfull hrun,
    fun hbusy hfull hdown => exec_mbxSend_down hg hto hbit hothers hbusy hfull hdown, fun h => exec_mbxSend_occupied hg hto hbit hothers h,
    exec_mbxAck_only hg hto hbit hothers⟩, exec_mailboxTimeout_busy hg, exec_mailboxTimeout_idle hg, fun m h htype => exec_mbxBadType_of_asked hg h htype,
    fun m st hbusy hst => answer_replies m hbusy hst, fun hbusy r => if_neg (Bool.not_eq_true _ |>.mpr hbusy)⟩,
    fun s p i m hg h => ⟨fun htype => ?_, fun htype hp => ?_, exec_challenge_other hg h⟩⟩
  · obtain ⟨t, hnext, hbusy, hfull, hout⟩ := exec_info hg h htype
    obtain ⟨hty, -, hst, -⟩ := reply_reads (repliesWith_info s) m (status := 0) (by decide)
    have hread {k n v : Nat} (hmem : (k, n, v) ∈ s.infoFields) (hv : v < 2 ^ (8 * n)) := mU_reply_more (repliesWith_info s) m 0 hmem hv
    obtain ⟨-, -, -, hrun, -⟩ := id h
    rw [htype] at hty
    refine ⟨t, hnext, hbusy, hfull, ?_⟩
    rw [hout]
    exact ⟨hty, hst, hread (by simp [State.infoFields]) (lcOf_lt _), hread (by simp [State.infoFields, hrun, domeCode]) (by decide),
      hread (by simp [State.infoFields]) s.dome.fwVersion.isLt, hread (by simp [State.infoFields]) (by omega), hread (by simp [State.infoFields]) s.dome.serial.isLt⟩
  · subst hp
    obtain ⟨t, n, hnext, hnonce, hcount, hout⟩ := exec_challenge_manager hg h htype
    obtain ⟨-, -, hst, -⟩ := reply_reads (repliesWith_nonce n.toNat) m (status := 0) (by decide)
    refine ⟨t, n, hnext, hnonce, hcount, ?_⟩
    rw [hout]
    exact ⟨mU_reply_more (repliesWith_nonce n.toNat) m 0 (by simp) n.isLt, hst⟩

end Sys2Proof.Machine
end

section
/-!
PROOF. The boot (R584). O59 is refuted by an error that the boot meets in the Keep repair map (R431, R437).
-/
namespace Sys2Proof.Machine
open Sys2Proof

/-- A device after a power-on reset whose Keep has a word of the repair map that cannot be corrected. -/
def repairSpoilt : State := { State.reset with poison := [(.keep, 0x1000)] }

theorem repairSpoilt_inv : repairSpoilt.Inv := by
  rw [State.Inv]
  decide

/-- What is outside at its boot: XIN becomes stable, the flash is empty, every channel is fitted and no bit fails the march. -/
def plainBoot : BootEnv :=
  { xinStable := true, refclk := 15, flash := [], dies := Vector.replicate 8 { gb := 8, width := 16, ranks2 := false, attempts := [] }, march := [] }

set_option maxRecDepth 2000 in
/-- Entry 0 of the log, in the Orangery just cleared, begins with the code of EV_ECC_UE. -/
theorem repairSpoilt_logs : cellGet (repairSpoilt.run fun s => s.cleared plainBoot).img.org (logAddr 0) = BitVec.ofNat 8 evEccUe := by
  decide

/-- Refutes O59: a boot clears the Orangery and then reads the Keep repair map (R431, `State.bootMemory`), and an error that this read meets is logged
in the Orangery (R422, R437, `State.keepNote`). In `repairSpoilt` the map's first word has one, where the clause of a boot without PRESERVE_LOG has
every byte of the Orangery zero. -/
theorem not_boot : ¬ Obligations.Boot := by
  unfold Obligations.Boot
  intro h
  obtain ⟨-, hclears⟩ := h
  obtain ⟨-, -, -, hall, -⟩ := hclears repairSpoilt plainBoot repairSpoilt_inv (by decide) rfl (.inl rfl)
  obtain ⟨-, hzero⟩ := hall rfl
  have hcleared := hzero (logAddr 0) (by decide)
  rw [repairSpoilt_logs] at hcleared
  exact absurd hcleared (by decide)
end Sys2Proof.Machine
end

section
/-!
PROOF. The sample frames of the Belfry (R530). O40 is refuted by an event held for the budget period in which the frame starts (R349).
-/
namespace Sys2Proof.Machine
open Sys2Proof

/-- An EV_PAV_RESET held until the next budget period. -/
def heldEvent : Ev := { code := evPavReset, inst := 1, time := 1 }

/-- A device that runs, 1 ns before the second budget period and before the start of sample frame 48. The manager's event ring of 16 entries is empty,
and the manager holds an event for the period. -/
def frameDue : State :=
  { State.reset with
    pavs := upd State.reset.pavs 0 fun v => { v with bme := true, evHold := [heldEvent], eq := { v.eq with enable := true, size := 4 } }
    spire := { State.reset.spire with now := 999999 }
    pwr := { booted := true, stage := 11 }
    dome := { State.reset.dome with st := .run } }

theorem frameDue_good : frameDue.Good := by
  rw [State.Good, State.Inv, State.Steady]
  decide

theorem exec_sampleFrame_of_running {s : State} (h : s.pwr.reset = .running) : exec .sampleFrame s = .next (s.run fun u => u.frame48.after) :=
  act_of_running h _

set_option maxRecDepth 8000 in
/-- The event's record and the ring's index go to the host before the two frames are sent. -/
theorem frameDue_sends : (frameDue.run fun u => u.frame48.after).tx.length = 4 := by
  with_unfolding_all decide

/-- Refutes O40: a sample frame is mixed at its start, and Spire time that reaches a new budget period on the way releases the events held for it (R344,
R349, `State.newPeriod`). In `frameDue` one is held, and its record goes to the host, where the clause of a silent frame sends the two frames alone. -/
theorem not_gazeboDrive : ¬ Obligations.GazeboDrive := by
  unfold Obligations.GazeboDrive
  intro h
  obtain ⟨-, -, -, -, -, hframe, -⟩ := h frameDue frameDue_good
  obtain ⟨t, hexec, htx, -⟩ := hframe rfl (by decide) (by decide)
  rw [exec_sampleFrame_of_running rfl, Host.Outcome.next.injEq] at hexec
  have hlength := congrArg List.length htx
  rw [← hexec, frameDue_sends] at hlength
  exact absurd hlength (by decide)
end Sys2Proof.Machine
end

section
/-!
PROOF. The scans of the controls (14): what the end of a scan does to one control and leaves of the others (R506 to R516). From these O39 is settled.
-/
namespace Sys2Proof.Machine
open Sys2Proof

/-! ### What leaves the Gazebo as it is -/

theorem gaz_of_unnoticed {s t : State} (h : t.unnoticed = s.unnoticed) : t.gaz = s.gaz := (congrArg State.gaz h :)

@[simp] theorem raise_gaz (s : State) (logged : Ev) (dests : List (Fin 64 × Ev)) : (s.raise logged dests).gaz = s.gaz :=
  gaz_of_unnoticed (raise_unnoticed ..)

theorem newPeriod_gaz (s : State) (k : Nat) : (s.newPeriod k).gaz = s.gaz :=
  (foldl_keeps State.gaz (fun t p => gaz_of_unnoticed (newPeriod_hold_unnoticed t p)) _ _).trans rfl

theorem upTo_gaz (s : State) (ps : Nat) : (s.upTo ps).gaz = s.gaz := by
  unfold State.upTo State.moveTo State.periodGo
  split
  · split
    · rw [newPeriod_gaz]; rfl
    · rfl
  · rfl

@[simp] theorem arrive_gaz (s : State) (a : Awaited) : (s.arrive a).gaz = s.gaz := by
  unfold State.arrive
  split <;> rfl

/-! ### What changes one control at most -/

/-- `g'` is `g` but for the control `c` and the haptic channels. -/
def Gaz.SaveAt (g : Gaz) (c : Fin 32) (g' : Gaz) : Prop := ∃ haps x, g' = { g with haps, controls := upd g.controls c fun _ => x }

theorem Gaz.SaveAt.refl (g : Gaz) (c : Fin 32) : g.SaveAt c g := ⟨g.haps, g.controls[c.val], by rw [upd_id _ _ _ rfl]⟩

theorem Gaz.SaveAt.trans {g g' g'' : Gaz} {c : Fin 32} (h : g.SaveAt c g') (h' : g'.SaveAt c g'') : g.SaveAt c g'' := by
  obtain ⟨haps, x, rfl⟩ := h
  obtain ⟨haps', x', rfl⟩ := h'
  exact ⟨haps', x', by rw [upd_upd]⟩

theorem Gaz.SaveAt.of_eq {g g' : Gaz} {c : Fin 32} (h : g' = g) : g.SaveAt c g' := h ▸ .refl g c

theorem Gaz.SaveAt.other {g g' : Gaz} {c d : Fin 32} (h : g.SaveAt c g') (hd : d ≠ c) : g'.controls[d.val] = g.controls[d.val] := by
  obtain ⟨haps, x, rfl⟩ := h
  exact upd_other _ _ _ _ hd

theorem Gaz.SaveAt.scanning {g g' : Gaz} {c : Fin 32} (h : g.SaveAt c g') : g'.scanning = g.scanning := by
  obtain ⟨haps, x, rfl⟩ := h
  rfl

/-! Each operation spares what the steps before it have spared. -/

section
variable {g : Gaz} {c : Fin 32} {s : State} (hs : g.SaveAt c s.gaz)
include hs

theorem Gaz.SaveAt.eq_gaz {t : State} (h : t.gaz = s.gaz) : g.SaveAt c t.gaz := h ▸ hs

theorem Gaz.SaveAt.ite {q : Prop} [Decidable q] {t : State} (ht : g.SaveAt c t.gaz) : g.SaveAt c (if q then t else s).gaz := by
  split
  · exact ht
  · exact hs

theorem Gaz.SaveAt.modCtl (f : Control → Control) : g.SaveAt c (s.modCtl c f).gaz := hs.trans ⟨s.gaz.haps, f s.gaz.controls[c.val], rfl⟩

theorem Gaz.SaveAt.modHap (h : Fin 16) (f : Hap → Hap) : g.SaveAt c (s.modHap h f).gaz :=
  hs.trans ⟨_, s.gaz.controls[c.val], by rw [upd_id _ _ _ rfl]; rfl⟩

theorem Gaz.SaveAt.arrive (a : Awaited) : g.SaveAt c (s.arrive a).gaz := hs.eq_gaz (arrive_gaz s a)

theorem Gaz.SaveAt.hapPast (h : Fin 16) : g.SaveAt c (s.hapPast h).gaz := hs

theorem Gaz.SaveAt.hapDrive (h : Fin 16) : g.SaveAt c (s.hapDrive h).gaz := hs.modHap h _

theorem Gaz.SaveAt.hapDone (h : Fin 16) : g.SaveAt c (s.hapDone h).gaz := by
  refine hs.eq_gaz ?_
  unfold State.hapDone
  dsimp only
  split
  · rfl
  · exact raise_gaz ..
  · exact raise_gaz ..
  · rfl

theorem Gaz.SaveAt.hapIdle (h : Fin 16) (last : Nat) : g.SaveAt c (s.hapIdle h last).gaz := ((hs.hapPast h).hapDone h).modHap h _

theorem Gaz.SaveAt.hapTrigger (h : Fin 16) (src : HapSrc) (effect prio amp : Nat) (reflex : Bool) :
    g.SaveAt c (s.hapTrigger h src effect prio amp reflex).gaz := by
  unfold State.hapTrigger
  refine .ite (.hapDrive (.modHap (.arrive ?_ _) h _) h) (hs.modHap h _)
  exact .ite (.ite (hs.hapIdle h 1) hs) ((hs.hapPast h).modHap h _)

end

/-! ### What the end of a scan does to a control -/

theorem touchEvent_gaz (s : State) (c : Fin 32) (code detail : Nat) : (s.touchEvent c code detail).gaz = s.gaz := by
  unfold State.touchEvent
  dsimp only
  split
  · exact raise_gaz ..
  · exact raise_gaz ..

theorem setPosition_gaz (s : State) (c : Fin 32) (sg : List Int) :
    ∃ pos, (s.setPosition c sg).gaz = (s.modCtl c fun x => { x with pos }).gaz := by
  unfold State.setPosition
  split
  · exact ⟨_, rfl⟩
  · exact ⟨_, rfl⟩

section
variable {g : Gaz} {c : Fin 32} {s : State} (hs : g.SaveAt c s.gaz)
include hs

theorem Gaz.SaveAt.touchReport (down : Bool) : g.SaveAt c (s.touchReport c down).gaz := (hs.eq_gaz (touchEvent_gaz ..)).modCtl _

theorem Gaz.SaveAt.setPosition (sg : List Int) : g.SaveAt c (s.setPosition c sg).gaz := by
  obtain ⟨pos, h⟩ := setPosition_gaz s c sg
  exact (hs.modCtl _).eq_gaz h

theorem Gaz.SaveAt.reflexFire (d : Fin 32) : g.SaveAt c (s.reflexFire d).gaz := by
  unfold State.reflexFire
  split
  · exact hs
  · exact .ite (hs.hapTrigger ..) (hs.modHap ..)

theorem Gaz.SaveAt.scanFree (us : Nat) (sg : List Int) : g.SaveAt c (s.scanFree c us sg).gaz := by
  delta State.scanFree
  refine .ite (.ite (hs.modCtl _) (hs.modCtl _)) (.ite (hs.modCtl _) ?_)
  exact .reflexFire (.touchReport (.setPosition (.arrive (hs.modCtl _) _) sg) true) c

theorem Gaz.SaveAt.scanTouched (us : Nat) (sg : List Int) : g.SaveAt c (s.scanTouched c us sg).gaz := by
  unfold State.scanTouched
  refine .ite ?_ (.touchReport (.modCtl (.arrive hs _) _) false)
  dsimp only
  refine .ite ?_ (.touchReport (.modCtl (.eq_gaz (.arrive ?_ _) (touchEvent_gaz ..)) _) false)
  · exact .ite (.setPosition (hs.modCtl _) sg) (.touchReport (.setPosition (hs.modCtl _) sg) true)
  · exact .ite (.setPosition (hs.modCtl _) sg) (.touchReport (.setPosition (hs.modCtl _) sg) true)

end

theorem scanControl_saveAt (s : State) (us : Nat) (c : Fin 32) : s.gaz.SaveAt c (s.scanControl us c).gaz := by
  have hs := Gaz.SaveAt.refl s.gaz c
  delta State.scanControl
  exact .ite (.ite (.ite (hs.scanFree ..) (hs.scanTouched ..)) (hs.modCtl _)) hs

theorem scanControl_measured {s : State} {c : Fin 32} {x : Control} (us : Nat) (hx : s.gaz.controls[c.val] = x) (hmeasured : x.measured = true) :
    s.scanControl us c = if x.capNow then s.modCtl c fun x => x.captured
      else if x.touched then s.scanTouched c us x.signals else s.scanFree c us x.signals := by
  simp [State.scanControl, hx, hmeasured]

/-- A capture (R510). -/
theorem scanControl_captured {s : State} {c : Fin 32} {x : Control} (us : Nat) (hx : s.gaz.controls[c.val] = x) (hmeasured : x.measured = true)
    (hcap : x.capNow = true) : (s.scanControl us c).gaz.controls[c.val] = x.captured := by
  rw [scanControl_measured us hx hmeasured, if_pos hcap]
  simp [hx]

theorem setPosition_touched (s : State) (c : Fin 32) (sg : List Int) :
    ((s.setPosition c sg).gaz.controls[c.val]).touched = (s.gaz.controls[c.val]).touched := by
  obtain ⟨pos, h⟩ := setPosition_gaz s c sg
  rw [h]
  simp

theorem touchReport_touched (s : State) (c : Fin 32) (down : Bool) :
    ((s.touchReport c down).gaz.controls[c.val]).touched = (s.gaz.controls[c.val]).touched := by
  simp [State.touchReport, touchEvent_gaz]

theorem reflexFire_control (s : State) (c : Fin 32) : (s.reflexFire c).gaz.controls[c.val] = s.gaz.controls[c.val] :=
  ((Gaz.SaveAt.refl s.gaz (c + 1)).reflexFire c).other (by revert c; decide)

/-- A control whose signal has reached the threshold is touched once that has held for its number of scans (R506). -/
theorem scanControl_touched {s : State} {c : Fin 32} {x : Control} (us : Nat) (hx : s.gaz.controls[c.val] = x) (hmeasured : x.measured = true)
    (hcap : x.capNow = false) (hfree : x.touched = false) (hth : (bits x.liveTh.toNat 11 0 : Int) ≤ peakOf x.signals) :
    ((s.scanControl us c).gaz.controls[c.val]).touched = decide (ctlDeb x.liveCfg ≤ x.pendingN + 1) := by
  have hscan : s.scanControl us c = s.scanFree c us x.signals := by simp [scanControl_measured us hx hmeasured, hcap, hfree]
  rw [hscan]
  unfold State.scanFree
  simp only [hx, if_pos hth]
  split
  · rename_i hdeb
    rw [reflexFire_control, touchReport_touched, setPosition_touched, decide_eq_true hdeb]
    simp
  · rename_i hdeb
    rw [decide_eq_false hdeb]
    simp [hx, hfree]

/-! ### All controls -/

theorem foldl_scanControl_other {c : Fin 32} (us : Nat) {l : List (Fin 32)} (hl : c ∉ l) (s : State) :
    (l.foldl (fun s d => s.scanControl us d) s).gaz.controls[c.val] = s.gaz.controls[c.val] := by
  induction l generalizing s with
  | nil => rfl
  | cons d l ih =>
    rw [List.foldl_cons, ih (List.not_mem_of_not_mem_cons hl), (scanControl_saveAt s us d).other (List.ne_of_not_mem_cons hl)]

/-- What the turn of a control makes of it stands at the end. -/
theorem foldl_scanControl_own {c : Fin 32} {x : Control} {us : Nat} {P : Control → Prop}
    (hown : ∀ s : State, s.gaz.controls[c.val] = x → P ((s.scanControl us c).gaz.controls[c.val])) {l : List (Fin 32)} (hnodup : l.Nodup) (hc : c ∈ l)
    {s : State} (hs : s.gaz.controls[c.val] = x) : P ((l.foldl (fun s d => s.scanControl us d) s).gaz.controls[c.val]) := by
  induction l generalizing s with
  | nil => cases hc
  | cons d l ih =>
    obtain ⟨hd, hnodup⟩ := List.nodup_cons.1 hnodup
    rw [List.foldl_cons]
    by_cases h : c = d
    · subst h
      rw [foldl_scanControl_other us hd]
      exact hown s hs
    · exact ih hnodup ((List.mem_cons.1 hc).resolve_left h) (((scanControl_saveAt s us d).other h).trans hs)

theorem foldl_scanControl_scanning (us : Nat) (l : List (Fin 32)) (s : State) :
    (l.foldl (fun s d => s.scanControl us d) s).gaz.scanning = s.gaz.scanning :=
  foldl_keeps (fun s : State => s.gaz.scanning) (fun t d => (scanControl_saveAt t us d).scanning) l s

/-- The controls with the counts of a scan in place. -/
def Gaz.counted (g : Gaz) (raw : List Nat) : Vector Control 32 :=
  g.controls.mapIdx fun c (x : Control) => x.putRaw fun e => raw.getD (16 * c + e) 0

/-- The end of a scan is the turn of every control, its counts in place. -/
theorem scanEnd_eq {s : State} (h : s.gaz.scanning = true) (raw : List Nat) :
    ∃ t : State, s.scanEnd raw = (idx 32).foldl (fun t c => t.scanControl s.gaz.gapUs c) t ∧ t.gaz.scanning = false
      ∧ t.gaz.controls = s.gaz.counted raw := by
  have htime (u : State) (hu : u.gaz = s.gaz) : ∃ t : State,
      (let us := u.gaz.gapUs
       let s := { u with arrived := u.arrived.filter fun a => a != Awaited.touch }
       let g := { s.gaz with controls := s.gaz.controls.mapIdx fun c (x : Control) => x.putRaw fun e => raw.getD (16 * c + e) 0 }
       let level := if g.found then 0 else g.level
       let s := { s with gaz := { g with scanning := false, scanUs := g.scanTime, level } }
       (idx 32).foldl (fun s c => s.scanControl us c) s) = (idx 32).foldl (fun t c => t.scanControl s.gaz.gapUs c) t ∧ t.gaz.scanning = false
      ∧ t.gaz.controls = s.gaz.counted raw := by
    dsimp only
    rw [hu]
    exact ⟨_, rfl, rfl, rfl⟩
  unfold State.scanEnd
  rw [h]
  simp only [Bool.not_true, Bool.false_eq_true, if_false]
  split
  · exact htime _ (upTo_gaz ..)
  · exact htime _ rfl

theorem counted_get (g : Gaz) (raw : List Nat) (c : Fin 32) :
    (g.counted raw)[c.val] = (g.controls[c.val]).putRaw fun e => raw.getD (16 * c.val + e) 0 := by
  simp [Gaz.counted]

/-! ### The commands -/

theorem captured_base (x : Control) : x.captured.elems.map Elem.base = x.elems.map fun e => e.raw * 65536 := by
  simp [Control.captured, Vector.map_map, Function.comp_def]

theorem wakeIsland_dome (s : State) (i : Nat) : (s.wakeIsland i).dome = s.dome := by
  rw [wakeIsland_eq]

/-- A host request that changes no memory. -/
theorem exec_recapture {s t : State} {c : Fin 32} (hg : s.Good) (hhost : s.HostTo 0) (ht : (s.wakeIsland islGazebo).recaptureSet c = t)
    (hstores : t.stores = s.stores) (himg : t.img = s.img) (hpending : t.pending = s.pending) : exec (.recapture c) s = .next t :=
  plain hg ((hostAcc_on hhost _).trans ht) (ht ▸ (recaptureSet_core ..).trans (wakeIsland_core ..)) hstores himg hpending

theorem recapture_free {s : State} {c : Fin 32} (hg : s.Good) (hhost : s.HostTo 0) (h : s.isHeld (0x20 + c.val) = false) :
    exec (.recapture c) s = .next ((s.wakeIsland islGazebo).modCtl c fun x => { x with capture := true }) := by
  have hfree : (s.wakeIsland islGazebo).isHeld (0x20 + c.val) = false := by rw [State.isHeld, wakeIsland_dome]; exact h
  refine exec_recapture hg hhost (if_neg (Bool.not_eq_true _ |>.mpr hfree)) ?_ ?_ ?_ <;> rw [wakeIsland_eq] <;> rfl

theorem recapture_held {s : State} {c : Fin 32} (hg : s.Good) (hhost : s.HostTo 0) (h : s.isHeld (0x20 + c.val) = true) :
    exec (.recapture c) s = .next (s.wakeIsland islGazebo) := by
  have hheld : (s.wakeIsland islGazebo).isHeld (0x20 + c.val) = true := by rw [State.isHeld, wakeIsland_dome]; exact h
  refine exec_recapture hg hhost (if_pos hheld) ?_ ?_ ?_ <;> rw [wakeIsland_eq]

theorem run_gaz (s : State) (f : State → State) : (s.run f).gaz = (f s).gaz := rfl

/-- What the begin of a scan at a time `u` makes of each control. -/
theorem scanStarts {s u : State} (hu : u.gaz = s.gaz) (c : Fin 32) :
    ∃ idle, (u.gaz.controls.mapIdx fun i (x : Control) => x.scanStart u.gaz.csRole (u.dome.st == .down && u.isHeld (0x20 + i)))[c.val]
      = (s.gaz.controls[c.val]).scanStart s.gaz.csRole idle :=
  ⟨u.dome.st == .down && u.isHeld (0x20 + c.val), by rw [Vector.getElem_mapIdx, hu]⟩

theorem scanBegin_gaz {s : State} (hen : s.gaz.scanEn = true) (hscan : s.gaz.scanning = false) :
    (s.scanBegin).gaz.scanning = true ∧ ∀ c : Fin 32, ∃ idle, (s.scanBegin).gaz.controls[c.val] = (s.gaz.controls[c.val]).scanStart s.gaz.csRole idle := by
  unfold State.scanBegin
  rw [hen, hscan]
  simp only [Bool.not_true, Bool.or_self, Bool.false_eq_true, if_false]
  split
  · exact ⟨trivial, scanStarts (upTo_gaz ..)⟩
  · exact ⟨trivial, scanStarts rfl⟩

theorem exec_capacitiveScan {s : State} (hg : s.Good) : exec .capacitiveScan s = .next (s.run State.scanBegin) := act_steady hg.2 (scanBegin_core s)

theorem exec_scanComplete {s : State} (hg : s.Good) (raw : List Nat) : exec (.scanComplete raw) s = .next (s.run fun s => s.scanEnd raw) :=
  act_steady hg.2 (scanEnd_core s raw)

/-- Settles O39: a scan's begin and end, control by control, and the ladder. -/
theorem controlScans : Obligations.ControlScans := by
  unfold Obligations.ControlScans
  intro s hg
  refine ⟨fun c => recapture_free hg, fun c => recapture_held hg, fun hen hscan => ?_, fun h => ?_, fun raw hscan => ?_, fun raw hscan => ?_,
    fun hen hlevel harrived htouched => ?_, fun h => ?_⟩
  · obtain ⟨hscanning, hcontrols⟩ := scanBegin_gaz hen hscan
    refine ⟨_, exec_capacitiveScan hg, hscanning, fun c => ?_⟩
    obtain ⟨idle, hc⟩ := hcontrols c
    rw [run_gaz, hc]
    exact ⟨rfl, rfl, rfl, rfl⟩
  · have hidle : s.scanBegin = s := if_pos (by rcases h with h | h <;> simp [h])
    exact plain hg hidle rfl rfl rfl rfl
  · obtain ⟨t, hend, hdone, hcontrols⟩ := scanEnd_eq hscan raw
    refine ⟨_, exec_scanComplete hg raw, ?_, fun c => ?_⟩
    · rw [run_gaz, hend, foldl_scanControl_scanning, hdone]
    · have ht : t.gaz.controls[c.val] = (s.gaz.controls[c.val]).putRaw fun e => raw.getD (16 * c.val + e) 0 := by rw [hcontrols, counted_get]
      have hmem : c ∈ idx 32 := List.mem_finRange c
      have hnodup : (idx 32).Nodup := List.nodup_finRange 32
      intro x hmeasured
      rw [run_gaz, hend]
      refine ⟨fun hcap => ?_, fun hcap hfree hth => ?_⟩
      · refine foldl_scanControl_own (P := fun y => y.touched = false ∧ y.provisional = true ∧ y.elems.map Elem.base = x.elems.map fun e => e.raw * 65536)
          (fun u hu => ?_) hnodup hmem ht
        rw [scanControl_captured _ hu hmeasured hcap]
        exact ⟨rfl, rfl, captured_base x⟩
      · exact foldl_scanControl_own (P := fun y => y.touched = decide (ctlDeb x.liveCfg ≤ x.pendingN + 1))
          (fun u hu => scanControl_touched _ hu hmeasured hcap hfree hth) hnodup hmem ht
  · have hidle : s.scanEnd raw = s := if_pos (by rw [hscan]; rfl)
    exact plain hg hidle rfl rfl rfl rfl
  · have hstep : s.ladderDown = { s with gaz := { s.gaz with level := s.gaz.level + 1 } } := by
      have hlevel : ¬ 3 ≤ s.gaz.level := Nat.not_le.2 hlevel
      unfold State.ladderDown
      simp only [hen, harrived, htouched, hlevel, Bool.not_true, decide_false, Bool.or_self, Bool.false_eq_true, if_false]
    exact plain hg hstep rfl rfl rfl rfl
  · have hstep : s.ladderDown = s := by
      refine if_pos ?_
      simp only [Bool.or_eq_true, Bool.not_eq_true', decide_eq_true_eq]
      tauto
    exact plain hg hstep rfl rfl rfl rfl

end Sys2Proof.Machine
end

section
/-!
SUPPORT. The registers of the clocks (15) and the switches of the outputs: whether an output is enabled, scans and has PVALID high, and the OUTPUT_MODE
in progress on it. No access to memory touches them, no event that is raised, and no descriptor that completes; of the islands these wake those alone
that are no composer's and no output's.
-/
namespace Sys2Proof.Machine
open Sys2Proof

/-- The run bits of the islands of the composers and the outputs (15). -/
def outIslands : BitVec 45 := 0x7FFF80

/-- Whether an output is enabled, scans, and drives PVALID, and the OUTPUT_MODE in progress on it. -/
def Out.switch (u : Out) : Bool × Bool × Bool × Option ModeJob := (u.enabled, u.scanning, u.pvalid, u.job)

/-- The clocks, of the run bits those of the composers and the outputs alone, and the switches of the outputs. -/
def State.switches (s : State) : Clk × Vector (Bool × Bool × Bool × Option ModeJob) 8 :=
  ({ s.clk with run := s.clk.run &&& outIslands }, s.outs.map Out.switch)

theorem switches_of_eq {s t : State} (hclk : t.clk = s.clk) (houts : t.outs = s.outs) : t.switches = s.switches := by
  rw [State.switches, State.switches, hclk, houts]

theorem switches_of_uncharged {s t : State} (h : t.uncharged = s.uncharged) : t.switches = s.switches :=
  switches_of_eq (clk_of_uncharged h) (outs_of_uncharged h)

theorem modOut_switches {s : State} {o : Fin 8} {f : Out → Out} (h : ∀ u, (f u).switch = u.switch) : (s.modOut o f).switches = s.switches := by
  have houts : (s.modOut o f).outs.map Out.switch = s.outs.map Out.switch := map_upd Out.switch _ _ _ h
  rw [State.switches, houts]
  rfl

theorem getLsbD_putB_ne {w : Nat} (v : BitVec w) {k i : Nat} (h : k ≠ i) (b : Bool) : (putB v i b).getLsbD k = v.getLsbD k := by
  have hbit : ((1#w <<< i).getLsbD k) = false := by
    have : k < i ∨ 0 < k - i := by omega
    rw [BitVec.getLsbD_shiftLeft, BitVec.getLsbD_one]
    rcases this with hlt | hgt
    · simp [hlt]
    · simp [Nat.ne_of_gt hgt]
  cases b
  · by_cases hk : k < w
    · rw [putB, if_neg Bool.false_ne_true, BitVec.getLsbD_and, BitVec.getLsbD_not, hbit, Bool.not_false, decide_eq_true hk, Bool.and_self, Bool.and_true]
    · simp [putB, BitVec.getLsbD_of_ge v k (Nat.le_of_not_lt hk)]
  · simp [putB, hbit]

theorem outIslands_getLsbD {i : Nat} (h : i < 7 ∨ 22 < i) : outIslands.getLsbD i = false := by
  have hin : ∀ k : Fin 45, outIslands.getLsbD k.val = true → 7 ≤ k.val ∧ k.val ≤ 22 := by decide
  by_cases hi : i < 45
  · by_contra hbit
    obtain ⟨hlow, hhigh⟩ := hin ⟨i, hi⟩ (Bool.of_not_eq_false hbit)
    dsimp only at hlow hhigh
    omega
  · exact BitVec.getLsbD_of_ge _ _ (Nat.le_of_not_lt hi)

theorem putB_true_and_outIslands (v : BitVec 45) {i : Nat} (h : i < 7 ∨ 22 < i) : putB v i true &&& outIslands = v &&& outIslands := by
  refine BitVec.eq_of_getLsbD_eq fun k _ => ?_
  rw [BitVec.getLsbD_and, BitVec.getLsbD_and]
  by_cases hki : k = i
  · rw [hki, outIslands_getLsbD h, Bool.and_false, Bool.and_false]
  · rw [getLsbD_putB_ne v hki]

/-- An island that is no composer's and no output's wakes. -/
theorem wakeIsland_switches {s : State} {i : Nat} (h : i < 7 ∨ 22 < i) : (s.wakeIsland i).switches = s.switches := by
  unfold State.wakeIsland
  split
  · rfl
  · rw [State.switches, State.runIsland, State.switches]
    dsimp only
    rw [putB_true_and_outIslands _ h]

@[simp] theorem emit_switches (s : State) (x : Tx) : (s.emit x).switches = s.switches := rfl
@[simp] theorem toDome_switches (s : State) (e : Ev) : (s.toDome e).switches = s.switches := rfl
@[simp] theorem modPav_switches (s : State) (p : Fin 64) (f : Pav → Pav) : (s.modPav p f).switches = s.switches := rfl
@[simp] theorem modView_switches (s : State) (p : Fin 64) (v : Fin 8) (f : View → View) : (s.modView p v f).switches = s.switches := rfl
@[simp] theorem modLink_switches (s : State) (l : Fin 12) (f : Link → Link) : (s.modLink l f).switches = s.switches := rfl
@[simp] theorem msi_switches (s : State) (p : Fin 64) (vec : Nat) : (s.msi p vec).switches = s.switches := switches_of_uncharged (msi_uncharged ..)
@[simp] theorem safeOut_switches (s : State) (e : Ev) : (s.safeOut e).switches = s.switches := switches_of_uncharged (safeOut_uncharged ..)
@[simp] theorem eqPost_switches (s : State) (p : Fin 64) (e : Ev) : (s.eqPost p e).switches = s.switches := switches_of_uncharged (eqPost_uncharged ..)
@[simp] theorem noteQuota_switches (s : State) (p : Fin 64) (k : Fin 4) : (s.noteQuota p k).switches = s.switches :=
  switches_of_uncharged (noteQuota_uncharged ..)

@[simp] theorem stCells_switches (s : State) (m : MemId) (a : Nat) (l : List Byte) : (s.stCells m a l).switches = s.switches := by
  rw [stCells_stores]
  rfl

@[simp] theorem deliver_switches (s : State) (p : Fin 64) (e : Ev) : (s.deliver p e).switches = s.switches := by
  unfold State.deliver
  simp [apply_ite State.switches, State.eqLose, State.modEq]

@[simp] theorem logStore_switches (s : State) (i : Nat) (l : List Byte) : (s.logStore i l).switches = s.switches := by
  have hwoken : ((s.wakeIsland islFabric).wakeIsland islOrg).switches = s.switches :=
    (wakeIsland_switches (.inr (by decide))).trans (wakeIsland_switches (.inl (by decide)))
  unfold State.logStore
  dsimp only
  split
  · exact (stCells_switches ..).trans hwoken
  · exact (deliver_switches ..).trans hwoken

@[simp] theorem logWrite_switches (s : State) (e : Ev) : (s.logWrite e).switches = s.switches := by
  have hstore (t : State) (i : Nat) (l : List Byte) (ht : t.switches = s.switches) : (t.logStore i l).switches = s.switches :=
    (logStore_switches ..).trans ht
  unfold State.logWrite
  dsimp only
  split
  · rfl
  · split
    · split
      · exact (deliver_switches ..).trans ((safeOut_switches ..).trans (hstore _ _ _ rfl))
      · exact hstore _ _ _ rfl
    · split
      · exact (deliver_switches ..).trans ((safeOut_switches ..).trans (hstore _ _ _ rfl))
      · exact hstore _ _ _ rfl

@[simp] theorem raise_switches (s : State) (e : Ev) (dests : List (Fin 64 × Ev)) : (s.raise e dests).switches = s.switches := by
  rw [State.raise, State.raiseAs, foldl_keeps State.switches fun _ _ => deliver_switches .., safeOut_switches, logWrite_switches]

@[simp] theorem outEv_switches (s : State) (o : Fin 8) (code frame detail : Nat) : (s.outEv o code frame detail).switches = s.switches :=
  raise_switches ..

@[simp] theorem complete_switches (s : State) (p : Fin 64) (sq : Fin 8) (seq : BitVec 16) (op : BitVec 8) (status : Nat)
    (deferred late heldWall : Bool) (field result : Nat) :
    (s.complete p sq seq op status deferred late heldWall field result).switches = s.switches := by
  have hwrite (t : State) (rec : BitVec 128) : (t.cqWrite p rec).switches = t.switches := by
    unfold State.cqWrite
    dsimp only
    split
    · exact msi_switches ..
    · rfl
  unfold State.complete State.postCq
  dsimp only
  split
  · exact hwrite ..
  · rfl

@[simp] theorem completeOk_switches (s : State) (p : Fin 64) (sq : Fin 8) (seq : BitVec 16) (op : BitVec 8)
    (deferred late heldWall : Bool) (result : Nat) : (s.completeOk p sq seq op deferred late heldWall result).switches = s.switches :=
  complete_switches ..

/-! ### Reports of memory errors -/

@[simp] theorem violation_switches (s : State) (m : MemId) (a : Nat) : (s.violation m a).switches = s.switches := (raise_switches ..).trans rfl
@[simp] theorem fetchFault_switches (s : State) (o : Fin 8) (a : Option Nat) : (s.fetchFault o a).switches = s.switches := rfl

@[simp] theorem noteUe_switches (s : State) (m : MemId) (a : Nat) (who : Option (Fin 64)) : (s.noteUe m a who).switches = s.switches := by
  have hcount (t : State) (e : Ev) (l : List (Fin 64 × Ev)) (ht : t.switches = s.switches) : ((t.toDome e).raise e l).switches = s.switches :=
    (raise_switches ..).trans ht
  unfold State.noteUe
  dsimp only
  split
  · split
    · rw [deliver_switches]; exact hcount _ _ _ (by cases m <;> rfl)
    · exact hcount _ _ _ (by cases m <;> rfl)
  · exact hcount _ _ _ (by cases m <;> rfl)

@[simp] theorem noteCe_switches (s : State) (m : MemId) (a : Nat) : (s.noteCe m a).switches = s.switches := by
  unfold State.noteCe
  extract_lets _ _ t key
  have ht : t.switches = s.switches := by cases m <;> rfl
  split
  · exact ht
  · exact (raise_switches ..).trans ht

/-! ### Waking and charging (R362, R555) -/

@[simp] theorem awake_switches (s : State) (c : Fin 8) : (s.awake c).switches = s.switches := by
  unfold State.awake
  split <;> rfl

@[simp] theorem wake_switches (s : State) : s.wake.switches = s.switches := by
  unfold State.wake
  extract_lets out
  have hout (t : State) : (out t).switches = t.switches := foldl_keeps State.switches awake_switches _ t
  split
  · exact hout _
  · split
    · exact hout _
    · rfl

@[simp] theorem wakeMem_switches (s : State) (m : MemId) (a n : Nat) : (s.wakeMem m a n).switches = s.switches := by
  cases m
  case dram => exact (foldl_keeps State.switches (fun t k => wakeIsland_switches (.inr (by simp [islDmc]; omega))) _ _).trans (wake_switches s)
  case dome => rfl
  all_goals exact wakeIsland_switches (.inr (by decide))

@[simp] theorem portWaits_switches (s : State) (q : Fin 83) : (s.portWaits q).switches = s.switches := by
  unfold State.portWaits
  split
  · rfl
  · dsimp only
    split <;> rfl

@[simp] theorem dramCharge_switches (s : State) (q : Fin 83) (a n : Nat) : (s.dramCharge q a n).switches = s.switches := by
  unfold State.dramCharge State.portUse
  extract_lets b t
  split
  · split
    · exact portWaits_switches ..
    · rfl
  · split
    · rfl
    · split
      · rfl
      · exact portWaits_switches ..

/-! ### The channels of DRAM (10) -/

@[simp] theorem wqAdd_switches (s : State) (keepOpen : Bool) (atom : Nat) (bytes : List (Nat × Byte)) :
    (s.wqAdd keepOpen atom bytes).switches = s.switches := rfl

@[simp] theorem recordLost_switches (s : State) (dev : Nat) : (s.recordLost dev).switches = s.switches :=
  foldl_keeps State.switches (fun _ _ => modOut_switches fun _ => by rfl) _ s

@[simp] theorem issueAtom_switches (s : State) (w : WAtom) : (s.issueAtom w).switches = s.switches := by
  unfold State.issueAtom
  extract_lets old s1 s2 s3 s4
  have h1 : s1.switches = s.switches := by
    unfold s1
    split
    · rw [recordLost_switches, noteUe_switches]
    · rfl
  have h2 : s2.switches = s1.switches := by
    unfold s2
    split
    · exact noteCe_switches ..
    · rfl
  have h3 : s3.switches = s2.switches := by
    unfold s3
    split <;> rfl
  have h4 : s4.switches = s3.switches := foldl_keeps State.switches (fun _ _ => by rfl) _ _
  exact h4.trans (h3.trans (h2.trans h1))

@[simp] theorem issueWrite_switches (s : State) (c : Fin 8) : (s.issueWrite c).switches = s.switches := by
  unfold State.issueWrite
  split
  · rfl
  · exact issueAtom_switches ..

@[simp] theorem errorTo_switches (s : State) (q : Fin 83) (a : Nat) : (s.errorTo q a).switches = s.switches := by
  rw [State.errorTo, emit_switches]
  split <;> rfl

@[simp] theorem issueRead_switches (s : State) (c : Fin 8) (x : RAtom) : (s.issueRead c x).switches = s.switches := by
  unfold State.issueRead
  extract_lets r atom s1 s2 data s3
  have h1 : s1.switches = s.switches := rfl
  have h2 : s2.switches = s1.switches := by
    unfold s2
    split
    · rfl
    · exact noteUe_switches ..
  have h3 : s3.switches = s1.switches := by
    unfold s3
    split
    · exact noteCe_switches ..
    · rfl
  split
  · split
    · exact h2
    · rw [errorTo_switches, h2, h1]
  · split <;> exact h3

@[simp] theorem dmcIssue_switches (s : State) (c : Fin 8) : (s.dmcIssue c).switches = s.switches := by
  unfold State.dmcIssue
  extract_lets d read may
  split
  · exact issueWrite_switches ..
  · split
    · exact issueRead_switches ..
    · split
      · exact issueWrite_switches ..
      · split
        · exact issueRead_switches ..
        · exact issueWrite_switches ..

@[simp] theorem dmcUntil_switches (n : Nat) (s : State) (c : Fin 8) (ok : Dmc → Bool) : (State.dmcUntil n s c ok).switches = s.switches := by
  induction n generalizing s with
  | zero => rfl
  | succ n ih =>
    have hstep : (s.dmcStep c).switches = s.switches := by
      unfold State.dmcStep
      split
      · rfl
      · exact dmcIssue_switches ..
    unfold State.dmcUntil
    split
    · rfl
    · rw [ih, hstep]

@[simp] theorem dramPut_switches (s : State) (keepOpen : Bool) (a : Nat) (l : List Byte) : (s.dramPut keepOpen a l).switches = s.switches := by
  refine foldl_keeps State.switches (fun t k => ?_) _ s
  dsimp only
  rw [wqAdd_switches]
  split
  · rfl
  · exact dmcUntil_switches ..

/-! ### Reads (10, R421) -/

@[simp] theorem readIn_switches (s : State) (r : MemReq) (part : Bool) (who : Option (Fin 64)) : (s.readIn r part who).1.switches = s.switches := by
  unfold State.readIn
  extract_lets c s1 s2
  have h1 : s1.switches = s.switches := by
    unfold s1
    split <;> rfl
  split
  · split <;> exact h1
  · exact (dmcUntil_switches ..).trans h1

@[simp] theorem atomRead_switches (s : State) (r : MemReq) (who : Option (Fin 64)) : (s.atomRead r who).1.switches = s.switches := by
  have hread := readIn_switches s r true who
  unfold State.atomRead
  split
  · rename_i h
    rw [h] at hread
    exact hread
  · rename_i h
    rw [h] at hread
    exact (dmcUntil_switches ..).trans hread

@[simp] theorem dmcRead_switches (s : State) (q : Fin 83) (tlp : Option Nat) (who : Option (Fin 64)) (a n : Nat) :
    (s.dmcRead q tlp who a n).1.switches = s.switches := by
  unfold State.dmcRead
  refine foldl_keeps_fst State.switches (fun x k => ?_) _ _
  exact atomRead_switches x.1 _ who

@[simp] theorem readErrs_switches (s : State) (m : MemId) (a n : Nat) (who : Option (Fin 64)) : (s.readErrs m a n who).1.switches = s.switches := by
  unfold State.readErrs
  extract_lets bad s1 fix
  have h1 : s1.switches = s.switches := foldl_keeps State.switches (fun t w => noteUe_switches t ..) _ _
  refine (foldl_keeps State.switches (fun t w => ?_) fix s1).trans h1
  rw [noteCe_switches]
  split <;> rfl

@[simp] theorem memRead_switches (s : State) (master : Nat) (secure : Bool) (q : Fin 83) (who : Option (Fin 64)) (a n : Nat) :
    (s.memRead master secure q who a n).1.switches = s.switches := by
  unfold State.memRead State.memReadT State.memReadOk State.violationDev
  split
  · split
    · rfl
    · split
      · rfl
      · split
        · exact (dmcRead_switches ..).trans ((dramCharge_switches ..).trans (wakeMem_switches ..))
        · exact (readErrs_switches ..).trans (wakeMem_switches ..)
  · split
    · rfl
    · exact violation_switches ..

/-! ### Writes (R32, R153, R234, R364, R414, R419) -/

@[simp] theorem stWords_switches (s : State) (m : MemId) (a : Nat) (l : List Byte) : (s.stWords m a l).switches = s.switches :=
  stCells_switches ..

@[simp] theorem keepMake_switches (s : State) (q : Nat × List Byte) : (s.keepMake q).switches = s.switches := stWords_switches s .keep q.1 q.2

@[simp] theorem keepDrain_switches (s : State) : s.keepDrain.switches = s.switches := by
  unfold State.keepDrain
  split
  · exact keepMake_switches ..
  · exact keepMake_switches ..
  · rfl

@[simp] theorem fetchCheck_switches (s : State) (o : Fin 8) (x : Nat × Nat) : (s.fetchCheck o x).switches = s.switches := by
  unfold State.fetchCheck
  split
  · rfl
  · split
    · rw [fetchFault_switches, violation_switches]
    · split
      · rfl
      · refine foldl_keeps State.switches (fun t w => ?_) _ s
        split
        · rfl
        · rw [fetchFault_switches, noteUe_switches]

@[simp] theorem freezeOut_switches (s : State) (o : Fin 8) : (s.freezeOut o).switches = s.switches := by
  unfold State.freezeOut
  extract_lets k n st w new t
  split
  · rfl
  · refine (modOut_switches fun _ => by rfl).trans ?_
    unfold t
    split
    · rfl
    · exact foldl_keeps State.switches (fun _ _ => fetchCheck_switches ..) _ _

@[simp] theorem freeze_switches (s : State) : s.freeze.switches = s.switches := foldl_keeps State.switches freezeOut_switches _ s

@[simp] theorem keepPut_switches (s : State) (a : Nat) (l : List Byte) : (s.keepPut a l).switches = s.switches := by
  refine (foldl_keeps State.switches (fun t q => ?_) _ _).trans ((wakeIsland_switches (.inr (by decide))).trans (freeze_switches s))
  dsimp only
  split
  · exact keepDrain_switches t
  · rfl

@[simp] theorem memWriteOk_switches (s : State) (tlp : Option Nat) (q : Fin 83) (a : Nat) (l : List Byte) :
    (s.memWriteOk tlp q a l).switches = s.switches := by
  have hwoken (m : MemId) (b n : Nat) : (s.freeze.wakeMem m b n).switches = s.switches := (wakeMem_switches ..).trans (freeze_switches s)
  unfold State.memWriteOk
  split
  · rfl
  · split
    · rfl
    · dsimp only
      split
      · exact (dramPut_switches ..).trans ((dramCharge_switches ..).trans (hwoken ..))
      · exact (keepPut_switches ..).trans (hwoken ..)
      · exact (stWords_switches ..).trans (hwoken ..)

@[simp] theorem memWrite_switches (s : State) (master : Nat) (secure : Bool) (q : Fin 83) (a : Nat) (l : List Byte) :
    (s.memWrite master secure q a l).switches = s.switches := by
  unfold State.memWrite State.memWriteT State.violationDev
  split
  · exact memWriteOk_switches ..
  · split
    · rfl
    · exact violation_switches ..

/-! ### Captures at the end of a frame (R252, R253) -/

@[simp] theorem captureLines_switches (s : State) (o : Fin 8) (c : Capture) (n : Nat) : (s.captureLines o c n).switches = s.switches := by
  refine foldl_keeps State.switches (fun t j => ?_) _ s
  split
  · rfl
  · exact memWrite_switches ..

@[simp] theorem captureDone_switches (s : State) (o : Fin 8) (c : Capture) (n : Nat) : (s.captureDone o c n).switches = s.switches := by
  unfold State.captureDone
  extract_lets lines inc s1 s2 s3
  have h3 : s3.switches = s.switches := by
    refine (modOut_switches fun _ => by rfl).trans ?_
    rw [memWrite_switches, captureLines_switches]
  split
  · exact (outEv_switches ..).trans h3
  · exact h3

@[simp] theorem endCapture_switches (s : State) (o : Fin 8) (c : Capture) : (s.endCapture o c).switches = s.switches := by
  unfold State.endCapture
  extract_lets s1 s2
  have h1 : s1.switches = s.switches := modOut_switches fun _ => by rfl
  have h2 : s2.switches = s.switches := by
    unfold s2
    split
    · exact (complete_switches ..).trans h1
    · exact (completeOk_switches ..).trans h1
  exact (foldl_keeps State.switches (fun t q => completeOk_switches t ..) _ _).trans h2

@[simp] theorem endOver_switches (s : State) (o : Fin 8) : (s.endOver o).switches = s.switches :=
  foldl_keeps State.switches (fun t c => endCapture_switches t o c) _ s

@[simp] theorem cutCaptures_switches (s : State) (o : Fin 8) (y : Nat) : (s.cutCaptures o y).switches = s.switches := by
  unfold State.cutCaptures
  extract_lets cs
  split
  · rfl
  · rw [endOver_switches]
    exact foldl_keeps State.switches (fun t c => captureDone_switches t o c _) _ s

/-! ### Viewports and commits -/

theorem modComp_switches (s : State) (o : Fin 8) (f : Comp → Comp) : (s.modComp o f).switches = s.switches := rfl

@[simp] theorem reEval_switches (s : State) (o : Fin 8) : (s.reEval o).switches = s.switches := modComp_switches ..

@[simp] theorem purgeImports_switches (s : State) : s.purgeImports.switches = s.switches := rfl

@[simp] theorem expire_switches (s : State) (m : Member) : (s.expire m).switches = s.switches :=
  (complete_switches ..).trans (modComp_switches ..)

@[simp] theorem discardGroup_switches (s : State) (g : Group) (reset : Option (Fin 64)) : (s.discardGroup g reset).switches = s.switches := by
  unfold State.discardGroup
  refine (foldl_keeps State.switches reEval_switches _ _).trans ((purgeImports_switches _).trans ?_)
  refine (foldl_keeps State.switches (fun t m => ?_) g.members _).trans rfl
  split
  · rfl
  · exact expire_switches t m

@[simp] theorem discardWhere_switches (s : State) (q : Member → Bool) (reset : Option (Fin 64)) : (s.discardWhere q reset).switches = s.switches :=
  foldl_keeps State.switches (fun t g => discardGroup_switches t g reset) _ s

@[simp] theorem endCapturesOf_switches (s : State) (o : Fin 8) (p : Fin 64) (v : Fin 8) : (s.endCapturesOf o p v).switches = s.switches :=
  foldl_keeps State.switches (fun t c => endCapture_switches t o c) _ s

@[simp] theorem applyView_switches (s : State) (p : Fin 64) (v : Fin 8) (m : Option VMap) (rest : Option (Option VMap)) :
    (s.applyView p v m rest).switches = s.switches := by
  unfold State.applyView
  extract_lets old s1 s2 s3 s4
  have h1 : s1.switches = s.switches := discardWhere_switches ..
  have h2 : s2.switches = s1.switches := by
    unfold s2 old
    split
    · exact endCapturesOf_switches ..
    · rfl
  have h3 : s3.switches = s2.switches := modView_switches ..
  have h4 : s4.switches = s3.switches := by
    unfold s4 old
    split
    · exact reEval_switches ..
    · rfl
  have h : s4.switches = s.switches := h4.trans (h3.trans (h2.trans h1))
  split
  · exact (reEval_switches ..).trans h
  · exact h

@[simp] theorem viewStep_switches (s : State) (o : Fin 8) (p : Fin 64) (v : Fin 8) : (s.viewStep o p v).switches = s.switches := by
  unfold State.viewStep
  extract_lets w
  split
  · split
    · rfl
    · split
      · exact applyView_switches ..
      · dsimp only
        split
        · rw [applyView_switches, applyView_switches]
        · exact applyView_switches ..
  · split
    · exact applyView_switches ..
    · rfl
  · split
    · exact applyView_switches ..
    · rfl
  · exact modView_switches ..
  · rfl

@[simp] theorem viewSteps_switches (s : State) (o : Fin 8) : (s.viewSteps o).switches = s.switches := by
  refine foldl_keeps State.switches (fun t p => ?_) _ s
  split
  · rfl
  · exact foldl_keeps State.switches (fun u v => viewStep_switches u o p v) _ t

/-! ### Transfers of exported buffers (R338, R343) -/

@[simp] theorem txFlit_switches (s : State) (l : Fin 12) (f : BitVec 256) : (s.txFlit l f).switches = s.switches := by
  unfold State.txFlit
  dsimp only
  rw [emit_switches, modLink_switches]

@[simp] theorem pump_switches (n : Nat) (s : State) (l : Fin 12) : (State.pump n s l).switches = s.switches := by
  induction n generalizing s with
  | zero => rfl
  | succ n ih =>
    unfold State.pump
    dsimp only
    split
    · rfl
    · split
      · rfl
      · rw [ih, txFlit_switches, modLink_switches]

@[simp] theorem sendSeq_switches (s : State) (l : Fin 12) (f : BitVec 256) : (s.sendSeq l f).switches = s.switches := pump_switches ..

@[simp] theorem sendRouted_switches (s : State) (dest : Nat) (f : BitVec 256) : (s.sendRouted dest f).switches = s.switches := by
  unfold State.sendRouted
  dsimp only
  split
  · exact sendSeq_switches ..
  · rfl

@[simp] theorem xferRead_switches (p : Fin 64) (n : Nat) (s : State) (base pitch w k l : Nat) (acc : List Byte) (bad : Bool) :
    (State.xferRead p n s base pitch w k l acc bad).1.switches = s.switches := by
  induction n generalizing s k l acc bad with
  | zero => rfl
  | succ n ih =>
    unfold State.xferRead
    split
    · rfl
    · extract_lets m r
      rw [ih]
      exact memRead_switches ..

@[simp] theorem exportPump_switches (n : Nat) (s : State) (k : Nat) : (State.exportPump n s k).switches = s.switches := by
  induction n generalizing s with
  | zero => rfl
  | succ n ih =>
    unfold State.exportPump
    dsimp only
    split
    · rfl
    · split
      · rfl
      · split
        · rfl
        · split
          · rfl
          · split
            · exact sendRouted_switches ..
            · split
              · exact portWaits_switches ..
              · refine (ih _).trans ?_
                refine (foldl_keeps State.switches (fun t i => sendSeq_switches t ..) _ _).trans ?_
                rw [sendRouted_switches, xferRead_switches]

@[simp] theorem startXfer_switches (s : State) (k : Nat) : (s.startXfer k).switches = s.switches := by
  unfold State.startXfer
  split
  · rfl
  · dsimp only
    split
    · rfl
    · split
      · rfl
      · split
        · rfl
        · exact (exportPump_switches ..).trans ((sendRouted_switches ..).trans rfl)

end Sys2Proof.Machine
end

section
/-!
SUPPORT. The clocks and the switches of the outputs, continued: Spire time, what follows a step that meets memory errors (R234), and an output stopped
(R206, R253, R255, R564 step 3).
-/
namespace Sys2Proof.Machine
open Sys2Proof

/-! ### The core, but for the errors that the composers met -/

/-- The core of a state, but for the errors that the composers met. -/
def State.unmet (s : State) : Core := s.windows.1

theorem unmet_of_core {s t : State} (h : t.core = s.core) : t.unmet = s.unmet := by rw [State.unmet, State.windows, h]; rfl

theorem unmet_of_rasters {s t : State} (h : t.rasters = s.rasters) : t.unmet = s.unmet := (congrArg Prod.fst h :)

/-- What follows an effect that keeps the core of a calm state but for errors that composers met: those errors alone. -/
theorem after_of_unmet {s t : State} (hs : s.calm = true) (h : t.unmet = s.unmet) : t.after = (idx 8).foldl State.faultGo t :=
  after_of_calm_but_faults (comps := s.comps) ((calm_of_core (s := s) (congrArg (fun c : Core => { c with faults := s.core.faults }) h)).trans hs)

/-! ### Spire time (R38, R349) -/

theorem flushEvents_switches (n : Nat) (s : State) (p : Fin 64) : (State.flushEvents n s p).switches = s.switches := by
  induction n generalizing s with
  | zero => rfl
  | succ n ih =>
    unfold State.flushEvents
    split
    · rfl
    · split
      · rfl
      · rw [ih, noteQuota_switches, eqPost_switches, modPav_switches]

@[simp] theorem newPeriod_switches (s : State) (k : Nat) : (s.newPeriod k).switches = s.switches := by
  refine (foldl_keeps State.switches (fun t p => ?_) _ _).trans rfl
  split
  · rfl
  · exact flushEvents_switches ..

@[simp] theorem upTo_switches (s : State) (ps : Nat) : (s.upTo ps).switches = s.switches := by
  unfold State.upTo State.moveTo State.periodGo
  split
  · split
    · exact (newPeriod_switches ..).trans rfl
    · rfl
  · rfl

/-! ### What follows a step that meets memory errors (R234) -/

/-- The clocks, of the run bits those of the composers and the outputs alone, and the switches of one output. -/
def State.switchAt (s : State) (o : Fin 8) : Clk × Bool × Bool × Bool × Option ModeJob := (s.switches.1, (s.outs[o.val]).switch)

theorem switchAt_of_switches {s t : State} (h : t.switches = s.switches) (o : Fin 8) : t.switchAt o = s.switchAt o := by
  have hclk : t.switches.1 = s.switches.1 := congrArg Prod.fst h
  have houts : t.outs.map Out.switch = s.outs.map Out.switch := congrArg Prod.snd h
  have hout : (t.outs[o.val]).switch = (s.outs[o.val]).switch := by simpa using congrArg (fun v => v[o.val]) houts
  rw [State.switchAt, State.switchAt, hclk, hout]

theorem modOut_switchAt_other {s : State} {o x : Fin 8} (h : o ≠ x) (f : Out → Out) : (s.modOut x f).switchAt o = s.switchAt o := by
  have hout : ((s.modOut x f).outs[o.val]) = s.outs[o.val] := upd_other _ _ _ _ h
  rw [State.switchAt, hout]
  rfl

/-- An underrun of one output switches no clock and no other output. -/
theorem underrunFrom_switchAt {s : State} {o x : Fin 8} (h : o ≠ x) (line px : Nat) : (s.underrunFrom x line px).switchAt o = s.switchAt o := by
  unfold State.underrunFrom
  extract_lets u s1 s2
  have h2 : s2.switchAt o = s.switchAt o := (modOut_switchAt_other h _).trans (switchAt_of_switches (upTo_switches ..) o)
  split
  · rfl
  · split
    · exact (modOut_switchAt_other h _).trans h2
    · exact (switchAt_of_switches (raise_switches ..) o).trans ((modOut_switchAt_other h _).trans h2)

theorem faultGo_switchAt {s : State} {o : Fin 8} (h : (s.outs[o.val]).scanning = false) (x : Fin 8) : (s.faultGo x).switchAt o = s.switchAt o := by
  by_cases hx : o = x
  · subst hx
    rw [faultGo_of_inactive (.inl h)]
  · unfold State.faultGo
    extract_lets u fs t
    split
    · rfl
    · split
      · exact (underrunFrom_switchAt hx ..).trans rfl
      · rfl

theorem scanning_of_switchAt {s t : State} {o : Fin 8} (h : t.switchAt o = s.switchAt o) : (t.outs[o.val]).scanning = (s.outs[o.val]).scanning :=
  (congrArg (fun x => x.2.2.1) h :)

theorem foldl_faultGo_switchAt {o : Fin 8} (l : List (Fin 8)) {s : State} (h : (s.outs[o.val]).scanning = false) :
    (l.foldl State.faultGo s).switchAt o = s.switchAt o := by
  induction l generalizing s with
  | nil => rfl
  | cons x l ih =>
    have hx := faultGo_switchAt h x
    rw [List.foldl_cons, ih ((scanning_of_switchAt hx).trans h), hx]

/-- What follows an effect that keeps the core of a calm state but for errors leaves the clocks, and the switches of an output that does not scan. -/
theorem after_switchAt {s t : State} {o : Fin 8} (hs : s.calm = true) (hcore : t.unmet = s.unmet) (h : (t.outs[o.val]).scanning = false) :
    t.after.switchAt o = t.switchAt o := by
  rw [after_of_unmet hs hcore]
  exact foldl_faultGo_switchAt _ h

/-! ### The clocks alone -/

/-- The clocks without the run bits of the islands. -/
def State.sources (s : State) : Clk := { s.clk with run := 0 }

theorem sources_of_switches {s t : State} (h : t.switches = s.switches) : t.sources = s.sources :=
  (congrArg (fun x : Clk × Vector (Bool × Bool × Bool × Option ModeJob) 8 => { x.1 with run := 0 }) h :)

theorem clk_of_sources {s : State} {c : Clk} (h : s.sources = c) : s.clk = { c with run := s.clk.run } := by
  rw [← h]
  rfl

/-! ### An output stopped (R206, R253, R255, R564) -/

theorem sendLines_switches (s : State) (o : Fin 8) (n : Nat) : (s.sendLines o n).switches = s.switches :=
  switches_of_eq (sendLines_clk ..) (sendLines_outs ..)

@[simp] theorem stopStream_switches (s : State) (o : Fin 8) (n : Nat) (x : List Tx) : (s.stopStream o n x).switches = s.switches := by
  have hstream : (s.stopStream o n x).switches = (s.modOut o fun u => { u with stream := false }).switches :=
    switches_of_eq (stopStream_clk ..) (stopStream_outs ..)
  exact hstream.trans (modOut_switches fun _ => by rfl)

@[simp] theorem stopFrame_switches (s : State) (o : Fin 8) (n : Nat) : (s.stopFrame o n).switches = s.switches := by
  unfold State.stopFrame
  dsimp only
  split
  · rw [stopStream_switches, cutCaptures_switches]
  · exact stopStream_switches ..

@[simp] theorem completeDone_switches (s : State) (o : Fin 8) (q : Done → Bool) : (s.completeDone o q).switches = s.switches :=
  (foldl_keeps State.switches (fun _ _ => completeOk_switches ..) _ _).trans rfl

@[simp] theorem auxSend_switches (s : State) (x : AuxAcc) (o : Fin 8) : (s.auxSend x o).switches = s.switches :=
  (emit_switches ..).trans (modOut_switches fun _ => by rfl)

@[simp] theorem freeSlot_switches (s : State) (i : Fin 256) : (s.freeSlot i).switches = s.switches := by
  have houts : (s.outs.map fun u => u.dropHold i).map Out.switch = s.outs.map Out.switch := by
    rw [Vector.map_map]
    rfl
  exact congrArg (fun v => (s.switches.1, v)) houts

@[simp] theorem freeReleased_switches (s : State) (was : List (Fin 256)) : (s.freeReleased was).switches = s.switches := by
  refine foldl_keeps State.switches (fun t k => ?_) _ s
  dsimp only
  split
  · exact freeSlot_switches ..
  · rfl

@[simp] theorem claim_switches (s : State) (g : Fin 4) (c : Option Nat) : (s.claim g c).switches = s.switches := rfl

@[simp] theorem modeEnd_switches (s : State) (j : ModeJob) (st : Nat) : (s.modeEnd j st).switches = s.switches := by
  unfold State.modeEnd
  split
  · rfl
  · split
    · exact completeOk_switches ..
    · exact complete_switches ..

/-- The clocks as a stop of an output leaves them (R564 step 3, R570). -/
def Clk.outDown (c : Clk) (o : Fin 8) : Clk :=
  { c with
    run := putB (putB c.run (7 + o.val) false) (15 + o.val) false
    pllLock := putB (putB c.pllLock (8 + o.val) false) (16 + o.val) false
    pllCoast := putB (putB c.pllCoast (8 + o.val) false) (16 + o.val) false
    gated := putB c.gated (15 + o.val) true }

theorem putB_false_and (v m : BitVec 45) (i : Nat) : putB v i false &&& m = putB (v &&& m) i false := by
  rw [putB, putB, if_neg Bool.false_ne_true, if_neg Bool.false_ne_true, BitVec.and_assoc, BitVec.and_assoc, BitVec.and_comm m]

/-- A change of the clocks that stops the islands of an output. -/
theorem outDown_switches (s : State) (o : Fin 8) : ({ s with clk := s.clk.outDown o } : State).switches = (s.switches.1.outDown o, s.switches.2) := by
  simp only [State.switches, Clk.outDown, putB_false_and]

/-- A change of an output that switches it off. -/
theorem modOut_off_switches (s : State) (o : Fin 8) {f : Out → Out} (h : ∀ u, (f u).switch = (false, false, false, u.job)) :
    (s.modOut o f).switches = (s.switches.1, upd s.switches.2 o fun x => (false, false, false, x.2.2.2)) := by
  have houts : (upd s.outs o f).map Out.switch = upd (s.outs.map Out.switch) o fun x => (false, false, false, x.2.2.2) := by
    ext i hi : 1
    by_cases hio : o.val = i
    · subst hio
      simp [upd, h]
      rfl
    · simp [upd, hio]
  exact congrArg (fun v => (s.switches.1, v)) houts

/-- A stop of an output: its own switches and its clocks, nothing else of either. -/
theorem disableOut_switches (s : State) (o : Fin 8) :
    (s.disableOut o).switches = (s.switches.1.outDown o, upd s.switches.2 o fun x => (false, false, false, x.2.2.2)) := by
  unfold State.disableOut
  extract_lets g gone s1 s2 cs s3 s4 s5 s6 s7 s8 s9 c s10
  have h1 : s1.switches = s.switches := by
    unfold s1
    split
    · exact modOut_switches fun _ => by rfl
    · rfl
  have h5 : s5.switches = s.switches :=
    calc s5.switches
      _ = s4.switches := completeDone_switches ..
      _ = s3.switches := discardWhere_switches ..
      _ = s2.switches := foldl_keeps State.switches (fun t c => endCapture_switches t o c) cs s2
      _ = s1.switches := stopFrame_switches ..
      _ = s.switches := h1
  have h7 : s7.switches = (s.switches.1, upd s.switches.2 o fun x => (false, false, false, x.2.2.2)) := by
    rw [← h5]
    exact (auxSend_switches ..).trans (modOut_off_switches s5 o fun _ => by rfl)
  have h8 : s8.switches = s7.switches := by
    unfold s8
    split
    · rfl
    · exact claim_switches s7 g none
  clear_value s8
  have h10 : s10.switches = (s8.switches.1.outDown o, s8.switches.2) := outDown_switches s8 o
  rw [freeReleased_switches, viewSteps_switches, h10, h8, h7]

/-! ### The core of a state whose output is stopped -/

@[simp] theorem stopFrame_unmet (s : State) (o : Fin 8) (n : Nat) : (s.stopFrame o n).unmet = s.unmet := by
  unfold State.stopFrame
  dsimp only
  split
  · exact (unmet_of_core (stopStream_core ..)).trans (unmet_of_rasters (cutCaptures_rasters ..))
  · exact unmet_of_core (stopStream_core ..)

theorem disableOut_unmet (s : State) (o : Fin 8) : (s.disableOut o).unmet = s.unmet := by
  unfold State.disableOut
  extract_lets g gone s1 s2 cs s3 s4 s5 s6 s7 s8 s9 c s10
  have h1 : s1.unmet = s.unmet := by
    unfold s1
    split <;> rfl
  have h5 : s5.core = s2.core :=
    calc s5.core
      _ = s4.core := completeDone_core ..
      _ = s3.core := discardWhere_core ..
      _ = s2.core := foldl_core (fun t c => endCapture_core t o c) cs s2
  have h7 : s7.core = s5.core := (auxSend_core ..).trans (modOut_core ..)
  have h8 : s8.core = s7.core := by
    unfold s8
    split
    · rfl
    · exact claim_core s7 g none
  clear_value s8
  have h10 : s10.core = s8.core := rfl
  have h2 : s2.unmet = s1.unmet := stopFrame_unmet ..
  refine (unmet_of_core ?_).trans (h2.trans h1)
  rw [freeReleased_core, viewSteps_core, h10, h8, h7, h5]

end Sys2Proof.Machine
end

section
/-!
PROOF. Explicit gates (15): SL_GATE_REQUEST and SL_GATE_RELEASE (R564, R569), GATE_IDLE and GATE_TIMEOUT of a link's and of an output's island
(R564 to R567), AUTO_GATE (R563). From these O32 is settled.
-/
namespace Sys2Proof.Machine
open Sys2Proof

/-- A state with its clocks given. -/
def State.withClk (s : State) (c : Clk) : State := { s with clk := c }

@[simp] theorem withClk_core (s : State) (c : Clk) : (s.withClk c).core = s.core := rfl
@[simp] theorem withClk_clk (s : State) (c : Clk) : (s.withClk c).clk = c := rfl
@[simp] theorem withClk_spire (s : State) (c : Clk) : (s.withClk c).spire = s.spire := rfl
@[simp] theorem withClk_outs (s : State) (c : Clk) : (s.withClk c).outs = s.outs := rfl

/-! ### The gate of a link's island -/

theorem f12_link (l : Fin 12) : f12 (23 + l.val - 23) = l := by
  rw [Nat.add_sub_cancel_left]
  exact Fin.ofNat_val_eq_self l

theorem f8_out (o : Fin 8) : f8 (15 + o.val - 15) = o := by
  rw [Nat.add_sub_cancel_left]
  exact Fin.ofNat_val_eq_self o

theorem gateIdle_link (s : State) (l : Fin 12) : s.gateIdle (23 + l.val) = s.gateLink l := by
  have hl := l.isLt
  rw [State.gateIdle, if_neg (by omega), if_pos (by omega), f12_link]

theorem gateIdle_out (s : State) (o : Fin 8) : s.gateIdle (15 + o.val) = s.gateOut o := by
  have ho := o.isLt
  rw [State.gateIdle, if_pos (by omega), f8_out]

/-- The clocks once the wait of an island has ended with its gate. -/
def Clk.gatedNow (c : Clk) (i : Nat) : Clk := { c with gateWait := putB c.gateWait i false, run := putB c.run i false, gated := putB c.gated i true }

theorem gateLink_idle {s : State} {l : Fin 12} (hwait : s.clk.gateWait.getLsbD (23 + l.val) = true) (hst : (s.spire.links[l.val]).st = .off)
    (hempty : (s.spire.links[l.val]).waiting = []) : s.gateLink l = s.withClk (s.clk.gatedNow (23 + l.val)) := by
  rw [State.gateLink, if_neg (by simp [hwait, hst, hempty])]
  rfl

theorem gateLink_busy {s : State} {l : Fin 12} (h : (s.spire.links[l.val]).st ≠ .off ∨ (s.spire.links[l.val]).waiting ≠ []) : s.gateLink l = s := by
  rw [State.gateLink, if_pos (by rcases h with h | h <;> simp [h])]

/-- An island that is idle in the last cycle of its wait is gated (R8, R566). -/
theorem gateTimeout_of_gated {s : State} {i : Nat} (h : (s.gateIdle i).clk.gateWait.getLsbD i = false) : s.gateTimeout i = s.gateIdle i := by
  rw [State.gateTimeout, h]
  rfl

theorem gateTimeout_link_idle {s : State} {l : Fin 12} (hwait : s.clk.gateWait.getLsbD (23 + l.val) = true) (hst : (s.spire.links[l.val]).st = .off)
    (hempty : (s.spire.links[l.val]).waiting = []) : s.gateTimeout (23 + l.val) = s.withClk (s.clk.gatedNow (23 + l.val)) := by
  have hidle : s.gateIdle (23 + l.val) = s.withClk (s.clk.gatedNow (23 + l.val)) := (gateIdle_link s l).trans (gateLink_idle hwait hst hempty)
  rw [gateTimeout_of_gated, hidle]
  rw [hidle]
  exact getLsbD_putB_same _ (by omega) _

/-- The clocks once the wait of a link's island has ended without its gate. -/
def Clk.gateFailed (c : Clk) (l : Fin 12) : Clk :=
  { c with gateWait := putB c.gateWait (23 + l.val) false, gateReq := putB c.gateReq l.val false, gateErr := putB c.gateErr l.val true }

theorem gateTimeout_link_busy {s : State} {l : Fin 12} (hwait : s.clk.gateWait.getLsbD (23 + l.val) = true)
    (h : (s.spire.links[l.val]).st ≠ .off ∨ (s.spire.links[l.val]).waiting ≠ []) :
    s.gateTimeout (23 + l.val) = (s.withClk (s.clk.gateFailed l)).gateLate (23 + l.val) := by
  have hl := l.isLt
  have hidle : s.gateIdle (23 + l.val) = s := (gateIdle_link s l).trans (gateLink_busy h)
  unfold State.gateTimeout
  rw [hidle]
  dsimp only
  rw [hwait, if_neg (by simp), if_neg (by omega), Nat.add_sub_cancel_left]
  rfl

/-- The report of a gate's time-out counts it and touches no other clock. -/
theorem gateLate_switches (s : State) (i : Nat) :
    (s.gateLate i).switches = (s.withClk { s.clk with timeouts := satInc s.clk.timeouts }).switches := by
  unfold State.gateLate State.domeAnd0 State.raise0
  exact (raise_switches ..).trans rfl

theorem gateLate_sources (s : State) (i : Nat) : (s.gateLate i).sources = { s.sources with timeouts := satInc s.clk.timeouts } :=
  (sources_of_switches (gateLate_switches ..)).trans rfl

theorem gateLate_spire (s : State) (i : Nat) : (s.gateLate i).spire = s.spire := by
  unfold State.gateLate State.domeAnd0 State.raise0
  exact (spire_of_unnoticed (raise_unnoticed ..)).trans rfl

theorem gateLate_outs (s : State) (i : Nat) : (s.gateLate i).outs = s.outs := by
  unfold State.gateLate State.domeAnd0 State.raise0
  exact (outs_of_unnoticed (raise_unnoticed ..)).trans rfl

theorem modeEnd_outs (s : State) (j : ModeJob) (st : Nat) : (s.modeEnd j st).outs = s.outs := by
  unfold State.modeEnd
  split
  · rfl
  · split
    · exact outs_of_unnoticed (complete_unnoticed ..)
    · exact outs_of_unnoticed (complete_unnoticed ..)

theorem exec_gateTimeout_link_busy {s : State} {l : Fin 12} {i : Fin 45} (hg : s.Good) (hi : i.val = 23 + l.val)
    (hwait : s.clk.gateWait.getLsbD i.val = true) (h : (s.spire.links[l.val]).st ≠ .off ∨ (s.spire.links[l.val]).waiting ≠ []) :
    ∃ t, exec (.gateTimeout i) s = .next t ∧ t.clk.gateReq = putB s.clk.gateReq l.val false
        ∧ t.clk.gateErr = putB s.clk.gateErr l.val true ∧ t.clk.gateWait = putB s.clk.gateWait i.val false ∧ t.clk.timeouts = satInc s.clk.timeouts
        ∧ t.spire = s.spire := by
  rw [hi] at hwait ⊢
  have hstep : s.gateTimeout i.val = (s.withClk (s.clk.gateFailed l)).gateLate (23 + l.val) := by
    rw [hi]
    exact gateTimeout_link_busy hwait h
  have hcore : (s.gateTimeout i.val).core = s.core := by
    rw [hstep, gateLate_core]
    rfl
  refine ⟨_, act_steady hg.2 hcore, ?_⟩
  rw [run_clk, run_spire, hstep, clk_of_sources (gateLate_sources ..)]
  exact ⟨rfl, rfl, rfl, rfl, gateLate_spire ..⟩

/-! ### The end of a link's explicit gate (R569) -/

/-- The clocks once a link's explicit gate, or the wait for it, has ended. -/
def Clk.ungated (c : Clk) (l : Fin 12) : Clk :=
  { c with gateReq := putB c.gateReq l.val false, gateWait := putB c.gateWait (23 + l.val) false, gated := putB c.gated (23 + l.val) false }

theorem slRelease_requested {s : State} {l : Fin 12} (hreq : s.clk.gateReq.getLsbD l.val = true) :
    s.slRelease l = (s.withClk (s.clk.ungated l)).linkStart l := by
  rw [State.slRelease, if_neg (by rw [hreq]; simp)]
  rfl

theorem linkStart_disabled {s : State} {l : Fin 12} (hen : (s.spire.links[l.val]).enable = false) : s.linkStart l = s := by
  simp [State.linkStart, hen]

theorem spirePll_gates (s : State) (l : Fin 12) : (s.spirePll l).clk.gateReq = s.clk.gateReq ∧ (s.spirePll l).clk.gated = s.clk.gated := by
  unfold State.spirePll
  split <;> exact ⟨rfl, rfl⟩

theorem exec_slGateRelease_trains {s : State} {l : Fin 12} (hg : s.Good) (hhost : s.HostTo 0) (hreq : s.clk.gateReq.getLsbD l.val = true)
    (hen : (s.spire.links[l.val]).enable = true) (hst : (s.spire.links[l.val]).st = .off) (hpair : (s.spire.pairing l).isSome = true) :
    ∃ t, exec (.slGateRelease l) s = .next t ∧ (t.spire.links[l.val]).st = .train
          ∧ t.clk.gateReq = putB s.clk.gateReq l.val false ∧ t.clk.gated = putB s.clk.gated (23 + l.val) false ∧ t.clk.run.getLsbD (23 + l.val) = true := by
  have hl := l.isLt
  have hungated : (s.clk.ungated l).gated.getLsbD (23 + l.val) = false := getLsbD_putB_same _ (by omega) _
  have hstep : (s.hostAcc 0 fun s => s.slRelease l)
      = (((s.withClk (s.clk.ungated l)).modLink l fun k => { k.fresh with st := .train, retrain := false }).runIsland (23 + l.val) true).spirePll l :=
    (hostAcc_on hhost _).trans ((slRelease_requested hreq).trans (linkStart_trains hst hen hpair hungated))
  have hcore : (s.hostAcc 0 fun s => s.slRelease l).core = s.core := by
    rw [hstep, spirePll_core, runIsland_core, modLink_core]
    rfl
  refine ⟨_, act_steady hg.2 hcore, ?_⟩
  obtain ⟨hgateReq, hgated⟩ := spirePll_gates
    (((s.withClk (s.clk.ungated l)).modLink l fun k => { k.fresh with st := .train, retrain := false }).runIsland (23 + l.val) true) l
  rw [run_spire, run_clk, hstep, spirePll_spire, spirePll_run, hgateReq, hgated]
  exact ⟨by simp [State.runIsland], rfl, rfl, getLsbD_putB_same _ (by omega) _⟩

/-! ### The gate of an output's island -/

/-- The OUTPUT_MODE `j` of an output waits for its gate, and the Dome does not hold the output. -/
def State.GateWaits (s : State) (o : Fin 8) (j : ModeJob) : Prop :=
  (s.outs[o.val]).job = some j ∧ j.wait = .gate ∧ (s.belvs[o.val]).cfg.getLsbD 0 = false

/-- An output as the end of its gate wait finds it: without the OUTPUT_MODE that waited. -/
def State.gateEnded (s : State) (o : Fin 8) (f : Out → Out) : State := (s.endWait (15 + o.val)).modOut o f

theorem gateOut_idle {s : State} {o : Fin 8} {j : ModeJob} (h : s.GateWaits o j) (haux : (s.outs[o.val]).auxBusy = false) :
    s.gateOut o = ((s.gateEnded o fun u => { u with job := none }).disableOut o).modeEnd j stOk := by
  obtain ⟨hjob, hwait, hheld⟩ := h
  unfold State.gateOut
  rw [hjob]
  simp only [hwait, hheld, haux, bne_self_eq_false, Bool.false_eq_true, if_false]
  rfl

theorem gateOut_busy {s : State} {o : Fin 8} {j : ModeJob} (h : s.GateWaits o j) (haux : (s.outs[o.val]).auxBusy = true) : s.gateOut o = s := by
  obtain ⟨hjob, hwait, hheld⟩ := h
  unfold State.gateOut
  rw [hjob]
  simp only [hwait, hheld, haux, bne_self_eq_false, Bool.false_eq_true, if_false, if_true]

/-- The clocks and the switches at the end of a gate wait whose output is idle. -/
theorem gateOut_idle_switches {s : State} {o : Fin 8} {j : ModeJob} (h : s.GateWaits o j) (haux : (s.outs[o.val]).auxBusy = false) :
    (s.gateOut o).switches
      = ((s.endWait (15 + o.val)).switches.1.outDown o, upd (s.gateEnded o fun u => { u with job := none }).switches.2 o fun x => (false, false, false, x.2.2.2)) := by
  rw [gateOut_idle h haux, modeEnd_switches, disableOut_switches]
  rfl

theorem gateOut_idle_unmet {s : State} {o : Fin 8} {j : ModeJob} (h : s.GateWaits o j) (haux : (s.outs[o.val]).auxBusy = false) :
    (s.gateOut o).unmet = s.unmet := by
  rw [gateOut_idle h haux, unmet_of_core (modeEnd_core ..), disableOut_unmet]
  rfl

theorem switchAt_eq (s : State) (o : Fin 8) : s.switchAt o = (s.switches.1, s.switches.2[o.val]) := by
  rw [State.switchAt, State.switches, Vector.getElem_map]

theorem gateOut_idle_switchAt {s : State} {o : Fin 8} {j : ModeJob} (h : s.GateWaits o j) (haux : (s.outs[o.val]).auxBusy = false) :
    (s.gateOut o).switchAt o = ((s.endWait (15 + o.val)).switches.1.outDown o, false, false, false, none) := by
  have hjob : (s.gateEnded o fun u => { u with job := none }).switches.2[o.val].2.2.2 = none := by
    simp [State.switches, State.gateEnded, Out.switch]
  rw [switchAt_eq, gateOut_idle_switches h haux]
  dsimp only
  rw [upd_same, hjob]

/-- What an output's island that is idle at the end of its gate wait leaves, and what then follows in the same step. -/
theorem gateOut_idle_after {s : State} {o : Fin 8} {j : ModeJob} (hg : s.Good) (h : s.GateWaits o j) (haux : (s.outs[o.val]).auxBusy = false) :
    (s.gateOut o).after.switchAt o = ((s.endWait (15 + o.val)).switches.1.outDown o, false, false, false, none) := by
  have hswitch := gateOut_idle_switchAt h haux
  have hdark : ((s.gateOut o).outs[o.val]).scanning = false := (congrArg (fun x => x.2.2.1) hswitch :)
  rw [after_switchAt hg.2.2 (gateOut_idle_unmet h haux) hdark, hswitch]

theorem and_outIslands_getLsbD (v : BitVec 45) {i : Nat} (h : 7 ≤ i ∧ i ≤ 22) : (v &&& outIslands).getLsbD i = v.getLsbD i := by
  have hin : ∀ k : Fin 45, 7 ≤ k.val ∧ k.val ≤ 22 → outIslands.getLsbD k.val = true := by decide
  rw [BitVec.getLsbD_and, hin ⟨i, by omega⟩ h, Bool.and_true]

theorem run_switchAt (s : State) (f : State → State) (o : Fin 8) : (s.run f).switchAt o = (f s).switchAt o := rfl

/-- The output and its islands as a stop of the output leaves them. -/
def State.StoppedOut (t : State) (o : Fin 8) : Prop :=
  (t.outs[o.val]).enabled = false ∧ (t.outs[o.val]).job = none ∧ (t.outs[o.val]).pvalid = false
    ∧ t.clk.run.getLsbD (7 + o.val) = false ∧ t.clk.run.getLsbD (15 + o.val) = false ∧ t.clk.gated.getLsbD (15 + o.val) = true

theorem stoppedOut_of_switchAt {t : State} {o : Fin 8} {c : Clk} (h : t.switchAt o = (c.outDown o, false, false, false, none)) : t.StoppedOut o := by
  have ho := o.isLt
  have hrun : t.clk.run &&& outIslands = putB (putB c.run (7 + o.val) false) (15 + o.val) false := (congrArg (fun x => x.1.run) h :)
  have hgated : t.clk.gated = putB c.gated (15 + o.val) true := (congrArg (fun x => x.1.gated) h :)
  refine ⟨(congrArg (fun x => x.2.1) h :), (congrArg (fun x => x.2.2.2.2) h :), (congrArg (fun x => x.2.2.2.1) h :), ?_, ?_, ?_⟩
  · rw [← and_outIslands_getLsbD _ (by omega), hrun, getLsbD_putB_ne _ (by omega), getLsbD_putB_same _ (by omega)]
  · rw [← and_outIslands_getLsbD _ (by omega), hrun, getLsbD_putB_same _ (by omega)]
  · rw [hgated, getLsbD_putB_same _ (by omega)]

/-- The end of an output's gate wait, as GATE_IDLE or as the last cycle of the wait (R8, R566), with no AUX access in flight. -/
theorem exec_gate_idle {s : State} {o : Fin 8} {i : Fin 45} {j : ModeJob} (hg : s.Good) (hi : i.val = 15 + o.val) (h : s.GateWaits o j)
    (haux : (s.outs[o.val]).auxBusy = false) {c : Instr} (hc : c = .gateIdle i ∨ (c = .gateTimeout i ∧ s.clk.gateWait.getLsbD i.val = true)) :
    ∃ t, exec c s = .next t ∧ t.StoppedOut o := by
  have hrun (f : State → State) (hf : f s = s.gateOut o) : ∃ t, act f s = .next t ∧ t.StoppedOut o := by
    refine ⟨_, act_of_running hg.2.1 f, stoppedOut_of_switchAt (c := (s.endWait (15 + o.val)).switches.1) ?_⟩
    rw [run_switchAt, hf]
    exact gateOut_idle_after hg h haux
  have hidle : s.gateIdle i.val = s.gateOut o := by rw [hi, gateIdle_out]
  obtain rfl | ⟨rfl, -⟩ := hc
  · exact hrun _ hidle
  · refine hrun _ ((gateTimeout_of_gated ?_).trans hidle)
    have hclk : (s.gateOut o).clk.gateWait = putB s.clk.gateWait (15 + o.val) false := (congrArg (fun x => x.1.gateWait) (gateOut_idle_switchAt h haux) :)
    rw [hidle, hclk, hi, getLsbD_putB_same _ (by omega)]

theorem gateTimeout_out_busy {s : State} {o : Fin 8} {j : ModeJob} (h : s.GateWaits o j) (haux : (s.outs[o.val]).auxBusy = true)
    (hbit : s.clk.gateWait.getLsbD (15 + o.val) = true) :
    s.gateTimeout (15 + o.val) = ((s.gateEnded o fun u => { u with job := none, enableSet := true }).gateLate (15 + o.val)).modeEnd j stGateTimeout := by
  have ho := o.isLt
  have hidle : s.gateIdle (15 + o.val) = s := (gateIdle_out s o).trans (gateOut_busy h haux)
  have hjob : ((s.endWait (15 + o.val)).outs[o.val]).job = some j := h.1
  unfold State.gateTimeout
  rw [hidle]
  dsimp only
  rw [hbit, if_neg (by simp), if_pos (by omega)]
  simp only [f8_out, hjob]
  rfl

/-- The time-out of an output's gate wait with an AUX access in flight. -/
theorem exec_gateTimeout_out_busy {s : State} {o : Fin 8} {i : Fin 45} {j : ModeJob} (hg : s.Good) (hi : i.val = 15 + o.val) (h : s.GateWaits o j)
    (haux : (s.outs[o.val]).auxBusy = true) (hbit : s.clk.gateWait.getLsbD i.val = true) :
    ∃ t, exec (.gateTimeout i) s = .next t ∧ (t.outs[o.val]).job = none ∧ (t.outs[o.val]).enabled = (s.outs[o.val]).enabled
          ∧ (t.outs[o.val]).enableSet = true ∧ t.clk.timeouts = satInc s.clk.timeouts := by
  rw [hi] at hbit
  have hstep : s.gateTimeout i.val = ((s.gateEnded o fun u => { u with job := none, enableSet := true }).gateLate (15 + o.val)).modeEnd j stGateTimeout := by
    rw [hi]
    exact gateTimeout_out_busy h haux hbit
  have hcore : (s.gateTimeout i.val).core = s.core := by
    rw [hstep, modeEnd_core, gateLate_core]
    rfl
  have houts : (s.gateTimeout i.val).outs = upd s.outs o fun u => { u with job := none, enableSet := true } := by
    rw [hstep, modeEnd_outs, gateLate_outs]
    rfl
  have hsources : (s.gateTimeout i.val).sources = { s.sources with
      gateWait := putB s.clk.gateWait (15 + o.val) false, timeouts := satInc s.clk.timeouts } := by
    rw [hstep, sources_of_switches (modeEnd_switches ..), gateLate_sources]
    rfl
  refine ⟨_, act_steady hg.2 hcore, ?_⟩
  rw [run_outs, run_clk, houts, upd_same, clk_of_sources hsources]
  exact ⟨rfl, rfl, rfl, rfl⟩

/-- Settles O32: the gates of links' and of outputs' islands, and AUTO_GATE. -/
theorem gateRequests : Obligations.GateRequests := by
  unfold Obligations.GateRequests
  refine ⟨fun s l i hg hi => ⟨fun hhost hreq => ?_, fun hhost hreq => ?_, fun hhost hreq hen => ?_, exec_slGateRelease_trains hg, fun hwait hst hempty => ?_,
    fun hwait hst hempty => ?_, exec_gateTimeout_link_busy hg hi⟩, fun s o i j hg hi => ⟨fun c hc hjob hwait hheld haux => ?_,
    fun hjob hwait hheld haux hbit => ?_, fun k hwork => ?_, fun k hwork => ?_⟩⟩
  · exact plain hg ((hostAcc_on hhost _).trans (if_neg (Bool.eq_false_iff.1 hreq))) rfl rfl rfl rfl
  · exact plain hg ((hostAcc_on hhost _).trans (if_pos hreq)) rfl rfl rfl rfl
  · exact plain hg ((hostAcc_on hhost _).trans ((slRelease_requested hreq).trans (linkStart_disabled hen))) rfl rfl rfl rfl
  · exact plain hg (hi ▸ (gateIdle_link s l).trans (gateLink_idle (hi ▸ hwait) hst hempty)) rfl rfl rfl rfl
  · exact plain hg (hi ▸ gateTimeout_link_idle (hi ▸ hwait) hst hempty) rfl rfl rfl rfl
  · exact exec_gate_idle hg hi ⟨hjob, hwait, hheld⟩ haux hc
  · exact exec_gateTimeout_out_busy hg hi ⟨hjob, hwait, hheld⟩ haux hbit
  · exact plain hg (if_neg (by simp [hwork])) (runIsland_core ..) rfl rfl rfl
  · exact plain hg (if_pos hwork) rfl rfl rfl rfl

end Sys2Proof.Machine
end

section
/-!
SUPPORT. The clocks but for their run bits (15): what the links of the Spire (07), a raster that a PLL stops (R216) and the reset of a port (R87) leave
of them, and of the core of a state.
-/
namespace Sys2Proof.Machine
open Sys2Proof

@[simp] theorem run_sources (s : State) (f : State → State) : (s.run f).sources = (f s).sources := rfl
@[simp] theorem modOut_sources (s : State) (o : Fin 8) (f : Out → Out) : (s.modOut o f).sources = s.sources := rfl
@[simp] theorem raise_sources (s : State) (e : Ev) (dests : List (Fin 64 × Ev)) : (s.raise e dests).sources = s.sources :=
  sources_of_switches (raise_switches ..)

/-! ### What follows a step that meets memory errors (R234) -/

theorem underrunFrom_sources (s : State) (o : Fin 8) (line x : Nat) : (s.underrunFrom o line x).sources = s.sources := by
  unfold State.underrunFrom
  extract_lets u s1 s2
  have h2 : s2.sources = s.sources := (modOut_sources ..).trans (sources_of_switches (upTo_switches ..))
  split
  · rfl
  · split
    · exact (modOut_sources ..).trans h2
    · exact (raise_sources ..).trans ((modOut_sources ..).trans h2)

theorem faultGo_sources (s : State) (o : Fin 8) : (s.faultGo o).sources = s.sources := by
  unfold State.faultGo
  extract_lets u fs t
  split
  · rfl
  · split
    · exact (underrunFrom_sources ..).trans rfl
    · rfl

/-- What follows an effect that keeps the core of a calm state but for errors leaves the sources. -/
theorem after_sources {s t : State} (hs : s.calm = true) (hcore : t.unmet = s.unmet) : t.after.sources = t.sources := by
  rw [after_of_unmet hs hcore]
  exact foldl_keeps State.sources faultGo_sources _ t

/-! ### The links of the Spire (R309, R314, R327, R331, R343) -/

@[simp] theorem sendDelayReq_switches (s : State) (l : Fin 12) : (s.sendDelayReq l).switches = s.switches := by
  unfold State.sendDelayReq
  dsimp only
  rw [txFlit_switches, modLink_switches]

@[simp] theorem takeParent_switches (s : State) : s.takeParent.switches = s.switches := by
  unfold State.takeParent
  dsimp only
  split
  · rfl
  · split
    · rfl
    · split
      · rfl
      · split
        · exact (sendDelayReq_switches ..).trans rfl
        · exact (sendSeq_switches ..).trans ((sendDelayReq_switches ..).trans rfl)

@[simp] theorem flood_switches (s : State) (skip : Option (Fin 12)) (f : BitVec 256) : (s.flood skip f).switches = s.switches := by
  refine foldl_keeps State.switches (fun t l => ?_) _ s
  split
  · exact sendSeq_switches ..
  · rfl

@[simp] theorem decideVote_switches (s : State) (g : Fin 4) (f : Nat) (flip : Bool) (detail : Nat) :
    (s.decideVote g f flip detail).switches = s.switches := by
  unfold State.decideVote
  split
  · rfl
  · exact (flood_switches ..).trans rfl

@[simp] theorem voteGo_switches (s : State) (v : Vote) : (s.voteGo v).switches = s.switches := by
  unfold State.voteGo
  dsimp only
  split
  · split
    · exact decideVote_switches ..
    · split
      · exact decideVote_switches ..
      · rfl
  · split
    · rfl
    · split
      · rfl
      · split
        · exact (sendSeq_switches ..).trans rfl
        · rfl

@[simp] theorem votesGo_switches (s : State) : s.votesGo.switches = s.switches := by
  refine foldl_keeps State.switches (fun t v => ?_) _ s
  split
  · exact voteGo_switches ..
  · rfl

@[simp] theorem exportsRoute_switches (s : State) : s.exportsRoute.switches = s.switches :=
  (exportsGo_keeps State.switches exportPump_switches startXfer_switches _).trans rfl

@[simp] theorem afterLoss_switches (s : State) (l : Fin 12) : (s.afterLoss l).switches = s.switches := by
  unfold State.afterLoss
  extract_lets sp s1 s2
  have h2 : s2.switches = s.switches := by
    unfold s2
    split
    · exact (takeParent_switches s1).trans rfl
    · rfl
  rw [exportsRoute_switches, votesGo_switches, h2]

@[simp] theorem linkUnlock_switches (s : State) (l : Fin 12) : (s.linkUnlock l).switches = s.switches := by
  unfold State.linkUnlock
  split
  · unfold State.linkLost
    split
    · rfl
    · exact (afterLoss_switches ..).trans ((raise_switches ..).trans (modLink_switches ..))
  · exact modLink_switches ..

theorem holdover_switches (s : State) : s.holdover.switches = s.switches := by
  unfold State.holdover
  split
  · rfl
  · exact (raise_switches ..).trans rfl

theorem unmet_of_windows {s t : State} (h : t.windows = s.windows) : t.unmet = s.unmet := (congrArg Prod.fst h :)

theorem exportsRoute_unmet (s : State) : s.exportsRoute.unmet = s.unmet := (unmet_of_windows (exportsGo_windows _)).trans rfl

theorem afterLoss_unmet (s : State) (l : Fin 12) : (s.afterLoss l).unmet = s.unmet := by
  unfold State.afterLoss
  extract_lets sp s1 s2
  have h2 : s2.core = s.core := by
    unfold s2
    split
    · exact (takeParent_core s1).trans rfl
    · rfl
  rw [exportsRoute_unmet]
  exact unmet_of_core ((votesGo_core ..).trans h2)

theorem linkUnlock_unmet (s : State) (l : Fin 12) : (s.linkUnlock l).unmet = s.unmet := by
  unfold State.linkUnlock
  split
  · unfold State.linkLost
    split
    · rfl
    · rw [afterLoss_unmet]
      exact unmet_of_core ((raise_core ..).trans (modLink_core ..))
  · exact unmet_of_core (modLink_core ..)

/-! ### A PLL that loses its reference (R216, R551) -/

theorem coastOut_sources (s : State) (o : Fin 8) : (s.coastOut o).sources = s.sources := by
  unfold State.coastOut
  dsimp only
  split
  · rfl
  · exact (modOut_sources ..).trans (sources_of_switches (stopFrame_switches ..))

theorem coastOut_unmet (s : State) (o : Fin 8) : (s.coastOut o).unmet = s.unmet := by
  unfold State.coastOut
  dsimp only
  split
  · rfl
  · exact (unmet_of_core (modOut_core ..)).trans (stopFrame_unmet ..)

/-- The sources once PLL `n` has lost its reference. -/
def Clk.coasts (c : Clk) (n : Nat) : Clk := { c with pllLock := putB c.pllLock n false, pllCoast := putB c.pllCoast n true }

/-- A locked PLL that loses its reference, before its output's raster stops. -/
def State.pllCoasts (s : State) (n : Nat) : State := (s.withClk (s.clk.coasts n)).domeAnd0 { code := evPllCoast, inst := n, time := s.now }

theorem pllCoasts_core (s : State) (n : Nat) : (s.pllCoasts n).core = s.core := (domeAnd0_core ..).trans (withClk_core ..)

theorem pllCoasts_sources (s : State) (n : Nat) : (s.pllCoasts n).sources = s.sources.coasts n := (raise_sources ..).trans rfl

theorem pllLost_locked {s : State} {n : Nat} (h : s.clk.pllLock.getLsbD n = true) :
    s.pllLost n = if 8 ≤ n ∧ n ≤ 15 then (s.pllCoasts n).coastOut (f8 (n - 8)) else s.pllCoasts n := by
  unfold State.pllLost
  rw [h]
  rfl

theorem pllLost_unlocked {s : State} {n : Nat} (h : s.clk.pllLock.getLsbD n = false) : s.pllLost n = s := if_pos (by rw [h]; rfl)

theorem pllLost_locked_sources {s : State} {n : Nat} (h : s.clk.pllLock.getLsbD n = true) : (s.pllLost n).sources = s.sources.coasts n := by
  rw [pllLost_locked h]
  split
  · rw [coastOut_sources, pllCoasts_sources]
  · exact pllCoasts_sources ..

theorem pllLost_unmet (s : State) (n : Nat) : (s.pllLost n).unmet = s.unmet := by
  cases h : s.clk.pllLock.getLsbD n
  · rw [pllLost_unlocked h]
  · rw [pllLost_locked h]
    split
    · rw [coastOut_unmet]
      exact unmet_of_core (pllCoasts_core ..)
    · exact unmet_of_core (pllCoasts_core ..)

end Sys2Proof.Machine
end

section
/-!
SUPPORT. The reset of a host port's Pavilions (R87, R88): it leaves the sources of the clocks, and nothing waits to follow it.
-/
namespace Sys2Proof.Machine
open Sys2Proof

/-- A field of a vector's entries that the update of one entry keeps there. -/
theorem map_upd_of_eq {α β : Type} {n : Nat} {g : α → β} {v : Vector α n} {p : Fin n} {f : α → α} (h : g (f v[p.val]) = g v[p.val]) :
    (upd v p f).map g = v.map g := by
  ext i hi
  by_cases hp : p.val = i
  · subst hp
    simp [upd, h]
  · simp [upd, hp]

/-! ### The sources -/

theorem resetWork_sources (s : State) (p : Fin 64) : (s.resetWork p).sources = s.sources := by
  unfold State.resetWork
  refine (foldl_keeps State.sources (fun t v => ?_) _ _).trans ((?_ : _ = (s.discardWhere (fun m => m.pav == p) (some p)).sources).trans ?_)
  · split <;> rfl
  · rfl
  · exact sources_of_switches (discardWhere_switches ..)

theorem dropReads_sources (s : State) (p : Fin 64) : (s.dropReads p).sources = s.sources := by
  refine foldl_keeps State.sources (fun t y => ?_) _ s
  split
  · split <;> rfl
  · rfl

theorem resetLeases_sources (s : State) (p : Fin 64) : (s.resetLeases p).sources = s.sources := by
  unfold State.resetLeases State.creditsBy
  dsimp only
  split <;> rfl

theorem pavRecord_sources (s : State) (p : Fin 64) : (s.pavRecord p).sources = s.sources := (raise_sources ..).trans rfl

theorem pavReset_sources (s : State) (p : Fin 64) (absent : Bool) : (s.pavReset p absent).sources = s.sources := by
  unfold State.pavReset
  split
  · rfl
  · extract_lets s1 s2 s3 unreply s4
    have h2 : s2.sources = s.sources := (resetLeases_sources ..).trans ((dropReads_sources ..).trans (resetWork_sources ..))
    clear_value s2
    exact (pavRecord_sources ..).trans h2

theorem portReset_sources (s : State) (n : Fin 4) : (s.portReset n).sources = s.sources := by
  unfold State.portReset
  extract_lets t
  have ht : t.sources = s.sources := by
    refine foldl_keeps State.sources (fun t q => ?_) (portPavs n) s
    split
    · exact pavReset_sources ..
    · exact pavRecord_sources ..
  clear_value t
  exact ht

theorem portDown_sources (s : State) (n : Fin 4) : (s.portDown n).sources = s.sources := by
  unfold State.portDown
  split
  · exact portReset_sources ..
  · rfl

/-! ### The calm -/

theorem calm_filterJobs {s : State} (h : s.calm = true) (q : Job → Bool) : ({ s with jobs := s.jobs.filter q } : State).calm = true := by
  simp only [State.calm, Bool.and_eq_true] at h ⊢
  obtain ⟨⟨⟨hwaits, hjobs⟩, hfaults⟩, hstage⟩ := h
  have hidle : ({ s with jobs := s.jobs.filter q } : State).jobsIdle = true := by
    simp only [State.jobsIdle, List.all_eq_true] at hjobs ⊢
    exact fun j hj => hjobs j (List.mem_of_mem_filter hj)
  exact ⟨⟨⟨hwaits, hidle⟩, hfaults⟩, hstage⟩

theorem order_of_calm {s : State} (h : s.calm = true) (p : Fin 64) : (s.pavs[p.val]).order = [] := by
  obtain ⟨-, -, -, -, -, -, -, hquiet, -⟩ := calm_parts h
  exact orders_quiet hquiet p

theorem modPav_calm {s : State} {p : Fin 64} {f : Pav → Pav} (h : s.calm = true) (hf : ∀ v, (f v).order = []) : (s.modPav p f).calm = true := by
  have horders : (upd s.pavs p f).map Pav.order = s.pavs.map Pav.order := map_upd_of_eq ((hf _).trans (order_of_calm h p).symm)
  rw [← h]
  exact calm_of_core (by rw [State.core, State.modPav, horders]; rfl)

theorem updPort_calm {s : State} {n : Fin 4} {f : Port → Port} (h : s.calm = true) (hf : (f s.ports[n.val]).posted = []) :
    ({ s with ports := upd s.ports n f } : State).calm = true := by
  obtain ⟨-, -, -, -, -, -, hposted, -⟩ := calm_parts h
  have hposted : (upd s.ports n f).map Port.posted = s.ports.map Port.posted := map_upd_of_eq (hf.trans (hposted n).symm)
  rw [← h]
  exact calm_of_core (by rw [State.core, hposted]; rfl)

theorem voiceReleases_core (q : State → Fin 16 → Bool) (l : List (Fin 16)) (s : State) :
    (l.foldl (fun s v => if q s v then s.voiceRelease v else s) s).core = s.core := by
  refine foldl_core (fun t v => ?_) l s
  split
  · exact voiceRelease_core ..
  · rfl

theorem resetWork_calm {s : State} (h : s.calm = true) (p : Fin 64) : (s.resetWork p).calm = true := by
  unfold State.resetWork
  extract_lets s1 s2
  have h1 : s1.calm = true := (calm_of_core (discardWhere_core ..)).trans h
  rw [calm_of_core (voiceReleases_core ..)]
  exact (calm_of_core rfl).trans (calm_filterJobs h1 fun j => j.pav != p)

theorem resetLeases_calm {s : State} (h : s.calm = true) (p : Fin 64) : (s.resetLeases p).calm = true := by
  obtain ⟨-, -, -, -, -, -, hposted, -⟩ := calm_parts h
  have hports := updPort_calm (n := portOf p) (f := fun t => { t with posted := t.posted.filter fun w => w.2.pav != p }) h
    (by rw [hposted]; rfl)
  unfold State.resetLeases State.creditsBy
  dsimp only
  split
  · exact hports
  · exact hports

theorem pavRecord_calm {s : State} (h : s.calm = true) (p : Fin 64) : (s.pavRecord p).calm = true := (calm_of_core (pavRecord_core ..)).trans h

theorem pavReset_calm {s : State} (h : s.calm = true) (p : Fin 64) (absent : Bool) : (s.pavReset p absent).calm = true := by
  unfold State.pavReset
  split
  · exact h
  · extract_lets s1 s2 s3 unreply s4
    have h1 : s1.calm = true := (calm_of_core (dropReads_core ..)).trans (resetWork_calm h p)
    have h2 : s2.calm = true := resetLeases_calm h1 p
    have h3 : s3.calm = true := modPav_calm h2 fun _ => rfl
    clear_value s3
    refine pavRecord_calm ((calm_of_core ?_).trans h3) p
    rw [purgeImports_core]
    rfl

theorem portReset_calm {s : State} (h : s.calm = true) (n : Fin 4) : (s.portReset n).calm = true := by
  unfold State.portReset
  extract_lets t
  have ht : t.calm = true := by
    refine List.foldlRecOn (motive := fun u : State => u.calm = true) (portPavs n) _ h fun u hu q _ => ?_
    split
    · exact pavReset_calm hu ..
    · exact pavRecord_calm hu q
  exact updPort_calm ht rfl

theorem portDown_calm {s : State} (h : s.calm = true) (n : Fin 4) : (s.portDown n).calm = true := by
  unfold State.portDown
  split
  · exact portReset_calm h n
  · exact h

theorem portDown_linkUp (s : State) (n : Fin 4) : ((s.portDown n).ports[n.val]).linkUp = false := by
  unfold State.portDown
  split
  · rw [State.portReset, State.modPort, upd_same]
  · next hdown => exact Bool.eq_false_iff.2 hdown

end Sys2Proof.Machine
end

section
/-!
PROOF. The clock sources and the PLLs (15): XIN and RCO (R544, R552, R555), the monitor (R545, R546), the host reference clocks (R548), PLLs that coast
and relock (R551, R553), and forced switches (R557). From these O33 is settled.
-/
namespace Sys2Proof.Machine
open Sys2Proof

/-! ### PLLs (R551) -/

theorem getLsbD_putB_false {w : Nat} (v : BitVec w) {k n : Nat} (h : k = n ∨ v.getLsbD k = false) : (putB v n false).getLsbD k = false := by
  by_cases hk : k = n
  · subst hk
    by_cases hlt : k < w
    · exact getLsbD_putB_same v hlt false
    · exact BitVec.getLsbD_of_ge _ _ (Nat.le_of_not_lt hlt)
  · rw [getLsbD_putB_ne v hk]
    exact h.resolve_left hk

/-- The sources with other states of the PLLs. -/
def Clk.withPlls (c : Clk) (lock coast : BitVec 48) : Clk := { c with pllLock := lock, pllCoast := coast }

/-- A PLL that loses its reference is not locked after it, nor is one that was not before. -/
theorem pllLost_sources (s : State) (n : Nat) :
    ∃ lock coast, (s.pllLost n).sources = s.sources.withPlls lock coast ∧ ∀ k, k = n ∨ s.clk.pllLock.getLsbD k = false → lock.getLsbD k = false := by
  cases h : s.clk.pllLock.getLsbD n
  · rw [pllLost_unlocked h]
    refine ⟨s.clk.pllLock, s.clk.pllCoast, rfl, fun k hk => ?_⟩
    rcases hk with rfl | hk
    · exact h
    · exact hk
  · exact ⟨_, _, pllLost_locked_sources h, fun k hk => getLsbD_putB_false _ hk⟩

theorem foldl_pllLost_sources (l : List Nat) (s : State) :
    ∃ lock coast, (l.foldl (fun s n => s.pllLost n) s).sources = s.sources.withPlls lock coast
      ∧ ∀ k, k ∈ l ∨ s.clk.pllLock.getLsbD k = false → lock.getLsbD k = false := by
  induction l generalizing s with
  | nil => exact ⟨s.clk.pllLock, s.clk.pllCoast, rfl, fun k hk => hk.resolve_left List.not_mem_nil⟩
  | cons n l ih =>
    obtain ⟨lock1, coast1, hfirst, hoff1⟩ := pllLost_sources s n
    obtain ⟨lock2, coast2, hrest, hoff2⟩ := ih (s.pllLost n)
    have hlock : (s.pllLost n).clk.pllLock = lock1 := (congrArg Clk.pllLock hfirst :)
    refine ⟨lock2, coast2, hrest.trans (by rw [hfirst]; rfl), fun k hk => hoff2 k ?_⟩
    rw [hlock]
    rcases hk with hk | hk
    · rcases List.mem_cons.1 hk with hk | hk
      · exact .inr (hoff1 k (.inl hk))
      · exact .inl hk
    · exact .inr (hoff1 k (.inr hk))

theorem foldl_pllLost_unmet (l : List Nat) (s : State) : (l.foldl (fun s n => s.pllLost n) s).unmet = s.unmet :=
  foldl_keeps State.unmet pllLost_unmet l s

/-! ### XIN lost or judged failed (R552, R554) -/

theorem clkFail_sources (s : State) (code : Nat) : (s.clkFail code).sources = { s.sources with failCode := code } := (raise_sources ..).trans rfl

theorem reset_of_core {s t : State} (h : t.core = s.core) : t.pwr.reset = s.pwr.reset := (congrArg Core.reset h :)

/-- XIN failed: the device runs on RCO, the code says why, and no PLL that XIN feeds is locked. -/
def Clk.OnRco (c : Clk) (code : Nat) (xinOk : Bool) : Prop :=
  c.onRco = true ∧ c.failCode = code ∧ c.xinOk = xinOk ∧ ∀ n : Fin 48, xinPll n.val = true → c.pllLock.getLsbD n.val = false

theorem xinFails_sources {s : State} (h : s.clk.onRco = false) (code : Nat) : (s.xinFails code).sources.OnRco code s.clk.xinOk := by
  unfold State.xinFails
  rw [h, if_neg Bool.false_ne_true]
  extract_lets c s1 s2 s3 s4
  obtain ⟨lock, coast, hplls, hoff⟩ := foldl_pllLost_sources ((List.range 48).filter xinPll) s2
  have h3 : s3.sources = s2.sources.withPlls lock coast := hplls
  have h2 : s2.sources = { s1.sources with failCode := code } := clkFail_sources ..
  have hlinks : ((idx 12).foldl State.linkUnlock s4).sources = s4.sources := foldl_keeps State.sources (fun t l => sources_of_switches (linkUnlock_switches t l)) _ _
  have hend : ((idx 12).foldl State.linkUnlock s4).holdover.sources = s2.sources.withPlls lock coast :=
    (sources_of_switches (holdover_switches _)).trans (hlinks.trans h3)
  rw [hend, h2]
  refine ⟨rfl, rfl, rfl, fun n hn => hoff n (.inl ?_)⟩
  exact List.mem_filter.2 ⟨List.mem_range.2 n.isLt, hn⟩

theorem xinFails_unmet (s : State) (code : Nat) : (s.xinFails code).unmet = s.unmet := by
  unfold State.xinFails
  split
  · rfl
  · extract_lets c s1 s2 s3 s4
    have h2 : s2.unmet = s.unmet := (unmet_of_core (clkFail_core ..)).trans rfl
    have h3 : s3.unmet = s2.unmet := foldl_pllLost_unmet ..
    have hlinks : ((idx 12).foldl State.linkUnlock s4).unmet = s4.unmet := foldl_keeps State.unmet linkUnlock_unmet _ _
    exact (unmet_of_core (holdover_core _)).trans (hlinks.trans (h3.trans h2))

/-- A command of the AON domain that changes the clocks alone. -/
theorem actAon_withClk {s : State} {f : State → State} {c : Clk} (hg : s.Good) (h : f s = s.withClk c) : actAon f s = .next (s.withClk c) := by
  rw [← h]
  exact actAon_plain hg.1 hg.2.2 (by rw [h]; rfl) (by rw [h]; rfl) (by rw [h]; rfl) (by rw [h]; rfl)

/-- A command of the AON domain that keeps the core of a calm state but for errors, by what it makes of the sources. -/
theorem actAon_sources {s : State} {f : State → State} (hs : s.calm = true) (hcore : (f s).unmet = s.unmet) :
    ∃ t, actAon f s = .next t ∧ t.sources = (f s).sources := by
  refine ⟨_, rfl, ?_⟩
  rw [run_sources]
  exact after_sources hs hcore

theorem act_sources {s : State} {f : State → State} (hs : s.Steady) (hcore : (f s).unmet = s.unmet) :
    ∃ t, act f s = .next t ∧ t.sources = (f s).sources := by
  refine ⟨_, act_of_running hs.1 f, ?_⟩
  rw [run_sources]
  exact after_sources hs.2 hcore

theorem xinLost_running {s : State} (hok : s.clk.xinOk = true) (hrun : s.pwr.reset = .running) :
    s.xinLost = (s.withClk { s.clk with xinOk := false }).xinFails 1 := by
  unfold State.xinLost
  rw [hok]
  dsimp only
  rw [hrun]
  rfl

theorem exec_xinLost {s : State} (hg : s.Good) (hok : s.clk.xinOk = true) (hrco : s.clk.onRco = false) :
    ∃ t, exec .xinLost s = .next t ∧ t.clk.xinOk = false ∧ t.clk.onRco = true ∧ t.clk.failCode = 1
      ∧ ∀ n : Fin 48, xinPll n.val = true → t.clk.pllLock.getLsbD n.val = false := by
  have hstep := xinLost_running hok hg.2.1
  have hcore : s.xinLost.unmet = s.unmet := by
    rw [hstep, xinFails_unmet]
    rfl
  obtain ⟨t, hexec, ht⟩ := actAon_sources hg.2.2 hcore
  obtain ⟨hon, hcode, hxin, hplls⟩ : t.sources.OnRco 1 false := by
    rw [ht, hstep]
    exact xinFails_sources (s := s.withClk { s.clk with xinOk := false }) hrco 1
  exact ⟨t, hexec, hxin, hon, hcode, hplls⟩

/-! ### The host reference clocks (R548) -/

/-- A command whose effect leaves a calm state does that and nothing else. -/
theorem act_of_calm {s : State} {f : State → State} (hrun : s.pwr.reset = .running) (h : (f s).calm = true) : act f s = .next (s.run f) := by
  simp only [act, runOk, State.run, hrun, beq_self_eq_true, if_true, after_of_calm h]

theorem linkUp_of_unnoticed {s t : State} (h : t.unnoticed = s.unnoticed) (n : Fin 4) : (t.ports[n.val]).linkUp = (s.ports[n.val]).linkUp := by
  have hports : t.ports.map Port.uncharged = s.ports.map Port.uncharged := (congrArg State.ports h :)
  have hport : (t.ports[n.val]).uncharged = (s.ports[n.val]).uncharged := by
    simpa only [Vector.getElem_map] using congrArg (fun v => v[n.val]) hports
  exact (congrArg Port.linkUp hport :)

theorem clkFail_linkUp (s : State) (code : Nat) (n : Fin 4) : ((s.clkFail code).ports[n.val]).linkUp = (s.ports[n.val]).linkUp := by
  unfold State.clkFail State.raiseAll
  exact (linkUp_of_unnoticed (raise_unnoticed ..) n).trans rfl

theorem pllLost_core {n : Nat} (h : ¬ (8 ≤ n ∧ n ≤ 15)) (s : State) : (s.pllLost n).core = s.core := by
  cases hlock : s.clk.pllLock.getLsbD n
  · rw [pllLost_unlocked hlock]
  · rw [pllLost_locked hlock, if_neg h]
    exact pllCoasts_core s n

/-- The state in which the link of a port whose reference clock is lost goes down. -/
def State.refLost (s : State) (n : Fin 4) : State := (s.withClk { s.clk with refclkOk := putB s.clk.refclkOk n.val false }).pllLost (36 + n.val)

theorem refclkLost_ok {s : State} {n : Fin 4} (h : s.clk.refclkOk.getLsbD n.val = true) :
    s.refclkLost n = ((s.refLost n).portDown n).clkFail (0x10 + n.val) := by
  rw [State.refclkLost, if_neg (by rw [h]; exact Bool.false_ne_true)]
  rfl

theorem exec_refclkLost {s : State} {n : Fin 4} (hg : s.Good) (h : s.clk.refclkOk.getLsbD n.val = true) :
    ∃ t, exec (.refclkLost n) s = .next t ∧ t.clk.refclkOk.getLsbD n.val = false ∧ (t.ports[n.val]).linkUp = false ∧ t.clk.failCode = 0x10 + n.val := by
  have hcalm : (s.refLost n).calm = true :=
    (calm_of_core ((pllLost_core (by omega) _).trans (withClk_core ..))).trans hg.2.2
  have hend : (s.refclkLost n).calm = true := by
    rw [refclkLost_ok h, calm_of_core (clkFail_core ..)]
    exact portDown_calm hcalm n
  obtain ⟨lock, coast, hplls, -⟩ := pllLost_sources (s.withClk { s.clk with refclkOk := putB s.clk.refclkOk n.val false }) (36 + n.val)
  have hsources : (s.refclkLost n).sources = { (s.refLost n).sources with failCode := 0x10 + n.val } := by
    rw [refclkLost_ok h, clkFail_sources, portDown_sources]
  have hok : (s.refclkLost n).clk.refclkOk = putB s.clk.refclkOk n.val false := by
    have hlost : (s.refLost n).clk.refclkOk = putB s.clk.refclkOk n.val false := (congrArg Clk.refclkOk hplls :)
    exact (congrArg Clk.refclkOk hsources).trans hlost
  refine ⟨_, act_of_calm hg.2.1 hend, ?_, ?_, (congrArg Clk.failCode hsources :)⟩
  · rw [run_clk, hok]
    exact getLsbD_putB_same _ n.isLt false
  · have hports : ((s.refclkLost n).ports[n.val]).linkUp = false := by
      rw [refclkLost_ok h, clkFail_linkUp, portDown_linkUp]
    exact hports

/-! ### Forced switches (R557) -/

theorem exec_switchForceTimeout {s : State} (hg : s.Good) (i : Fin 45) :
    ∃ t, exec (.switchForceTimeout i) s = .next t ∧ t.clk.forced = satInc s.clk.forced ∧ t.outs = s.outs := by
  have hsources : (s.switchForced i.val).sources = { s.sources with forced := satInc s.clk.forced } := (raise_sources ..).trans rfl
  have houts : (s.switchForced i.val).outs = s.outs := (outs_of_unnoticed (raise_unnoticed ..)).trans rfl
  exact ⟨_, act_steady hg.2 (switchForced_core ..), (congrArg Clk.forced hsources :), houts⟩

/-! ### PLL_REFERENCE_LOST and PLL_RELOCK (R551, R553) -/

theorem exec_pllReferenceLost {s : State} {n : Fin 48} (hg : s.Good) (h : s.clk.pllLock.getLsbD n.val = true) :
    ∃ t, exec (.pllReferenceLost n) s = .next t ∧ t.clk.pllLock = putB s.clk.pllLock n.val false ∧ t.clk.pllCoast = putB s.clk.pllCoast n.val true := by
  obtain ⟨t, hexec, ht⟩ := act_sources (f := fun s => s.pllLost n.val) hg.2 (pllLost_unmet s n.val)
  have hsources : t.sources = s.sources.coasts n.val := ht.trans (pllLost_locked_sources h)
  exact ⟨t, hexec, (congrArg Clk.pllLock hsources :), (congrArg Clk.pllCoast hsources :)⟩

theorem uncoastOut_sources (s : State) (o : Fin 8) : (s.uncoastOut o).sources = s.sources := by
  unfold State.uncoastOut
  split <;> rfl

theorem pllRelock_sources {s : State} {n : Nat} (h : s.clk.pllCoast.getLsbD n = true) (hx : xinPll n = false ∨ s.clk.onRco = false) :
    (s.pllRelock n).sources.pllLock = putB s.clk.pllLock n true ∧ (s.pllRelock n).sources.pllCoast = putB s.clk.pllCoast n false := by
  unfold State.pllRelock
  rw [h, if_neg (by rcases hx with hx | hx <;> simp [hx])]
  extract_lets c1 s1 c2 s2
  have h2 : s2.sources.pllLock = putB s.clk.pllLock n true ∧ s2.sources.pllCoast = putB s.clk.pllCoast n false := by
    unfold s2
    split <;> exact ⟨rfl, rfl⟩
  clear_value s2
  split
  · rw [uncoastOut_sources]
    exact h2
  · exact h2

theorem exec_pllRelock {s : State} {n : Fin 48} (hg : s.Good) (h : s.clk.pllCoast.getLsbD n.val = true) (hx : xinPll n.val = false ∨ s.clk.onRco = false) :
    ∃ t, exec (.pllRelock n) s = .next t ∧ t.clk.pllLock = putB s.clk.pllLock n.val true ∧ t.clk.pllCoast = putB s.clk.pllCoast n.val false :=
  ⟨_, act_steady hg.2 (pllRelock_core ..), pllRelock_sources h hx⟩

/-! ### The monitor (R545, R546) -/

/-- While the monitor watches XIN, a window before the tracked count stands adds to its sum. -/
theorem monitorWindow_forms {s : State} (count : Nat) (refs : Vector Nat 4) (hrco : s.clk.rcoFail = false) (hok : s.clk.xinOk = true)
    (h : s.clk.monWindows < 64) : s.monitorWindow count refs = s.withClk { s.clk with
      monCount := count, monSum := s.clk.monSum + count, monWindows := s.clk.monWindows + 1, monTracking := s.clk.monWindows == 63
      monTrack := if s.clk.monWindows = 63 then (s.clk.monSum + count) * 256 / 64 else s.clk.monTrack } := by
  unfold State.monitorWindow
  rw [hrco, hok]
  dsimp only
  rw [if_neg (by simp), if_pos h]
  rfl

/-- How far a window is from the tracked count, in 256ths of a cycle. -/
def Clk.gap (c : Clk) (count : Nat) : Int := ((count * 256 : Nat) : Int) - (c.monTrack : Int)

/-- The clocks once a window has moved the tracked count. -/
def Clk.tracked (c : Clk) (count : Nat) : Clk :=
  { c with
    monCount := count
    monTrack := ((c.monTrack : Int) + c.gap count / 64).toNat, monBad := b2n (decide (c.monTrack < (c.gap count).natAbs * 100) && c.monBad == 0) }

theorem monitorWindow_tracks {s : State} (count : Nat) (refs : Vector Nat 4) (hrco : s.clk.rcoFail = false) (hok : s.clk.xinOk = true)
    (h : 64 ≤ s.clk.monWindows) : s.monitorWindow count refs =
      if s.clk.monBad = 0 ∨ s.clk.onRco ∨ s.pwr.reset ≠ .running then s.withClk (s.clk.tracked count)
      else if (s.withClk (s.clk.tracked count)).refsAgree count refs then (s.withClk (s.clk.tracked count)).rcoFaulty
      else (s.withClk (s.clk.tracked count)).xinFails 2 := by
  unfold State.monitorWindow
  rw [hrco, hok]
  dsimp only
  rw [if_neg (by simp), if_neg (Nat.not_lt.2 h)]
  rfl

theorem monitorWindow_judges {s : State} (count : Nat) (refs : Vector Nat 4) (hrun : s.pwr.reset = .running) (hrco : s.clk.rcoFail = false)
    (hok : s.clk.xinOk = true) (h : 64 ≤ s.clk.monWindows) (hbad : s.clk.monBad ≠ 0) (hon : s.clk.onRco = false) : s.monitorWindow count refs =
      if (s.withClk (s.clk.tracked count)).refsAgree count refs then (s.withClk (s.clk.tracked count)).rcoFaulty
      else (s.withClk (s.clk.tracked count)).xinFails 2 := by
  rw [monitorWindow_tracks count refs hrco hok h, if_neg]
  simp [hbad, hon, hrun]

theorem rcoFaulty_sources {s : State} (h : s.clk.rcoFail = false) : (s.rcoFaulty).sources.rcoFail = true ∧ (s.rcoFaulty).sources.aonOnXin = true
    ∧ (s.rcoFaulty).sources.failCode = 3 := by
  unfold State.rcoFaulty
  rw [h, if_neg Bool.false_ne_true, clkFail_sources]
  exact ⟨rfl, rfl, rfl⟩

/-- The reference clocks locked, and those of them near XIN, as the statement counts them. -/
theorem refsAgree_eq (s : State) (count : Nat) (refs : Vector Nat 4) : s.refsAgree count refs =
    decide (((List.range 4).filter fun n => s.clk.pllLock.getLsbD (36 + n)).length
      < 2 * ((List.range 4).filter fun n => s.clk.pllLock.getLsbD (36 + n)
          && decide ((((refs.toList.getD n 0 : Nat) : Int) - 2 * (count : Int)).natAbs * 1000 ≤ 2 * count * 6)).length) := by
  have hrange : List.range 4 = (idx 4).map Fin.val := by decide
  have hget (n : Fin 4) : refs.toList.getD n.val 0 = refs[n.val] := by simp
  unfold State.refsAgree
  rw [hrange]
  simp only [List.filter_map, List.length_map, List.filter_filter, Function.comp_def, hget, refNear]
  simp only [Bool.and_comm]

theorem exec_monitorWindow_judges {s : State} {count : Nat} {refs : Vector Nat 4} (hg : s.Good) (hrco : s.clk.rcoFail = false) (hok : s.clk.xinOk = true)
    (h : 64 ≤ s.clk.monWindows) (hbad : s.clk.monBad ≠ 0) (hon : s.clk.onRco = false) :
    ∃ t, exec (.monitorWindow count refs) s = .next t ∧ (if s.refsAgree count refs then t.clk.rcoFail = true ∧ t.clk.aonOnXin = true
      else t.clk.onRco = true ∧ t.clk.failCode = 2) := by
  have hstep := monitorWindow_judges count refs hg.2.1 hrco hok h hbad hon
  have hsame : (s.withClk (s.clk.tracked count)).refsAgree count refs = s.refsAgree count refs := rfl
  rw [hsame] at hstep
  by_cases hagree : s.refsAgree count refs = true
  case pos =>
    rw [if_pos hagree] at hstep
    have hcore : (s.monitorWindow count refs).core = s.core := by
      rw [hstep, rcoFaulty_core]
      rfl
    obtain ⟨hfail, haon, -⟩ := rcoFaulty_sources (s := s.withClk (s.clk.tracked count)) hrco
    rw [← hstep] at hfail haon
    exact ⟨_, actAon_calm hg.2.2 hcore, by rw [if_pos hagree]; exact ⟨hfail, haon⟩⟩
  case neg =>
    rw [if_neg hagree] at hstep
    have hcore : (s.monitorWindow count refs).unmet = s.unmet := by
      rw [hstep, xinFails_unmet]
      rfl
    obtain ⟨t, hexec, ht⟩ := actAon_sources (f := fun s => s.monitorWindow count refs) hg.2.2 hcore
    obtain ⟨hrcoOn, hcode, -, -⟩ : t.sources.OnRco 2 s.clk.xinOk := by
      rw [ht, hstep]
      exact xinFails_sources (s := s.withClk (s.clk.tracked count)) hon 2
    exact ⟨t, hexec, by rw [if_neg hagree]; exact ⟨hrcoOn, hcode⟩⟩

/-! ### RCO stopped (R555) -/

theorem resetCold_core (s : State) : s.resetCold.core = State.reset.core := rfl

theorem exec_rcoStopped {s : State} (hg : s.Good) (hon : s.clk.onRco = false) (hrco : s.clk.rcoFail = false) :
    ∃ t, exec .rcoStopped s = .next t ∧ t.clk.rcoFail = true ∧ t.clk.aonOnXin = true ∧ t.clk.failCode = 3 ∧ t.pwr.reset = .running := by
  have hstep : s.rcoStop = s.rcoFaulty := by
    unfold State.rcoStop
    rw [hg.2.1, hon]
    rfl
  have hcore : s.rcoStop.core = s.core := by rw [hstep, rcoFaulty_core]
  obtain ⟨hfail, haon, hcode⟩ := rcoFaulty_sources hrco
  rw [← hstep] at hfail haon hcode
  exact ⟨_, actAon_calm hg.2.2 hcore, hfail, haon, hcode, (reset_of_core hcore).trans hg.2.1⟩

theorem run_reset (s : State) (f : State → State) : (s.run f).pwr.reset = (f s).pwr.reset := rfl

/-- With RCO the device's clock already, no clock is left. -/
theorem exec_rcoStopped_dead {s : State} (hreset : s.pwr.reset = .running ∨ s.pwr.reset = .warm ∨ s.pwr.reset = .tripped) (hon : s.clk.onRco = true) :
    ∃ t, exec .rcoStopped s = .next t ∧ t.pwr.reset = .dead := by
  have hstop : s.rcoStop.core = { State.reset.core with reset := .dead } := by
    unfold State.rcoStop
    rcases hreset with hreset | hreset | hreset <;> rw [hreset, hon] <;> rfl
  have hcalm : s.rcoStop.calm = true := by
    exact (calm_of_core (s := { State.reset with pwr := { State.reset.pwr with reset := .dead } }) hstop).trans reset_good.2.2
  have hdead : s.rcoStop.pwr.reset = .dead := (congrArg Core.reset hstop :)
  refine ⟨_, rfl, ?_⟩
  rw [run_reset]
  dsimp only
  rw [after_of_calm hcalm, hdead]

/-- Settles O33: each clock source's command by what it leaves of the sources. -/
theorem clocksAndPlls : Obligations.ClocksAndPlls := by
  unfold Obligations.ClocksAndPlls
  refine ⟨fun s hg => ⟨fun hok => ?_, exec_xinLost hg, fun n => exec_refclkLost hg, exec_switchForceTimeout hg⟩,
    fun s count refs hg hrco hok => ⟨fun h => ?_, fun h => ?_, fun h hbad hnear => ?_, fun h hbad hon haon => ?_⟩,
    fun s n hg => ⟨exec_pllReferenceLost hg, exec_pllRelock hg, fun h hx hon => ?_⟩, fun s hg => exec_rcoStopped hg,
    fun s _ hreset hon => exec_rcoStopped_dead hreset hon⟩
  · exact actAon_withClk hg (if_neg (by simp [hok, hg.2.1]))
  · have hforms := monitorWindow_forms count refs hrco hok (Nat.lt_succ_of_lt h)
    rw [if_neg (Nat.ne_of_lt h), beq_eq_false_iff_ne.2 (Nat.ne_of_lt h)] at hforms
    exact actAon_withClk hg hforms
  · have hforms := monitorWindow_forms count refs hrco hok (by omega)
    rw [h] at hforms
    exact actAon_withClk hg hforms
  · have htracks := (monitorWindow_tracks count refs hrco hok h).trans (if_pos (.inl hbad))
    have hgood : decide (s.clk.monTrack < (s.clk.gap count).natAbs * 100) = false := decide_eq_false (Nat.not_lt.2 hnear)
    rw [Clk.tracked, hgood] at htracks
    exact actAon_withClk hg htracks
  · obtain ⟨t, hexec, ht⟩ := exec_monitorWindow_judges (refs := refs) (count := count) hg hrco hok h hbad hon
    refine ⟨t, hexec, ?_⟩
    simp only [refsAgree_eq, decide_eq_true_eq] at ht
    exact ht
  · exact plain hg (if_pos (by simp [hx, hon])) rfl rfl rfl rfl

end Sys2Proof.Machine
end
